-- ==== Sys2Proof/Word.lean ====
section
/-! DEFINITION. The word types of the model and their plainest arithmetic: bytes, words, and the cutting of fields out of
numbers and of byte lists. -/
namespace Sys2Proof

/-- One byte. -/
abbrev Byte := BitVec 8
/-- A 32-bit word. -/
abbrev W32 := BitVec 32
/-- A 64-bit word: the width of every register of the part (R566). -/
abbrev W64 := BitVec 64

/-- The field of `n` bits that starts at bit `lo` of a number. -/
def field (w lo n : Nat) : Nat := (w >>> lo) % 2 ^ n

/-- Bit `i` of a number. -/
def bit (w i : Nat) : Bool := (w >>> i) % 2 == 1

/-- `n` bits at `lo` of `w` replaced by `v`. -/
def withField (w lo n v : Nat) : Nat :=
  w - (field w lo n) * 2 ^ lo + (v % 2 ^ n) * 2 ^ lo

/-- A number read as a two's complement value of `n` bits. -/
def signedOf (n v : Nat) : Int :=
  if v < 2 ^ (n - 1) then (v : Int) else (v : Int) - 2 ^ n

/-- A value written as a two's complement number of `n` bits. -/
def unsignedOf (n : Nat) (v : Int) : Nat := (v % (2 ^ n : Int)).toNat

/-- Bytes, lowest address first, read as a little-endian number. -/
def leNat : List Byte → Nat
  | [] => 0
  | b :: bs => b.toNat + 256 * leNat bs

/-- The `n` little-endian bytes of a number. -/
def leBytes : Nat → Nat → List Byte
  | 0, _ => []
  | n + 1, v => BitVec.ofNat 8 v :: leBytes n (v / 256)

/-- `n` bytes of a list from an offset; bytes past the end read 0. -/
def sliceBytes (l : List Byte) (off n : Nat) : List Byte :=
  (List.range n).map fun i => l.getD (off + i) 0

/-- A little-endian number of `n` bytes at an offset of a byte list. -/
def leAt (l : List Byte) (off n : Nat) : Nat := leNat (sliceBytes l off n)

/-- Division rounded up. -/
def ceilDiv (a b : Nat) : Nat := (a + b - 1) / b

/-- `v` rounded up to a multiple of `b`. -/
def roundUp (v b : Nat) : Nat := ceilDiv v b * b

/-- The bits of a number that are set, ascending, below `n`. -/
def bitsOf (n w : Nat) : List Nat := (List.range n).filter fun i => bit w i

end Sys2Proof
end

