-- ==== Sys2Proof/Syntax.lean ====
section
/-! DEFINITION. The commands of the block: one constructor of Instr for each row of spec/opcode_table.json, with the
operands each row takes, and the records those operands are made of. Instance numbers (cores, towers, ports, ...) are Fin
types, so a command cannot name an instance that the part does not have; lengths are checked in WellFormed. -/
namespace Sys2Proof

/-- A half of the part (R17). -/
inductive Half where
  | west
  | east
  deriving DecidableEq, Repr

/-- The executing units of a core, numbered as the UNIT field of a cue (R107). -/
inductive ExecUnit where
  | array | vector | function | attention | storeDma | dramDma | nearBank
  deriving DecidableEq, Repr

/-- A fabric packet (R400). LEN is the payload's length in bytes. `poison` lists the payload codewords, by index, that
arrived in poisoned form. -/
structure Packet where
  dest : BitVec 16
  src : BitVec 16
  kind : BitVec 8
  cls : BitVec 8
  hops : BitVec 8
  gen : BitVec 8
  tag : BitVec 16
  landing : BitVec 16
  addr : BitVec 64
  stamp : BitVec 48
  payload : List Byte
  poison : List Nat
  deriving DecidableEq, Repr

/-- A clapper message (R318). -/
structure ClapperMsg where
  hops : BitVec 8
  periodUs : BitVec 16
  epoch : BitVec 32
  master : BitVec 64
  tick : BitVec 48
  ttt : BitVec 32
  deriving DecidableEq, Repr

/-- A request to a DRAM channel (R237, R238): an aligned line or codeword address, the codewords it covers, and for a write the
bytes and which of them are written. `src` orders requests of one clock (R242): 0 own core, 1 + c another core, 25 the core port,
26 the service plane. `small` marks a service-plane, host or fabric access that takes the narrow path (R238). -/
structure DramReq where
  write : Bool
  addr : BitVec 48
  len : Nat
  data : List Byte
  mask : List Bool
  poison : Bool
  src : Nat
  small : Bool
  deriving DecidableEq, Repr

/-- What the energy counters and input monitors measured in the frame that a tick ends (R330, R489), in µJ. -/
structure TickMeas where
  towers : List Nat
  input : Nat
  deriving DecidableEq, Repr

/-- The readings of one conversion (R454), as (index, 16-bit reading) pairs; a sensor that is not listed reads as before.
Tower sensors have index 112 t + i, base-die sensors 0 to 127, lid sensors 0 to 7, pressures in 0.1 kPa. -/
structure SensorSample where
  towers : List (Nat × BitVec 16)
  base : List (Nat × BitVec 16)
  lid : List (Nat × BitVec 16)
  press : Option (BitVec 16 × BitVec 16)
  board : Option (BitVec 16)
  deriving DecidableEq, Repr

/-- One eye measurement of a guard-band re-check (R371): tower, group, and the distances in taps from tap 0 to the two edges. -/
structure EyeMeas where
  tower : Fin 20
  group : Nat
  lo : Nat
  hi : Nat
  deriving DecidableEq, Repr

/-- What a group of vertical connections serves (R366): the through path of a column site, tower control or the service plane, a core
position's array-to-vector signals, or a DRAM channel. -/
inductive GroupUse where
  | path (site : Fin 24)
  | control
  | position (p : Fin 26)
  | channel (site : Fin 24) (ch : Fin 8)
  deriving DecidableEq, Repr

/-- A group of vertical connections in which the test of R367 found newly failing ones: tower, group number, use, and the connections, 0
to 33. -/
structure GroupReport where
  tower : Fin 20
  group : Nat
  use : GroupUse
  failing : List Nat
  deriving DecidableEq, Repr

/-- What the physical tests of a start-up phase found (R498, R500): the facts that the silicon, not the model, decides. -/
structure PhaseReport where
  phase : Nat
  /-- phases 2 and 5: what the base-die and lid sensors, and the sensors of the towers, read -/
  sense : SensorSample := { towers := [], base := [], lid := [], press := none, board := none }
  /-- phase 2: the bridge modules whose sideband trained -/
  sideband : List (Fin 28) := []
  /-- phase 3: the flash answered -/
  flashOk : Bool
  /-- phase 3: the service image as the east fetched it, where it differs from what the west read -/
  eastImage : Option (List Byte) := none
  /-- phase 4: failing lines of physical store slices, west and east: (slice, line) -/
  badSlicesW : List (Nat × Nat)
  badSlicesE : List (Nat × Nat)
  /-- phase 4: base network or base-die IVR self-test failed -/
  baseBad : Bool
  /-- phase 4: width each bridge module trained at: 0 down, 1 or 2 x32, 3 x64 -/
  modules : List (BitVec 2)
  /-- phase 4: lanes of bridge modules that failed at the training: (module, whether west to east, lane) -/
  bridgeLanes : List (Fin 28 × Bool × Nat)
  /-- phase 4: trained latency L of R377 -/
  latency : Nat
  /-- phase 4: IVR phases that failed: 18 t + p of a tower, 360 + 64 h + p of a base die -/
  badPhases : List Nat
  /-- phase 4: LPDDR6 channels that failed training, and those with a bit that fails the march test -/
  badLpd : List Nat
  badLpdBits : List Nat := []
  /-- phase 5: towers that stay dark for a cause of R19 or R253 -/
  darkTowers : List Nat
  /-- phase 5: digests that a tower's supervisor computed of the images it fetched, one an attempt; a tower not named fetched right -/
  supervisors : List (Fin 20 × List (List Byte)) := []
  /-- phase 5: failing DRAM rows: (site, channel, visible bank, row) -/
  badRows : List (Nat × Nat × Nat × Nat)
  /-- phase 5: failing rows of spare banks: (site, channel, spare, row) -/
  badSpares : List (Nat × Nat × Nat × Nat)
  /-- phase 5: groups with newly failing vertical connections -/
  groups : List GroupReport
  /-- phase 5: the data eyes that the sweeps of the crossings found -/
  eyes : List EyeMeas
  /-- phase 5: sensors found failed by the retest of R462: (group, index) -/
  badSensors : List (Nat × Nat)
  /-- phase 6: core positions that failed the array self-test: 26 t + p -/
  badPositions : List Nat
  /-- phase 6: digests that a position, 26 t + p, computed of the copies it received, one an attempt; a position not named received right -/
  copies : List (Nat × List (List Byte)) := []
  /-- phase 7: fabric ports whose partner answered: (port, newly failing lanes with 8 for LS, delay) -/
  ports : List (Nat × List Nat × Nat)
  /-- phase 7: durations of the seven phases in µs -/
  durations : List Nat
  deriving DecidableEq, Repr

/-- A readout of a capacity-memory device (R439, R445): which device of its channel, and its temperature in °C. -/
structure LpdReadout where
  device : Nat
  temp : BitVec 8
  deriving DecidableEq, Repr

/-- A scan that selects BYPASS (R540): the code shifted into the instruction register, and the bit shifted through the data register. -/
structure BypassScan where
  code : BitVec 8 := 0xFF
  bit : Bool
  deriving DecidableEq, Repr

/-- A host-side reset of the function (R438, R490). -/
inductive HostResetKind where
  | flr | hotReset | linkDown | perst
  deriving DecidableEq, Repr

/-- A register block that carries a flip mask (R304, R422, R452). -/
inductive FlipBlock where
  | core (c : Fin 480)
  | store (h : Half)
  | fabric
  | host
  deriving DecidableEq, Repr

/-- A log (R305, R554). -/
inductive LogId where
  | tower (t : Fin 20)
  | half (h : Half)
  deriving DecidableEq, Repr

/-- A scrubber's next access (R301): a DRAM channel of a column site, a store slice, or a capacity-memory channel. -/
inductive ScrubWho where
  | dram (site : Fin 480) (ch : Fin 8)
  | store (h : Half) (slice : Fin 256)
  | lpd (ch : Fin 12)
  deriving DecidableEq, Repr

/-- What an idle memory channel belongs to (R255, R439): a column site, with channels 0 to 7, or capacity memory, with channels 0 to 11. -/
inductive IdleSite where
  | column (k : Fin 480)
  | capacity
  deriving DecidableEq, Repr

/-- How a host completion for a DMA engine's read ended (R435). -/
inductive HostCplStatus where
  | ok | okPoisoned | ur | ca
  deriving DecidableEq, Repr

/-- What a fabric lane failure report says of the lanes of the port (R398, R399): the failing lane. -/
abbrev Lane := Fin 9

/-- A configuration request (R425): a read or a write of a configuration register by its dword number. -/
structure ConfigReq where
  write : Bool
  dword : Nat
  value : BitVec 32
  deriving DecidableEq, Repr

/-- The answer of a tower's rejoin sequence (R371, R381): whether it succeeded, and the eyes of the crossing groups that it swept. -/
structure RejoinReport where
  ok : Bool
  eyes : List EyeMeas
  deriving DecidableEq, Repr

/-- The commands: the rows of spec/opcode_table.json in the table's order. -/
inductive Instr where
  -- cue engines (R73 to R92): the logical core (24 × tower + core) whose engine acts
  | cueIssue (c : Fin 480)
  | wait (c : Fin 480)
  | holdRelease (c : Fin 480)
  | sigLocal (c : Fin 480)
  | sigRemote (c : Fin 480)
  | signalDelivery (k : Nat)
  | fence (c : Fin 480)
  | loop (c : Fin 480)
  | jump (c : Fin 480)
  | endFrame (c : Fin 480)
  | endFrameComplete (c : Fin 480)
  | descWrite (c : Fin 480)
  | nop (c : Fin 480)
  -- matrix array
  | matrix (c : Fin 480)
  | tileUnload (c : Fin 480)
  | rampUpStep (c : Fin 480)
  | drainEnd (c : Fin 480)
  | rampDownStep (c : Fin 480)
  -- vector unit
  | convert (c : Fin 480)
  | add (c : Fin 480)
  | sub (c : Fin 480)
  | mul (c : Fin 480)
  | fma (c : Fin 480)
  | max (c : Fin 480)
  | min (c : Fin 480)
  | rsum (c : Fin 480)
  | rmax (c : Fin 480)
  | rsumsq (c : Fin 480)
  | quantMx (c : Fin 480)
  | treeSum (c : Fin 480)
  -- function unit
  | exp2 (c : Fin 480)
  | log2 (c : Fin 480)
  | recip (c : Fin 480)
  | rsqrt (c : Fin 480)
  | silu (c : Fin 480)
  | gelu (c : Fin 480)
  -- attention unit
  | attend (c : Fin 480)
  | finish (c : Fin 480)
  | append (c : Fin 480)
  | evict (c : Fin 480)
  | probe (c : Fin 480)
  | acquire (c : Fin 480)
  | insert (c : Fin 480)
  | remove (c : Fin 480)
  | release (c : Fin 480)
  -- DMA units
  | storeDmaRead (c : Fin 480)
  | storeDmaWrite (c : Fin 480)
  | send (c : Fin 480)
  | dramDmaRead (c : Fin 480)
  | dramDmaWrite (c : Fin 480)
  | gather (c : Fin 480)
  -- near-bank unit: the issuing core
  | copy (c : Fin 480)
  | fill (c : Fin 480)
  | and (c : Fin 480)
  | or (c : Fin 480)
  | xor (c : Fin 480)
  | not (c : Fin 480)
  | nbAdd (c : Fin 480)
  | nbSub (c : Fin 480)
  | nbMul (c : Fin 480)
  | nbFma (c : Fin 480)
  | scale (c : Fin 480)
  | resadd (c : Fin 480)
  | sumsq (c : Fin 480)
  | normApply (c : Fin 480)
  | actTable (c : Fin 480)
  | nbConvert (c : Fin 480)
  | quantFp8 (c : Fin 480)
  | adamw (c : Fin 480)
  | nbStepStart (site : Fin 480) (ch : Fin 8) (bank : Fin 48)
  | nbStepEnd (site : Fin 480) (ch : Fin 8) (bank : Fin 48)
  | nbFenceReq (t : Fin 20)
  -- central store and base network: transactions by half and tag (bits [14:0])
  | storeRead (h : Half) (tag : BitVec 15)
  | storeWrite (h : Half) (tag : BitVec 15)
  | storeResponse (h : Half) (tag : BitVec 15) (gen : BitVec 4)
  | storeTagTimeout (h : Half) (tag : BitVec 15)
  | storeTagRelease (h : Half) (tag : BitVec 15)
  | mcastCatchup (h : Half) (member : Fin 240)
  | mergeExpiry (h : Half) (slice : Fin 256)
  | scrubAccess (who : ScrubWho)
  -- tower memory
  | dramRequest (site : Fin 480) (ch : Fin 8) (req : DramReq)
  | burstGrant (site : Fin 480) (ch : Fin 8)
  | refreshDue (site : Fin 480) (ch : Fin 8) (bank : Fin 52)
  | rowTimeout (site : Fin 480) (ch : Fin 8) (bank : Fin 48)
  | selfRefreshIdle (site : IdleSite) (ch : Fin 12)
  | bankCopy (site : Fin 480) (ch : Fin 8) (bank : Fin 48)
  -- frames, clapper, gaffers
  | tick (meas : TickMeas)
  | samplingPoint
  | gafferResults
  | gafferOutcome
  | guardBandStart (eyes : List EyeMeas)
  | guardForce
  | clapper (port : Fin 16) (msg : ClapperMsg) (early : Int)
  | holdoverEntry
  | holdoverExpiry
  | payloadLanded (landing : Fin 512) (stamp : BitVec 48) (bytes : Nat)
  | flowStale
  | flowOkSample (level : Bool)
  | survivalExit
  -- continuity
  | contExchange (fingerprint : List Byte) (digest : List Byte)
  | contOutcome (n : BitVec 48) (pass : Bool)
  | contOutcomeMissing
  | contSignatures (n : BitVec 48) (sigs : List (Nat × BitVec 64))
  | contCompareLate
  -- mailbox commands and saving: arguments stand in HST_MBX_ARG0 to HST_MBX_ARG3
  | saveDrain
  | drainDone
  | saveCapture
  | resume
  | reelLoad
  | takeStart
  | takeStop
  | towerRejoin
  | arrayReset
  | reroute
  | stop
  | calRead
  | calWrite
  | attest
  -- half bridge: module and direction (true: west to east)
  | bridgeFlit (m : Fin 28) (toEast : Bool) (flit : List Byte)
  | bridgeReplayTimeout (m : Fin 28) (toEast : Bool)
  | bridgeRetrain (m : Fin 28) (failTx failRx : List (Fin 64)) (cleanLo cleanHi : Bool)
  | elasticLimit (m : Fin 28)
  | halfLoss (h : Half)
  | towerLoss (towers : BitVec 20)
  -- fabric
  | fabFlit (port : Fin 16) (flit : List Byte)
  | fabReplayTimeout (port : Fin 16)
  | data (port : Fin 16) (pkt : Packet)
  | coll (port : Fin 16) (pkt : Packet)
  | ack (port : Fin 16) (pkt : Packet)
  | packetForward (port : Fin 16) (pkt : Packet)
  | packetAged (port : Fin 16) (pkt : Packet)
  | fabTagTimeout (port : Fin 16) (tag : BitVec 12)
  | fabTagRelease (port : Fin 16) (tag : BitVec 12)
  | beacon (port : Fin 16) (payload : List Byte)
  | beaconSend (port : Fin 16)
  | election
  | topo (port : Fin 16) (pkt : Packet)
  | routeDelivery
  | assign (port : Fin 16) (pkt : Packet)
  | route (port : Fin 16) (pkt : Packet)
  | commit (port : Fin 16) (pkt : Packet)
  | partnerAbsent (port : Fin 16)
  | partnerAppear (port : Fin 16) (failing : List Lane) (delay : BitVec 16)
  | laneFailure (port : Fin 16) (lane : Lane)
  | portSilent (port : Fin 16)
  | delayEcho (port : Fin 16) (delay : BitVec 16)
  | combine (engine : Fin 8)
  -- host port
  | configRequest (req : ConfigReq)
  | hostRead (bar : Nat) (off len : Nat)
  | hostWrite (bar : Nat) (off : Nat) (bytes : List Byte) (ep : Bool)
  | doorbellWrite (off len : Nat)
  | doorbellIncrement
  | msixUnmask (vector : Fin 2048)
  | dmaRun (e : Fin 8)
  | dmaClear (e : Fin 8)
  | dmaDescriptorStart (e : Fin 8)
  | dmaDescriptorComplete (e : Fin 8)
  | d3hotEntry
  | d0Entry
  | hostReset (kind : HostResetKind)
  | perstRelease
  -- capacity memory
  | capacityAccess (write : Bool) (addr : BitVec 48) (len : Nat) (bytes : List Byte)
  | lpddrRefresh (ch : Fin 12) (bank : Fin 16)
  | lpddrTempReadout (ch : Fin 12) (temp : LpdReadout) (fast : Bool)
  -- management port
  | setEndpointId (eid : Byte)
  | getEndpointId
  | getMctpVersionSupport (msgType : Byte)
  | getMessageTypeSupport
  | getTid
  | getPldmVersion (pldmType : Byte)
  | getPldmTypes
  | getPldmCommands (pldmType : Byte)
  | getPdr (record : BitVec 32)
  | getSensorReading (sensor : BitVec 16)
  | getStateSensorReadings (sensor : BitVec 16)
  | setNumericEffecterValue (effecter : BitVec 16) (value : BitVec 32)
  | getNumericEffecterValue (effecter : BitVec 16)
  | pollForPlatformEventMessage
  -- temperature and power
  | sensorConversion (sample : SensorSample)
  | towerModelStep (t : Fin 20) (energy : Nat)
  | throttleHoldFail (layer : Nat)
  | wearSample (t : Fin 20)
  | powerGood
  | resetRelease
  | coldReset
  | deviceReset
  | svcReset (key : BitVec 16)
  | powerLoss
  | tapReset
  | phaseFailure (t : Fin 20) (phase : Fin 18)
  | cpmSample (t : Fin 20) (margin : BitVec 8)
  | inputMonitorSample (mv : BitVec 16 × BitVec 16) (deciAmp : BitVec 16 × BitVec 16)
  -- start-up and slate
  | startUpPhase (report : PhaseReport)
  | slateWriteRetry
  | deferredTowerLight (t : Fin 20)
  | abortComplete
  | rollbackAdvance (key : BitVec 16)
  | fuseStepBlown (blown : BitVec 3)
  | retireAdd (entry : BitVec 64)
  | logClear (log : LogId)
  | flipArm (blk : FlipBlock) (target : BitVec 4) (sel : BitVec 8)
  | flipDisarm (blk : FlipBlock)
  | slateWindowFill (block : BitVec 17)
  -- test access
  | parallelShift (ctl : BitVec 64)
  | extest (eastDie : Bool) (preload : List Bool)
  | samplePreload (eastDie : Bool) (lands : List Bool) (preload : List Bool)
  | idcode (die : Fin 302)
  | extestDw (die : Fin 302) (bits : List Bool)
  | intestDw (die : Fin 302) (bits : List Bool)
  | ijtag (die : Fin 302) (bits : List Bool)
  | config (mask : BitVec 302) (present : BitVec 302)
  | unlock (token : List Byte)
  | bypass (die : Fin 302) (bit : BypassScan)
  -- registers, completions and the rest
  | registerWrite (off : BitVec 29) (value : BitVec 64) (wide : Bool)
  | cueCompletion (c : Fin 480) (unit : ExecUnit)
  | nextListArrival (c : Fin 480)
  | hostCompletion (e : Fin 8) (status : HostCplStatus)
  | completionTimeout (e : Fin 8)
  | hostLinkUp (rate : BitVec 4) (width : BitVec 5)
  | powerReturn
  | resetNRelease
  | mailboxComplete
  | rejoinEnd (t : Fin 20) (r : RejoinReport)
  | slateWriteEnd
  | windowFilled
  | parallelShiftDone (captured : BitVec 64)
  | baseDieFault (h : Half)
  deriving DecidableEq, Repr

end Sys2Proof
end

