-- ==== Sys2Proof/Config.lean ====
section
/-! DEFINITION. What one part fixes once and what spec/ leaves open: the fuse values of the modelled part, and the free values,
which are opaque constants without a body, so that no statement can rest on their values (log entries 2, 5, 7, 8). -/
namespace Sys2Proof.Config

/-- VARIANT of the modelled part (R4, R568): 0 DN5-480. The three variants differ in fuses only (log entry 2). -/
def fuseVariant : Nat := 0

/-- The fuse identity of R409 (log entry 2). -/
def fuseIdentity : BitVec 64 := 1

/-- The key digest burnt into the fuses (R529; log entry 2). -/
def fuseKeyDigest : BitVec 256 := 0

/-- The identity seed burnt into the fuses (R531; log entry 2). -/
def fuseSeed : BitVec 256 := 0

/-- Whether the test lock fuse is blown (R548; log entry 2). -/
def fuseLock : Bool := true

/-- Free bytes, drawn with a counter of the state: the data of a completion that R429 calls undefined (log entry 5). -/
opaque freeByte : Nat → Byte

/-- Free 16-bit values, drawn with a counter of the state (log entry 5). -/
opaque freeWord : Nat → BitVec 16

/-- Whether a Falcon-1024 signature verifies: public key, message, signature. R525 leaves the scheme to the Falcon
specification, which is no part of spec/ (log entry 7). -/
opaque falconVerify : List Byte → List Byte → List Byte → Bool

/-- A Falcon-1024 signature over a message made with the identity key, for the given draw of the salt (R536; log entry 7). -/
opaque falconSign : List Byte → List Byte → Nat → List Byte

/-- The Falcon-1024 key pair (public, private) that key generation derives from a stream of random bytes, read from byte 0 onward (R532; log
entry 7). -/
opaque falconKeygen : (Nat → Byte) → List Byte × List Byte

/-- Whether the board supplies the rail VDDQ_LP, or ties its lands to GND because no capacity-memory channel is fitted (R478; log entry
195). -/
opaque vddqLp : Bool

/-- What a record of the PDR repository describes, and the unit of its values (R447). -/
inductive PdrKind where
  | numericSensor | stateSensor | numericEffecter
  deriving DecidableEq, Repr

/-- As PdrKind. -/
inductive PdrUnit where
  | watt | ampere | celsius | kilopascal | millilitrePerMinute | none
  deriving DecidableEq, Repr

/-- The record bytes of the PDR of a sensor or effecter: its ID, kind, unit and thresholds. R447 gives those, and leaves the record format to
DSP0248 (log entry 8). -/
opaque pdrRecord : Nat → PdrKind → PdrUnit → List Int → List Byte

/-- The version bytes that GetPLDMVersion and Get MCTP Version Support return for a type (log entry 8). -/
opaque versionBytes : Nat → List Byte

/-- The terminus identifier that GetTID returns; R446 names the command and gives no value (log entry 8). -/
opaque terminusId : Byte

/-- The endpoint identifier held before Set Endpoint ID; spec/ gives none (log entry 8). -/
opaque initialEid : Byte

/-- The JEP106 code assigned to Svawaril (R541 names it and gives no number; log entry 8). -/
opaque jep106 : BitVec 11

/-- Svawaril's PCI Express vendor ID (R424 names it and gives no number; log entry 8). -/
opaque vendorId : BitVec 16

/-- Dword numbers in configuration space of the MSI-X capability, of the power-management status and of the Resizable BAR control
(log entry 33): spec/ names the capabilities (R424) and places none. -/
opaque msixDword : Nat
/-- As msixDword. -/
opaque pmDword : Nat
/-- As msixDword. -/
opaque rebarDword : Nat
/-- As msixDword, of the PCI Express capability. -/
opaque pcieDword : Nat

/-- The value of a configuration register that spec/ does not give (log entry 33): dword, draw. -/
opaque cfgValue : Nat → Nat → BitVec 32

/-- What a die's IEEE 1687 network or IEEE 1838 wrapper register shifts out for what is shifted in (R546, R540: the networks
lie outside spec/; log entry 8): die, instruction, bits in, draw. -/
opaque scanOut : Nat → Nat → List Bool → Nat → List Bool

end Sys2Proof.Config
end

