-- ==== Sys2Proof/Machine/State.lean ====
section
/-! DEFINITION. The state of the block as plain data: a Device, which holds every register, memory, queue, counter, mode and
pin that spec/ gives the part, and the queue of waiting commands. Instances (cores, towers, ports, ...) are held in sparse
maps from an instance number to its record; an unlisted instance stands at its reset record. -/
namespace Sys2Proof.Machine

open Sys2Proof

/-- A sparse map in canonical form: keys strictly rising, no entry equal to what an unlisted key stands for. -/
abbrev SMap (α : Type) := List (Nat × α)

/-- A memory with check bits (R287): bytes by address, unlisted 0; and by codeword number (address div 16) the difference
between the stored check bits and encode(data), unlisted 0 (an intact word). A poisoned word has difference 0x0F0F (R289). -/
structure Memory where
  bytes : List Host.Cell
  syn : List (Nat × BitVec 16)
  deriving DecidableEq, Repr

/-- One codeword held outside a byte memory: 128 data bits and the difference of its check bits. -/
structure Codeword where
  data : BitVec 128
  syn : BitVec 16
  deriving DecidableEq, Repr

/-- A descriptor-table entry (R90, R115): the 256 bits with the generation field cleared, the generation, and the check
differences of its two codewords. -/
structure DescEntry where
  bits : BitVec 256
  gen : BitVec 8
  syn0 : BitVec 16
  syn1 : BitVec 16
  deriving DecidableEq, Repr

/-- The copy of a descriptor that a unit takes with its cue (R75, R114), with the dimension and index fixed by R113. -/
structure DescCopy where
  bits : BitVec 256
  sel : Option (Nat × Nat)
  deriving DecidableEq, Repr

/-- A run of bytes to be moved that lies in one 64 B line of its source and of its destination. With `esz` 0 the bytes lie together
at `dst`; else elements of `esz` bytes lie `step` bytes apart (R58). `scale` marks bytes for a bank's scale store (R60). -/
structure Piece where
  src : Nat
  dst : Nat
  len : Nat
  scale : Bool
  esz : Nat
  step : Nat
  deriving DecidableEq, Repr

/-- Bytes that have been read and wait to be written to device memory: a tag or a place in a channel queue was wanting. `bad`
marks the destination codewords to be written in poisoned form. -/
structure Held where
  addr : Nat
  bytes : List Byte
  bad : List Nat
  deriving DecidableEq, Repr

/-- Where the bytes of a DMA cue come from or go to. -/
inductive Place where
  | device
  | scratch
  | staging
  | bank (b : Nat)
  | scale (b : Nat)
  deriving DecidableEq, Repr

/-- The work left of a started DMA cue: pieces not yet issued, the places, how many issued pieces have not ended, and the
members of a multicast (core numbers). -/
structure DmaWork where
  fromPlace : Place
  toPlace : Place
  todo : List Piece
  held : List Held
  flight : Nat
  members : List Nat
  deriving DecidableEq, Repr

/-- A cue in a unit queue (R73): the cue, its index in the list, the home index of the list (R102), the core's count of issued
cues at its issue, the copies of its descriptors, and for a near-bank cue the copy of its parameter block. -/
structure QCue where
  cue : BitVec 128
  index : Nat
  home : Nat
  order : Nat
  refs : List DescCopy
  param : List Byte
  started : Bool
  done : Bool
  work : Option DmaWork
  tilesFed : Nat
  /-- the cycle in which it reached its unit in cue order (R69) -/
  sent : Nat
  deriving DecidableEq, Repr

/-- An open loop (R82): index of the LOOP cue's first body cue, body length, iteration count, current index. -/
structure LoopLevel where
  start : Nat
  body : Nat
  count : Nat
  idx : Nat
  deriving DecidableEq, Repr

/-- One accumulator cell (R40, R43, R45). -/
structure Cell where
  acc : Int
  anchor : Int
  sat : Bool
  nan : Bool
  deriving DecidableEq, Repr

/-- A tile in an accumulator set (R65, R66), its cells in ascending r and then n. `out` holds the output fields of the cue that
makes it leave: OUTFMT, OUT_SR, STREAM, INT_OUT; `cueOrder` the issue order of that cue, and `last` whether it is that cue's
last tile. -/
structure Tile where
  shape : Nat
  afmt : Nat
  bfmt : Nat
  cells : List Cell
  leaving : Bool
  outFmt : Nat
  outSr : Bool
  stream : Nat
  home : Nat
  cueOrder : Nat
  last : Bool
  deriving DecidableEq, Repr

/-- A tile that has unloaded to the vector unit (R577): format code, extents N and M, element codes in unload order. -/
structure StreamTile where
  fmt : Nat
  n : Nat
  m : Nat
  elems : List Nat
  deriving DecidableEq, Repr

/-- A load of an operand bank: the core whose DMA unit makes it, the unit, and the issue order of its cue. -/
abbrev LoadId := Nat × Nat × Nat

/-- An operand bank (R55): state 0 FREE, 1 LOADING, 2 LOADED, 3 CLAIMED; the loads accepted and not complete, oldest first; once a
load with LAST has been accepted, that load and those accepted before it which are not complete; contents and scale store (R60). -/
structure Bank where
  st : Nat
  loads : List LoadId
  due : Option (List LoadId)
  mem : Memory
  scale : Memory
  /-- the cycle in which its last load made it LOADED (R55, R69) -/
  loadedAt : Nat
  deriving DecidableEq, Repr

/-- A staging group's state (R179). `lins` holds, for the slots of the open 32-slot block, the linear index in DK of the slot's first
element (R180). -/
structure KvGroup where
  fill : Nat
  pfmt : Nat
  dim : Nat
  kscale : Nat
  vscale : Nat
  lins : List Nat
  deriving DecidableEq, Repr

/-- The array's own schedule, in arithmetic cycles (R54, R63, R66, R67): the first cycle in which its next K-step can issue; for each
accumulator set, and for the unload path, the cycle in which its last cell unloads; the cycle in which an ATTEND first asked for the
array, or for a page, in vain (R170); and the cycle in which the ramp step under way began (R68). -/
structure ArrClock where
  next : Nat
  set0 : Nat
  set1 : Nat
  path : Nat
  asked : Option Nat
  step : Nat
  deriving DecidableEq, Repr

/-- One core position: cue engine, units, array and core memories (R20, R73, and the table of vector-die state). -/
structure Core where
  /-- the cue buffer of the running list, and that of the next list with its EMPTY mark -/
  list : List Codeword
  next : Option (List Codeword)
  /-- the number of the cue buffer that takes the next list (R304) -/
  buf : Nat
  /-- STATE of COR_CUE_STATUS: 0 idle, 1 issuing, 2 held, 3 halted -/
  cueState : Nat
  /-- home index of the list running (R102) and whether it is rotated -/
  home : Nat
  rotated : Bool
  pc : Nat
  loops : List LoopLevel
  /-- the WAIT or FENCE that has issued and holds issue (R79, R81) -/
  held : Option (BitVec 128)
  evt : SMap (BitVec 32)
  issued : Nat
  queues : SMap (List QCue)
  /-- END_FRAME has issued and waits; END_FRAME has completed -/
  ending : Bool
  ended : Bool
  descs : SMap DescEntry
  scratch : Memory
  staging : Memory
  banks : SMap Bank
  set0 : Option Tile
  set1 : Option Tile
  /-- sets whose tiles have left the array, in the order they left (R66) -/
  unloads : List Nat
  stream : List StreamTile
  level : Nat
  phase : Nat
  clock : ArrClock
  groups : SMap KvGroup
  /-- the page pool and flush log descriptors fixed at take start (R171, R173) -/
  pool : Option (BitVec 256)
  flushLog : Option (BitVec 256)
  /-- frames in use; frames freed by EVICT in this frame; cursor; flushes since take start (R184) -/
  used : List Nat
  quar : List Nat
  cursor : Nat
  flushes : Nat
  /-- the core's frame signature (R354) -/
  sig : BitVec 64
  /-- the device-local address from which a bad codeword of a core memory came, plus 1: by 8 × codeword + memory (log entry 13) -/
  origin : SMap Nat
  /-- the page buffers (R292) -/
  pages : Memory
  deriving DecidableEq, Repr

/-- Who is behind a channel request: a core's DMA unit with the piece it moves, a tag of a half whose transaction came through the
owning core's port (R25, R239), or another source. -/
inductive DramOwner where
  | none
  | dma (core : Nat) (unit : Nat) (piece : Piece)
  | gather (core : Nat) (piece : Piece)
  | port (half : Nat) (tag : Nat) (gen : BitVec 4)
  deriving DecidableEq, Repr

/-- A request in a channel queue (R239), with the clock count of its arrival. -/
structure QReq where
  req : DramReq
  owner : DramOwner
  arrived : Nat
  deriving DecidableEq, Repr

/-- A DRAM bank (R240, R247, R248): open row, refreshes owed, and whether its layer has moved to a shorter window with refreshes
owed. -/
structure DramBank where
  openRow : Option Nat
  debt : Nat
  urgent : Bool
  deriving DecidableEq, Repr

/-- One DRAM channel of a column site (R239 to R241, R255). -/
structure Channel where
  native : List QReq
  narrow : List QReq
  sinceNarrow : Nat
  banks : SMap DramBank
  selfRefresh : Bool
  /-- lines that the scrubber has read -/
  scrubLine : Nat
  /-- what the scrubber has still to write back: codeword, data, whether in poisoned form (R301) -/
  scrubBack : List (Nat × BitVec 128 × Bool)
  /-- requests that found their queue full and wait at their sources (R239) -/
  atSource : List QReq
  deriving DecidableEq, Repr

/-- Progress of a near-bank command in one bank (R264): next step, whether a step runs, whether its result is written. -/
structure NbBank where
  step : Nat
  inStep : Bool
  computed : Bool
  deriving DecidableEq, Repr

/-- A near-bank command accepted at a column site (R265): the issuing core, its cue, the activation table it loaded with the
addresses of its bad words (R273), and the progress of each masked bank by 48 × channel + bank. -/
structure NbCmd where
  core : Nat
  cue : QCue
  table : List Byte
  tableBad : List Nat
  banks : SMap NbBank
  deriving DecidableEq, Repr

/-- A near-bank unit (R263): operand registers by number and the result row register, 1 KiB each, the sum register (an FP32 code) with the
address plus 1 of a bad word that went into it, and the 2 KiB activation table with the addresses of its bad words. -/
structure NbUnit where
  operands : SMap (BitVec 8192)
  result : BitVec 8192
  sum : Nat
  sumBad : Nat
  table : BitVec 16384
  tableBad : List Nat
  deriving DecidableEq, Repr

/-- A DRAM column site (R20, R232) with its near-bank commands in the order accepted, and its units by 48 × channel + bank. -/
structure Site where
  chans : SMap Channel
  cmds : List NbCmd
  units : SMap NbUnit
  /-- its DRAM is in self-refresh under base-die control: its tower is lost, a half is lost, or the clocks have stopped (R255) -/
  srBase : Bool
  /-- an abort has left its DRAM under base-die control, which its controller takes back at the first request or at take start (R255; log
  entry 102) -/
  parked : Bool
  deriving DecidableEq, Repr

/-- A log entry (R554, R562). -/
structure LogEntry where
  kind : Nat
  cls : Nat
  unit : Nat
  count : Nat
  addr : Nat
  seq : Nat
  frame : Nat
  syndrome : Nat
  detail : Nat
  deriving DecidableEq, Repr

/-- A 256-entry log: entries by position, and the running count of writes mod 65,536. -/
structure Log where
  entries : SMap LogEntry
  seq : Nat
  deriving DecidableEq, Repr

/-- A connection that has failed in service (R368): one of the through path of a column site, one of the array-to-vector bond of a
core position, or one of a DRAM channel of a column site. -/
inductive DeadWire where
  | path (site : Nat) (bit : Nat)
  | bond (core : Nat) (bit : Nat)
  | channel (site : Nat) (ch : Nat) (wire : Nat)
  deriving DecidableEq, Repr

/-- One tower: its log, supervisor, fence request, thermal state and wear (R286, R380, R454 to R473). -/
structure Tower where
  log : Log
  lit : Bool
  fenced : Bool
  /-- physical position that serves each logical position; unlisted 31 (R571) -/
  lumap : SMap Nat
  cores : Nat
  /-- the commands that the last near-bank fence covers: (core, issue order) -/
  fence : List (Nat × Nat)
  /-- the last readings of the tower's sensors (R454, R569) -/
  sens : SMap (BitVec 16)
  suspect : List Nat
  /-- consecutive disagreeing samples: per sensor, per hot-spot pair, per layer (R458 to R460) -/
  farSensor : SMap Nat
  farPair : SMap Nat
  farMiddle : SMap Nat
  pairFar : List Nat
  /-- layer values in 0.125 °C (unlisted: no reading) and level marks as lists of layer indices -/
  layer : SMap Int
  warn : List Nat
  throttle : List Nat
  middle : List Nat
  /-- the value at which each layer in throttle entered it -/
  throttleIn : SMap Int
  model : SMap (BitVec 32)
  /-- refresh window of each layer M1 to M13: 0 32 ms, 1 16 ms, 2 8 ms, 3 not refreshed (R261) -/
  window : SMap Nat
  /-- turning-point procedure (R473): ext, cur, dir; none before the first value -/
  wear : Option (Int × Int × Int)
  /-- critical-path loop (R486, R487): samples below RAISE at VCODE 32, samples above LOWER, samples above RAISE while pinned -/
  lowRun : Nat
  highRun : Nat
  okRun : Nat
  badPhases : List Nat
  /-- delay-line taps of the crossing groups (R371) -/
  taps : SMap Nat
  /-- the energy counter (R330) as it stood at the last tick, and at the last step of the model (R456) -/
  atTick : BitVec 64
  atStep : BitVec 64
  rejoining : Bool
  /-- ARRAY_RESET waits until every array of the tower is at level 0 (R382) -/
  resetting : Bool
  /-- the cycle count at which the scrubber's last pass ended (R301, R304), and its passes -/
  scrubPass : Nat
  passes : Nat
  /-- connections that have failed since the start -/
  dead : List DeadWire
  /-- the positions that hold the core image (R505) -/
  loaded : List Nat
  deriving DecidableEq, Repr

/-- A store transaction's request and response (R210): where its bytes are, what it writes, and who asked. -/
inductive TxnOwner where
  | none
  | dma (core : Nat) (unit : Nat) (piece : Piece)
  | mcast (core : Nat) (piece : Piece)
  /-- a bridge port's transaction for the tag `req` of the other half, with that tag's generation -/
  | bridge (module : Nat) (req : Nat) (gen : BitVec 4)
  /-- a line of an access of a ring client (R209) -/
  | ring (access : Nat)
  /-- a line read again for one member of a core's multicast (R215) -/
  | catchup (core : Nat) (member : Nat) (piece : Piece)
  deriving DecidableEq, Repr

/-- The state of a transaction tag (R211): free; taken with its request or response on the half bridge (R223); out with its
request not yet served; served with its response on the way; timed out and out of use. -/
inductive TagState where
  | free
  | bridging
  | requested
  | served
  | timedOut
  deriving DecidableEq, Repr

/-- A transaction tag of a half: generation (advances at each issue), state, and the transaction it carries: a run of bytes in one
line, what a write stores there, and who asked. -/
structure Tag where
  gen : BitVec 4
  st : TagState
  write : Bool
  addr : Nat
  len : Nat
  bytes : List Byte
  poison : List Nat
  owner : TxnOwner
  resp : List Byte
  respPoison : List Nat
  /-- a poison write of R213 -/
  bane : Bool
  /-- its place in the half's order of issue (R217) -/
  seq : Nat
  /-- channel requests of a transaction with tower DRAM that are not yet served (R239) -/
  parts : Nat
  /-- its answer is an error response (R19, R380) -/
  refused : Bool
  /-- the bytes of its run that a write leaves as they are, by their places in the line (R375) -/
  holes : List Nat
  deriving DecidableEq, Repr

/-- What one of the two networks of a half carries for a transaction: its tag, its client port and its store slice (R206). -/
structure NetItem where
  tag : Nat
  port : Nat
  slice : Nat
  deriving DecidableEq, Repr

/-- A network of a half (R207): the waiting items of each switch input, oldest first, by 1,000 × stage + place; and for each output the
input granted last, plus 1, by the place the output leads to. -/
structure Net where
  queues : SMap (List NetItem)
  turn : SMap Nat
  deriving DecidableEq, Repr

/-- A line of an access of a ring client, which waits for its ring port (R209): the access, and the run of bytes in the line that it
reads or writes; `bad` are the codewords to be written in poisoned form. -/
structure RingLine where
  access : Nat
  addr : Nat
  len : Nat
  write : Bool
  bytes : List Byte
  bad : List Nat
  deriving DecidableEq, Repr

/-- An entry of a store slice's merge buffer (R225, R292, R299): codeword address, the codeword with its check bits, the mask of the bytes
present, and whether the host port has encoded any of them (R452). -/
structure MergeEntry where
  cw : Nat
  word : Codeword
  mask : BitVec 16
  host : Bool
  deriving DecidableEq, Repr

/-- A multicast read that runs (R215, R216): issuing core, the members whose destination has taken the load, and for each member
the pieces it still lacks. -/
structure Mcast where
  core : Nat
  accepted : List Nat
  missed : SMap (List Piece)
  /-- the members for which a line is being read again -/
  catching : List Nat
  /-- every line has been read once -/
  ended : Bool
  deriving DecidableEq, Repr

/-- One half: tags, merge buffers, multicasts, log, gaffer side and base-die temperatures. -/
structure HalfState where
  log : Log
  tags : SMap Tag
  merge : SMap (List MergeEntry)
  mcasts : List Mcast
  /-- poison writes of R213 that wait for a tag: the first tag and the size of the pool, and the transaction -/
  owed : List (Nat × Nat × Tag)
  txns : Nat
  /-- the request and the response network -/
  requests : Net
  responses : Net
  /-- lines that wait in the ring crossbar, by 32 × client + ring port; for each ring port the client granted last, plus 1 (R209) -/
  ring : SMap (List RingLine)
  ringTurn : SMap Nat
  /-- tags whose transactions wait at a core port for a place in a channel queue (R239) -/
  atPort : List Nat
  scrub : SMap Nat
  scrubPass : Nat
  passes : Nat
  /-- the service SRAM and the boot ROM of the half (R292) -/
  sram : Memory
  rom : Memory
  sens : SMap (BitVec 16)
  suspect : List Nat
  farSensor : SMap Nat
  value : Option Int
  warn : Bool
  throttle : Bool
  throttleIn : Option Int
  lost : Bool
  /-- the core image as the half placed it in its store for the multicast; gone at the end of the start, where the store holds zero (R202,
  R505) -/
  image : List Byte
  deriving DecidableEq, Repr

/-- The outcome of a release decision (R328): reason 0 released; else the reason with the tower, gate or core that failed. -/
structure Outcome where
  reason : Nat
  tower : Nat
  gate : Nat
  core : Nat
  deriving DecidableEq, Repr

/-- The fields of a loaded reel's header that a take uses (R93). -/
structure Reel where
  base : Nat
  takeKey : BitVec 64
  flags : Nat
  frames : Nat
  srEnable : Bool
  loopStart : Nat
  frameTable : Nat
  descIndex : Nat
  bytes : Nat
  numeric : BitVec 64
  identity : List Byte
  towerMask : Nat
  deriving DecidableEq, Repr

/-- A remote signal (R80): sending core, target home index, counter, increment, the units whose earlier cues it waits for, and the
sending core's count of issued cues at its issue. -/
structure Signal where
  sender : Nat
  home : Nat
  cnt : Nat
  inc : Nat
  mask : Nat
  order : Nat
  /-- it has left for the other half on the bridge (R378) -/
  crossing : Bool
  deriving DecidableEq, Repr

/-- The frame lengths that a die counts to, in arithmetic cycles (R377): of the frame that the next tick begins as it was given in an outcome
message, of the frame that runs, and of the one that the last tick ended; 0 while the die knows none. -/
structure FrameCount where
  next : Nat
  runs : Nat
  ended : Nat
  deriving DecidableEq, Repr

/-- The take (R99, R553): its reel, whether it runs, starts or stops, the frame that runs, the decision for the next tick, and
what the gaffers carry from frame to frame. -/
structure Take where
  reel : Option Reel
  /-- SVC_TAKE_STATUS.STATE -/
  state : Nat
  starting : Bool
  stopping : Bool
  frameRuns : Bool
  frameDone : Bool
  /-- outcome fixed for the next tick; the east half's results have reached the west gaffer -/
  decision : Option Outcome
  eastResults : Bool
  eastOutcome : Bool
  /-- declarations of the last released frame, of the running frame, and whether the last frame ran dark -/
  lastDecl : List Nat
  lastReleased : Bool
  /-- landing gates of the decided frame, as (counter, stamp); its declarations, and the rings that run rotated in it, as read at the
  sampling point -/
  gateSlots : List (Nat × Nat)
  decl : List Nat
  rotating : List Nat
  guardRun : Nat
  guardForced : Bool
  overcurrent : Bool
  tickAt : Nat
  lastInput : Nat
  signals : List Signal
  /-- landing counters: slots (stamp, bytes) (R325) -/
  landing : SMap (List (Nat × Nat))
  /-- acknowledged payloads not yet counted: counter, stamp, bytes -/
  landed : List (Nat × Nat × Nat)
  aborting : Bool
  /-- home index on which each list was placed at the last release: position by home, unlisted = itself (R100) -/
  placed : SMap Nat
  parts : Nat
  /-- what the input monitors' samples since the last tick add up to, in units of 0.1 nJ (R489) -/
  inputSum : Nat
  /-- highest current sample since the last tick, and consecutive samples above VIN_A (R488, R489) -/
  peak : Nat
  overSamples : Nat
  /-- the frame lengths of the west base die, which generates the tick, and those that the east die counts to (R377) -/
  west : FrameCount
  east : FrameCount
  deriving DecidableEq, Repr

/-- The clapper (R318 to R323): the message chosen for the next tick with its port, the messages with the fewest HOPS received for
the newest tick, ticks without a usable one, and the difference between the placement that the chosen message gives and the part's
own next tick, in units of 0.25 ns. -/
structure Clapper where
  msg : Option ClapperMsg
  seen : List ClapperMsg
  port : Nat
  missed : Nat
  error : Int
  /-- the message chosen for the tick after the next, with its port and its error -/
  later : Option (ClapperMsg × Nat × Int)
  deriving DecidableEq, Repr

/-- Continuity (R353 to R358): whether a take start waits for the exchange, the partner's exchange message (fingerprint and settings
digest), the partner's outcome, consecutive frames darkened by a missing outcome, the signature messages not yet compared (own and
partner's, by frame), and whether the outcome or comparison of the coming tick is late. -/
structure Cont where
  waiting : Bool
  hello : Option (List Byte × List Byte)
  partnerOutcome : Option (Nat × Bool)
  darkRun : Nat
  mine : List (Nat × List (Nat × BitVec 64))
  theirs : List (Nat × List (Nat × BitVec 64))
  late : Bool
  deriving DecidableEq, Repr

/-- One direction of a retried link (bridge R376, fabric R393): next sequence number to send, the flits kept for replay (oldest
first) and the cycle counts of the replays of the last 1 ms, and at the receiver the number expected next, whether a NAK is owed, and
the last number that will come again as a replay. -/
structure Link where
  nextSeq : Nat
  kept : List (Nat × List Byte)
  expect : Nat
  nak : Bool
  replayAt : List Nat
  redo : Option Nat
  deriving DecidableEq, Repr

/-- A beat announced on a bridge module that has not come yet (R375): the tag it belongs to in the receiving half, the codewords
it writes (for a write), and the bytes written of partly covered codewords. -/
structure Beat where
  tag : Nat
  write : Bool
  cws : Nat
  masks : List (Nat × Nat)
  deriving DecidableEq, Repr

/-- A bridge module (R373 to R379): the links and the announced beats of both directions, and the bytes of the service-plane
stream received that make no whole message yet; whether it retrains (R379); the tick marks sent on it that have not arrived,
and the ticks one after another whose marks have not come fresh (R377). -/
structure Module where
  eastward : Link
  westward : Link
  beatsE : List Beat
  beatsW : List Beat
  svcE : List Byte
  svcW : List Byte
  retraining : Bool
  marks : Nat
  missed : Nat
  deriving DecidableEq, Repr

/-- A fabric tag (R405): its packet's destination and address, and for a broadcast the parts that have not yet acknowledged. -/
structure FabTag where
  gen : BitVec 4
  st : TagState
  dest : BitVec 16
  addr : BitVec 64
  waiting : List Nat
  deriving DecidableEq, Repr

/-- A fabric port (R388 to R399): link, receive buffers by class (4 is CTRL), the codewords of a packet partly received, transmit
buffer, tags; flits of each buffer of the partner spent and not returned; of the own buffers the flits held, oldest first, each with the
slots of it that have not drained, and the flits freed and not yet returned; the class served last, lanes that failed, whether a partner is there, and its last beacon. The instants that the waiting
clapper messages count down to, and those of the kept flits that carry one, by number (R395): in seventeenths of 0.25 ns since reset. -/
structure Port where
  link : Link
  rx : SMap (List Packet)
  part : List Codeword
  tx : List Packet
  tags : SMap FabTag
  spent : SMap Nat
  held : SMap (List Nat)
  owed : SMap Nat
  turn : Nat
  badLanes : List Nat
  present : Bool
  beacon : Option (List Byte)
  instants : List (Packet × Nat)
  sentInstants : SMap Nat
  deriving DecidableEq, Repr

/-- A collective job in progress (R415, R416): job address, stamp, bytes written, whether the combination began. -/
structure CollJob where
  job : Nat
  stamp : Nat
  written : Nat
  /-- RANKS × LEN of the record, as its last contribution found it -/
  whole : Nat
  begun : Bool
  deriving DecidableEq, Repr

/-- The fabric as a whole (R408 to R417): candidate, staged address and table, route table, frozen ports, topology answers; the packets in
transit, with their ports, that a COMMIT has found here and the table they finish on (R413); jobs, outputs that wait for tags with their
engines, and for each engine the outputs of its combination that have not left, plus 1 while it runs (R416, R423). -/
structure Fabric where
  ports : SMap Port
  routes : SMap (BitVec 32)
  stagedAddr : Option (BitVec 16)
  staged : SMap (BitVec 32)
  stagedEpoch : Nat
  cand : BitVec 64
  candHops : Nat
  parent : Option Nat
  electing : Bool
  frozen : List Nat
  topo : List (List Byte)
  jobs : SMap (List CollJob)
  ring : List (Nat × Packet)
  leaving : SMap Nat
  flight : List (Nat × Packet)
  oldRoutes : SMap (BitVec 32)
  identity : BitVec 64
  epochSeen : Nat
  deriving DecidableEq, Repr

/-- A DMA descriptor taken by an engine (R433): its own number, the bytes of it that the host has delivered, the bytes that its
memory has acknowledged, and whether it is complete. -/
structure DmaDesc where
  id : Nat
  host : Nat
  dev : Nat
  len : Nat
  flags : Nat
  vector : Nat
  db : Nat
  moved : Nat
  acked : Nat
  /-- why it failed (R435), 0 while it has not -/
  cause : Nat
  done : Bool
  deriving DecidableEq, Repr

/-- A DMA engine (R434): the next ring entry to start and the descriptors started. -/
structure DmaEngine where
  startAt : Nat
  flight : List DmaDesc
  paused : Bool
  deriving DecidableEq, Repr

/-- What an access of a ring client is for: a read or a posted write of the host, a read or a write of a DMA engine for one of its
descriptors, the payload of a packet (with the port that it came in by), or the payload of a contribution with its engine, its job and
the bytes that make the job whole. -/
inductive AccessUse where
  | hostRead
  | hostWrite
  | dmaOut (engine : Nat) (desc : Nat)
  | dmaIn (engine : Nat) (desc : Nat)
  | payload (port : Option Nat) (pkt : Packet)
  | output (engine : Nat) (pkt : Packet)
  | contribution (port : Option Nat) (engine : Nat) (job : Nat) (whole : Nat) (pkt : Packet)
  deriving DecidableEq, Repr

/-- An access of a ring client under way (R209, R428): its number, its bytes, the lines of it not yet answered, and what the answered
lines brought: bytes by the address of their run, and the addresses of bad codewords. -/
structure Access where
  id : Nat
  use : AccessUse
  addr : Nat
  len : Nat
  left : Nat
  got : SMap (List Byte)
  bad : List Nat
  /-- a line of it met an error response -/
  failed : Bool
  deriving DecidableEq, Repr

/-- The host port: doorbells, MSI-X table and pending bits, engines, function state (R424 to R438). -/
structure HostPort where
  doorbells : SMap Nat
  /-- doorbells touched whose increments wait for the posted writes before them: doorbell, and a number above those of the writes
  (R430) -/
  ringing : List (Nat × Nat)
  msix : SMap (BitVec 128)
  pending : List Nat
  msixEnable : Bool
  funcMask : Bool
  engines : SMap DmaEngine
  bar2Log2 : Nat
  cfg : SMap (BitVec 32)
  deriving DecidableEq, Repr

/-- The mailbox (R436): the running command, its result once known, and the stage of a command that waits for events. -/
structure Mailbox where
  op : Nat
  result : Option Nat
  arg3 : Option (BitVec 64)
  deriving DecidableEq, Repr

/-- A capacity-memory channel (R439 to R445). -/
structure LpdChan where
  /-- the devices for which the condition of R445 is in force, and the last readout of each in °C -/
  hot : List Nat
  temps : SMap Nat
  /-- open rows of the banks: by 16 × sub-channel + bank, the row plus 1 (R442) -/
  openRows : SMap Nat
  scrubLine : Nat
  deriving DecidableEq, Repr

/-- The management port (R446 to R448). -/
structure Mgmt where
  eid : Option Byte
  effecter : Option Nat
  events : List (Nat × Nat)
  deriving DecidableEq, Repr

/-- Whole-part thermal state (R461, R467, R468): lid sensors, T_in and T_out with the last ten T_out values, FLOW_OK samples. -/
structure Thermal where
  lid : SMap (BitVec 16)
  press : BitVec 16 × BitVec 16
  lidFar : SMap Nat
  lidSuspect : List Nat
  tin : Option Int
  tout : Option Int
  history : List Int
  lowSamples : Nat
  flowOk : Bool
  board : Int
  stopped : Bool
  deriving DecidableEq, Repr

/-- Pins driven from outside and by the part (R490, R492). -/
structure Pins where
  pwrgd : Bool
  resetN : Bool
  perstN : Bool
  flowOkIn : Bool
  trstN : Bool
  ready : Bool
  faultN : Bool
  thermtripN : Bool
  /-- an internal reset release is scheduled; a device reset by SVC_RESET is scheduled -/
  releaseDue : Bool
  resetDue : Bool
  powered : Bool
  inReset : Bool
  deriving DecidableEq, Repr

/-- A slate block write (R513, R514): which of dailies, defect append, ledger or calibration stage, and the bytes. -/
inductive SlateWrite where
  | defect (records : List (List Byte))
  | dailies (entry : List Byte)
  | ledger (area : List Byte)
  | cal (stage : Nat) (set : List Byte)
  deriving DecidableEq, Repr

/-- Start-up, slate and firmware (R498 to R524). -/
structure Startup where
  phaseDone : Nat
  settings : List Byte
  cal : List Byte
  /-- versions and ROLLBACKs of the service, supervisor and core images in use -/
  versions : List Nat
  rollbacks : List Nat
  records : List (List Byte)
  newRecords : List (List Byte)
  seq : Nat
  ledgerSeq : Nat
  /-- there is no wear ledger from the last run: none is valid, or the one read is that of the start before (R520) -/
  ledgerMissing : Bool
  writing : Option SlateWrite
  held : List SlateWrite
  window : List Byte
  windowBlock : Option Nat
  swRetired : List (BitVec 64)
  heldDark : List Nat
  spares : List Nat
  brgShort : Bool
  capped : Bool
  /-- the module that carries the boot link: the lowest whose sideband trained (R503) -/
  bootLink : Option Nat
  /-- the core image in use: its place in the flash, and the bytes of its header and body -/
  core : Nat × Nat
  /-- a bank that qualifies for remapping found no usable spare (R250) -/
  noSpare : Bool
  /-- the wear-ledger area read at this start (R519) -/
  lastLedger : List Byte
  /-- seconds that a STOP still waits for the slate-write window (R521) -/
  stopWait : Nat
  deriving DecidableEq, Repr

/-- What the part keeps over every reset and loss of power beside its fuses and its flash (log entry 188): the records of repairs made in
service, which the next start appends (R398, R517), and SEQ of the ledger read at the last start (R520). -/
structure Kept where
  records : List (List Byte)
  ledger : Option Nat
  deriving DecidableEq, Repr

/-- Identity and attestation (R525 to R537). -/
structure Security where
  idPublic : List Byte
  idPrivate : List Byte
  keyReady : Bool
  /-- the identity seed as the boot ROM read it, and its fuse read path closed (R531) -/
  seed : BitVec 256
  seedClosed : Bool
  meas : SMap (List Byte)
  reports : Nat
  advTarget : Nat
  advStep : Nat
  attempts : Nat
  /-- KEY of the service image in use (R526, R549) -/
  serviceKey : List Byte
  deriving DecidableEq, Repr

/-- Fuses (R4, R529, R531, R548): not touched by any reset (R490). -/
structure Fuses where
  variant : Nat
  identity : BitVec 64
  keyDigest : BitVec 256
  seed : BitVec 256
  /-- blown fuses of the rollback steps: three bits for each step 1 to 64 -/
  steps : SMap (BitVec 3)
  lock : Bool
  deriving DecidableEq, Repr

/-- Test access (R538 to R552). -/
structure Test where
  included : List Nat
  failed : List Nat
  ir : SMap Nat
  boundary : SMap (List Bool)
  token : List Byte
  scope : Nat
  /-- the die whose IEEE 1687 network the parallel path holds -/
  parHolds : Option Nat
  /-- the die whose network an IJTAG shift on the TAP holds, and the cycle count in which it does (R547) -/
  tapHolds : Option (Nat × Nat)
  draws : Nat
  deriving DecidableEq, Repr

/-- Retirement table and its copies (R251, R309). -/
structure Retire where
  entries : List (BitVec 64)
  deriving DecidableEq, Repr

/-- What the part sends outside (log entry 4). -/
inductive Output where
  | msi (vector : Nat) (addr : BitVec 64) (data : BitVec 32)
  | readCompletion (bytes : List Byte) (ep : List Nat)
  | completerAbort
  | unsupportedRequest
  | capacityData (bytes : List Byte) (bad : List Nat)
  | configCompletion (value : Option (BitVec 32))
  | requestRetry
  | readinessMessage
  | packet (port : Nat) (pkt : Packet)
  | clapper (port : Nat) (msg : ClapperMsg)
  | cont (payload : List Byte)
  | bridgeFlit (module : Nat) (toEast : Bool) (flit : List Byte)
  | fabFlit (port : Nat) (flit : List Byte)
  | mctp (target : Nat) (completion : Nat) (units : List (List Byte))
  | tdo (bits : List Bool)
  | serviceStream (toEast : Bool) (bytes : List Byte)
  deriving DecidableEq, Repr

/-- The first fault found in the present cycle (R557): its cause, whether SVC_FAULT has recorded it, the fault registers as they stood before
it, and the place of its FAULT entry with what stood there before: log, position, entry. -/
structure FaultNote where
  cause : Nat
  recorded : Bool
  regs : List (Nat × W64)
  slot : Option (Nat × Nat × LogEntry)
  deriving DecidableEq, Repr

/-- What has happened in the present cycle of the arithmetic clock (log entry 6), for the rules that speak of events of one cycle: the bits
that hardware has set, by register (R15); how far counters have advanced, by register (R574); the first fault (R557); and whether a
fatal condition fell in it (R384). -/
structure Cycle where
  set : SMap Nat
  inc : SMap Nat
  fault : Option FaultNote
  fatal : Bool
  deriving DecidableEq, Repr

/-- The whole block but its queue of commands. -/
structure Device where
  fuses : Fuses
  now : Nat
  regs : SMap W64
  mem : Memory
  hostMem : Memory
  flash : Memory
  cores : SMap Core
  sites : SMap Site
  towers : SMap Tower
  halves : SMap HalfState
  take : Take
  clap : Clapper
  cont : Cont
  mods : SMap Module
  fab : Fabric
  host : HostPort
  mbx : Mailbox
  lpd : SMap LpdChan
  mgmt : Mgmt
  thm : Thermal
  pins : Pins
  start : Startup
  sec : Security
  tst : Test
  retire : Retire
  kept : Kept
  out : List Output
  freeCtr : Nat
  /-- accesses of ring clients under way, and the number of the next -/
  accesses : List Access
  accessNext : Nat
  /-- an access of the step under way has to wait (log entry 146) -/
  blocked : Bool
  /-- DRAM banks in a near-bank step that a unit's access waits for (R279): site, channel, bank -/
  wanted : List (Nat × Nat × Nat)
  cycle : Cycle
  deriving DecidableEq, Repr

/-- The state of the block: the device, and the commands that wait, first in first out. -/
structure State where
  dev : Device
  pending : List Instr
  deriving DecidableEq, Repr

/-- Why a step stops: never. The spec gives every command an effect, so no meaning raises a fault. -/
inductive Fault where
  deriving DecidableEq, Repr

/-- Why a command has no meaning. -/
inductive Refusal where
  /-- Raised by the arms of commands that have no meaning yet. Safe: the model stops. -/
  | notModelled (mnemonic : String)
  deriving DecidableEq, Repr

/-- An empty memory: every byte 0 with valid check bits. -/
def Memory.empty : Memory := { bytes := [], syn := [] }

/-- A bank at the end of an abort and at reset (R55, R556). -/
def Bank.reset : Bank := { st := 0, loads := [], due := none, mem := Memory.empty, scale := Memory.empty, loadedAt := 0 }

/-- The array's schedule at reset: nothing fed. -/
def ArrClock.reset : ArrClock := { next := 0, set0 := 0, set1 := 0, path := 0, asked := none, step := 0 }

/-- A staging group with nothing placed (R197). -/
def KvGroup.reset : KvGroup := { fill := 0, pfmt := 0, dim := 0, kscale := 0, vscale := 0, lins := [] }

/-- A descriptor entry that nothing has written (log entry 9). -/
def DescEntry.reset : DescEntry := { bits := 0, gen := 0, syn0 := 0, syn1 := 0 }

/-- A core position at reset (R103 to R105, R71, R197). -/
def Core.reset : Core :=
  { list := [], next := none, buf := 0, cueState := 0, home := 0, rotated := false, pc := 0, loops := [], held := none, evt := [], issued := 0,
    queues := [], ending := false, ended := false, descs := [], scratch := Memory.empty, staging := Memory.empty,
    banks := [], set0 := none, set1 := none, unloads := [], stream := [], level := 0, phase := 0, clock := ArrClock.reset,
    groups := [], pool := none, flushLog := none, used := [], quar := [], cursor := 0, flushes := 0, sig := 0, origin := [], pages := Memory.empty }

/-- A DRAM bank at reset: closed, no refresh owed. -/
def DramBank.reset : DramBank := { openRow := none, debt := 0, urgent := false }

/-- A DRAM channel at reset. -/
def Channel.reset : Channel :=
  { native := [], narrow := [], sinceNarrow := 0, banks := [], selfRefresh := false, scrubLine := 0, scrubBack := [], atSource := [] }

/-- A bank that has begun no step of a command. -/
def NbBank.reset : NbBank := { step := 0, inStep := false, computed := false }

/-- A near-bank unit at reset (log entry 9). -/
def NbUnit.reset : NbUnit := { operands := [], result := 0, sum := 0, sumBad := 0, table := 0, tableBad := [] }

/-- A column site at reset. -/
def Site.reset : Site := { chans := [], cmds := [], units := [], srBase := false, parked := false }

/-- An empty log entry. -/
def LogEntry.reset : LogEntry :=
  { kind := 0, cls := 0, unit := 0, count := 0, addr := 0, seq := 0, frame := 0, syndrome := 0, detail := 0 }

/-- An empty log (R562). -/
def Log.reset : Log := { entries := [], seq := 0 }

/-- A tower at reset: dark (R571), no sensor read, refresh window 32 ms, no wear value (R476, R497). -/
def Tower.reset : Tower :=
  { log := Log.reset, lit := false, fenced := false, lumap := [], cores := 0, fence := [], sens := [], suspect := [],
    farSensor := [], farPair := [], farMiddle := [], pairFar := [], layer := [], warn := [], throttle := [],
    middle := [], throttleIn := [], model := [], window := [], wear := none, lowRun := 0, highRun := 0, okRun := 0,
    badPhases := [], taps := [], atTick := 0, atStep := 0, rejoining := false, resetting := false, scrubPass := 0, passes := 0, dead := [], loaded := [] }

/-- A transaction tag at reset: free, generation 0 (log entry 9). -/
def Tag.reset : Tag :=
  { gen := 0, st := .free, write := false, addr := 0, len := 0, bytes := [], poison := [], owner := .none, resp := [],
    respPoison := [], bane := false, seq := 0, parts := 0, refused := false, holes := [] }

/-- A network with nothing under way. -/
def Net.reset : Net := { queues := [], turn := [] }

/-- A half at reset. -/
def HalfState.reset : HalfState :=
  { log := Log.reset, tags := [], merge := [], mcasts := [], owed := [], txns := 0, requests := Net.reset,
    responses := Net.reset, ring := [], ringTurn := [], atPort := [], scrub := [], scrubPass := 0, passes := 0, sram := Memory.empty, rom := Memory.empty, sens := [],
    suspect := [], farSensor := [], value := none, warn := false, throttle := false, throttleIn := none, lost := false, image := [] }

/-- No frame counted. -/
def FrameCount.reset : FrameCount := { next := 0, runs := 0, ended := 0 }

/-- No take (R561). -/
def Take.reset : Take :=
  { reel := none, state := 0, starting := false, stopping := false, frameRuns := false, frameDone := false,
    decision := none, eastResults := false, eastOutcome := false, lastDecl := [], lastReleased := false,
    gateSlots := [], decl := [], rotating := [], guardRun := 0, guardForced := false, overcurrent := false, tickAt := 0, lastInput := 0,
    signals := [], landing := [], landed := [], aborting := false, placed := [], parts := 0, inputSum := 0, peak := 0, overSamples := 0,
    west := FrameCount.reset, east := FrameCount.reset }

/-- The clapper at reset. -/
def Clapper.reset : Clapper := { msg := none, seen := [], port := 0, missed := 0, error := 0, later := none }

/-- Continuity at reset. -/
def Cont.reset : Cont :=
  { waiting := false, hello := none, partnerOutcome := none, darkRun := 0, mine := [], theirs := [], late := false }

/-- A link direction at reset: sequence numbers start at 0 (R376, R393). -/
def Link.reset : Link := { nextSeq := 0, kept := [], expect := 0, nak := false, replayAt := [], redo := none }

/-- A bridge module at reset. -/
def Module.reset : Module :=
  { eastward := Link.reset, westward := Link.reset, beatsE := [], beatsW := [], svcE := [], svcW := [], retraining := false, marks := 0, missed := 0 }

/-- A fabric tag at reset. -/
def FabTag.reset : FabTag := { gen := 0, st := .free, dest := 0, addr := 0, waiting := [] }

/-- A fabric port at reset: no partner, no lane trained. -/
def Port.reset : Port :=
  { link := Link.reset, rx := [], part := [], tx := [], tags := [], spent := [], held := [], owed := [], turn := 0,
    badLanes := [], present := false, beacon := none, instants := [], sentInstants := [] }

/-- The fabric at reset: no address, an empty route table (R419, R423). -/
def Fabric.reset : Fabric :=
  { ports := [], routes := [], stagedAddr := none, staged := [], stagedEpoch := 0, cand := 0, candHops := 0,
    parent := none, electing := false, frozen := [], topo := [], jobs := [], ring := [], leaving := [], flight := [],
    oldRoutes := [], identity := 0, epochSeen := 0 }

/-- A DMA engine at reset. -/
def DmaEngine.reset : DmaEngine := { startAt := 0, flight := [], paused := false }

/-- The host port at reset: link down, MSI-X table open (log entry 9). -/
def HostPort.reset : HostPort :=
  { doorbells := [], ringing := [], msix := [], pending := [], msixEnable := false, funcMask := false, engines := [],
    bar2Log2 := 41, cfg := [] }

/-- An idle mailbox (R450). -/
def Mailbox.reset : Mailbox := { op := 0, result := none, arg3 := none }

/-- A capacity-memory channel at reset (R453). -/
def LpdChan.reset : LpdChan := { hot := [], temps := [], openRows := [], scrubLine := 0 }

/-- The management port at reset. -/
def Mgmt.reset : Mgmt := { eid := none, effecter := none, events := [] }

/-- Whole-part temperatures at reset: no reading (R475). -/
def Thermal.reset : Thermal :=
  { lid := [], press := (0x8000, 0x8000), lidFar := [], lidSuspect := [], tin := none, tout := none, history := [],
    lowSamples := 0, flowOk := false, board := 200, stopped := false }

/-- The pins as they stand right after the internal reset release: PWRGD_IN and RESET_N high, PERST_N still low, READY low, the
open-drain outputs released (R490, R492; log entry 10). -/
def Pins.reset : Pins :=
  { pwrgd := true, resetN := true, perstN := false, flowOkIn := true, trstN := true, ready := false, faultN := true,
    thermtripN := true, releaseDue := false, resetDue := false, powered := true, inReset := false }

/-- Start-up with phase 1 ended (R498, R523). -/
def Startup.reset : Startup :=
  { phaseDone := 1, settings := [], cal := [], versions := [0, 0, 0], rollbacks := [0, 0, 0],
    records := [], newRecords := [], seq := 0, ledgerSeq := 0, ledgerMissing := false, writing := none, held := [],
    window := [], windowBlock := none, swRetired := [], heldDark := [], spares := [], brgShort := false,
    capped := false, bootLink := none, core := (0, 0), noSpare := false, lastLedger := [], stopWait := 0 }

/-- Identity and attestation at reset (R537). -/
def Security.reset : Security :=
  { idPublic := [], idPrivate := [], keyReady := false, seed := 0, seedClosed := false, meas := [], reports := 0, advTarget := 0, advStep := 0,
    attempts := 0, serviceKey := [] }

/-- The fuses of the modelled part (log entry 2). -/
def Fuses.asMade : Fuses :=
  { variant := Config.fuseVariant, identity := Config.fuseIdentity, keyDigest := Config.fuseKeyDigest,
    seed := Config.fuseSeed, steps := [], lock := Config.fuseLock }

/-- Test access at reset: every die bypassed but the west base die, IDCODE selected, locked (R538, R552). -/
def Test.reset : Test :=
  { included := [], failed := [], ir := [], boundary := [], token := [], scope := 0, parHolds := none, tapHolds := none, draws := 0 }

/-- An empty retirement table. -/
def Retire.reset : Retire := { entries := [] }

/-- Nothing kept. -/
def Kept.reset : Kept := { records := [], ledger := none }

/-- A cycle in which nothing has happened yet. -/
def Cycle.reset : Cycle := { set := [], inc := [], fault := none, fatal := false }

/-- The whole block as reset leaves it (R490, R575), with the fuses, the flash and the host's memory given. -/
def Device.afterReset (fuses : Fuses) (flash hostMem : Memory) : Device :=
  { fuses := fuses, now := 0, regs := [], mem := Memory.empty, hostMem := hostMem, flash := flash, cores := [],
    sites := [], towers := [], halves := [], take := Take.reset, clap := Clapper.reset, cont := Cont.reset, mods := [],
    fab := { Fabric.reset with identity := fuses.identity }, host := HostPort.reset, mbx := Mailbox.reset, lpd := [],
    mgmt := Mgmt.reset, thm := Thermal.reset, pins := Pins.reset, start := Startup.reset, sec := Security.reset,
    tst := Test.reset, retire := Retire.reset, kept := Kept.reset, out := [], freeCtr := 0, accesses := [], accessNext := 0, blocked := false, wanted := [], cycle := Cycle.reset }

/-- The block right after reset: phase 1 of start-up has ended, nothing is loaded, no command waits. -/
def State.reset : State :=
  { dev := Device.afterReset Fuses.asMade Memory.empty Memory.empty, pending := [] }

end Sys2Proof.Machine
end

