-- ==== Sys2Proof/Machine/Maps.lean ====
section
/-! DEFINITION. Reading and writing the sparse maps of the state. -/
namespace Sys2Proof.Machine

open Sys2Proof

/-- The entry of a map; an unlisted key stands for `d`. -/
def mget {α : Type} (d : α) : SMap α → Nat → α
  | [], _ => d
  | (k, v) :: r, i => if i = k then v else mget d r i

/-- A map with one entry set, in canonical form: keys rising, an entry equal to `d` dropped. -/
def mset {α : Type} [DecidableEq α] (d : α) : SMap α → Nat → α → SMap α
  | [], i, v => if v = d then [] else [(i, v)]
  | (k, w) :: r, i, v =>
    if i < k then (if v = d then (k, w) :: r else (i, v) :: (k, w) :: r)
    else if i = k then (if v = d then r else (i, v) :: r)
    else (k, w) :: mset d r i v

/-- An entry changed by a function. -/
def mmod {α : Type} [DecidableEq α] (d : α) (m : SMap α) (i : Nat) (f : α → α) : SMap α :=
  mset d m i (f (mget d m i))

/-- Every listed key lies at or above `lo`, rises, and no entry equals `d`. -/
def MapOk {α : Type} [DecidableEq α] (d : α) : Nat → SMap α → Bool
  | _, [] => true
  | lo, (k, v) :: r => decide (lo ≤ k) && decide (v ≠ d) && MapOk d (k + 1) r

/-- Every listed key lies at or above `lo`, and the keys rise. -/
def KeysRise {α : Type} : Nat → SMap α → Bool
  | _, [] => true
  | lo, (k, _) :: r => decide (lo ≤ k) && KeysRise (k + 1) r

/-- A list with its `i`-th entry replaced. -/
def setAt {α : Type} : List α → Nat → α → List α
  | [], _, _ => []
  | _ :: r, 0, v => v :: r
  | a :: r, i + 1, v => a :: setAt r i v

/-- Insertion of a number into an ascending list without repeats. -/
def insertAsc : Nat → List Nat → List Nat
  | i, [] => [i]
  | i, k :: r => if i < k then i :: k :: r else if i = k then k :: r else k :: insertAsc i r

/-- The index of the first entry that satisfies `p`. -/
def findIdx {α : Type} (p : α → Bool) : List α → Option Nat
  | [] => none
  | a :: r => if p a then some 0 else (findIdx p r).map (· + 1)

/-- The largest of the numbers, 0 for none. -/
def maxOf : List Nat → Nat
  | [] => 0
  | a :: r => max a (maxOf r)

/-- The smallest entry under a key, the first of equals. -/
def minByKey {α : Type} (key : α → Nat) : List α → Option α
  | [] => none
  | a :: r =>
    match minByKey key r with
    | none => some a
    | some b => if key b < key a then some b else some a

/-- Lists of at most `n` entries from the front of `l`, in order; `fuel` bounds the count. -/
def chunks {α : Type} (n : Nat) : Nat → List α → List (List α)
  | 0, _ => []
  | fuel + 1, l => if l.isEmpty then [] else l.take n :: chunks n fuel (l.drop n)

/-- The pieces of a list in runs of `n`. -/
def chunksOf {α : Type} (n : Nat) (l : List α) : List (List α) := chunks n l.length l

end Sys2Proof.Machine
end

