-- ==== Sys2Proof/Machine/Memory.lean ====
section
/-! DEFINITION. The 144/128 check code (R287 to R290) and memories of codewords: bytes, check differences, whole and partial
writes (R297), the flip masks' effect on a stored word (R303). -/
namespace Sys2Proof.Machine

open Sys2Proof

/-- The columns W of R287. -/
def eccW : List (BitVec 8) :=
  [0x03, 0x05, 0x06, 0x11, 0x21, 0x42, 0x82, 0x14, 0x44, 0x18, 0x28, 0x48, 0x88, 0x30, 0xA0, 0xC0]

/-- The number of set bits of a byte. -/
def popcount8 (b : Byte) : Nat := (bitsOf 8 b.toNat).length

/-- encode of R287: the 16 check bits of 16 data bytes. -/
def eccEncode (d : List Byte) : BitVec 16 :=
  let lo := d.foldl (fun a b => a ^^^ b) (0 : Byte)
  let hi := (d.zip eccW).foldl (fun a p => if popcount8 p.1 % 2 = 1 then a ^^^ p.2 else a) (0 : Byte)
  hi ++ lo

/-- The poison difference of R289. -/
def poisonSyn : BitVec 16 := 0x0F0F

/-- The set bit of a byte with one set bit. -/
def oneBit (b : Byte) : Option Nat :=
  match bitsOf 8 b.toNat with
  | [i] => some i
  | _ => none

/-- locate of R290: the bit position that a syndrome names. -/
def eccLocate (s : BitVec 16) : Option Nat :=
  let lo : Byte := s.extractLsb' 0 8
  let hi : Byte := s.extractLsb' 8 8
  match oneBit lo, oneBit hi with
  | some i, _ =>
    if hi = 0 then some (128 + i)
    else (findIdx (fun w => w == hi) eccW).map fun j => 8 * j + i
  | none, some k => if lo = 0 then some (136 + k) else none
  | none, none => none

/-- The classes of R290. -/
inductive EccClass where
  | clean
  | corrected (b : Nat)
  | poison (b : Option Nat)
  | uncorrectable
  deriving DecidableEq, Repr

/-- check of R290, on the syndrome of the word. -/
def eccCheck (s : BitVec 16) : EccClass :=
  if s = 0 then .clean
  else if s = poisonSyn then .poison none
  else
    match eccLocate s with
    | some b => .corrected b
    | none =>
      match eccLocate (s ^^^ poisonSyn) with
      | some b => .poison (some b)
      | none => .uncorrectable

/-- Data bytes with codeword bit `b` flipped; check bits are not among them. -/
def flipDataBit (d : List Byte) (b : Nat) : List Byte :=
  if b < 128 then setAt d (b / 8) (d.getD (b / 8) 0 ^^^ BitVec.ofNat 8 (2 ^ (b % 8))) else d

/-- A codeword as a reader gets it: the corrected data, whether it must not be consumed, its class and its syndrome. -/
structure Checked where
  data : List Byte
  bad : Bool
  cls : EccClass
  syn : BitVec 16
  deriving DecidableEq, Repr

/-- A received word classified and corrected (R290). -/
def eccReceive (d : List Byte) (s : BitVec 16) : Checked :=
  match eccCheck s with
  | .clean => { data := d, bad := false, cls := .clean, syn := s }
  | .corrected b => { data := flipDataBit d b, bad := false, cls := .corrected b, syn := s }
  | .poison none => { data := d, bad := true, cls := .poison none, syn := s }
  | .poison (some b) => { data := flipDataBit d b, bad := true, cls := .poison (some b), syn := s }
  | .uncorrectable => { data := d, bad := true, cls := .uncorrectable, syn := s }

/-- The byte at an address. -/
def Memory.byte (m : Memory) (a : Nat) : Byte := mget 0 m.bytes a

/-- A byte stored, the check bits of its codeword left as they are in difference. -/
def Memory.setByte (m : Memory) (a : Nat) (b : Byte) : Memory := { m with bytes := mset 0 m.bytes a b }

/-- `n` bytes from an address. -/
def Memory.read (m : Memory) (a n : Nat) : List Byte := (List.range n).map fun i => m.byte (a + i)

/-- Bytes stored from an address, check differences unchanged. -/
def Memory.put (m : Memory) (a : Nat) : List Byte → Memory
  | [] => m
  | b :: r => Memory.put (m.setByte a b) (a + 1) r

/-- The check difference of a codeword. -/
def Memory.synAt (m : Memory) (cw : Nat) : BitVec 16 := mget 0 m.syn cw

/-- A check difference set. -/
def Memory.setSyn (m : Memory) (cw : Nat) (s : BitVec 16) : Memory := { m with syn := mset 0 m.syn cw s }

/-- The canonical form of a memory: addresses rising, no byte 0 listed, no check difference 0 listed. -/
def Memory.wf (m : Memory) : Bool := MapOk (0 : Byte) 0 m.bytes && MapOk (0 : BitVec 16) 0 m.syn

/-- A codeword as read and checked. -/
def Memory.cw (m : Memory) (cw : Nat) : Checked := eccReceive (m.read (16 * cw) 16) (m.synAt cw)

/-- A whole codeword stored: encoded, or poisoned, and damaged by an optional 144-bit flip mask (R287, R289, R303). -/
def Memory.putCw (m : Memory) (cw : Nat) (d : List Byte) (poison : Bool) (mask : Option (BitVec 144)) : Memory :=
  let p : BitVec 16 := if poison then poisonSyn else 0
  match mask with
  | none => (m.put (16 * cw) d).setSyn cw p
  | some k =>
    let d' := (List.range 16).map fun j => d.getD j 0 ^^^ k.extractLsb' (8 * j) 8
    (m.put (16 * cw) d').setSyn cw (eccEncode d' ^^^ eccEncode d ^^^ p ^^^ k.extractLsb' 128 16)

/-- Bytes of a codeword replaced where given (R297). -/
def mergeBytes (old : List Byte) (new : List (Option Byte)) : List Byte :=
  (List.range 16).map fun i =>
    match new.getD i none with
    | some b => b
    | none => old.getD i 0

/-- A write to one codeword: whole when every byte is given, else a read-modify-write whose result is poisoned when the old
word was bad (R297). -/
def Memory.writeCw (m : Memory) (cw : Nat) (new : List (Option Byte)) (poison : Bool)
    (mask : Option (BitVec 144)) : Memory :=
  if (List.range 16).all fun i => (new.getD i none).isSome then
    m.putCw cw (mergeBytes [] new) poison mask
  else
    let old := m.cw cw
    m.putCw cw (mergeBytes old.data new) (poison || old.bad) mask

/-- The bytes of a run that fall into codeword `cw`, as optional bytes of that codeword. -/
def cwPart (a : Nat) (bs : List Byte) (cw : Nat) : List (Option Byte) :=
  (List.range 16).map fun i =>
    let p := 16 * cw + i
    if a ≤ p ∧ p < a + bs.length then bs[p - a]? else none

/-- The codewords that a run of `n` bytes from `a` touches. -/
def cwsOf (a n : Nat) : List Nat :=
  if n = 0 then [] else (List.range ((a + n - 1) / 16 + 1 - a / 16)).map fun i => a / 16 + i

/-- A run of bytes written, codeword by codeword; a codeword whose source was bad is written poisoned. `mask` fires on the first
codeword. -/
def Memory.write (m : Memory) (a : Nat) (bs : List Byte) (badCw : Nat → Bool) (mask : Option (BitVec 144)) : Memory :=
  ((cwsOf a bs.length).foldl
    (fun (acc : Memory × Option (BitVec 144)) c => (acc.1.writeCw c (cwPart a bs c) (badCw c) acc.2, none))
    (m, mask)).1

/-- A run of bytes read: the corrected bytes, and the codewords of the run that were bad. -/
def Memory.fetch (m : Memory) (a n : Nat) : List Byte × List Nat :=
  let cs := (cwsOf a n).map fun c => (c, m.cw c)
  let all := cs.flatMap fun p => p.2.data
  ((all.drop (a % 16)).take n, (cs.filter fun p => p.2.bad).map (·.1))

end Sys2Proof.Machine
end

