-- ==== Sys2Proof/Machine/Num.lean ====
section
/-! DEFINITION. Number formats, conversions, roundings and FP32 arithmetic (R28 to R38, R49, R138). Element codes are numbers; a
code's value is nan, a signed infinity, or a signed dyadic m × 2^e held exactly. -/
namespace Sys2Proof.Machine

open Sys2Proof

/-- A value of a floating-point or integer element. -/
inductive FV where
  | nan
  | inf (neg : Bool)
  | fin (neg : Bool) (m : Nat) (e : Int)
  deriving DecidableEq, Repr

/-- A floating-point encoding of R31: exponent bits, mantissa bits, bias, the largest finite code, the canonical NaN (none where
the format has no NaN), and the code of infinity (none where it has none). -/
structure FSpec where
  ew : Nat
  mw : Nat
  bias : Int
  maxFin : Nat
  nanCode : Option Nat
  infCode : Option Nat
  deriving DecidableEq, Repr

/-- FP32. -/
def specF32 : FSpec := ⟨8, 23, 127, 0x7F7FFFFF, some 0x7FC00000, some 0x7F800000⟩
/-- BF16; its canonical NaN is 0x7FC0 (R31 prints 0x7FC0 with a digit too many for 16 bits; log entry 12). -/
def specBf16 : FSpec := ⟨8, 7, 127, 0x7F7F, some 0x7FC0, some 0x7F80⟩
/-- FP8 E4M3. -/
def specE4m3 : FSpec := ⟨4, 3, 7, 0x7E, some 0x7F, none⟩
/-- FP8 E5M2. -/
def specE5m2 : FSpec := ⟨5, 2, 15, 0x7B, some 0x7F, some 0x7C⟩
/-- FP6 E3M2. -/
def specE3m2 : FSpec := ⟨3, 2, 3, 0x1F, none, none⟩
/-- FP6 E2M3. -/
def specE2m3 : FSpec := ⟨2, 3, 1, 0x1F, none, none⟩
/-- FP4 E2M1. -/
def specE2m1 : FSpec := ⟨2, 1, 1, 0x7, none, none⟩

/-- The element encoding of a format code of R29; none for the integer formats and E8M0. -/
def fmtSpec : Nat → Option FSpec
  | 0x0 => some specF32
  | 0x1 => some specBf16
  | 0x2 => some specE4m3
  | 0x3 => some specE5m2
  | 0x4 => some specE4m3
  | 0x5 => some specE5m2
  | 0x6 => some specE3m2
  | 0x7 => some specE2m3
  | 0x8 => some specE2m1
  | _ => none

/-- Element bits of a format code (R29). -/
def fmtBits : Nat → Nat
  | 0x0 => 32
  | 0x1 => 16
  | 0x6 => 6
  | 0x7 => 6
  | 0x8 => 4
  | 0xA => 32
  | _ => 8

/-- Whether a format has block scales (R29). -/
def fmtMx (f : Nat) : Bool := decide (4 ≤ f) && decide (f ≤ 8)

/-- The largest element exponent of an MX format (R34, R36). -/
def fmtEmax : Nat → Int
  | 0x4 => 8
  | 0x5 => 15
  | 0x6 => 4
  | _ => 2

/-- The value of a floating-point code (R31). -/
def decodeSpec (s : FSpec) (c : Nat) : FV :=
  let neg := bit c (s.ew + s.mw)
  let a := c % 2 ^ (s.ew + s.mw)
  if s.maxFin < a then (if s.infCode = some a then .inf neg else .nan)
  else
    let ef := a / 2 ^ s.mw
    let mf := a % 2 ^ s.mw
    if ef = 0 then .fin neg mf (1 - s.bias - s.mw)
    else .fin neg (2 ^ s.mw + mf) ((ef : Int) - s.bias - s.mw)

/-- An integer as a value. -/
def intVal (v : Int) : FV := .fin (decide (v < 0)) v.natAbs 0

/-- The value of an element code of a format, without its block scale. -/
def elemVal (f c : Nat) : FV :=
  match fmtSpec f with
  | some s => decodeSpec s c
  | none => if f = 0xA then intVal (signedOf 32 c) else intVal (signedOf 8 c)

/-- A value times 2^k. -/
def FV.scale (k : Int) : FV → FV
  | .fin n m e => .fin n m (e + k)
  | v => v

/-- A block element with its scale byte (R32). -/
def scaledVal (f c s : Nat) : FV := if s = 255 then .nan else (elemVal f c).scale ((s : Int) - 127)

/-- E(x) of a finite nonzero value. -/
def expOf (m : Nat) (e : Int) : Int := (Nat.log2 m : Int) + e

/-- The opposite value. -/
def FV.neg : FV → FV
  | .nan => .nan
  | .inf n => .inf (!n)
  | .fin n m e => .fin (!n) m e

/-- The magnitude. -/
def FV.abs : FV → FV
  | .nan => .nan
  | .inf _ => .inf false
  | .fin _ m e => .fin false m e

/-- Whether the value is negative or −0. -/
def FV.isNeg : FV → Bool
  | .nan => false
  | .inf n => n
  | .fin n _ _ => n

/-- Whether the value is zero. -/
def FV.isZero : FV → Bool
  | .fin _ m _ => m == 0
  | _ => false

/-- m × 2^e as a multiple of 2^k, for k ≤ e. -/
def alignTo (neg : Bool) (m : Nat) (e k : Int) : Int :=
  let v : Int := (m * 2 ^ (e - k).toNat : Nat)
  if neg then -v else v

/-- a < b for values that are not NaN; false otherwise. -/
def FV.lt : FV → FV → Bool
  | .nan, _ => false
  | _, .nan => false
  | .inf a, .inf b => a && !b
  | .inf a, .fin _ _ _ => a
  | .fin _ _ _, .inf b => !b
  | .fin n m e, .fin n' m' e' => decide (alignTo n m e (min e e') < alignTo n' m' e' (min e e'))

/-- Rounding modes: to nearest even, or stochastic with the upper 32 bits of the generator word (R37). -/
inductive Rnd where
  | rne
  | sr (r : Nat)
  deriving DecidableEq, Repr

/-- m × 2^e in units of 2^q, rounded to an integer (R37). -/
def roundUnits (rnd : Rnd) (m : Nat) (e q : Int) : Nat :=
  if q ≤ e then m * 2 ^ (e - q).toNat
  else
    let sh := (q - e).toNat
    let t := m / 2 ^ sh
    let rem := m % 2 ^ sh
    match rnd with
    | .rne => if 2 * rem > 2 ^ sh ∨ (2 * rem = 2 ^ sh ∧ t % 2 = 1) then t + 1 else t
    | .sr r => if r < rem * 2 ^ 32 / 2 ^ sh then t + 1 else t

/-- The magnitude code of m × 2^e rounded to an encoding; codes above maxFin mean overflow. -/
def roundMag (s : FSpec) (rnd : Rnd) (m : Nat) (e : Int) : Nat :=
  if m = 0 then 0
  else
    let q := max (expOf m e) (1 - s.bias) - s.mw
    let t := roundUnits rnd m e q
    (q - (1 - s.bias - s.mw)).toNat * 2 ^ s.mw + t

/-- The sign bit of an encoding. -/
def signBit (s : FSpec) (neg : Bool) : Nat := if neg then 2 ^ (s.ew + s.mw) else 0

/-- A value rounded to FP32 by round-to-nearest-even, with infinity on overflow and the canonical NaN (rne32). -/
def toF32 : FV → Nat
  | .nan => 0x7FC00000
  | .inf n => signBit specF32 n + 0x7F800000
  | .fin n m e => signBit specF32 n + min 0x7F800000 (roundMag specF32 .rne m e)

/-- The value of an FP32 code. -/
def f32 (c : Nat) : FV := decodeSpec specF32 c

/-- The exact sum of two values; an exact zero sum is +0 unless both are negative (IEEE 754). -/
def FV.add : FV → FV → FV
  | .nan, _ => .nan
  | _, .nan => .nan
  | .inf a, .inf b => if a = b then .inf a else .nan
  | .inf a, .fin _ _ _ => .inf a
  | .fin _ _ _, .inf b => .inf b
  | .fin n m e, .fin n' m' e' =>
    let k := min e e'
    let v := alignTo n m e k + alignTo n' m' e' k
    if v = 0 then .fin (n && n' && m == 0 && m' == 0) 0 0 else .fin (decide (v < 0)) v.natAbs k

/-- The exact product of two values. -/
def FV.mul : FV → FV → FV
  | .nan, _ => .nan
  | _, .nan => .nan
  | .inf a, .inf b => .inf (a != b)
  | .inf a, .fin n m _ => if m = 0 then .nan else .inf (a != n)
  | .fin n m _, .inf b => if m = 0 then .nan else .inf (n != b)
  | .fin n m e, .fin n' m' e' => .fin (n != n') (m * m') (e + e')

/-- fadd of R138 on FP32 codes. -/
def fadd (a b : Nat) : Nat := toF32 ((f32 a).add (f32 b))
/-- fsub of R138. -/
def fsub (a b : Nat) : Nat := toF32 ((f32 a).add (f32 b).neg)
/-- fmul of R138. -/
def fmul (a b : Nat) : Nat := toF32 ((f32 a).mul (f32 b))
/-- fma of R138: a × b + c with one rounding. -/
def fma (a b c : Nat) : Nat := toF32 (((f32 a).mul (f32 b)).add (f32 c))
/-- scale of R138. -/
def fscale (y : Nat) (k : Int) : Nat := toF32 ((f32 y).scale k)

/-- An exact zero replaced by +0 (R49, R143). -/
def plusZero (c : Nat) : Nat := if (f32 c).isZero then 0 else c

/-- MAX of R142 on values and their codes. -/
def maxF32 (a b : Nat) : Nat :=
  match f32 a, f32 b with
  | .nan, _ => 0x7FC00000
  | _, .nan => 0x7FC00000
  | x, y =>
    if x.isZero && y.isZero then (if x.isNeg && y.isNeg then a else 0)
    else if x.lt y then b else a

/-- MIN of R142. -/
def minF32 (a b : Nat) : Nat :=
  match f32 a, f32 b with
  | .nan, _ => 0x7FC00000
  | _, .nan => 0x7FC00000
  | x, y =>
    if x.isZero && y.isZero then (if x.isNeg || y.isNeg then 0x80000000 else 0)
    else if y.lt x then b else a

/-- What a narrowing conversion gives: the code, and whether it sets CONV_SAT and CONV_NAN (R35). -/
structure Narrowed where
  code : Nat
  sat : Bool
  nan : Bool
  deriving DecidableEq, Repr

/-- The rounded integer of a value. -/
def roundInt (rnd : Rnd) (n : Bool) (m : Nat) (e : Int) : Int :=
  let t : Int := (roundUnits rnd m e 0 : Nat)
  if n then -t else t

/-- Clamping to a range. -/
def clampInt (lo hi v : Int) : Int := if v < lo then lo else if hi < v then hi else v

/-- Narrowing to an integer format of `w` bits (R35). -/
def narrowInt (w : Nat) (rnd : Rnd) : FV → Narrowed
  | .nan => ⟨0, false, true⟩
  | .inf n => ⟨unsignedOf w (if n then -(2 ^ (w - 1)) else 2 ^ (w - 1) - 1), false, true⟩
  | .fin n m e =>
    let v := roundInt rnd n m e
    let c := clampInt (-(2 ^ (w - 1))) (2 ^ (w - 1) - 1) v
    ⟨unsignedOf w c, decide (c ≠ v), false⟩

/-- Narrowing to a floating-point format (R35). `nsat` selects the non-saturating mode; `mx` marks an element of MX quantisation,
which always saturates. -/
def narrowFloat (f : Nat) (nsat : Bool) (rnd : Rnd) (v : FV) : Narrowed :=
  match fmtSpec f with
  | none => ⟨0, false, false⟩
  | some s =>
    let overflow (n : Bool) : Nat :=
      match f with
      | 0x0 => signBit s n + 0x7F800000
      | 0x1 =>
        match rnd with
        | .rne => signBit s n + 0x7F80
        | .sr _ => signBit s n + s.maxFin
      | 0x2 => if nsat then 0x7F else signBit s n + s.maxFin
      | 0x3 => signBit s n + (if nsat then 0x7C else s.maxFin)
      | _ => signBit s n + s.maxFin
    match v with
    | .nan => ⟨s.nanCode.getD 0, false, true⟩
    | .inf n =>
      ⟨match f with
       | 0x0 => signBit s n + 0x7F800000
       | 0x1 => signBit s n + 0x7F80
       | 0x2 => if nsat then 0x7F else signBit s n + s.maxFin
       | 0x3 => signBit s n + (if nsat then 0x7C else s.maxFin)
       | _ => 0, false, true⟩
    | .fin n m e =>
      let c := roundMag s rnd m e
      if s.maxFin < c then ⟨overflow n, true, false⟩ else ⟨signBit s n + c, false, false⟩

/-- Whether R34 covers the conversion of a plain format exactly: no rounding, no flag. -/
def widens (src dst : Nat) : Bool :=
  match dst with
  | 0x0 => src == 0x0 || src == 0x1 || src == 0x2 || src == 0x3 || src == 0x9
  | 0x1 => src == 0x1 || src == 0x2 || src == 0x3 || src == 0x9
  | 0x2 => src == 0x2
  | 0x3 => src == 0x3
  | 0x9 => src == 0x9
  | 0xA => src == 0x9 || src == 0xA
  | _ => false

/-- The scale bytes for which an MX element format widens exactly to BF16 or FP32 (the table of R34). 0xFF always converts. -/
def widenScaleOk (f dst s : Nat) : Bool :=
  s == 255 ||
  (match f with
   | 0x4 => decide ((if dst = 1 then 3 else 0) ≤ s) && decide (s ≤ 246)
   | 0x5 => decide ((if dst = 1 then 10 else 0) ≤ s) && decide (s ≤ 239)
   | 0x6 => decide (s ≤ 250)
   | 0x7 => decide (s ≤ 252)
   | 0x8 => decide (s ≤ 252)
   | _ => false)

/-- An exact value as a code of a format that can hold it; a NaN becomes the canonical NaN. -/
def encodeExact (dst : Nat) (v : FV) : Nat :=
  match v with
  | .nan => ((fmtSpec dst).bind FSpec.nanCode).getD 0
  | .inf n => ((fmtSpec dst).map fun s => signBit s n + s.infCode.getD s.maxFin).getD 0
  | .fin n m e =>
    match fmtSpec dst with
    | some s => signBit s n + roundMag s .rne m e
    | none => unsignedOf (fmtBits dst) (roundInt .rne n m e)

/-- The conversion of one value of a plain source format to a destination format (R34, R35). -/
def convertVal (src dst : Nat) (nsat : Bool) (rnd : Rnd) (v : FV) : Narrowed :=
  if widens src dst then ⟨encodeExact dst v, false, false⟩
  else if dst = 0x9 then narrowInt 8 rnd v
  else if dst = 0xA then narrowInt 32 rnd v
  else narrowFloat dst nsat rnd v

/-- An FP32 result narrowed to a destination format (R139): FP32 itself passes unchanged. -/
def narrowF32 (dst : Nat) (nsat : Bool) (rnd : Rnd) (c : Nat) : Narrowed :=
  if dst = 0x0 then ⟨c, false, false⟩ else convertVal 0x0 dst nsat rnd (f32 c)

/-- An MX block: scale byte, element codes, flags. -/
structure MxBlock where
  scale : Nat
  codes : List Nat
  sat : Bool
  nan : Bool
  deriving DecidableEq, Repr

/-- Whether a value is NaN or infinity. -/
def FV.special : FV → Bool
  | .fin _ _ _ => false
  | _ => true

/-- The exponent of the largest magnitude of a list of finite values; none when all are zero. -/
def maxExp (vs : List FV) : Option Int :=
  vs.foldl (fun a v =>
    match v with
    | .fin _ m e => if m = 0 then a else some (match a with | none => expOf m e | some b => max b (expOf m e))
    | _ => a) none

/-- MX quantisation of one block (R36); `rnd` gives the rounding of each element. -/
def quantMxBlock (f : Nat) (rnd : Nat → Rnd) (vs : List FV) : MxBlock :=
  if vs.any FV.special then ⟨255, vs.map fun _ => 0, false, true⟩
  else
    match maxExp vs with
    | none => ⟨0, vs.map fun _ => 0, false, false⟩
    | some x =>
      let sh := clampInt (-127) 127 (x - fmtEmax f)
      let ns := (vs.zip (List.range vs.length)).map fun p => narrowFloat f false (rnd p.2) (p.1.scale (-sh))
      ⟨(sh + 127).toNat, ns.map (·.code), ns.any (·.sat), false⟩

/-- 64-bit rotation of R38. -/
def rotl64 (v : W64) (k : Nat) : W64 := (v <<< k) ||| (v >>> (64 - k))

/-- The rounds of sr_word. -/
def srRounds : Nat → W64 → W64 → W64
  | 0, x, y => x ^^^ y
  | n + 1, x, y =>
    let x := x * 0xC3A571E94B2D6F17
    let x := x ^^^ (x >>> 29) ^^^ y
    let y := y * 0x9B47D2E315C8A0F5
    let y := y ^^^ (y >>> 32) ^^^ x
    srRounds n x y

/-- sr_word of R38. -/
def srWord (key : W64) (frame core stream elem : Nat) : W64 :=
  let x := (BitVec.ofNat 64 ((frame % 2 ^ 48) * 2 ^ 16)) ||| BitVec.ofNat 64 core
  let y := BitVec.ofNat 64 ((stream % 256) * 2 ^ 32) ||| BitVec.ofNat 64 (elem % 2 ^ 32)
  srRounds 4 (x ^^^ key) (y ^^^ rotl64 key 32)

/-- The rounding draw of an element: the upper 32 bits of its generator word. -/
def srDraw (key : W64) (frame core stream elem : Nat) : Rnd :=
  .sr ((srWord key frame core stream elem).toNat / 2 ^ 32)

/-- One level of the tree of R49. -/
def treeLevel : List Nat → List Nat
  | a :: b :: r => fadd a b :: treeLevel r
  | l => l

/-- The tree of R49 with a bound on its depth. -/
def treeUp : Nat → List Nat → Nat
  | _, [] => 0
  | _, [a] => plusZero a
  | 0, a :: _ => plusZero a
  | n + 1, l => treeUp n (treeLevel l)

/-- tree_reduce of R49 over FP32 codes. -/
def treeReduce (l : List Nat) : Nat := treeUp l.length l

end Sys2Proof.Machine
end

