-- ==== Sys2Proof/Machine/Regs.lean ====
section
/-! DEFINITION. The register space (R563, R564): the blocks, their registers with the fields' access and reset values, and the
reading and setting of stored registers. A bit that no field of a register's table names is taken as reserved (log entry 11). -/
namespace Sys2Proof.Machine

open Sys2Proof

/-- The access codes of R14. -/
inductive Acc where
  | ro | rw | wo | w1c
  deriving DecidableEq, Repr

/-- A field, or a run of adjacent fields of one access: lowest bit, width, access. -/
structure RField where
  lo : Nat
  n : Nat
  acc : Acc
  deriving DecidableEq, Repr

/-- A register, or `count` registers `stride` bytes apart: offset in its block, reset value, fields. -/
structure RegDesc where
  off : Nat
  stride : Nat
  count : Nat
  reset : Nat
  fields : List RField
  deriving DecidableEq, Repr

/-- The registers of a COR_ block. -/
def regsCor : List RegDesc :=
  -- COR_ACC_FLAGS
  [⟨0x200, 0, 1, 0, [⟨0, 7, .w1c⟩]⟩] ++
  -- COR_ACC_UFLOW
  [⟨0x208, 0, 1, 0, [⟨0, 48, .rw⟩]⟩] ++
  -- COR_ARR_STATUS
  [⟨0x210, 0, 1, 0, [⟨0, 16, .ro⟩]⟩] ++
  -- COR_ARR_FEED, COR_ARR_NULL, COR_ARR_STALL
  [⟨0x218, 8, 3, 0, [⟨0, 48, .rw⟩]⟩] ++
  -- COR_CUE_STATUS
  [⟨0x300, 0, 1, 0, [⟨0, 16, .ro⟩, ⟨16, 1, .w1c⟩, ⟨32, 12, .ro⟩]⟩] ++
  -- COR_CUE_ERR
  [⟨0x308, 0, 1, 0, [⟨0, 1, .w1c⟩, ⟨1, 29, .ro⟩]⟩] ++
  -- COR_CUE_ERR_FRAME
  [⟨0x310, 0, 1, 0, [⟨0, 48, .ro⟩]⟩] ++
  -- COR_EVT_CNTm
  [⟨0x400, 8, 64, 0, [⟨0, 32, .ro⟩]⟩] ++
  -- COR_ATT_FLAGS
  [⟨0x600, 0, 1, 0, [⟨0, 3, .w1c⟩]⟩] ++
  -- COR_ATT_STALE, COR_ATT_WAIT
  [⟨0x608, 8, 2, 0, [⟨0, 48, .rw⟩]⟩] ++
  -- COR_KV_CFG
  [⟨0x700, 0, 1, 256, [⟨0, 3, .rw⟩, ⟨3, 1, .rw⟩, ⟨4, 4, .rw⟩, ⟨8, 8, .rw⟩]⟩] ++
  -- COR_KV_STATUS
  [⟨0x708, 0, 1, 0, [⟨0, 60, .ro⟩]⟩] ++
  -- COR_KV_CURSOR
  [⟨0x710, 0, 1, 0, [⟨0, 20, .ro⟩]⟩] ++
  -- COR_KV_FLUSHED, COR_KV_FREED
  [⟨0x718, 8, 2, 0, [⟨0, 48, .rw⟩]⟩] ++
  -- COR_KV_GRPg
  [⟨0x800, 8, 64, 0, [⟨0, 28, .ro⟩]⟩] ++
  -- COR_DRAM_CFG
  [⟨0x1000, 0, 1, 4, [⟨0, 4, .rw⟩, ⟨4, 1, .rw⟩]⟩] ++
  -- COR_DRAM_STATUS
  [⟨0x1008, 0, 1, 0, [⟨0, 45, .ro⟩]⟩] ++
  -- COR_DRAM_REMAPj
  [⟨0x1040, 8, 8, 0, [⟨0, 6, .ro⟩, ⟨7, 7, .ro⟩, ⟨15, 7, .ro⟩, ⟨23, 7, .ro⟩, ⟨31, 1, .ro⟩]⟩] ++
  -- COR_DRAM_NATIVE, COR_DRAM_NARROW, COR_DRAM_FORCED
  [⟨0x1080, 8, 3, 0, [⟨0, 48, .rw⟩]⟩] ++
  -- COR_NB_STATUS
  [⟨0x1100, 0, 1, 0, [⟨0, 37, .ro⟩]⟩] ++
  -- COR_NB_STEPS, COR_NB_SUSPEND, COR_NB_POISON
  [⟨0x1108, 8, 3, 0, [⟨0, 48, .rw⟩]⟩] ++
  -- FLIP_MASK0, FLIP_MASK1
  [⟨0x1200, 8, 2, 0, [⟨0, 64, .rw⟩]⟩] ++
  -- COR_FLIP_MASK2, STO_FLIP_MASK2
  [⟨0x1210, 0, 1, 0, [⟨0, 16, .rw⟩]⟩] ++
  -- COR_FLIP_CTL, STO_FLIP_CTL
  [⟨0x1218, 0, 1, 0, [⟨0, 1, .wo⟩, ⟨1, 1, .ro⟩, ⟨2, 1, .w1c⟩, ⟨3, 4, .rw⟩, ⟨7, 8, .rw⟩]⟩]

/-- The registers of a TWR_ block. -/
def regsTwr : List RegDesc :=
  -- TWR_DRAM_REF
  [⟨0x301000, 0, 1, 0, [⟨0, 26, .ro⟩]⟩] ++
  -- TWR_DRAM_ADDR_ERR
  [⟨0x301008, 0, 1, 0, [⟨0, 48, .rw⟩]⟩] ++
  -- TWR_NB_FENCE
  [⟨0x301100, 0, 1, 2, [⟨0, 1, .wo⟩, ⟨1, 1, .ro⟩]⟩] ++
  -- TWR_MEM_ERR_STATUS
  [⟨0x301200, 0, 1, 0, [⟨0, 3, .w1c⟩]⟩] ++
  -- TWR_MEM_CE_COUNT, TWR_MEM_UE_COUNT
  [⟨0x301208, 8, 2, 0, [⟨0, 48, .rw⟩]⟩] ++
  -- TWR_SCRUB, STO_SCRUB
  [⟨0x301220, 0, 1, 2881, [⟨0, 1, .rw⟩, ⟨1, 16, .rw⟩, ⟨17, 1, .w1c⟩, ⟨32, 16, .ro⟩]⟩] ++
  -- TWR_XING_STATUS
  [⟨0x302000, 0, 1, 0, [⟨0, 19, .ro⟩, ⟨19, 2, .w1c⟩, ⟨21, 1, .ro⟩]⟩] ++
  -- TWR_RECOVERY
  [⟨0x302008, 0, 1, 1, [⟨0, 1, .rw⟩, ⟨1, 3, .ro⟩]⟩] ++
  -- TWR_PWR
  [⟨0x303000, 0, 1, 4128, [⟨0, 6, .ro⟩, ⟨8, 16, .ro⟩, ⟨24, 1, .w1c⟩]⟩] ++
  -- TWR_LOG_STATUS, STO_LOG_STATUS
  [⟨0x304000, 0, 1, 0, [⟨0, 9, .ro⟩, ⟨9, 1, .w1c⟩, ⟨10, 1, .wo⟩, ⟨32, 16, .ro⟩]⟩] ++
  -- TWR_LOG_LOST, STO_LOG_LOST
  [⟨0x304008, 0, 1, 0, [⟨0, 48, .rw⟩]⟩] ++
  -- +0x00
  [⟨0x305000, 32, 256, 0, [⟨0, 25, .ro⟩, ⟨32, 32, .ro⟩]⟩] ++
  -- +0x08
  [⟨0x305008, 32, 256, 0, [⟨0, 64, .ro⟩]⟩] ++
  -- +0x10
  [⟨0x305010, 32, 256, 0, [⟨0, 64, .ro⟩]⟩] ++
  -- +0x18
  [⟨0x305018, 32, 256, 0, [⟨0, 64, .ro⟩]⟩]

/-- The registers of a STO_ block. -/
def regsSto : List RegDesc :=
  -- STO_STATUS
  [⟨0x0, 0, 1, 0, [⟨0, 11, .ro⟩, ⟨16, 23, .ro⟩]⟩] ++
  -- STO_ERR_STATUS
  [⟨0x8, 0, 1, 0, [⟨0, 6, .w1c⟩]⟩] ++
  -- STO_CE_COUNT, STO_UE_COUNT, STO_STALE, STO_TIMEOUT
  [⟨0x10, 8, 4, 0, [⟨0, 48, .rw⟩]⟩] ++
  -- TWR_SCRUB, STO_SCRUB
  [⟨0x40, 0, 1, 2881, [⟨0, 1, .rw⟩, ⟨1, 16, .rw⟩, ⟨17, 1, .w1c⟩, ⟨32, 16, .ro⟩]⟩] ++
  -- FLIP_MASK0, FLIP_MASK1
  [⟨0x100, 8, 2, 0, [⟨0, 64, .rw⟩]⟩] ++
  -- COR_FLIP_MASK2, STO_FLIP_MASK2
  [⟨0x110, 0, 1, 0, [⟨0, 16, .rw⟩]⟩] ++
  -- COR_FLIP_CTL, STO_FLIP_CTL
  [⟨0x118, 0, 1, 0, [⟨0, 1, .wo⟩, ⟨1, 1, .ro⟩, ⟨2, 1, .w1c⟩, ⟨3, 4, .rw⟩, ⟨7, 8, .rw⟩]⟩] ++
  -- STO_SLICE_MAPn
  [⟨0x1000, 8, 256, 0, [⟨0, 10, .ro⟩]⟩] ++
  -- STO_MCAST_Gg_Ww
  [⟨0x10000, 8, 1024, 0, [⟨0, 64, .rw⟩]⟩] ++
  -- STO_MERGE_LOr
  [⟨0x20000, 16, 16, 0, [⟨0, 1, .rw⟩, ⟨12, 36, .rw⟩]⟩] ++
  -- STO_MERGE_HIr
  [⟨0x20008, 16, 16, 0, [⟨12, 36, .rw⟩]⟩] ++
  -- STO_PFX_CFG
  [⟨0x40000, 0, 1, 0, [⟨0, 1, .rw⟩, ⟨1, 1, .rw⟩]⟩] ++
  -- STO_PFX_BASE
  [⟨0x40008, 0, 1, 0, [⟨0, 48, .rw⟩]⟩] ++
  -- STO_PFX_MISMATCH
  [⟨0x40010, 0, 1, 0, [⟨0, 48, .rw⟩]⟩] ++
  -- TWR_LOG_STATUS, STO_LOG_STATUS
  [⟨0x50000, 0, 1, 0, [⟨0, 9, .ro⟩, ⟨9, 1, .w1c⟩, ⟨10, 1, .wo⟩, ⟨32, 16, .ro⟩]⟩] ++
  -- TWR_LOG_LOST, STO_LOG_LOST
  [⟨0x50008, 0, 1, 0, [⟨0, 48, .rw⟩]⟩] ++
  -- +0x00
  [⟨0x51000, 32, 256, 0, [⟨0, 25, .ro⟩, ⟨32, 32, .ro⟩]⟩] ++
  -- +0x08
  [⟨0x51008, 32, 256, 0, [⟨0, 64, .ro⟩]⟩] ++
  -- +0x10
  [⟨0x51010, 32, 256, 0, [⟨0, 64, .ro⟩]⟩] ++
  -- +0x18
  [⟨0x51018, 32, 256, 0, [⟨0, 64, .ro⟩]⟩]

/-- The registers of a SVC_ block. -/
def regsSvc : List RegDesc :=
  -- SVC_VERSION
  [⟨0x0, 0, 1, 0x10501d505, [⟨0, 38, .ro⟩]⟩] ++
  -- SVC_FW0
  [⟨0x8, 0, 1, 0, [⟨0, 64, .ro⟩]⟩] ++
  -- SVC_FW1
  [⟨0x10, 0, 1, 0, [⟨0, 32, .ro⟩]⟩] ++
  -- SVC_FUSE
  [⟨0x20, 0, 1, 0, [⟨0, 28, .ro⟩]⟩] ++
  -- SVC_STATUS
  [⟨0x40, 0, 1, 0, [⟨0, 23, .ro⟩]⟩] ++
  -- SVC_CORES0, SVC_CORES1
  [⟨0x48, 8, 2, 0, [⟨0, 64, .ro⟩]⟩] ++
  -- SVC_CORES2
  [⟨0x58, 0, 1, 0, [⟨0, 32, .ro⟩]⟩] ++
  -- SVC_IRQ_STATUS
  [⟨0x100, 0, 1, 0, [⟨0, 8, .w1c⟩]⟩] ++
  -- SVC_IRQ_ENABLE
  [⟨0x108, 0, 1, 255, [⟨0, 8, .rw⟩]⟩] ++
  -- SVC_LUMAPt_w
  [⟨0x400, 8, 40, 0xfffffffffffffff, [⟨0, 60, .ro⟩]⟩] ++
  -- SVC_RETIRE_ADD
  [⟨0x8000, 0, 1, 0, [⟨0, 64, .wo⟩]⟩] ++
  -- SVC_RETIRE_STATUS
  [⟨0x8008, 0, 1, 0, [⟨0, 16, .ro⟩]⟩] ++
  -- SVC_FPRINTw
  [⟨0x9000, 8, 4, 0, [⟨0, 64, .ro⟩]⟩] ++
  -- SVC_FPRINT_STATUS
  [⟨0x9020, 0, 1, 0, [⟨0, 1, .ro⟩, ⟨1, 1, .w1c⟩]⟩] ++
  -- SVC_CONT_CTL
  [⟨0x9100, 0, 1, 0, [⟨0, 1, .rw⟩]⟩] ++
  -- SVC_CONT_MISMATCH
  [⟨0x9108, 0, 1, 0, [⟨0, 62, .ro⟩, ⟨63, 1, .w1c⟩]⟩] ++
  -- SVC_CONT_PARTNER_DARK
  [⟨0x9110, 0, 1, 0, [⟨0, 48, .rw⟩]⟩] ++
  -- SVC_SAVE_STATUS
  [⟨0x9118, 0, 1, 0, [⟨0, 8, .ro⟩]⟩] ++
  -- SVC_PWR_IN
  [⟨0xa000, 0, 1, 0, [⟨0, 48, .ro⟩]⟩] ++
  -- SVC_PWR_EVT
  [⟨0xa008, 0, 1, 0, [⟨0, 4, .w1c⟩]⟩] ++
  -- SVC_RESET_CAUSE
  [⟨0xa010, 0, 1, 0, [⟨0, 4, .ro⟩]⟩] ++
  -- SVC_RESET
  [⟨0xa018, 0, 1, 0, [⟨0, 16, .wo⟩]⟩] ++
  -- SVC_START_STATUS
  [⟨0xb000, 0, 1, 1, [⟨0, 20, .ro⟩, ⟨20, 1, .w1c⟩, ⟨32, 32, .ro⟩]⟩] ++
  -- SVC_SLATE_ADDR
  [⟨0xb008, 0, 1, 0, [⟨0, 17, .rw⟩, ⟨63, 1, .ro⟩]⟩] ++
  -- slate window
  [⟨0xc000, 8, 512, 0, [⟨0, 64, .ro⟩]⟩] ++
  -- SVC_TAKE_STATUS
  [⟨0xd000, 0, 1, 0, [⟨0, 8, .ro⟩]⟩] ++
  -- SVC_FAULT
  [⟨0xd008, 0, 1, 0, [⟨0, 1, .w1c⟩, ⟨1, 27, .ro⟩]⟩] ++
  -- SVC_FAULT_FRAME
  [⟨0xd010, 0, 1, 0, [⟨0, 48, .ro⟩]⟩] ++
  -- SVC_FAULT_ADDR
  [⟨0xd018, 0, 1, 0, [⟨0, 64, .ro⟩]⟩] ++
  -- SVC_FAULT_TOWERS
  [⟨0xd020, 0, 1, 0, [⟨0, 20, .ro⟩]⟩] ++
  -- SVC_FAULT_MORE
  [⟨0xd028, 0, 1, 0, [⟨0, 48, .rw⟩]⟩] ++
  -- SVC_RETIRE_TBLi
  [⟨0x10000, 8, 4096, 0, [⟨0, 64, .ro⟩]⟩]

/-- The registers of a GAF_ block. -/
def regsGaf : List RegDesc :=
  -- GAF_CFG
  [⟨0x0, 0, 1, 0x4650a0a0064, [⟨0, 10, .ro⟩, ⟨16, 8, .rw⟩, ⟨24, 4, .rw⟩, ⟨32, 11, .rw⟩]⟩] ++
  -- GAF_CAP
  [⟨0x8, 0, 1, 0x5f555aa898, [⟨0, 12, .rw⟩, ⟨12, 11, .rw⟩, ⟨24, 8, .rw⟩, ⟨32, 8, .rw⟩]⟩] ++
  -- GAF_CTL
  [⟨0x10, 0, 1, 0, [⟨0, 1, .rw⟩]⟩] ++
  -- GAF_STATUS
  [⟨0x18, 0, 1, 0, [⟨0, 4, .ro⟩, ⟨4, 1, .w1c⟩, ⟨5, 1, .ro⟩, ⟨6, 3, .w1c⟩, ⟨9, 1, .ro⟩, ⟨10, 1, .w1c⟩]⟩] ++
  -- GAF_TICK, GAF_FRAME
  [⟨0x20, 8, 2, 0, [⟨0, 48, .ro⟩]⟩] ++
  -- GAF_DARK
  [⟨0x30, 0, 1, 0, [⟨0, 22, .ro⟩]⟩] ++
  -- GAF_DARK_COUNT
  [⟨0x38, 0, 1, 0, [⟨0, 48, .rw⟩]⟩] ++
  -- GAF_SLACK
  [⟨0x40, 0, 1, 0xffffff000000, [⟨0, 48, .ro⟩]⟩] ++
  -- GAF_OVERRUN
  [⟨0x48, 0, 1, 0, [⟨0, 1, .w1c⟩, ⟨1, 29, .ro⟩]⟩] ++
  -- GAF_FLOW
  [⟨0x50, 0, 1, 0xffff0000, [⟨0, 48, .ro⟩]⟩] ++
  -- GAF_GUARD_SKIP
  [⟨0x58, 0, 1, 0, [⟨0, 48, .rw⟩]⟩] ++
  -- GAF_CLAP_MASTER
  [⟨0x60, 0, 1, 0, [⟨0, 64, .ro⟩]⟩] ++
  -- GAF_CLAP_STATUS
  [⟨0x68, 0, 1, 0, [⟨0, 37, .ro⟩, ⟨40, 16, .ro⟩]⟩] ++
  -- GAF_LAND_LATE, GAF_LAND_EVICT
  [⟨0x70, 8, 2, 0, [⟨0, 48, .rw⟩]⟩] ++
  -- +0x00
  [⟨0x1000, 32, 20, 0, [⟨0, 64, .ro⟩]⟩] ++
  -- +0x08
  [⟨0x1008, 32, 20, 0, [⟨0, 64, .ro⟩]⟩] ++
  -- +0x10
  [⟨0x1010, 32, 20, 0, [⟨0, 34, .ro⟩]⟩] ++
  -- +0x18
  [⟨0x1018, 32, 20, 0, [⟨0, 32, .ro⟩]⟩]

/-- The registers of a THM_ block. -/
def regsThm : List RegDesc :=
  -- THM_STATUS
  [⟨0x0, 0, 1, 0, [⟨0, 1, .w1c⟩, ⟨1, 1, .ro⟩, ⟨2, 7, .w1c⟩, ⟨9, 2, .ro⟩, ⟨11, 1, .w1c⟩]⟩] ++
  -- THM_COOLANT
  [⟨0x8, 0, 1, 0x80008000, [⟨0, 48, .ro⟩]⟩] ++
  -- THM_WARN
  [⟨0x10, 0, 1, 21855, [⟨0, 16, .ro⟩]⟩] ++
  -- THM_TWRt layers 0 to 3
  [⟨0x1000, 128, 20, 0x8000800080008000, [⟨0, 64, .ro⟩]⟩] ++
  -- THM_TWRt layers +0x08
  [⟨0x1008, 128, 20, 0x8000800080008000, [⟨0, 64, .ro⟩]⟩] ++
  -- THM_TWRt layers +0x10
  [⟨0x1010, 128, 20, 0x8000800080008000, [⟨0, 64, .ro⟩]⟩] ++
  -- THM_TWRt layers +0x18
  [⟨0x1018, 128, 20, 0x800080008000, [⟨0, 48, .ro⟩]⟩] ++
  -- THM_TWRt MODEL
  [⟨0x1020, 128, 20, 0x8000800080008000, [⟨0, 64, .ro⟩]⟩] ++
  -- +0x28
  [⟨0x1028, 128, 20, 0, [⟨0, 45, .ro⟩]⟩] ++
  -- +0x30
  [⟨0x1030, 128, 20, 0, [⟨0, 63, .ro⟩]⟩] ++
  -- +0x38
  [⟨0x1038, 128, 20, 0, [⟨0, 64, .ro⟩]⟩]

/-- The registers of a BRG_ block. -/
def regsBrg : List RegDesc :=
  -- BRG_STATUS
  [⟨0x0, 0, 1, 0, [⟨0, 18, .ro⟩, ⟨18, 2, .w1c⟩, ⟨32, 7, .ro⟩]⟩] ++
  -- BRG_MODm
  [⟨0x100, 8, 28, 0, [⟨0, 10, .ro⟩, ⟨10, 1, .w1c⟩, ⟨11, 1, .ro⟩]⟩] ++
  -- BRG_CRC_ERR, BRG_REPLAY
  [⟨0x200, 8, 2, 0, [⟨0, 48, .rw⟩]⟩]

/-- The registers of a FAB_ block. -/
def regsFab : List RegDesc :=
  -- FAB_STATUS
  [⟨0x0, 0, 1, 0xffff00, [⟨0, 4, .ro⟩, ⟨8, 17, .ro⟩, ⟨25, 1, .w1c⟩, ⟨32, 16, .ro⟩]⟩] ++
  -- FAB_IDENTITY, FAB_COORD
  [⟨0x8, 8, 2, 0, [⟨0, 64, .ro⟩]⟩] ++
  -- FAB_EPOCH
  [⟨0x18, 0, 1, 0, [⟨0, 32, .ro⟩]⟩] ++
  -- FAB_ERR_STATUS
  [⟨0x20, 0, 1, 0, [⟨0, 8, .w1c⟩]⟩] ++
  -- FAB_ counters
  [⟨0x40, 8, 7, 0, [⟨0, 48, .rw⟩]⟩] ++
  -- FAB_PORTp_STATUS
  [⟨0x100, 16, 16, 0, [⟨0, 9, .ro⟩, ⟨9, 1, .w1c⟩, ⟨10, 1, .ro⟩, ⟨16, 16, .ro⟩]⟩] ++
  -- FAB_PORTp_PARTNER
  [⟨0x108, 16, 16, 0, [⟨0, 64, .ro⟩]⟩] ++
  -- FLIP_MASK0, FLIP_MASK1
  [⟨0x300, 8, 2, 0, [⟨0, 64, .rw⟩]⟩] ++
  -- COR_FLIP_MASK2, STO_FLIP_MASK2
  [⟨0x310, 0, 1, 0, [⟨0, 16, .rw⟩]⟩] ++
  -- COR_FLIP_CTL, STO_FLIP_CTL
  [⟨0x318, 0, 1, 0, [⟨0, 1, .wo⟩, ⟨1, 1, .ro⟩, ⟨2, 1, .w1c⟩, ⟨3, 4, .rw⟩, ⟨7, 8, .rw⟩]⟩] ++
  -- FAB_COLLe
  [⟨0x400, 8, 8, 0, [⟨0, 1, .ro⟩, ⟨1, 1, .w1c⟩, ⟨16, 32, .ro⟩]⟩] ++
  -- FAB_ROUTEd
  [⟨0x100000, 8, 65536, 0, [⟨0, 32, .ro⟩]⟩]

/-- The registers of a HST_ block. -/
def regsHst : List RegDesc :=
  -- HST_STATUS
  [⟨0x0, 0, 1, 0, [⟨0, 12, .ro⟩]⟩] ++
  -- HST_WIN
  [⟨0x8, 0, 1, 0, [⟨30, 18, .rw⟩]⟩] ++
  -- HST_ERR_STATUS
  [⟨0x10, 0, 1, 0, [⟨0, 4, .w1c⟩]⟩] ++
  -- HST_ADDR_ERR, HST_POISON_OUT, HST_POISON_IN
  [⟨0x18, 8, 3, 0, [⟨0, 48, .rw⟩]⟩] ++
  -- HST_MBX_CMD
  [⟨0x100, 0, 1, 0, [⟨0, 8, .wo⟩]⟩] ++
  -- HST_MBX_STATUS
  [⟨0x108, 0, 1, 0, [⟨0, 1, .ro⟩, ⟨8, 16, .ro⟩]⟩] ++
  -- HST_MBX_ARG0 to 3
  [⟨0x110, 8, 4, 0, [⟨0, 64, .rw⟩]⟩] ++
  -- +0x00
  [⟨0x200, 64, 8, 0, [⟨0, 64, .rw⟩]⟩] ++
  -- +0x08
  [⟨0x208, 64, 8, 4, [⟨0, 5, .rw⟩]⟩] ++
  -- +0x10
  [⟨0x210, 64, 8, 0, [⟨0, 16, .ro⟩]⟩] ++
  -- +0x18
  [⟨0x218, 64, 8, 0, [⟨0, 16, .rw⟩]⟩] ++
  -- +0x20
  [⟨0x220, 64, 8, 0, [⟨0, 64, .rw⟩]⟩] ++
  -- +0x28
  [⟨0x228, 64, 8, 0, [⟨0, 1, .rw⟩, ⟨1, 1, .ro⟩, ⟨2, 1, .wo⟩, ⟨3, 3, .ro⟩]⟩] ++
  -- FLIP_MASK0, FLIP_MASK1
  [⟨0x400, 8, 2, 0, [⟨0, 64, .rw⟩]⟩] ++
  -- COR_FLIP_MASK2, STO_FLIP_MASK2
  [⟨0x410, 0, 1, 0, [⟨0, 16, .rw⟩]⟩] ++
  -- COR_FLIP_CTL, STO_FLIP_CTL
  [⟨0x418, 0, 1, 0, [⟨0, 1, .wo⟩, ⟨1, 1, .ro⟩, ⟨2, 1, .w1c⟩, ⟨3, 4, .rw⟩, ⟨7, 8, .rw⟩]⟩]

/-- The registers of a LPD_ block. -/
def regsLpd : List RegDesc :=
  -- LPD_CFG
  [⟨0x0, 0, 1, 0, [⟨0, 14, .ro⟩]⟩] ++
  -- LPD_CE_COUNT, LPD_UE_COUNT
  [⟨0x10, 8, 2, 0, [⟨0, 48, .rw⟩]⟩] ++
  -- LPD_CHk_STATUS
  [⟨0x100, 8, 12, 0, [⟨0, 4, .ro⟩, ⟨4, 1, .w1c⟩, ⟨8, 8, .ro⟩]⟩]

/-- The registers of a SEC_ block. -/
def regsSec : List RegDesc :=
  -- SEC_STATUS
  [⟨0x0, 0, 1, 0, [⟨0, 3, .ro⟩, ⟨3, 1, .w1c⟩, ⟨4, 10, .ro⟩]⟩] ++
  -- SEC_IDENTITY
  [⟨0x8, 0, 1, 0, [⟨0, 64, .ro⟩]⟩] ++
  -- SEC_KEY_DIGESTw
  [⟨0x10, 8, 4, 0, [⟨0, 64, .ro⟩]⟩] ++
  -- SEC_ROLLBACK
  [⟨0x40, 0, 1, 0, [⟨0, 14, .ro⟩]⟩] ++
  -- SEC_ROLLBACK_ADV
  [⟨0x48, 0, 1, 0, [⟨0, 16, .wo⟩]⟩] ++
  -- SEC_MEASi_w
  [⟨0x100, 8, 56, 0, [⟨0, 64, .ro⟩]⟩]

/-- The registers of a TST_ block. -/
def regsTst : List RegDesc :=
  -- TST_STATUS
  [⟨0x0, 0, 1, 65536, [⟨0, 5, .ro⟩, ⟨5, 2, .w1c⟩, ⟨16, 9, .ro⟩]⟩] ++
  -- TST_FAILEDw
  [⟨0x10, 8, 5, 0, [⟨0, 64, .ro⟩]⟩] ++
  -- TST_PAR_CTL
  [⟨0x100, 0, 1, 0, [⟨0, 9, .rw⟩, ⟨9, 1, .wo⟩, ⟨10, 1, .ro⟩, ⟨16, 6, .rw⟩]⟩] ++
  -- TST_PAR_DATA
  [⟨0x108, 0, 1, 0, [⟨0, 64, .rw⟩]⟩]

/-- The blocks of R564. -/
inductive Blk where
  | svc | gaf | thm | sec | sto | brg | fab | hst | lpd | tst | cor | twr
  deriving DecidableEq, Repr

/-- Where a register-space offset lies: block, instance (half, tower, or 24 × tower + core), offset in the block. -/
structure RegLoc where
  blk : Blk
  inst : Nat
  off : Nat
  deriving DecidableEq, Repr

/-- The block map of R564; none for an unassigned range. -/
def regLocate (a : Nat) : Option RegLoc :=
  if a < 0x00100000 then some ⟨.svc, 0, a⟩
  else if a < 0x00200000 then some ⟨.gaf, 0, a - 0x00100000⟩
  else if a < 0x00300000 then some ⟨.thm, 0, a - 0x00200000⟩
  else if a < 0x00400000 then some ⟨.sec, 0, a - 0x00300000⟩
  else if a < 0x01000000 then none
  else if a < 0x01800000 then some ⟨.sto, 0, a - 0x01000000⟩
  else if a < 0x02000000 then some ⟨.sto, 1, a - 0x01800000⟩
  else if a < 0x03000000 then some ⟨.brg, 0, a - 0x02000000⟩
  else if a < 0x04000000 then some ⟨.fab, 0, a - 0x03000000⟩
  else if a < 0x05000000 then some ⟨.hst, 0, a - 0x04000000⟩
  else if a < 0x06000000 then some ⟨.lpd, 0, a - 0x05000000⟩
  else if a < 0x07000000 then some ⟨.tst, 0, a - 0x06000000⟩
  else if a < 0x10000000 then none
  else if a < 0x15000000 then
    let t := (a - 0x10000000) / 0x00400000
    let o := (a - 0x10000000) % 0x00400000
    if o < 0x00180000 then some ⟨.cor, 24 * t + o / 0x00010000, o % 0x00010000⟩
    else if 0x00300000 ≤ o then some ⟨.twr, t, o⟩
    else none
  else none

/-- The registers of a block. -/
def blockRegs : Blk → List RegDesc
  | .svc => regsSvc
  | .gaf => regsGaf
  | .thm => regsThm
  | .sec => regsSec
  | .sto => regsSto
  | .brg => regsBrg
  | .fab => regsFab
  | .hst => regsHst
  | .lpd => regsLpd
  | .tst => regsTst
  | .cor => regsCor
  | .twr => regsTwr

/-- Whether a description covers an offset of its block. -/
def RegDesc.covers (r : RegDesc) (o : Nat) : Bool :=
  decide (r.off ≤ o) &&
    (if r.stride = 0 then o == r.off else (o - r.off) % r.stride == 0 && decide ((o - r.off) / r.stride < r.count))

/-- The description of the register at an offset of a block. -/
def regDesc? (b : Blk) (o : Nat) : Option RegDesc := (blockRegs b).find? fun r => r.covers o

/-- The reset value of the register at an offset of the register space; 0 where no register lies. -/
def resetValue (a : Nat) : W64 :=
  match regLocate a with
  | none => 0
  | some l =>
    match regDesc? l.blk l.off with
    | none => 0
    | some r => BitVec.ofNat 64 r.reset

/-- Register addresses by block. -/
def svcReg (o : Nat) : Nat := o
/-- A GAF_ register. -/
def gafReg (o : Nat) : Nat := 0x00100000 + o
/-- A THM_ register. -/
def thmReg (o : Nat) : Nat := 0x00200000 + o
/-- A SEC_ register. -/
def secReg (o : Nat) : Nat := 0x00300000 + o
/-- A STO_ register of a half (0 west, 1 east). -/
def stoReg (h o : Nat) : Nat := 0x01000000 + 0x00800000 * h + o
/-- A BRG_ register. -/
def brgReg (o : Nat) : Nat := 0x02000000 + o
/-- A FAB_ register. -/
def fabReg (o : Nat) : Nat := 0x03000000 + o
/-- An HST_ register. -/
def hstReg (o : Nat) : Nat := 0x04000000 + o
/-- An LPD_ register. -/
def lpdReg (o : Nat) : Nat := 0x05000000 + o
/-- A TST_ register. -/
def tstReg (o : Nat) : Nat := 0x06000000 + o
/-- A TWR_ register of a tower. -/
def twrReg (t o : Nat) : Nat := 0x10000000 + 0x00400000 * t + o
/-- A COR_ register of logical core 24 t + c. -/
def corReg (k o : Nat) : Nat := 0x10000000 + 0x00400000 * (k / 24) + 0x00010000 * (k % 24) + o

/-- A register as stored. -/
def Device.reg (d : Device) (a : Nat) : W64 := mget (resetValue a) d.regs a

/-- A register set. -/
def Device.setReg (d : Device) (a : Nat) (v : W64) : Device := { d with regs := mset (resetValue a) d.regs a v }

/-- A field of a stored register. -/
def Device.fieldOf (d : Device) (a lo n : Nat) : Nat := field (d.reg a).toNat lo n

/-- A field set. -/
def Device.setField (d : Device) (a lo n v : Nat) : Device :=
  d.setReg a (BitVec.ofNat 64 (withField (d.reg a).toNat lo n v))

/-- A bit that hardware has set in the present cycle (R15). -/
def Device.noteBit (d : Device) (a i : Nat) : Device :=
  { d with cycle := { d.cycle with set := mmod 0 d.cycle.set a fun m => m ||| 2 ^ i } }

/-- A status bit set by hardware. -/
def Device.setBit (d : Device) (a i : Nat) : Device := (d.setField a i 1 1).noteBit a i

/-- A bit of a stored register. -/
def Device.bitOf (d : Device) (a i : Nat) : Bool := bit (d.reg a).toNat i

/-- The increments of the present cycle of a counter (R574). -/
def Device.noteCount (d : Device) (a n : Nat) : Device :=
  { d with cycle := { d.cycle with inc := mmod 0 d.cycle.inc a (· + n) } }

/-- A 48-bit counter of R574 advanced by `n`; it sticks at its largest value. -/
def Device.count (d : Device) (a n : Nat) : Device :=
  (d.setField a 0 48 (min (2 ^ 48 - 1) (d.fieldOf a 0 48 + n))).noteCount a n

end Sys2Proof.Machine
end

