-- ==== Sys2Proof/Machine/Ops.lean ====
section
/-! DEFINITION. The operations that the meanings share: the instances of the state, interrupts (R432, R572), logs (R554, R555),
faults and fatal conditions (R556 to R558), the address map (R203, R204, R234 to R236, R427, R441), and reads and writes of
memories with their check codes, flip masks and merge buffers (R290 to R304). -/
namespace Sys2Proof.Machine

open Sys2Proof

/-- Whether the part's logic runs: VIN_CORE is within limits and no reset holds it (R479, R490, R492). -/
def Device.awake (d : Device) : Bool := d.pins.powered && !d.pins.inReset

/-- A meaning that changes the device in every state, powered or not, and leaves the queue of commands alone. -/
def State.always (f : Device → Device) (s : State) : Host.Outcome State Fault Refusal :=
  .next { dev := f s.dev, pending := s.pending }

/-- A meaning of the part's logic: it changes the device while the part is awake; an unpowered part, or one held in reset, is inert
(R479, R492). -/
def State.run (f : Device → Device) (s : State) : Host.Outcome State Fault Refusal :=
  s.always fun d => if d.awake then f d else d

/-- Whether the arithmetic and network clocks run: a thermal trip stops them until a device reset (R466). -/
def Device.clocked (d : Device) : Bool := d.awake && !d.thm.stopped

/-- Whether the clocks of the towers run: with the others, and in survival until the abort has ended (R336; log entry 172). -/
def Device.towersRun (d : Device) : Bool := d.clocked && (!d.bitOf (gafReg 0x18) 9 || d.take.state == 3)

/-- A meaning of what runs on the arithmetic and network clocks: with the clocks stopped nothing of it happens. -/
def State.onClock (f : Device → Device) (s : State) : Host.Outcome State Fault Refusal :=
  s.always fun d => if d.clocked then f d else d

/-- A meaning of what runs on the clocks of a tower. -/
def State.inTower (f : Device → Device) (s : State) : Host.Outcome State Fault Refusal :=
  s.always fun d => if d.towersRun then f d else d

/-- The effect of a command whose operands may name nothing of the part: such a command never reaches it, and changes nothing (log
entry 170). -/
def Device.onlyIf (ok : Bool) (f : Device → Device) (d : Device) : Device := if ok then f d else d

/-- The block idles: one cycle of the arithmetic clock passes (log entry 6). -/
def Device.idle (d : Device) : Device := { d with now := d.now + 1, cycle := Cycle.reset }

/-- A step that is due only when none of its accesses to memory has to wait: it is carried out whole or not at all (log entry 146). What
it waits for is noted (R279). -/
def Device.whole (f : Device → Device) (d : Device) : Device :=
  let r := f { d with blocked := false }
  if r.blocked then { d with blocked := false, wanted := r.wanted } else r

/-- Function iteration over a list. -/
def Device.each {α : Type} (l : List α) (f : α → Device → Device) (d : Device) : Device := l.foldl (fun d a => f a d) d

/-! ### Instances -/

/-- Core position k = 24 × tower + logical core. -/
def Device.core (d : Device) (k : Nat) : Core := mget Core.reset d.cores k
/-- A core position set. -/
def Device.setCore (d : Device) (k : Nat) (c : Core) : Device := { d with cores := mset Core.reset d.cores k c }
/-- A core position changed. -/
def Device.modCore (d : Device) (k : Nat) (f : Core → Core) : Device := d.setCore k (f (d.core k))
/-- A column site. -/
def Device.site (d : Device) (k : Nat) : Site := mget Site.reset d.sites k
/-- A column site changed. -/
def Device.modSite (d : Device) (k : Nat) (f : Site → Site) : Device :=
  { d with sites := mset Site.reset d.sites k (f (d.site k)) }
/-- A channel of a column site. -/
def Device.chan (d : Device) (k ch : Nat) : Channel := mget Channel.reset (d.site k).chans ch
/-- A channel changed. -/
def Device.modChan (d : Device) (k ch : Nat) (f : Channel → Channel) : Device :=
  d.modSite k fun s => { s with chans := mset Channel.reset s.chans ch (f (mget Channel.reset s.chans ch)) }
/-- A tower. -/
def Device.tower (d : Device) (t : Nat) : Tower := mget Tower.reset d.towers t
/-- A tower changed. -/
def Device.modTower (d : Device) (t : Nat) (f : Tower → Tower) : Device :=
  { d with towers := mset Tower.reset d.towers t (f (d.tower t)) }
/-- A half: 0 west, 1 east. -/
def Device.half (d : Device) (h : Nat) : HalfState := mget HalfState.reset d.halves h
/-- A half changed. -/
def Device.modHalf (d : Device) (h : Nat) (f : HalfState → HalfState) : Device :=
  { d with halves := mset HalfState.reset d.halves h (f (d.half h)) }
/-- A fabric port. -/
def Device.port (d : Device) (p : Nat) : Port := mget Port.reset d.fab.ports p
/-- A fabric port changed. -/
def Device.modPort (d : Device) (p : Nat) (f : Port → Port) : Device :=
  { d with fab := { d.fab with ports := mset Port.reset d.fab.ports p (f (d.port p)) } }
/-- The take's record changed. -/
def Device.modTake (d : Device) (f : Take → Take) : Device := { d with take := f d.take }
/-- Something sent outside. -/
def Device.emit (d : Device) (o : Output) : Device := { d with out := d.out ++ [o] }
/-- A free 16-bit value, with the counter it was drawn at (log entry 5). -/
def Device.draw (d : Device) : BitVec 16 × Device := (Config.freeWord d.freeCtr, { d with freeCtr := d.freeCtr + 1 })

/-- Free bytes, with the counter they were drawn at (log entry 5). -/
def Device.drawBytes (d : Device) (n : Nat) : List Byte × Device :=
  ((List.range n).map fun i => Config.freeByte (d.freeCtr + i), { d with freeCtr := d.freeCtr + n })

/-- The tower of a core position. -/
def towerOf (k : Nat) : Nat := k / 24
/-- The logical core of a position within its tower. -/
def coreOf (k : Nat) : Nat := k % 24
/-- The half of a tower (R17): 0 west, 1 east. -/
def halfOf (t : Nat) : Nat := if t < 10 then 0 else 1
/-- A half as a number. -/
def halfNum : Half → Nat
  | .west => 0
  | .east => 1

/-- Logical cores with arrays per tower by variant (R4). -/
def variantCores : Nat → Nat
  | 0 => 24
  | 1 => 22
  | _ => 20
/-- Visible DRAM layers by variant (R4). -/
def variantLayers (v : Nat) : Nat := if v = 2 then 8 else 12
/-- Fabric ports enabled by variant, as a mask (R4, R8). -/
def variantPorts (v : Nat) : Nat := if v = 2 then 0x0F0F else 0xFFFF
/-- Whether a fabric port is enabled by fuse. -/
def Device.portFused (d : Device) (p : Nat) : Bool := !(bit (variantPorts d.fuses.variant) p)

/-- A tower that answers: lit and not fenced (R19, R380). -/
def Device.up (d : Device) (t : Nat) : Bool := (d.tower t).lit && !(d.tower t).fenced
/-- A logical core with an array: its position is in the logical unit map (R5, R571). -/
def Device.hasArray (d : Device) (k : Nat) : Bool := d.up (towerOf k) && mget 31 (d.tower (towerOf k)).lumap (coreOf k) != 31
/-- Every logical core with an array, ascending. -/
def Device.arrays (d : Device) : List Nat := (List.range 480).filter d.hasArray
/-- Whether a take runs, or is being aborted (R561). -/
def Device.inTake (d : Device) : Bool := d.take.state == 2 || d.take.state == 3
/-- GAF_FRAME: the take frame number of the next frame to be released (R316). -/
def Device.nextFrame (d : Device) : Nat := d.fieldOf (gafReg 0x28) 0 48
/-- The take frame number n of the frame that runs, or ran last: GAF_FRAME reads n + 1 from its release on (R316). -/
def Device.frame (d : Device) : Nat := d.nextFrame - 1
/-- FRAME of a log entry (R555). -/
def Device.logFrame (d : Device) : Nat := if d.inTake then d.frame else 0xFFFFFFFFFFFF
/-- The take key of the loaded reel (R93); 0 with no reel. -/
def Device.takeKey (d : Device) : W64 :=
  match d.take.reel with
  | some r => r.takeKey
  | none => 0

/-! ### Interrupts -/

/-- An entry of the MSI-X table as it stands at reset: Mask set, the rest 0, as PCI Express lays the entry out (PRESUMED; log entry
33). -/
def msixReset : BitVec 128 := 1#128 <<< (96 : Nat)

/-- An entry of the MSI-X table: message address in [63:0], data in [95:64], Mask in [96] (log entry 33). -/
def Device.msixEntry (d : Device) (v : Nat) : BitVec 128 := mget msixReset d.host.msix v

/-- The message of a vector, from its MSI-X table entry: address, data. -/
def Device.msiOut (d : Device) (v : Nat) : Output :=
  let e := d.msixEntry v
  .msi v (e.extractLsb' 0 64) (e.extractLsb' 64 32)

/-- Whether a vector may send now: MSI-X enabled, no mask, and the function in D0 (R432, R438). -/
def Device.vectorOpen (d : Device) (v : Nat) : Bool :=
  d.host.msixEnable && !d.host.funcMask && !(d.msixEntry v).getLsbD 96 && !d.bitOf (hstReg 0) 10

/-- An event of a vector: the message is sent, or the pending bit is set (R432). -/
def Device.raiseVector (d : Device) (v : Nat) : Device :=
  if d.vectorOpen v then d.emit (d.msiOut v)
  else { d with host := { d.host with pending := insertAsc v d.host.pending } }

/-- An event of one of vectors 0 to 7: its status bit is set, and the vector is raised when enabled (R572). -/
def Device.event (d : Device) (v : Nat) : Device :=
  let d := d.setBit (svcReg 0x100) v
  if d.bitOf (svcReg 0x108) v then d.raiseVector v else d

/-- The pending vectors that may now send are sent (R432). -/
def Device.sendPending (d : Device) : Device :=
  d.each d.host.pending fun v d =>
    if d.vectorOpen v then
      { d with host := { d.host with pending := d.host.pending.filter (· ≠ v) } }.emit (d.msiOut v)
    else d

/-! ### Logs -/

/-- The class of an entry kind (R555). -/
def kindClass : Nat → Nat
  | 0x02 => 1
  | 0x03 => 3
  | 0x06 => 1
  | 0x07 => 1
  | 0x08 => 1
  | 0x0C => 2
  | 0x0D => 3
  | 0x0E => 4
  | _ => 0

/-- How old an entry is in writes of its log. -/
def Log.age (l : Log) (e : LogEntry) : Nat := (l.seq + 65536 - e.seq) % 65536

/-- The oldest entry of a class: its position. -/
def Log.oldest (l : Log) (c : Nat) : Option Nat :=
  ((l.entries.filter fun p => p.2.cls == c).foldl
    (fun a p => match a with
      | none => some p
      | some q => if l.age q.2 < l.age p.2 then some p else some q) (none : Option (Nat × LogEntry))).map (·.1)

/-- The lowest free position of a log. -/
def Log.free (l : Log) : Option Nat := (List.range 256).find? fun i => (mget LogEntry.reset l.entries i).kind == 0

/-- The position that an event takes under R554, with the entry's count; none when it is dropped. -/
def Log.place (l : Log) (kind unit addr : Nat) : Option (Nat × Nat) :=
  match l.entries.find? fun p => p.2.kind == kind && p.2.unit == unit && p.2.addr == addr with
  | some p => some (p.1, min (2 ^ 32 - 1) (p.2.count + 1))
  | none =>
    match l.free with
    | some i => some (i, 1)
    | none =>
      match l.oldest 0 with
      | some i => some (i, 1)
      | none => (l.oldest 1).map fun i => (i, 1)

/-- An event in a log; none when it is dropped. SEQ of the entry is the running count with this write (log entry 14). -/
def Log.write (l : Log) (kind unit addr syn detail frame : Nat) : Option Log :=
  (l.place kind unit addr).map fun p =>
    let q := (l.seq + 1) % 65536
    { entries := mset LogEntry.reset l.entries p.1
        { kind := kind, cls := kindClass kind, unit := unit, count := p.2, addr := addr, seq := q, frame := frame,
          syndrome := syn, detail := detail }
      seq := q }

/-- The log of a tower (0 to 19) or of a half (20 west, 21 east). -/
def Device.logOf (d : Device) (w : Nat) : Log := if w < 20 then (d.tower w).log else (d.half (w - 20)).log
/-- A log set. -/
def Device.setLog (d : Device) (w : Nat) (l : Log) : Device :=
  if w < 20 then d.modTower w fun t => { t with log := l } else d.modHalf (w - 20) fun h => { h with log := l }
/-- LOG_STATUS of a log. -/
def logStatusReg (w : Nat) : Nat := if w < 20 then twrReg w 0x304000 else stoReg (w - 20) 0x50000

/-- An event entered in a log (R554): an entry written raises vector 5; a dropped event sets OVERFLOW and counts in LOST. -/
def Device.log (d : Device) (w kind unit addr syn detail : Nat) : Device :=
  match (d.logOf w).write kind unit addr syn detail d.logFrame with
  | some l => (d.setLog w l).event 5
  | none => (d.setBit (logStatusReg w) 9).count (logStatusReg w + 8) 1

/-- The half whose log holds faults and fatal conditions: west, or east when west is lost. -/
def Device.mainLog (d : Device) : Nat := if (d.half 0).lost then 21 else 20

/-! ### Faults -/

/-- The queue of a unit (1 array to 7 near-bank). -/
def Core.queue (c : Core) (u : Nat) : List QCue := mget [] c.queues u
/-- A queue set. -/
def Core.setQueue (c : Core) (u : Nat) (q : List QCue) : Core := { c with queues := mset [] c.queues u q }

/-- A unit number (R107). -/
def unitNum : ExecUnit → Nat
  | .array => 1
  | .vector => 2
  | .function => 3
  | .attention => 4
  | .storeDma => 5
  | .dramDma => 6
  | .nearBank => 7

/-- What an abort leaves of a cue in the queue of unit u (R135, R556): one that has all its results still completes; one that has not
started is dropped. A started one runs on in the core whose own cue error halted it (`erred`); elsewhere the array and the units 2 to 4
end it, and a DMA unit issues none of its further transactions. -/
def QCue.stop (erred : Bool) (u : Nat) (q : QCue) : Option QCue :=
  if q.done then some q
  else if !q.started then none
  else if erred then some q
  else if u ≤ 4 then none
  else some { q with work := q.work.map fun w => { w with todo := [], held := [] } }

/-- What a core keeps when an abort begins (R135, R556): issue stops, at STATE 3 after a cue error and else at 0 (R103), and the queues
keep what QCue.stop leaves of them. Without a cue error of its own the core discards its tiles. -/
def Core.stopWork (c : Core) : Core :=
  let erred := c.cueState == 3
  let c := { c with
    cueState := if erred then 3 else 0, held := none, ending := false,
    queues := [1, 2, 3, 4, 5, 6, 7].foldl (fun m u => mset [] m u ((c.queue u).filterMap (QCue.stop erred u))) [] }
  if erred then c
  else { c with set0 := none, set1 := none, unloads := [], stream := [] }

/-- The null activity of a ramp step that ends before its 8 cycles are over (R68, R72). -/
def Device.cutStep (d : Device) (k : Nat) : Nat := min 8 (d.now - (d.core k).clock.step)

/-- An array whose cue has gone while it ramped up begins to ramp down (R68; log entry 123). -/
def Device.rampStop (k : Nat) (d : Device) : Device :=
  if (d.core k).phase = 1 then
    (d.count (corReg k 0x220) (d.cutStep k)).modCore k fun c => { c with phase := 3, clock := { c.clock with step := d.now } }
  else d

/-- The work of a core stops (R556): what is left of it, and its array. -/
def Device.stopCore (k : Nat) (d : Device) : Device :=
  (if (d.core k).cueState = 3 then d else d.rampStop k).modCore k Core.stopWork

/-- The firmware knows the result of the running mailbox command; MAILBOX_COMPLETE publishes it (R436). -/
def Device.mbxEnd (d : Device) (r : Nat) : Device := { d with mbx := { d.mbx with result := some r } }

/-- The result of the command `op`, when it is the one that runs and waits. -/
def Device.mbxEndOf (d : Device) (op r : Nat) : Device :=
  if d.bitOf (hstReg 0x108) 0 && d.mbx.op == op && d.mbx.result.isNone then d.mbxEnd r else d

/-- A mailbox command that an abort interrupts ends with RESULT 6 ABORTED (R436, R559): TAKE_STOP and SAVE while they wait. -/
def Device.abortCommand (d : Device) : Device :=
  if d.bitOf (hstReg 0x108) 0 && d.mbx.result.isNone && decide (1 ≤ d.mbx.op ∧ d.mbx.op ≤ 5) then
    { d with mbx := { d.mbx with result := some 6 } }
  else d

/-- The first step of an abort (R556): no further release, a decision already fixed is void, every cue engine stops, and no further packet of the
take is sent. -/
def Device.beginAbort (d : Device) : Device :=
  let d := d.each (d.cores.map (·.1)) Device.stopCore
  let d := d.abortCommand
  let d := { d with fab := { d.fab with ring := [], leaving := [] }, cont := { d.cont with waiting := false } }
  d.modTake fun t =>
    { t with state := 3, aborting := true, decision := none, eastResults := false, eastOutcome := false, starting := false,
             stopping := false, frameRuns := false, signals := [] }

/-- The FAULT entry of an abort (R555, R556). -/
def Device.faultEntry (d : Device) (cause tower home unit addr : Nat) : Device :=
  d.log d.mainLog 0x0D unit addr 0 (cause + tower * 2 ^ 8 + home * 2 ^ 13)

/-- The registers of SVC_FAULT written (R557, R561). -/
def Device.setFault (d : Device) (cause tower home unit addr towers : Nat) : Device :=
  let v := 1 + cause * 2 + tower * 2 ^ 9 + home * 2 ^ 14 + unit * 2 ^ 23
  let d := (d.setReg (svcReg 0xD008) (BitVec.ofNat 64 v)).noteBit (svcReg 0xD008) 0
  let d := d.setReg (svcReg 0xD010) (BitVec.ofNat 64 d.frame)
  let d := d.setReg (svcReg 0xD018) (BitVec.ofNat 64 addr)
  d.setReg (svcReg 0xD020) (BitVec.ofNat 64 towers)

/-- SVC_FAULT written, with its FAULT entry (R555, R557). -/
def Device.recordFault (d : Device) (cause tower home unit addr towers : Nat) : Device :=
  (d.setFault cause tower home unit addr towers).faultEntry cause tower home unit addr

/-- A fault that SVC_FAULT does not record (R557): counted; one that begins an abort of its own, with the record of an earlier take still
valid, has its FAULT entry (R556). -/
def Device.moreFault (d : Device) (cause tower home unit addr : Nat) : Device :=
  let d := d.count (svcReg 0xD028) 1
  if d.take.state = 3 then d else d.faultEntry cause tower home unit addr

/-- The registers that the faults of a cycle write: SVC_FAULT to SVC_FAULT_MORE, and GAF_OVERRUN (R345, R561). -/
def faultRegs : List Nat := [svcReg 0xD008, svcReg 0xD010, svcReg 0xD018, svcReg 0xD020, svcReg 0xD028, gafReg 0x48]

/-- The first fault of the present cycle noted, before it is entered anywhere. -/
def Device.noteFault (d : Device) (cause unit addr : Nat) (recorded : Bool) : Device :=
  let l := d.logOf d.mainLog
  let slot := if recorded || d.take.state != 3 then
      (l.place 0x0D unit addr).map fun p => (d.mainLog, p.1, mget LogEntry.reset l.entries p.1) else none
  let note : FaultNote := { cause := cause, recorded := recorded, regs := faultRegs.map fun a => (a, d.reg a), slot := slot }
  { d with cycle := { d.cycle with fault := some note } }

/-- The FAULT entry of the present cycle's first fault is taken back, as though it had not been written. -/
def Device.undoEntry (d : Device) (n : FaultNote) : Device :=
  match n.slot with
  | none => d
  | some (w, i, e) =>
    let l := d.logOf w
    let last := (mget LogEntry.reset l.entries i).seq == l.seq
    d.setLog w { entries := mset LogEntry.reset l.entries i e, seq := if last then (l.seq + 65535) % 65536 else l.seq }

/-- The faults of the present cycle are dropped (R384, R472): their registers and their entry stand as before it. -/
def Device.dropFaults (d : Device) : Device :=
  match d.cycle.fault with
  | none => d
  | some n => d.each n.regs (fun p d => d.setReg p.1 p.2) |>.undoEntry n

/-- A fault whose cause stands above that of the fault recorded in this cycle takes its record and its entry, and the other is counted
(R336, R384, R557). -/
def Device.outrank (d : Device) (n : FaultNote) (cause tower home unit addr towers : Nat) : Device :=
  let more := d.fieldOf (svcReg 0xD028) 0 48
  let d := ((d.dropFaults).setField (svcReg 0xD028) 0 48 more).count (svcReg 0xD028) 1
  let d := d.setFault cause tower home unit addr towers
  let l := d.logOf d.mainLog
  let d := match n.slot.bind fun _ => l.write 0x0D unit addr 0 (cause + tower * 2 ^ 8 + home * 2 ^ 13) d.logFrame with
    | some l => d.setLog d.mainLog l
    | none => d
  { d with cycle := { d.cycle with fault := some { n with cause := cause } } }

/-- A further tower lost in the cycle of the recorded loss (R384): SVC_FAULT names both, the lowest as its tower. -/
def Device.joinLoss (d : Device) (n : FaultNote) (tower towers : Nat) : Device :=
  let t := min tower (d.fieldOf (svcReg 0xD008) 9 5)
  let m := (d.reg (svcReg 0xD020)).toNat ||| towers
  let d := (d.setField (svcReg 0xD008) 9 5 t).setReg (svcReg 0xD020) (BitVec.ofNat 64 m)
  match n.slot with
  | none => d
  | some (w, i, _) =>
    let l := d.logOf w
    d.setLog w { l with entries := mmod LogEntry.reset l.entries i fun e => { e with detail := 2 + t * 2 ^ 8 } }

/-- A fault entered where R557 has it: the first of the cycle recorded when VALID is clear, else counted; a later one of the same cycle
takes the record when its cause stands higher, and joins it when both are lost towers. -/
def Device.enterFault (d : Device) (cause tower home unit addr towers : Nat) : Device :=
  match d.cycle.fault with
  | none =>
    let first := !d.bitOf (svcReg 0xD008) 0
    let d := d.noteFault cause unit addr first
    if first then d.recordFault cause tower home unit addr towers else d.moreFault cause tower home unit addr
  | some n =>
    if n.recorded && decide (cause < n.cause) then d.outrank n cause tower home unit addr towers
    else if n.recorded && n.cause == 2 && cause == 2 then d.joinLoss n tower towers
    else d.moreFault cause tower home unit addr

/-- Whether a take runs, is being aborted, or has been accepted and waits for its tick or its partner (log entry 92). -/
def Device.engaged (d : Device) : Bool := d.take.state == 2 || d.take.state == 3 || d.take.starting || d.cont.waiting

/-- A fault of the take (R556, R557): recorded when it is the first since VALID was cleared, counted otherwise; a take that runs or
waits to start begins its abort. Outside a take nothing is aborted and nothing recorded, and in the cycle of a fatal condition every
fault is dropped (R384; log entry 149). -/
def Device.fault (d : Device) (cause tower home unit addr towers : Nat) : Device :=
  if d.engaged && !d.cycle.fatal then
    let d := d.enterFault cause tower home unit addr towers
    if d.take.state = 3 then d else d.beginAbort
  else d

/-- Whether the present cycle's fault has a cause above `cause`. -/
def Device.outranked (d : Device) (cause : Nat) : Bool :=
  match d.cycle.fault with
  | some n => decide (n.cause < cause)
  | none => false

/-- A fatal condition (R558): FAULT_N asserted, FATAL set with its cause and half, vector 4, and a FATAL entry; a running take is
aborted without a fault record, and the faults of its cycle are dropped (R384, R472). The first condition in force keeps its record
(log entry 17). -/
def Device.fatal (d : Device) (cause half : Nat) : Device :=
  if d.bitOf (svcReg 0xD000) 2 then d
  else
    let d := d.dropFaults
    let d := { d with pins := { d.pins with faultN := false }, cycle := { d.cycle with fault := none, fatal := true } }
    let d := ((d.setField (svcReg 0xD000) 2 1 1).setField (svcReg 0xD000) 3 4 cause).setField (svcReg 0xD000) 7 1 half
    let d := d.log d.mainLog 0x0E 0 0 0 (cause + half * 2 ^ 8)
    let d := if (d.half 0).lost then d else d.event 4
    if d.engaged && d.take.state != 3 then d.beginAbort else d

/-- A degradation (R553): a DEGRADED entry and vector 6. -/
def Device.degraded (d : Device) (w unit detail : Nat) : Device := (d.log w 0x0C unit 0 0 detail).event 6

/-- The home index of the list that a core runs (R102). -/
def Device.home (d : Device) (k : Nat) : Nat := (d.core k).home

/-- Consumption of a poisoned codeword (R295): CONSUMED, a POISON_USED entry in the tower's log, and a fault of cause POISON. -/
def Device.consume (d : Device) (k unit addr : Nat) : Device :=
  let t := towerOf k
  let d := d.setBit (twrReg t 0x301200) 2
  let d := d.log t 0x03 unit addr 0 (d.home k)
  d.fault 5 t (d.home k) unit addr 0

/-! ### The address map -/

/-- Where a device-local address lies. -/
inductive Region where
  | dram (site off : Nat)
  | store (h off : Nat)
  | capacity (ch off : Nat)
  | regs (off : Nat)
  | hole
  deriving DecidableEq, Repr

/-- The device-local address map (R203, R234, R441, R563). -/
def regionOf (a : Nat) : Region :=
  if a < 0x016800000000 then
    let r := a % 0x001200000000
    .dram (24 * (a / 0x001200000000) + r / 0xC0000000) (r % 0xC0000000)
  else if 0x040000000000 ≤ a ∧ a < 0x040100000000 then .store 0 (a - 0x040000000000)
  else if 0x040100000000 ≤ a ∧ a < 0x040200000000 then .store 1 (a - 0x040100000000)
  else if 0x080000000000 ≤ a ∧ a < 0x08C000000000 then
    .capacity ((a - 0x080000000000) / 0x1000000000) ((a - 0x080000000000) % 0x1000000000)
  else if 0x0F0000000000 ≤ a ∧ a < 0x0F0020000000 then .regs (a - 0x0F0000000000)
  else .hole

/-- The base address of a core's DRAM slice (R21). -/
def sliceBase (k : Nat) : Nat := towerOf k * 0x001200000000 + coreOf k * 0xC0000000

/-- Visible bytes of a capacity-memory channel; 0 when it is absent or failed (R441, R453). -/
def Device.lpdSize (d : Device) (ch : Nat) : Nat :=
  let r := lpdReg (0x100 + 8 * ch)
  if d.fieldOf r 0 2 < 2 then 0 else 2 ^ (34 + d.fieldOf r 2 2)

/-- Whether an address names memory that answers (R204, R236, R255, R427, R441): a store whose slice map has not been formed is not presented
(R201, R226), and a tower that has been lit late is not in the unit map yet
(R507). -/
def Device.legal (d : Device) (a : Nat) : Bool :=
  match regionOf a with
  | .dram k o => d.up (towerOf k) && !d.start.heldDark.contains (towerOf k) && !(d.site k).srBase && (d.fuses.variant != 2 || decide (o < 0x80000000))
  | .store h o => decide (o < 0xC0000000) && !(d.half h).lost && d.bitOf (stoReg h 0) 0
  | .capacity ch v => decide (v < d.lpdSize ch)
  | .regs _ => false
  | .hole => false

/-- Whether every byte of a run is legal; a run lies in legal memory when the first byte of each codeword does. -/
def Device.legalRun (d : Device) (a n : Nat) : Bool := (cwsOf a n).all fun c => d.legal (16 * c)

/-- store_place of R203: logical store slice and offset within it. -/
def storePlace (o : Nat) : Nat × Nat :=
  let l := o / 64
  let u := l / 256
  let h := (u % 256) ^^^ ((u / 256) % 256) ^^^ (((u / 65536) % 4) * 0x55)
  ((l % 256) ^^^ h, u * 64 + o % 64)

/-- Channel, visible bank, row and native column of a slice offset (R235). -/
structure DramPlace where
  ch : Nat
  bank : Nat
  row : Nat
  col : Nat
  deriving DecidableEq, Repr

/-- The decode of R235. -/
def dramPlace (o : Nat) : DramPlace :=
  { ch := field o 6 3
    bank := 4 * field o 28 4 + (field o 13 2 ^^^ field o 15 2)
    row := field o 15 13
    col := field o 9 4 }

/-- The slice offset of a place: the inverse of R235, for byte 0 of the line. -/
def dramOffset (p : DramPlace) : Nat :=
  p.ch * 2 ^ 6 + p.col * 2 ^ 9 + ((p.bank % 4) ^^^ (p.row % 4)) * 2 ^ 13 + p.row * 2 ^ 15 + (p.bank / 4) * 2 ^ 28

/-- The log that holds the address errors and the memory events of an address (R236, R427): its tower's when the tower is up,
else its half's; the owning half's for a store address; the west half's otherwise. -/
def Device.logFor (d : Device) (a : Nat) : Nat :=
  match regionOf a with
  | .dram k _ => if d.up (towerOf k) then towerOf k else 20 + halfOf (towerOf k)
  | .store h _ => 20 + h
  | _ => 20

/-- Whether the registers and the log of the tower that owns an address of its DRAM take its address errors (R236): the tower is lit and in
the unit map, and its DRAM is not under base-die control (R255). -/
def Device.towerLogs (d : Device) (k : Nat) : Bool :=
  d.up (towerOf k) && !d.start.heldDark.contains (towerOf k) && !(d.site k).srBase

/-- An address error of the host (requester 0), the service plane (2) or the fabric (1): logged, and counted where R19, R204 and R236
say. -/
def Device.addrError (d : Device) (a requester : Nat) : Device :=
  let unit := if requester = 0 then 14 else if requester = 1 then 13 else 21
  match regionOf a with
  | .dram k _ =>
    let h := halfOf (towerOf k)
    if d.towerLogs k then (d.log (towerOf k) 0x07 unit a 0 requester).count (twrReg (towerOf k) 0x301008) 1
    else (d.log (20 + h) 0x07 unit a 0 requester).setBit (stoReg h 8) 5
  | .store h _ => (d.log (20 + h) 0x07 unit a 0 requester).setBit (stoReg h 8) 5
  | _ => d.log 20 0x07 unit a 0 requester

/-! ### Codewords of device memory -/

/-- Whether a retired page holds an address (R310). -/
def Device.inRetiredPage (d : Device) (a : Nat) : Bool :=
  d.retire.entries.any fun e => field e.toNat 0 2 == 1 && field e.toNat 8 32 == a / 65536

/-- The unit code of the point that checks a word at an address (R555). -/
def unitFor (a : Nat) : Nat :=
  match regionOf a with
  | .dram _ _ => 8
  | .store _ _ => 10
  | _ => 15

/-- A corrected word found by a point that logs to a tower (`w` below 20) or to a half: CE set and counted (R227, R228, R306, R307). -/
def Device.countCe (w : Nat) (d : Device) : Device :=
  if w < 20 then (d.setBit (twrReg w 0x301200) 0).count (twrReg w 0x301208) 1
  else (d.setBit (stoReg (w - 20) 8) 0).count (stoReg (w - 20) 0x10) 1

/-- An uncorrectable word found by such a point: UE set and counted. -/
def Device.countUe (w : Nat) (d : Device) : Device :=
  if w < 20 then (d.setBit (twrReg w 0x301200) 1).count (twrReg w 0x301210) 1
  else (d.setBit (stoReg (w - 20) 8) 1).count (stoReg (w - 20) 0x18) 1

/-- A CORRECTED or UNCORRECTABLE word at an address, or a poisoned store word: counted and logged by its memory (R294, R305). -/
def Device.noteWord (d : Device) (a : Nat) (c : Checked) (unit : Nat) : Device :=
  match regionOf a with
  | .dram k _ =>
    let t := towerOf k
    match c.cls with
    | .corrected b =>
      let d := d.countCe t
      if d.inRetiredPage a then d else d.log t 0x01 unit a c.syn.toNat b
    | .uncorrectable =>
      let d := d.countUe t
      if d.inRetiredPage a then d else d.log t 0x02 unit a c.syn.toNat 0
    | _ => d
  | .store h _ =>
    match c.cls with
    | .corrected b => (d.countCe (20 + h)).log (20 + h) 0x01 unit a c.syn.toNat b
    | .uncorrectable => (d.countUe (20 + h)).log (20 + h) 0x02 unit a c.syn.toNat 0
    | .poison _ => d.setBit (stoReg h 8) 2
    | .clean => d
  | .capacity ch _ =>
    let w := 20 + ch / 6
    match c.cls with
    | .corrected b => (d.count (lpdReg 0x10) 1).log w 0x01 unit a c.syn.toNat b
    | .uncorrectable => (d.count (lpdReg 0x18) 1).log w 0x02 unit a c.syn.toNat 0
    | _ => d
  | _ => d

/-! ### Connections that have failed in service (R368) -/

/-- The syndrome of a codeword with one bit flipped (R287). -/
def bitSyn (b : Nat) : BitVec 16 :=
  if b < 128 then eccW.getD (b / 8) 0 ++ BitVec.ofNat 8 (2 ^ (b % 8)) else BitVec.ofNat 16 (2 ^ (b - 128))

/-- The bits that the dead connections of a column site's through path flip in each beat: codeword of the line, bit (R208, R368). -/
def Device.pathBits (d : Device) (k : Nat) : List (Nat × Nat) :=
  (d.tower (towerOf k)).dead.filterMap fun w =>
    match w with
    | .path s b => if s = k then some (b / 144 % 4, b % 144) else none
    | _ => none

/-- The bits that the dead connections of a core position's array-to-vector bond flip in each transfer of operands. -/
def Device.bondBits (d : Device) (k : Nat) : List (Nat × Nat) :=
  (d.tower (towerOf k)).dead.filterMap fun w =>
    match w with
    | .bond c b => if c = k then some (b / 144 % 4, b % 144) else none
    | _ => none

/-- The bits of a codeword that the dead connections of a DRAM channel carry, one in each of its 4 beats (R292, R368). -/
def Device.chanBits (d : Device) (k ch : Nat) : List Nat :=
  (d.tower (towerOf k)).dead.flatMap fun w =>
    match w with
    | .channel s c i => if s = k ∧ c = ch then (List.range 4).map fun r => if i < 32 then 32 * r + i else 128 + 4 * r + i % 4 else []
    | _ => []

/-- A bit of a 144-bit codeword mask for each of some bits that a free value takes. -/
def someBits (free : Nat) (l : List Nat) : BitVec 144 :=
  (l.zip (List.range l.length)).foldl (fun m p => if bit free p.2 then m ^^^ (1#144 <<< p.1) else m) 0

/-- Codewords `n` bytes from `a` on as a receiver gets them that finds some bits of each line flipped: counted and logged by the log `w`, as what its
check code makes of them; those it cannot correct join the bad ones. -/
def Device.crossed (d : Device) (w unit : Nat) (flips : List (Nat × Nat)) (a n : Nat) (bad : List Nat) : Device × List Nat :=
  if flips.isEmpty then (d, bad)
  else
    (cwsOf a n).foldl
      (fun (acc : Device × List Nat) c =>
        let s := (flips.filter fun f => f.1 == c % 4).foldl (fun s f => s ^^^ bitSyn f.2) (0 : BitVec 16)
        if s = 0 ∨ acc.2.contains c then acc
        else
          match eccCheck s with
          | .corrected b => ((acc.1.countCe w).log w 0x01 unit (16 * c) s.toNat b, acc.2)
          | _ => ((acc.1.countUe w).log w 0x02 unit (16 * c) s.toNat 0, acc.2 ++ [c])) (d, bad)

/-- A flip mask of a block, when it is armed for a target and instance: it fires, and disarms (R303). -/
def Device.takeFlip (d : Device) (base target sel : Nat) : Option (BitVec 144) × Device :=
  let ctl := base + 24
  if d.bitOf ctl 1 && d.fieldOf ctl 3 4 == target && d.fieldOf ctl 7 8 == sel then
    let m : BitVec 144 := (d.reg (base + 16)).setWidth 16 ++ d.reg (base + 8) ++ d.reg base
    (some m, (d.setField ctl 1 1 0).setBit ctl 2)
  else (none, d)

/-- Two masks that fire on one word. -/
def xorMask : Option (BitVec 144) → Option (BitVec 144) → Option (BitVec 144)
  | some a, some b => some (a ^^^ b)
  | some a, none => some a
  | none, b => b

/-- The mask that fires on a word stored at an address: of its channel, slice or capacity channel, and of the host port for a
host write (R303, R304, R452). -/
def Device.flipFor (d : Device) (a : Nat) (host : Bool) : Option (BitVec 144) × Device :=
  let m := match regionOf a with
    | .dram k o => d.takeFlip (corReg k 0x1200) 6 (dramPlace o).ch
    | .store h o => d.takeFlip (stoReg h 0x100) 0 (storePlace o).1
    | .capacity ch _ => d.takeFlip (stoReg (ch / 6) 0x100) 1 (ch % 6)
    | _ => (none, d)
  if host then
    let n := m.2.takeFlip (hstReg 0x400) 0 0
    (xorMask m.1 n.1, n.2)
  else m

/-- Whether every byte of a part is given. -/
def wholePart (p : List (Option Byte)) : Bool := (List.range 16).all fun i => (p.getD i none).isSome

/-- The damage that the dead connections of its channel do to a codeword on its way to or from a bank (R368): free in each of their
bits. -/
def Device.wireMask (d : Device) (cw : Nat) : Option (BitVec 144) × Device :=
  match regionOf (16 * cw) with
  | .dram k o =>
    match d.chanBits k (dramPlace o).ch with
    | [] => (none, d)
    | l =>
      let r := d.draw
      (some (someBits r.1.toNat l), r.2)
  | _ => (none, d)

/-- A codeword of device memory as its controller gets it: over a dead connection of a DRAM channel it reads UNCORRECTABLE, whatever its
bits (R368). -/
def Device.cwHere (d : Device) (cw : Nat) : Device × Checked :=
  let w := d.wireMask cw
  match w.1 with
  | none => (d, d.mem.cw cw)
  | some m =>
    let data := (d.mem.read (16 * cw) 16).zip (List.range 16) |>.map fun p => p.1 ^^^ m.extractLsb' (8 * p.2) 8
    let s := w.2.draw
    (s.2, { data := data, bad := true, cls := .uncorrectable, syn := s.1 })

/-- A write of a codeword of tower DRAM has been served: what the scrubber still had to write back there is dropped (R301). -/
def Device.dropBack (d : Device) (cw : Nat) : Device :=
  match regionOf (16 * cw) with
  | .dram k o =>
    if (d.chan k (dramPlace o).ch).scrubBack.any fun b => b.1 == cw then
      d.modChan k (dramPlace o).ch fun c => { c with scrubBack := c.scrubBack.filter fun b => b.1 != cw }
    else d
  | _ => d

/-- A codeword stored to its memory: whole, or by read-modify-write with the old word checked (R297). -/
def Device.storeCw (d : Device) (cw : Nat) (part : List (Option Byte)) (poison host : Bool) : Device :=
  if wholePart part then
    let f := (d.dropBack cw).flipFor (16 * cw) host
    let w := f.2.wireMask cw
    { w.2 with mem := w.2.mem.writeCw cw part poison (xorMask f.1 w.1) }
  else
    let r := d.cwHere cw
    let f := ((r.1.noteWord (16 * cw) r.2 (unitFor (16 * cw))).dropBack cw).flipFor (16 * cw) host
    let w := f.2.wireMask cw
    { w.2 with mem := w.2.mem.putCw cw (mergeBytes r.2.data part) (poison || r.2.bad) (xorMask f.1 w.1) }

/-- Whether a merge region of pages `l` to `u` lies within the store of a half (R224). -/
def mergeBounds (h l u : Nat) : Bool :=
  let base := 0x040000000000 + h * 0x100000000
  decide (l ≤ u) && decide (base ≤ 4096 * l) && decide (4096 * u < base + 0xC0000000)

/-- Whether a merge region in force covers an address of a half's store (R224). -/
def Device.inMerge (d : Device) (h a : Nat) : Bool :=
  (List.range 16).any fun r =>
    let lo := d.reg (stoReg h (0x20000 + 16 * r))
    let hi := d.reg (stoReg h (0x20008 + 16 * r))
    let l := field lo.toNat 12 36
    let u := field hi.toNat 12 36
    bit lo.toNat 0 && mergeBounds h l u && decide (l ≤ a / 4096) && decide (a / 4096 ≤ u)

/-- The merge buffer of a slice, oldest entry first. -/
def Device.mergeBuf (d : Device) (h s : Nat) : List MergeEntry := mget [] (d.half h).merge s
/-- A merge buffer set. -/
def Device.setMerge (d : Device) (h s : Nat) (l : List MergeEntry) : Device :=
  d.modHalf h fun x => { x with merge := mset [] x.merge s l }

/-- The bytes present in an entry, as its check bits give them. -/
def MergeEntry.bytes (e : MergeEntry) : List (Option Byte) :=
  let w := (eccReceive (leBytes 16 e.word.data.toNat) e.word.syn).data
  (List.range 16).map fun i => if e.mask.getLsbD i then some (w.getD i 0) else none

/-- An entry that holds some bytes of a codeword, encoded (R292, R299). -/
def mergeEntry (cw : Nat) (part : List (Option Byte)) (host : Bool) : MergeEntry :=
  { cw := cw, word := { data := BitVec.ofNat 128 (leNat (part.map fun b => b.getD 0)), syn := 0 }
    mask := BitVec.ofNat 16 ((List.range 16).foldl (fun m i => if (part.getD i none).isSome then m + 2 ^ i else m) 0), host := host }

/-- The entry of a codeword completes as a write, and leaves the buffer (R225, R299). -/
def Device.completeMerge (d : Device) (h s cw : Nat) : Device :=
  match (d.mergeBuf h s).find? fun e => e.cw == cw with
  | none => d
  | some e => (d.setMerge h s ((d.mergeBuf h s).filter fun x => x.cw != cw)).storeCw cw e.bytes false e.host

/-- The bytes of a new write laid over those of an entry. -/
def overlay (old new : List (Option Byte)) : List (Option Byte) :=
  (List.range 16).map fun i =>
    match new.getD i none with
    | some b => some b
    | none => old.getD i none

/-- A narrow write in a merge region (R299): it joins its codeword's entry or takes a free one; a full entry completes at once; a
full buffer completes its oldest entry first. -/
def Device.mergeWrite (d : Device) (h s cw : Nat) (part : List (Option Byte)) (host : Bool) : Device :=
  match (d.mergeBuf h s).find? fun e => e.cw == cw with
  | some e =>
    let b := overlay e.bytes part
    let d := d.setMerge h s ((d.mergeBuf h s).map fun x => if x.cw = cw then mergeEntry cw b (x.host || host) else x)
    if wholePart b then d.completeMerge h s cw else d
  | none =>
    let d := match d.mergeBuf h s with
      | e :: _ => if 16 ≤ (d.mergeBuf h s).length then d.completeMerge h s e.cw else d
      | [] => d
    d.setMerge h s (d.mergeBuf h s ++ [mergeEntry cw part host])

/-- A write to one codeword of device memory: merge regions gather poison-free narrow writes to the store (R225, R299). -/
def Device.writeCw (d : Device) (cw : Nat) (part : List (Option Byte)) (poison host : Bool) : Device :=
  match regionOf (16 * cw) with
  | .store h o =>
    let s := (storePlace o).1
    if !wholePart part && !poison && d.inMerge h (16 * cw) then d.mergeWrite h s cw part host
    else (d.completeMerge h s cw).storeCw cw part poison host
  | _ => d.storeCw cw part poison host

/-- A run of bytes written to device memory, codeword by codeword in ascending address; `bad` marks the codewords to be written in
poisoned form. -/
def Device.writeMem (d : Device) (a : Nat) (bs : List Byte) (bad : Nat → Bool) (host : Bool) : Device :=
  d.each (cwsOf a bs.length) fun c d => d.writeCw c (cwPart a bs c) (bad c) host

/-- The bytes of a read of device memory, and the addresses of its bad codewords. -/
structure ReadRes where
  dev : Device
  bytes : List Byte
  bad : List Nat
  deriving DecidableEq, Repr

/-- A codeword of device memory read: a store slice first completes the codeword's merge entry; the word is checked, counted and
logged. -/
def Device.readCw (d : Device) (cw : Nat) : Device × Checked :=
  let d := match regionOf (16 * cw) with
    | .store h o => d.completeMerge h (storePlace o).1 cw
    | _ => d
  let c := d.cwHere cw
  (c.1.noteWord (16 * cw) c.2 (unitFor (16 * cw)), c.2)

/-- A codeword as a reader would get it now, its merge entry completed (R299, R300), with no read made. -/
def Device.seeCw (d : Device) (cw : Nat) : Checked :=
  match regionOf (16 * cw) with
  | .store h o => (d.completeMerge h (storePlace o).1 cw).mem.cw cw
  | _ => d.mem.cw cw

/-- The corrected bytes of a run as a reader would get them now. -/
def Device.seeMem (d : Device) (a n : Nat) : List Byte := (((cwsOf a n).flatMap fun c => (d.seeCw c).data).drop (a % 16)).take n

/-- A run of bytes read from device memory. -/
def Device.readMem (d : Device) (a n : Nat) : ReadRes :=
  let r := (cwsOf a n).foldl
    (fun (acc : Device × List Byte × List Nat) c =>
      let x := acc.1.readCw c
      (x.1, acc.2.1 ++ x.2.data, if x.2.bad then acc.2.2 ++ [16 * c] else acc.2.2)) (d, [], [])
  { dev := r.1, bytes := (r.2.1.drop (a % 16)).take n, bad := r.2.2 }

/-- A capacity-memory channel in self-refresh leaves it at a request (R439). -/
def Device.wakeAt (d : Device) (a : Nat) : Device :=
  match regionOf a with
  | .capacity ch _ => if d.fieldOf (lpdReg (0x100 + 8 * ch)) 0 2 = 3 then d.setField (lpdReg (0x100 + 8 * ch)) 0 2 2 else d
  | _ => d

/-- The channels of a run of bytes leave self-refresh. -/
def Device.wakeRun (d : Device) (a n : Nat) : Device := d.each (cwsOf a n) fun c d => d.wakeAt (16 * c)

/-! ### Core memories -/

/-- The number of a core memory: 0 scratch, 1 staging buffer, 2 to 5 operand banks, 6 to 9 their scale stores. -/
def placeNum : Place → Nat
  | .device => 15
  | .scratch => 0
  | .staging => 1
  | .bank b => 2 + b
  | .scale b => 6 + b

/-- A memory of a core. -/
def Core.placeMem (c : Core) : Place → Memory
  | .device => Memory.empty
  | .scratch => c.scratch
  | .staging => c.staging
  | .bank b => (mget Bank.reset c.banks b).mem
  | .scale b => (mget Bank.reset c.banks b).scale

/-- A memory of a core set. -/
def Core.setPlaceMem (c : Core) (p : Place) (m : Memory) : Core :=
  match p with
  | .device => c
  | .scratch => { c with scratch := m }
  | .staging => { c with staging := m }
  | .bank b => { c with banks := mmod Bank.reset c.banks b fun x => { x with mem := m } }
  | .scale b => { c with banks := mmod Bank.reset c.banks b fun x => { x with scale := m } }

/-- The flip mask that fires on a word stored to a core memory (R304); a scale store is part of its bank. -/
def Device.coreFlip (d : Device) (k : Nat) (p : Place) : Option (BitVec 144) × Device :=
  let base := corReg k 0x1200
  match p with
  | .device => (none, d)
  | .scratch => d.takeFlip base 0 0
  | .staging => d.takeFlip base 1 0
  | .bank b => if b < 2 then d.takeFlip base 2 b else d.takeFlip base 3 (b - 2)
  | .scale b => if b < 2 then d.takeFlip base 2 b else d.takeFlip base 3 (b - 2)

/-- A codeword of a core memory as the key of its origin. -/
def originKey (p : Place) (cw : Nat) : Nat := 16 * cw + placeNum p

/-- The address recorded for a bad codeword of a core memory: where it came from, else its offset in the memory (log entry 13). -/
def Core.badAddr (c : Core) (p : Place) (cw : Nat) : Nat :=
  match mget 0 c.origin (originKey p cw) with
  | 0 => 16 * cw
  | a + 1 => a

/-- A CORRECTED or UNCORRECTABLE word of a core memory: counted and logged by its tower (R294, R305). -/
def Device.noteCore (d : Device) (k unit : Nat) (addr : Nat) (c : Checked) : Device :=
  let t := towerOf k
  match c.cls with
  | .corrected b => (d.countCe t).log t 0x01 unit addr c.syn.toNat b
  | .uncorrectable => (d.countUe t).log t 0x02 unit addr c.syn.toNat 0
  | _ => d

/-- A run of bytes read from a core memory by a unit. -/
def Device.readCore (d : Device) (k unit : Nat) (p : Place) (off n : Nat) : ReadRes :=
  let r := (cwsOf off n).foldl
    (fun (acc : Device × List Byte × List Nat) c =>
      let co := acc.1.core k
      let x := (co.placeMem p).cw c
      (acc.1.noteCore k unit (co.badAddr p c) x, acc.2.1 ++ x.data,
        if x.bad then acc.2.2 ++ [co.badAddr p c] else acc.2.2)) (d, [], [])
  { dev := r.1, bytes := (r.2.1.drop (off % 16)).take n, bad := r.2.2 }

/-- A run of bytes written to a core memory. `bad` gives, for a codeword to be written in poisoned form, the address plus 1 from
which the bad word came. -/
def Device.writeCore (d : Device) (k unit : Nat) (p : Place) (off : Nat) (bs : List Byte) (bad : Nat → Nat) : Device :=
  d.each (cwsOf off bs.length) fun c d =>
    let part := cwPart off bs c
    let co := d.core k
    let old := (co.placeMem p).cw c
    let d := if wholePart part then d else d.noteCore k unit (co.badAddr p c) old
    let org := if bad c ≠ 0 then bad c else if !wholePart part && old.bad then co.badAddr p c + 1 else 0
    let f := d.coreFlip k p
    f.2.modCore k fun co =>
      { co.setPlaceMem p ((co.placeMem p).writeCw c part (bad c ≠ 0) f.1) with
        origin := mset 0 co.origin (originKey p c) org }

/-! ### Defect records -/

/-- A committed record of the defect map (R517). -/
def defectRecord (kind source start target : Nat) : List Byte :=
  leBytes 1 kind ++ leBytes 1 source ++ leBytes 4 start ++ leBytes 8 target ++ [0xFF, 0x00]

/-- KIND of a defect record (R517). -/
def recKind (r : List Byte) : Nat := leAt r 0 1
/-- SOURCE of a defect record. -/
def recSource (r : List Byte) : Nat := leAt r 1 1
/-- TARGET of a defect record. -/
def recTarget (r : List Byte) : Nat := leAt r 6 8

/-- Whether two records have equal KIND and TARGET. -/
def sameRecord (a b : List Byte) : Bool := recKind a == recKind b && recTarget a == recTarget b

/-- The records in force: those of the defect map, those of repairs made in service, and those of this start's tests (R515, R517, R560). -/
def Device.recordsInForce (d : Device) : List (List Byte) := d.start.records ++ d.kept.records ++ d.start.newRecords

/-- Whether a target is recorded under a kind (R517). -/
def Device.recorded (d : Device) (kind target : Nat) : Bool := d.recordsInForce.any fun r => recKind r == kind && recTarget r == target

/-- The targets recorded under a kind. -/
def Device.recordedTargets (d : Device) (kind : Nat) : List Nat := (d.recordsInForce.filter fun r => recKind r == kind).map recTarget

/-- A record noted for the defect map (R517): one that a test of this start found, to be appended in its phase 7, or with SOURCE 2 one of a
repair in service, which is kept for the next append (R398, R560; log entry 188). -/
def Device.note (d : Device) (kind source target : Nat) : Device :=
  let r := defectRecord kind source (d.fieldOf (svcReg 0xB000) 32 32) target
  if source = 2 then { d with kept := { d.kept with records := d.kept.records ++ [r] } }
  else { d with start := { d.start with newRecords := d.start.newRecords ++ [r] } }

end Sys2Proof.Machine
end

