-- ==== Sys2Proof/Machine/Engines.lean ====
section
/-! DEFINITION. The host's side of the part that other units reach: host memory, doorbell counts (R430), and the DMA engines' descriptors
as they complete and fail (R433 to R435). -/
namespace Sys2Proof.Machine

open Sys2Proof

/-! ### Host memory as the part sees it -/

/-- Bytes written to host memory; the codewords marked bad are sent with EP. -/
def Device.hostPut (d : Device) (a : Nat) (bs : List Byte) (bad : Nat → Bool) : Device :=
  { d with hostMem := d.hostMem.write a bs bad none }

/-- Bytes read from host memory, and the host codewords among them that came with EP. -/
def Device.hostGet (d : Device) (a n : Nat) : List Byte × List Nat := d.hostMem.fetch a n

/-- A doorbell count incremented; it sticks (R430). -/
def Device.ring (i : Nat) (d : Device) : Device :=
  { d with host := { d.host with doorbells := mset 0 d.host.doorbells i (min (2 ^ 32 - 1) (mget 0 d.host.doorbells i + 1)) } }

/-! ### Engines -/

/-- A register of an engine (R451). -/
def dmaReg (e o : Nat) : Nat := hstReg (0x200 + 64 * e + o)
/-- An engine. -/
def Device.engine (d : Device) (e : Nat) : DmaEngine := mget DmaEngine.reset d.host.engines e
/-- An engine changed. -/
def Device.modEngine (d : Device) (e : Nat) (f : DmaEngine → DmaEngine) : Device :=
  { d with host := { d.host with engines := mmod DmaEngine.reset d.host.engines e f } }
/-- A descriptor of an engine changed. -/
def Device.modDesc (d : Device) (e id : Nat) (f : DmaDesc → DmaDesc) : Device :=
  d.modEngine e fun g => { g with flight := g.flight.map fun x => if x.id = id then f x else x }
/-- Ring entries of an engine (R451): LOG2_SIZE outside 4 to 16 acts as 4. -/
def Device.ringSize (d : Device) (e : Nat) : Nat :=
  let n := d.fieldOf (dmaReg e 8) 0 5
  2 ^ (if 4 ≤ n ∧ n ≤ 16 then n else 4)
/-- HEAD. -/
def Device.dmaHead (d : Device) (e : Nat) : Nat := d.fieldOf (dmaReg e 0x10) 0 16 % d.ringSize e
/-- TAIL. -/
def Device.dmaTail (d : Device) (e : Nat) : Nat := d.fieldOf (dmaReg e 0x18) 0 16 % d.ringSize e

/-- An engine halts (R435): HEAD stays at the failing descriptor, RUN clears, ERR and CAUSE are set, vector 16 + e. -/
def Device.dmaHalt (e cause : Nat) (d : Device) : Device :=
  let d := ((d.setField (dmaReg e 0x28) 0 1 0).setBit (dmaReg e 0x28) 1).setField (dmaReg e 0x28) 3 3 cause
  (d.modEngine e fun x => { x with flight := [], startAt := d.dmaHead e }).raiseVector (16 + e)

/-- The oldest descriptor of an engine ends (R434, R435): when all its bytes have moved HEAD advances and is written back, DB rings and
VECTOR is sent; when it has failed the engine halts. -/
def Device.dmaFinish (e : Nat) (d : Device) : Device :=
  match (d.engine e).flight with
  | [] => d
  | x :: r =>
    if x.cause ≠ 0 then d.dmaHalt e x.cause
    else if !x.done then d
    else
      let h := (d.dmaHead e + 1) % d.ringSize e
      let d := (d.modEngine e fun g => { g with flight := r }).setField (dmaReg e 0x10) 0 16 h
      let wb := (d.reg (dmaReg e 0x20)).toNat
      let d := if wb = 0 then d else d.hostPut wb (leBytes 8 h) fun _ => false
      let d := if bit x.flags 3 then d.ring x.db else d
      if bit x.flags 1 then d.raiseVector x.vector else d

/-- The first descriptor of an engine that waits for host data. -/
def DmaEngine.wanting (g : DmaEngine) : Option DmaDesc := g.flight.find? fun x => decide (x.moved < x.len) && x.cause == 0

/-- A descriptor in flight fails (R435): the engine halts at it once those before it are complete. -/
def Device.dmaFail (e id cause : Nat) (d : Device) : Device :=
  let n := (d.engine e).flight.length
  (d.modDesc e id fun x => if x.cause = 0 then { x with cause := cause } else x).each (List.range n) fun _ d => d.dmaFinish e

/-- Whether host memory can be reached (R438, R449): the link is up and the function in D0. -/
def Device.hostReach (d : Device) : Bool := d.bitOf (hstReg 0) 11 && !d.bitOf (hstReg 0) 10

end Sys2Proof.Machine
end

