-- ==== Sys2Proof/Machine/Crc.lean ====
section
/-! DEFINITION. The cyclic redundancy checks of the part: CRC-64 of continuity records and of calibration and slate blocks where
they name it (R355), and the CRC-32 of links (R374, R391). -/
namespace Sys2Proof.Machine

open Sys2Proof

/-- `n` bits of a CRC-64 shifted, most significant bit first. -/
def crc64Bits : Nat → BitVec 64 → BitVec 64
  | 0, r => r
  | n + 1, r => crc64Bits n (if r.msb then (r <<< 1) ^^^ 0x42F0E1EBA9EA3693 else r <<< 1)

/-- CRC-64 of R355. -/
def crc64 (bs : List Byte) : BitVec 64 :=
  ~~~ (bs.foldl (fun r b => crc64Bits 8 (r ^^^ ((b.setWidth 64 : BitVec 64) <<< (56 : Nat)))) (BitVec.allOnes 64))

/-- `n` bits of a CRC-32 shifted, most significant bit first. -/
def crc32Bits : Nat → BitVec 32 → BitVec 32
  | 0, r => r
  | n + 1, r => crc32Bits n (if r.msb then (r <<< 1) ^^^ 0x04C11DB7 else r <<< 1)

/-- CRC-32 of R374 and R391. The rules name no reflection; like the CRC-64 of R355, none is taken (log entry 16, DEDUCED). -/
def crc32 (bs : List Byte) : BitVec 32 :=
  ~~~ (bs.foldl (fun r b => crc32Bits 8 (r ^^^ ((b.setWidth 32 : BitVec 32) <<< (24 : Nat)))) (BitVec.allOnes 32))

end Sys2Proof.Machine
end

