-- ==== Sys2Proof/Machine/FabLink.lean ====
section
/-! DEFINITION. The transmit side of the fabric ports (R391 to R395, R400): packet headers, flits, credits, the replay buffer, the
messages of the clapper and of continuity as packets (R318, R418), routes (R411, R412) and acknowledgements (R404). -/
namespace Sys2Proof.Machine

open Sys2Proof

/-- FAB_PORTp_STATUS. -/
def portReg (p : Nat) : Nat := fabReg (0x100 + 16 * p)
/-- STATE of a port (R420). -/
def Device.portState (d : Device) (p : Nat) : Nat := d.fieldOf (portReg p) 0 3
/-- ROLE of a port (R420). -/
def Device.portRole (d : Device) (p : Nat) : Nat := d.fieldOf (portReg p) 3 2
/-- Whether the half of a port is there: with the west half lost nothing of the part is reachable from outside (R383). -/
def Device.portAlive (d : Device) (p : Nat) : Bool := !(d.half 0).lost && !(d.half (p / 8)).lost
/-- Whether a port is up (R383, R420). -/
def Device.portUp (d : Device) (p : Nat) : Bool := (d.portState p == 3 || d.portState p == 4) && d.portAlive p
/-- The ports that are up. -/
def Device.upPorts (d : Device) : List Nat := (List.range 16).filter d.portUp
/-- The mirror port: the port with role MIRROR (R396). -/
def Device.mirrorPort (d : Device) : Option Nat := (List.range 16).find? fun p => d.portRole p == 3
/-- The log of the half that owns a port. -/
def portLog (p : Nat) : Nat := 20 + p / 8
/-- The own device address: 0xFFFF before one is assigned (R419). -/
def Device.fabAddr (d : Device) : Nat := d.fieldOf (fabReg 0) 8 16
/-- The partner's device address as its last beacon on a port gives it; 0xFFFF when none came (R408). -/
def Device.portAddr (d : Device) (p : Nat) : Nat :=
  match (d.port p).beacon with
  | some b => leAt b 0x34 2
  | none => 0xFFFF

/-- A packet header (R400). -/
def packetHeader (k : Packet) : List Byte :=
  leBytes 2 k.dest.toNat ++ leBytes 2 k.src.toNat ++ [k.kind, k.cls, k.hops, k.gen] ++ leBytes 2 k.tag.toNat ++
    leBytes 2 k.landing.toNat ++ leBytes 2 k.payload.length ++ [0, 0] ++ leBytes 8 k.addr.toNat ++ leBytes 6 k.stamp.toNat ++ [0, 0]

/-- The receive buffer that a packet uses (R394, R401): its class, or 4 for CTRL. -/
def pktBuf (k : Packet) : Nat :=
  if k.kind.toNat = 1 ∨ k.kind.toNat = 2 then k.cls.toNat % 4 else if k.kind.toNat = 0x20 then 0 else 4

/-- Codeword slots of a packet (R400). -/
def pktSlots (k : Packet) : Nat := 2 + ceilDiv k.payload.length 16
/-- Flits that carry a packet which starts in slot 0 (R392). -/
def pktFlits (k : Packet) : Nat := ceilDiv (pktSlots k) 16

/-- A codeword slot: 16 data bytes and 2 check bytes. -/
def fabSlot (d : List Byte) (s : BitVec 16) : List Byte × List Byte := (d, leBytes 2 (eccEncode d ^^^ s).toNat)

/-- A slot with a flip mask laid over its 144 bits (R303, R422). -/
def flipSlot (m : BitVec 144) (x : List Byte × List Byte) : List Byte × List Byte :=
  ((List.range 16).map fun j => x.1.getD j 0 ^^^ m.extractLsb' (8 * j) 8,
    (List.range 2).map fun j => x.2.getD j 0 ^^^ m.extractLsb' (128 + 8 * j) 8)

/-- The slots of a packet: its header, and its payload with poisoned codewords in poisoned form; a mask fires on the first payload
codeword. -/
def packetSlots (k : Packet) (m : Option (BitVec 144)) : List (List Byte × List Byte) :=
  let hd := packetHeader k
  let pay := (List.range (ceilDiv k.payload.length 16)).map fun i =>
    fabSlot (sliceBytes k.payload (16 * i) 16) (if k.poison.contains i then poisonSyn else 0)
  let pay := match m, pay with
    | some m, x :: r => flipSlot m x :: r
    | _, l => l
  [fabSlot (hd.take 16) 0, fabSlot (hd.drop 16) 0] ++ pay

/-- A flit (R391): 12 header bytes, the CRC, 16 slots and their check bits. -/
def fabFlitOf (hd : Nat) (slots : List (List Byte × List Byte)) : List Byte :=
  let h := leBytes 12 hd
  let pad := List.replicate (16 - slots.length)
  let body := slots.flatMap (·.1) ++ (pad (List.replicate 16 0)).flatMap id ++ slots.flatMap (·.2) ++ (pad [0, 0]).flatMap id
  h ++ leBytes 4 (crc32 (h ++ body)).toNat ++ body

/-- The lowest buffer with credits to return (R394). -/
def Port.owing (x : Port) : Option (Nat × Nat) := (x.owed.head?).map fun c => (c.1, min 4095 c.2)

/-- An instant `ttt` units of 0.25 ns from now, in seventeenths of a unit: an arithmetic cycle of 20/17 ns has 80 of them (R369). -/
def Device.instant (d : Device) (ttt : Nat) : Nat := 80 * d.now + 17 * ttt

/-- TTT of a message that counts down to an instant, as it leaves now (R395). -/
def Device.tttOf (d : Device) (at0 : Nat) : Nat := (at0 - 80 * d.now) / 17

/-- A flit of some slots sent on a port (R391, R393): kept for replay and put out; it returns credits of one buffer. `at0` is the instant
that a clapper message in it counts down to. -/
def Device.sendFlit (d : Device) (p typ first : Nat) (slots : List (List Byte × List Byte)) (at0 : Option Nat) : Device :=
  let x := d.port p
  let l := x.link
  let cr := x.owing.getD (0, 0)
  let hd := l.nextSeq + (l.expect + 4095) % 4096 * 2 ^ 12 + (if l.nak then 2 ^ 24 else 0) + typ * 2 ^ 25 + first * 2 ^ 27 +
    slots.length * 2 ^ 32 + cr.1 * 2 ^ 37 + cr.2 * 2 ^ 40
  let f := fabFlitOf hd slots
  (d.modPort p fun x =>
    { x with
      link := { l with nextSeq := (l.nextSeq + 1) % 4096, kept := l.kept ++ [(l.nextSeq, f)], nak := false }
      sentInstants := mset 0 x.sentInstants l.nextSeq (at0.getD 0)
      owed := mmod 0 x.owed cr.1 fun n => n - cr.2 }).emit (.fabFlit p f)

/-- IDLE flits (R392) while a port has a NAK or credits to return and the replay buffer has room; at most `n`. -/
def Device.sendIdle (p : Nat) : Nat → Device → Device
  | 0, d => d
  | n + 1, d =>
    let x := d.port p
    if d.portUp p && (x.link.nak || !x.owed.isEmpty) && decide (x.link.kept.length < 2048) then
      Device.sendIdle p n (d.sendFlit p 0 31 [] none)
    else d

/-- Whatever a port owes its partner leaves: a NAK, and the credits of its five buffers (R393, R394). -/
def Device.settlePort (p : Nat) (d : Device) : Device := d.sendIdle p 6

/-- The size of a receive buffer in flits (R394). -/
def bufSize (b : Nat) : Nat := if b = 4 then 64 else 1024

/-- Whether a port holds credits for a packet, and its replay buffer has room for the packet's flits (R393, R394). -/
def Port.canSend (x : Port) (k : Packet) : Bool :=
  decide (mget 0 x.spent (pktBuf k) + (pktFlits k) ≤ bufSize (pktBuf k)) && decide (x.link.kept.length + pktFlits k ≤ 2048)

/-- The packet that leaves next (R394): CTRL first, then the classes in turn; none when no packet has credits. -/
def Port.nextTx (x : Port) : Option Packet :=
  let first := fun b => (x.tx.find? fun k => (pktBuf k) == b).filter x.canSend
  match first 4 with
  | some k => some k
  | none => [1, 2, 3, 4].findSome? fun i => first ((x.turn + i) % 4)

/-- The payload of a clapper packet with TTT written (R318, R395). -/
def putTtt (payload : List Byte) (ttt : Nat) : List Byte := payload.take 24 ++ leBytes 4 ttt ++ payload.drop 28

/-- A packet as it leaves a port now: a clapper message has its TTT written (R395). Answers the instant it counts down to. -/
def Device.departing (d : Device) (p : Nat) (k : Packet) : Packet × Option Nat :=
  match (d.port p).instants.find? fun x => x.1 == k with
  | some x => ({ k with payload := putTtt k.payload (d.tttOf x.2) }, some x.2)
  | none => (k, none)

/-- A kept flit as it is sent again now: one that carries a clapper message has TTT written afresh and a new CRC (R395). -/
def Device.resent (d : Device) (p seq : Nat) (f : List Byte) : List Byte :=
  match mget 0 (d.port p).sentInstants seq with
  | 0 => f
  | t =>
    let slot := fun k => (sliceBytes f (16 + 16 * k) 16, sliceBytes f (272 + 2 * k) 2)
    let w := sliceBytes f 64 8 ++ leBytes 4 (d.tttOf t) ++ sliceBytes f 76 4
    fabFlitOf (leAt f 0 12) ((List.range 16).map fun k => if k = 3 then fabSlot w 0 else slot k)

/-- A packet leaves a port: its flits, and its credits. -/
def Device.sendPacket (d : Device) (p : Nat) (k0 : Packet) : Device :=
  let k := (d.departing p k0).1
  let at0 := (d.departing p k0).2
  let r := if k.payload.isEmpty then (none, d) else d.takeFlip (fabReg 0x300) 0 p
  let d := r.2.emit (.packet p k)
  let d := d.modPort p fun x =>
    { x with tx := x.tx.erase k0, instants := x.instants.filter fun y => y.1 != k0,
             spent := mmod 0 x.spent (pktBuf k) fun n => n + (pktFlits k),
             turn := if pktBuf k = 4 then x.turn else (pktBuf k) }
  let fs := chunksOf 16 (packetSlots k r.1)
  d.each (fs.zip (List.range fs.length)) fun f d => d.sendFlit p (if pktBuf k = 4 then 2 else 1) (if f.2 = 0 then 0 else 31) f.1 at0

/-- Whether a port carries more than beacons in a take: it belongs to the frozen set (R413). -/
def Device.carries (d : Device) (p : Nat) : Bool := !d.bitOf (fabReg 0) 3 || d.fab.frozen.contains p

/-- Whether a packet may leave a port: in a take, outside the frozen set, only a beacon (R413). -/
def Device.mayLeave (d : Device) (p : Nat) (k : Packet) : Bool := d.carries p || k.kind.toNat == 0x11

/-- Everything that a port can send now; `n` bounds the packets. -/
def Device.pumpPort (p : Nat) : Nat → Device → Device
  | 0, d => d
  | n + 1, d =>
    if d.portUp p then
      match Port.nextTx { d.port p with tx := (d.port p).tx.filter (d.mayLeave p) } with
      | some k => Device.pumpPort p n (d.sendPacket p k)
      | none => d
    else d

/-- A packet enters a port's transmit buffer, and the port sends what it can. -/
def Device.txPacket (d : Device) (p : Nat) (k : Packet) : Device :=
  let d := d.modPort p fun x => { x with tx := x.tx ++ [k] }
  d.pumpPort p (d.port p).tx.length

/-- A control packet of the own part. -/
def Device.ctrlPacket (d : Device) (kind dest : Nat) (payload : List Byte) : Packet :=
  { dest := BitVec.ofNat 16 dest, src := BitVec.ofNat 16 d.fabAddr, kind := BitVec.ofNat 8 kind, cls := 0, hops := 0, gen := 0,
    tag := 0, landing := 0, addr := 0, stamp := 0, payload := payload ++ List.replicate (roundUp payload.length 16 - payload.length) 0,
    poison := [] }

/-- The 32 bytes of a clapper message (R318). -/
def clapperBytes (m : ClapperMsg) : List Byte :=
  [0xC1, m.hops] ++ leBytes 2 m.periodUs.toNat ++ leBytes 4 m.epoch.toNat ++ leBytes 8 m.master.toNat ++ leBytes 6 m.tick.toNat ++
    [0, 0] ++ leBytes 4 m.ttt.toNat ++ [0, 0, 0, 0]

/-- A clapper message sent on a port (R319, R395): ahead of everything that waits there. -/
def Device.sendClap (d : Device) (p : Nat) (m : ClapperMsg) : Device :=
  let k := d.ctrlPacket 0x12 0xFFFF (clapperBytes m)
  let d := (d.emit (.clapper p m)).modPort p fun x =>
    { x with tx := k :: x.tx, instants := (k, d.instant m.ttt.toNat) :: x.instants.filter fun y => y.1 != k }
  d.pumpPort p (d.port p).tx.length

/-- A message of continuity sent on the mirror port (R418). -/
def Device.sendCont (d : Device) (payload : List Byte) : Device :=
  let d := d.emit (.cont payload)
  match d.mirrorPort with
  | some p => d.txPacket p (d.ctrlPacket 0x20 (d.portAddr p) payload)
  | none => d

/-! ### Received packets -/

/-- Whether what `ok` accepts is the next that a receive buffer gives up: buffers keep their order (R407). What stands in no buffer comes
straight from the link, behind what waits there. -/
def Device.rxNext (d : Device) (p b : Nat) (ok : Packet → Bool) : Bool :=
  match mget [] (d.port p).rx b with
  | [] => true
  | x :: _ => ok x

/-- Whether a packet is the next that its receive buffer gives up. -/
def Device.rxFirst (d : Device) (p : Nat) (k : Packet) : Bool := d.rxNext p (pktBuf k) (· == k)

/-- Slots drained from the flits of a buffer, oldest first: the flits that this frees, and what is left of the others. -/
def drainFlits : Nat → List Nat → Nat × List Nat
  | _, [] => (0, [])
  | n, s :: r =>
    if s ≤ n then
      let x := drainFlits (n - s) r
      (x.1 + 1, x.2)
    else (0, (s - n) :: r)

/-- Slots of a receive buffer drained: the credits of the flits that are free go back to the partner (R394). -/
def Port.drain (x : Port) (b n : Nat) : Port :=
  let r := drainFlits n (mget [] x.held b)
  { x with owed := mmod 0 x.owed b (· + r.1), held := mset [] x.held b r.2 }

/-- A packet taken out of the receive buffers of a port, when it stands there: its slots drain (R394). -/
def Device.takeRx (d : Device) (p : Nat) (k : Packet) : Device :=
  (d.modPort p fun x =>
    let b := pktBuf k
    let l := mget [] x.rx b
    if l.contains k then Port.drain { x with rx := mset [] x.rx b (l.erase k) } b (pktSlots k) else x).settlePort p

/-- The packet at the head of a receive buffer taken: a message that it carries is being used. -/
def Device.takeHead (d : Device) (p b : Nat) : Device :=
  match mget [] (d.port p).rx b with
  | [] => d
  | x :: _ => d.takeRx p x

/-- A message of continuity that arrives (R418): in its turn on the mirror port its packet is taken, and `f` is its effect. -/
def Device.contIn (d : Device) (msg : List Byte) (f : Device → Device) : Device :=
  match d.mirrorPort with
  | some p =>
    if d.rxNext p 0 fun k => k.kind.toNat == 0x20 && k.payload.take msg.length == msg then f (d.takeHead p 0) else d
  | none => f d

/-! ### Records -/

/-- A PACKET entry (R555): status 0 REFUSED, 1 AGED, 2 HOPS. -/
def Device.logPacket (d : Device) (w : Nat) (k : Packet) (status : Nat) : Device :=
  d.log w 0x08 13 k.addr.toNat 0 (k.src.toNat + k.dest.toNat * 2 ^ 16 + status * 2 ^ 32)

/-- A refused packet counted and logged (R403). -/
def Device.refused (d : Device) (w : Nat) (k : Packet) : Device :=
  ((d.count (fabReg 0x50) 1).setBit (fabReg 0x20) 2).logPacket w k 0

/-! ### Routes -/

/-- The route table entry of a destination (R411). -/
def Device.routeOf (d : Device) (dest : Nat) : Nat := (mget 0 d.fab.routes dest).toNat

/-- flow_hash of R412. -/
def flowHash (src dst cls : Nat) (addr : Nat) : BitVec 32 :=
  let x : BitVec 32 := BitVec.ofNat 32 (src * 2 ^ 16 + dst)
  let x := x ^^^ (BitVec.ofNat 32 (addr / 65536) * 0x9E3779B1) ^^^ BitVec.ofNat 32 cls
  let x := (x ^^^ (x >>> 15)) * 0x85EBCA77
  x ^^^ (x >>> 13)

/-- The port on which a packet goes out by a route table entry (R412); none when the entry is not VALID. -/
def pathPort (e : Nat) (k : Packet) : Option Nat :=
  if bit e 24 && !bit e 23 then
    some (field e (4 * ((flowHash k.src.toNat k.dest.toNat k.cls.toNat k.addr.toNat).toNat % (field e 16 2 + 1))) 4)
  else none

/-- The port on which a packet goes out (R412); none when its destination has no VALID entry. -/
def Device.routePort (d : Device) (k : Packet) : Option Nat := pathPort (d.routeOf k.dest.toNat) k

/-! ### Acknowledgements -/

/-- An entry of an ACK packet (R401): status 0 WRITTEN, 1 REFUSED. -/
def ackWord (k : Packet) (status : Nat) : List Byte := leBytes 4 (k.tag.toNat + k.gen.toNat % 16 * 2 ^ 16 + status * 2 ^ 20)

/-- An acknowledgement returned to the sender of a packet (R404): it joins an ACK packet for the same part that still waits on the port
of the route, or goes in one of its own. Without a route none can be sent. -/
def Device.ackTo (d : Device) (k : Packet) (status : Nat) : Device :=
  let a : Packet := { d.ctrlPacket 0x10 k.src.toNat [] with payload := ackWord k status }
  match d.routePort a with
  | some p =>
    match (d.port p).tx.find? fun x => x.kind == a.kind && x.dest == a.dest && x.src == a.src && decide (x.payload.length < 224) with
    | some x =>
      d.modPort p fun y => { y with tx := y.tx.map fun z => if z = x then { x with payload := x.payload ++ ackWord k status } else z }
    | none => d.txPacket p a
  | none => d

end Sys2Proof.Machine
end

