-- ==== Sys2Proof/Machine/Channel.lean ====
section
/-! DEFINITION. The queues of a channel controller of tower DRAM (R239 to R243, R248, R249): requests and their order, open rows,
arbitration, and accesses that a unit makes through the column switch within one step. -/
namespace Sys2Proof.Machine

open Sys2Proof

/-- A request of a channel queue in arrival order: whether it stands in the narrow queue, and its place there. -/
structure Waiting where
  narrow : Bool
  at0 : Nat
  q : QReq
  deriving DecidableEq, Repr

/-- A queue with the places of its entries. -/
def waiting (narrow : Bool) (l : List QReq) : List Waiting :=
  (l.zip (List.range l.length)).map fun p => { narrow := narrow, at0 := p.2, q := p.1 }

/-- Two queues in one order of arrival (R242); `fuel` bounds the sum of their lengths. -/
def mergeWaiting : Nat → List Waiting → List Waiting → List Waiting
  | 0, _, _ => []
  | _ + 1, [], b => b
  | _ + 1, a, [] => a
  | f + 1, x :: a, y :: b =>
    if y.q.arrived < x.q.arrived ∨ (y.q.arrived = x.q.arrived ∧ y.q.req.src < x.q.req.src) then y :: mergeWaiting f (x :: a) b
    else x :: mergeWaiting f a (y :: b)

/-- Every waiting request of a channel in order of arrival (R242). -/
def Channel.waitingAll (c : Channel) : List Waiting :=
  mergeWaiting (c.native.length + c.narrow.length) (waiting false c.native) (waiting true c.narrow)

/-- The codewords of a request. -/
def DramReqCws (r : DramReq) : List Nat := (List.range r.len).map fun i => r.addr.toNat / 16 + i

/-- Where a line of tower DRAM lies in its channel (R235). -/
def addrPlace (a : Nat) : DramPlace := dramPlace ((a % 0x001200000000) % 0xC0000000)
/-- Where a request's line lies in its channel (R235). -/
def reqPlace (r : DramReq) : DramPlace := addrPlace r.addr.toNat

/-- A DRAM bank of a channel: under its visible number also when a spare serves it (R252). -/
def Channel.bank (c : Channel) (b : Nat) : DramBank := mget DramBank.reset c.banks b
/-- A DRAM bank changed. -/
def Channel.modBank (c : Channel) (b : Nat) (f : DramBank → DramBank) : Channel :=
  { c with banks := mmod DramBank.reset c.banks b f }

/-- Whether a near-bank step holds a bank (R241, R279). -/
def Device.bankHeld (d : Device) (site ch b : Nat) : Bool :=
  (d.site site).cmds.any fun m => (mget NbBank.reset m.banks (48 * ch + b)).inStep

/-- Rows that queued accesses to other rows of their banks close (R240). -/
def Channel.closeRows (c : Channel) : Channel :=
  let ws := c.waitingAll.map fun w => reqPlace w.q.req
  (c.banks.map (·.1)).foldl
    (fun c b =>
      match (c.bank b).openRow with
      | some r => if ws.any fun p => p.bank == b && p.row != r then c.modBank b fun x => { x with openRow := none } else c
      | none => c) c

/-- The order of the requests of one clock (R242): the site's own core, then the other cores of the tower by position; the core port
is 25 and the service plane 26. -/
def dramSource (site k : Nat) : Nat := if site = k then 0 else 1 + coreOf k

/-- A queued request goes before those of the same clock from later sources (R242). -/
def insertReq (r : QReq) : List QReq → List QReq
  | [] => [r]
  | x :: t => if x.arrived = r.arrived ∧ r.req.src < x.req.src then r :: x :: t else x :: insertReq r t

/-- A request put into a channel's queue (R239); none when the queue is full. It ends a self-refresh of the controller's own
(R255). -/
def Device.pushReq (d : Device) (site ch : Nat) (r : DramReq) (owner : DramOwner) : Option Device :=
  let c := d.chan site ch
  let q : QReq := { req := r, owner := owner, arrived := d.now }
  if (if r.small then c.narrow.length else c.native.length) < (if r.small then 32 else 64) then
    some ((d.modSite site fun x => { x with parked := false }).modChan site ch fun c =>
      let c := { c with selfRefresh := c.selfRefresh && (d.site site).srBase }
      (if r.small then { c with narrow := insertReq q c.narrow } else { c with native := insertReq q c.native }).closeRows)
  else none

/-- The spare that serves a visible bank of a channel (R259). -/
def Device.spareOf (d : Device) (k ch b : Nat) : Option Nat :=
  (List.range 4).find? fun s => d.bitOf (corReg k (0x1040 + 8 * ch)) (8 * s + 7) && d.fieldOf (corReg k (0x1040 + 8 * ch)) (8 * s) 6 == b

/-- Requests that wait at their sources for places in a channel's queues enter them as places come free, in their order (R239). -/
def Device.admitWaiting (site ch : Nat) (d : Device) : Device :=
  let w := (d.chan site ch).atSource
  if w.isEmpty then d
  else
    (d.modChan site ch fun c => { c with atSource := [] }).each w fun q d =>
      match d.pushReq site ch q.req q.owner with
      | some d => d
      | none => d.modChan site ch fun c => { c with atSource := c.atSource ++ [q] }

/-- Several requests put into their channels, or none of them. -/
def Device.pushAll (d : Device) : List (Nat × Nat × DramReq × DramOwner) → Option Device
  | [] => some d
  | (s, c, r, o) :: t =>
    match d.pushReq s c r o with
    | some d => d.pushAll t
    | none => none

/-- A write of bytes in one line as channel requests from a source: one request, or one for each codeword when some are to be
poisoned. -/
def dramWrites (src : Nat) (small : Bool) (a : Nat) (bs : List Byte) (bad : List Nat) : List DramReq :=
  let cws := cwsOf a bs.length
  let one := fun (cs : List Nat) (p : Bool) =>
    { write := true, addr := BitVec.ofNat 48 (16 * cs.headD 0), len := cs.length,
      data := cs.flatMap fun c => (cwPart a bs c).map fun b => b.getD 0,
      mask := cs.flatMap fun c => (cwPart a bs c).map Option.isSome,
      poison := p, src := src, small := small : DramReq }
  if bad.isEmpty then [one cws false] else cws.map fun c => one [c] (bad.contains c)

/-- The waiting requests that may be served: their bank is not held, and no earlier one touches one of their codewords (R242). -/
def Device.candidates (d : Device) (site ch : Nat) : List Waiting :=
  let rec go : List Waiting → List Nat → List Waiting
    | [], _ => []
    | w :: r, seen =>
      let cs := DramReqCws w.q.req
      let rest := go r (seen ++ cs)
      if cs.any seen.contains || d.bankHeld site ch (reqPlace w.q.req).bank then rest else w :: rest
  go (d.chan site ch).waitingAll []

/-- The visible banks of a channel. -/
def dramBanks : List Nat := List.range 48

/-- What a controller does next (R241): a refresh or an access. -/
inductive Grant where
  | refresh (bank : Nat) (forced : Bool)
  | access (w : Waiting)
  | none
  deriving DecidableEq, Repr

/-- Waited 512 ns or more (R241), in arithmetic cycles. -/
def waitedLong (now : Nat) (w : Waiting) : Bool := decide (436 ≤ now - w.q.arrived)

/-- The access of the first class of R241, orders 2 to 6, that has a candidate. -/
def Device.grantOf (d : Device) (site ch : Nat) (l : List Waiting) : Option Waiting :=
  let c := d.chan site ch
  let every := d.fieldOf (corReg site 0x1000) 0 4
  (l.find? (waitedLong d.now)).or
    ((if every ≠ 0 ∧ every ≤ c.sinceNarrow then l.find? (fun w => w.narrow && w.at0 == 0) else none).or
      ((l.find? (fun w => !w.narrow && (c.bank (reqPlace w.q.req).bank).openRow == some (reqPlace w.q.req).row)).or
        ((l.find? (fun w => !w.narrow)).or (l.find? (fun w => w.narrow)))))

/-- The first class of R241 that has a candidate; banks whose layer moved to a shorter window with refreshes owed stand with those of
debt 4 (R247). -/
def Device.grant (d : Device) (site ch : Nat) : Grant :=
  let c := d.chan site ch
  let free := fun b => !d.bankHeld site ch b
  match dramBanks.find? fun b => (decide (4 ≤ (c.bank b).debt) || (c.bank b).urgent) && free b with
  | some b => .refresh b (decide (4 ≤ (c.bank b).debt))
  | none =>
    match d.grantOf site ch (d.candidates site ch) with
    | some w => .access w
    | none =>
      match dramBanks.find? fun b =>
          decide (0 < (c.bank b).debt) && free b && c.waitingAll.all fun w => (reqPlace w.q.req).bank != b with
      | some b => .refresh b false
      | none => .none

/-- A refresh of a bank (R240, R248, R260). -/
def Device.refreshBank (d : Device) (site ch b : Nat) (forced : Bool) : Device :=
  let d := d.modChan site ch fun c => c.modBank b fun x => { openRow := none, debt := x.debt - 1, urgent := false }
  if forced then d.count (corReg site 0x1090) 1 else d

/-- The rows that an access leaves open (R240), and the native bursts since the last narrow one. -/
def Channel.afterAccess (c : Channel) (p : DramPlace) (narrow close : Bool) : Channel :=
  if narrow then
    let c := { c with sinceNarrow := 0 }
    if (c.bank p.bank).openRow = some p.row then c
    else
      let stays := match c.narrow.find? fun x => (reqPlace x.req).bank == p.bank with
        | some x => (reqPlace x.req).row == p.row
        | none => false
      (c.modBank p.bank fun x => { x with openRow := if stays then some p.row else none }).closeRows
  else
    (({ c with sinceNarrow := c.sinceNarrow + 1 }).modBank p.bank fun x =>
      { x with openRow := if close then none else some p.row }).closeRows

/-- A burst made: counted (R260), with the rows that it leaves open. -/
def Device.burstMade (d : Device) (site ch : Nat) (p : DramPlace) (narrow : Bool) : Device :=
  (d.modChan site ch fun c => c.afterAccess p narrow (d.bitOf (corReg site 0x1000) 4)).count
    (corReg site (if narrow then 0x1088 else 0x1080)) 1

/-- The bytes of a request's i-th codeword that it writes. -/
def reqPart (r : DramReq) (i : Nat) : List (Option Byte) :=
  (List.range 16).map fun j => if r.mask.getD (16 * i + j) false then some (r.data.getD (16 * i + j) 0) else none

/-- Whether a channel is in service: its tower answers and it is not in self-refresh. -/
def Device.chanUp (d : Device) (site ch : Nat) : Bool :=
  d.up (towerOf site) && !(d.chan site ch).selfRefresh && !(d.site site).srBase

/-! ### Accesses within one step -/

/-- The 64 B lines that a run of bytes touches: address and length of each part. -/
def linesOf (a n : Nat) : List (Nat × Nat) :=
  (List.range ((a + n + 63) / 64 - a / 64)).map fun i =>
    let lo := max a (64 * (a / 64 + i))
    (lo, min (a + n) (64 * (a / 64 + i) + 64) - lo)

/-- A request leaves its queue. -/
def Device.unqueue (d : Device) (site ch : Nat) (w : Waiting) : Device :=
  d.modChan site ch fun c =>
    if w.narrow then { c with narrow := c.narrow.eraseIdx w.at0 } else { c with native := c.native.eraseIdx w.at0 }

/-- A request that stands in a channel's queue is granted in its turn (R241): the refreshes before it are made, and its burst. None:
another access comes first, or its bank is in a near-bank step. `n` bounds the refreshes. -/
def Device.dramTurn (site ch : Nat) (q : QReq) : Nat → Device → Option Device
  | 0, _ => none
  | n + 1, d =>
    match d.grant site ch with
    | .refresh b forced => Device.dramTurn site ch q n (d.refreshBank site ch b forced)
    | .access w => if w.q = q then some ((d.unqueue site ch w).burstMade site ch (reqPlace q.req) w.narrow) else none
    | .none => none

/-- More refreshes than a channel's banks can owe. -/
def turnFuel : Nat := 256

/-- A request of one step goes to its channel and is granted there (R239, R241); none when it has to wait. -/
def Device.dramNow (site ch : Nat) (r : DramReq) (d : Device) : Option Device :=
  match d.pushReq site ch r .none with
  | some e => if e.chanUp site ch then e.dramTurn site ch { req := r, owner := .none, arrived := d.now } turnFuel else none
  | none => none

/-- The requests of one step granted in order; none when one has to wait. -/
def Device.dramAll (site ch : Nat) : List DramReq → Device → Option Device
  | [], d => some d
  | r :: t, d =>
    match d.dramNow site ch r with
    | some d => d.dramAll site ch t
    | none => none

/-- The read of a line, or of a codeword of it over the narrow path (R237, R238). -/
def dramRead (src : Nat) (small : Bool) (a : Nat) : DramReq :=
  { write := false, addr := BitVec.ofNat 48 (if small then a / 16 * 16 else a / 64 * 64), len := if small then 1 else 4, data := [],
    mask := [], poison := false, src := src, small := small }

/-! ### Capacity-memory channels -/

/-- Where a channel offset lies in an LPDDR6 channel (R442): the data unit's sub-channel, column, bank and row. -/
structure LpdPlace where
  sub : Nat
  col : Nat
  bank : Nat
  row : Nat
  deriving DecidableEq, Repr

/-- The place of a 32 B unit (R442). -/
def unitPlace (u : Nat) : LpdPlace := { sub := u % 2, col := u / 2 % 32, bank := u / 64 % 16, row := u / 2 / 512 }
/-- The data unit of a channel offset (R442). -/
def dataUnit (v : Nat) : Nat := 18 * (v / 512) + v % 512 / 32
/-- The check unit of a channel offset (R442). -/
def checkUnit (v : Nat) : Nat := 18 * (v / 512) + 16 + v % 512 / 16 / 16

/-- Where the check bits of a channel offset's codeword lie (R442): the check unit, and their two bytes in it. -/
def checkBytes (v : Nat) : Nat × Nat × Nat := (checkUnit v, 2 * (v % 512 / 16 % 16), 2 * (v % 512 / 16 % 16) + 1)

/-- The row of a unit opened. -/
def Device.openUnit (ch u : Nat) (d : Device) : Device :=
  let p := unitPlace u
  { d with lpd := mmod LpdChan.reset d.lpd ch fun x => { x with openRows := mset 0 x.openRows (16 * p.sub + p.bank) (p.row + 1) } }

/-- An access of a channel opens the rows of its data and check units (R442). -/
def Device.openLine (ch v n : Nat) (d : Device) : Device :=
  (d.each ((List.range ((v + n + 31) / 32 - v / 32)).map fun i => dataUnit (32 * (v / 32 + i))) (Device.openUnit ch)).each
    ((cwsOf v n).map fun c => checkUnit (16 * c)) (Device.openUnit ch)

end Sys2Proof.Machine
end

