-- ==== Sys2Proof/Machine/Net.lean ====
section
/-! DEFINITION. The base network of a half (R206, R207, R210, R211): client ports, tag pools, the switches of the request and the
response network, and the entry of a transaction. -/
namespace Sys2Proof.Machine

open Sys2Proof

/-! ### Tags -/

/-- A tag of a half. -/
def Device.tag (d : Device) (h i : Nat) : Tag := mget Tag.reset (d.half h).tags i
/-- A tag set. -/
def Device.setTag (d : Device) (h i : Nat) (t : Tag) : Device :=
  d.modHalf h fun x => { x with tags := mset Tag.reset x.tags i t }

/-- The pool of a core port: first tag and size (R210). -/
def corePool (k : Nat) : Nat × Nat := (96 * (k % 240), 96)
/-- The pool of a ring port (R210). -/
def ringPool (r : Nat) : Nat × Nat := (23040 + 160 * r, 160)
/-- The pool of a bridge port (R210): module and port. -/
def bridgePool (m port : Nat) : Nat × Nat := (28160 + 80 * (2 * m + port), 80)
/-- The pool of the service plane (R210). -/
def servicePool : Nat × Nat := (32640, 128)

/-- The pool that a tag belongs to (R210). -/
def poolOf (i : Nat) : Nat × Nat :=
  if i < 23040 then (96 * (i / 96), 96)
  else if i < 28160 then (23040 + 160 * ((i - 23040) / 160), 160)
  else if i < 32640 then (28160 + 80 * ((i - 28160) / 80), 80)
  else servicePool

/-- The ring port of a line (R220). -/
def ringPortOf (a : Nat) : Nat := a / 64 % 32

/-- The client port of a tag (R206): a core port, a ring port or a bridge port; the service plane's path leads through the ring port of its
line (R209). -/
def portOf (i a : Nat) : Nat :=
  if i < 23040 then i / 96 else if i < 28160 then 240 + (i - 23040) / 160
  else if i < 32640 then 272 + (i - 28160) / 80 else 240 + ringPortOf a

/-- The lowest free tag of a pool. -/
def Device.freeOf (d : Device) (h : Nat) (pool : Nat × Nat) : Option Nat :=
  (List.range pool.2).find? fun i => (d.tag h (pool.1 + i)).st == .free

/-- A transaction put under the lowest free tag of a pool, its generation advanced (R210, R211); none when no tag is free. -/
def Device.takeTag (d : Device) (h : Nat) (pool : Nat × Nat) (t : Tag) : Option (Nat × Device) :=
  match d.freeOf h pool with
  | none => none
  | some i =>
    let j := pool.1 + i
    let g := (d.tag h j).gen + 1
    some (j, (d.setTag h j { t with gen := g, seq := (d.half h).txns }).modHalf h fun x => { x with txns := x.txns + 1 })

/-- A tag free again: its generation stays until the next issue. -/
def Device.freeTag (d : Device) (h i : Nat) : Device := d.setTag h i { Tag.reset with gen := (d.tag h i).gen }

/-! ### Switches -/

/-- The place of an item in a network: stages 0 to 2 are the inputs of the switches that it crosses one after another, stage 3 is where
it leaves. A request crosses ingress switch port / 8, middle switch (port / 8 + slice / 8) mod 16 and egress switch slice / 8; a response
crosses the same switches in reverse (R206, R207). -/
def NetItem.place (x : NetItem) (back : Bool) (stage : Nat) : Nat :=
  let i := x.port / 8
  let e := x.slice / 8
  let m := (i + e) % 16
  1000 * stage +
    match stage, back with
    | 0, false => x.port
    | 1, false => 41 * m + i
    | 2, false => 16 * e + m
    | 0, true => x.slice
    | 1, true => 32 * m + e
    | 2, true => 16 * i + m
    | _, false => x.slice
    | _, true => x.port

/-- The items at a place. -/
def Net.at (n : Net) (p : Nat) : List NetItem := mget [] n.queues p
/-- An item put behind those of a place. -/
def Net.put (n : Net) (p : Nat) (x : NetItem) : Net := { n with queues := mset [] n.queues p (n.at p ++ [x]) }
/-- The oldest item of a place taken away. -/
def Net.pop (n : Net) (p : Nat) : Net := { n with queues := mset [] n.queues p ((n.at p).drop 1) }
/-- An item taken out wherever it stands. -/
def Net.drop (n : Net) (tag : Nat) : Net :=
  n.queues.foldl (fun m q => if q.2.any (·.tag == tag) then { m with queues := mset [] m.queues q.1 (q.2.filter (·.tag != tag)) } else m) n

/-- The oldest items of a stage's inputs: place, item. -/
def Net.heads (n : Net) (stage : Nat) : List (Nat × NetItem) :=
  (n.queues.filter fun q => q.1 / 1000 == stage).filterMap fun q => q.2.head?.map fun x => (q.1, x)

/-- An output of a stage grants one of the inputs whose oldest item waits for it, round-robin (R207). -/
def Net.grant (back : Bool) (stage : Nat) (heads : List (Nat × NetItem)) (n : Net) (out : Nat) : Net :=
  let cs := heads.filter fun p => p.2.place back (stage + 1) == out
  match (cs.find? fun p => decide (mget 0 n.turn out ≤ p.1)).or cs.head? with
  | some p =>
    let n := (n.pop p.1).put out p.2
    { n with turn := mset 0 n.turn out (p.1 + 1) }
  | none => n

/-- One network cycle of a stage: each of its outputs passes on one item. -/
def Net.stage (back : Bool) (n : Net) (stage : Nat) : Net :=
  let hs := n.heads stage
  ((hs.map fun p => p.2.place back (stage + 1)).foldl (fun l o => insertAsc o l) []).foldl (Net.grant back stage hs) n

/-- One network cycle (R207, R208): every item moves at most one stage. -/
def Net.cycle (back : Bool) (n : Net) : Net := [2, 1, 0].foldl (Net.stage back) n

/-- Whether an item is the first of those that leave the network where it does. -/
def Net.out (n : Net) (back : Bool) (x : NetItem) : Bool := (n.at (x.place back 3)).head? == some x

/-- Network cycles until an item has come out, at most `fuel`. -/
def Net.run (back : Bool) (x : NetItem) : Nat → Net → Net
  | 0, n => n
  | f + 1, n => if (n.at (x.place back 3)).contains x then n else Net.run back x f (n.cycle back)

/-- Cycles that bring any item out: in each of the three stages it waits for each other item at most once. -/
def Net.bound (n : Net) : Nat := 3 + 3 * n.queues.foldl (fun a q => a + q.2.length) 0

/-- The network once an item has come out. -/
def Net.deliver (n : Net) (back : Bool) (x : NetItem) : Net := Net.run back x n.bound n

/-! ### Transactions -/

/-- What the networks of a half carry for a tag: none when its line lies in no slice of this half's store. -/
def Device.netItem (d : Device) (h i : Nat) : Option NetItem :=
  match regionOf (d.tag h i).addr with
  | .store h' o => if h' = h then some { tag := i, port := portOf i (d.tag h i).addr, slice := (storePlace o).1 } else none
  | _ => none

/-- A transaction enters its half (R206, R207, R239): the request network for a line of the half's own store, the owning core's port for
tower DRAM. -/
def Device.enter (h i : Nat) (d : Device) : Device :=
  match d.netItem h i with
  | some x => d.modHalf h fun y => { y with requests := y.requests.put (x.place false 0) x }
  | none =>
    match regionOf (d.tag h i).addr with
    | .dram _ _ => d.modHalf h fun y => { y with atPort := y.atPort ++ [i] }
    | _ => d

/-- A transaction leaves what carries it in its half. -/
def Device.leave (h i : Nat) (d : Device) : Device :=
  d.modHalf h fun y =>
    { y with requests := y.requests.drop i, responses := y.responses.drop i, atPort := y.atPort.filter (· ≠ i) }

/-- A transaction issued by a port of a half under a tag of its pool; none when no tag is free. -/
def Device.issueTag (d : Device) (h : Nat) (pool : Nat × Nat) (t : Tag) : Option (Nat × Device) :=
  (d.takeTag h pool { t with st := .requested }).map fun x => (x.1, x.2.enter h x.1)

/-- Whether no older transaction of the half to the same line waits to be served (R443). -/
def Device.txnFirst (d : Device) (h i : Nat) : Bool :=
  let t := d.tag h i
  (d.half h).tags.all fun p => !(p.2.st == .requested && p.2.addr / 64 == t.addr / 64 && decide (p.2.seq < t.seq))

/-- The request network once a tag's request has come out at its slice, when it is the next there (R207, R217). Memory that has no
slices serves the transactions of a half to one line in order. None: it is not the tag's turn. -/
def Device.requestOut (d : Device) (h i : Nat) : Option Device :=
  match d.netItem h i with
  | some x =>
    let n := (d.half h).requests.deliver false x
    if n.out false x then some (d.modHalf h fun y => { y with requests := n.pop (x.place false 3) }) else none
  | none =>
    match regionOf (d.tag h i).addr with
    | .capacity _ _ => if d.txnFirst h i then some d else none
    | _ => none

/-- A transaction has been served: its response sets out (R207). -/
def Device.served (h i : Nat) (t : Tag) (d : Device) : Device :=
  let d := d.setTag h i { t with st := .served }
  match d.netItem h i with
  | some x => d.modHalf h fun y => { y with responses := y.responses.put (x.place true 0) x }
  | none => d

/-- Capacity memory leaves self-refresh and opens the rows of an access (R439, R442). -/
def Device.openCapacity (a n : Nat) (d : Device) : Device :=
  match regionOf a with
  | .capacity ch v => (d.wakeRun a n).openLine ch v n
  | _ => d

/-- The response network once the response of a tag has come out at its port, when it is the next there (R207). What comes from
elsewhere than a slice of the half is there at once. None: it is not the response's turn. -/
def Device.responseOut (d : Device) (h i : Nat) : Option Device :=
  match d.netItem h i with
  | some x =>
    let n := (d.half h).responses.deliver true x
    if n.out true x then some (d.modHalf h fun y => { y with responses := n.pop (x.place true 3) }) else none
  | none => some d

/-- Whether a tag's transaction is exactly one aligned codeword (R238). -/
def Tag.oneCw (t : Tag) : Bool := t.addr % 16 == 0 && t.len == 16

/-- The bytes of codeword c that a tag's write stores (R375). -/
def Tag.part (t : Tag) (c : Nat) : List (Option Byte) :=
  ((cwPart t.addr t.bytes c).zip (List.range 16)).map fun p => if t.holes.contains ((16 * c + p.2) % 64) then none else p.1

/-- A channel request without the bytes that its tag's write leaves as they are (R375). -/
def Tag.masked (t : Tag) (r : DramReq) : DramReq :=
  { r with mask := (r.mask.zip (List.range r.mask.length)).map fun p => p.1 && !t.holes.contains ((r.addr.toNat + p.2) % 64) }

/-- The channel requests of a tag's transaction with tower DRAM, which come from the core port (R237, R238). -/
def Tag.dramReqs (t : Tag) : List DramReq :=
  let small := t.oneCw
  if t.write then (dramWrites 25 small t.addr t.bytes t.poison).map t.masked
  else
    [{ write := false, addr := BitVec.ofNat 48 (if small then t.addr else t.addr / 64 * 64), len := if small then 1 else 4, data := [],
       mask := [], poison := false, src := 25, small := small }]

/-- A run of codewords crosses the through path of a column site (R372): what its dead connections do to it is found by the receiver of
the base network (R368). Answers the bad codewords. -/
def Device.passPath (d : Device) (k a n : Nat) (bad : List Nat) : Device × List Nat :=
  d.crossed (20 + halfOf (towerOf k)) 11 (d.pathBits k) a n bad

/-- A tag's transaction put into its channel queue; none when it is full. Of a tower that has been fenced or gone dark since it gets an
error response (R19, R380). -/
def Device.portPush (d : Device) (h i : Nat) : Option Device :=
  let t := d.tag h i
  match regionOf t.addr with
  | .dram s o =>
    if !d.legal t.addr then
      some ((d.setTag h i { t with st := .served, refused := true }).modHalf h fun y => { y with atPort := y.atPort.filter (· ≠ i) })
    else
      let x := if t.write then d.passPath s t.addr t.len t.poison else (d, t.poison)
      let u := { t with poison := x.2 }
      (x.1.pushAll (u.dramReqs.map fun r => (s, (dramPlace o).ch, r, DramOwner.port h i t.gen))).map fun d =>
        (d.setTag h i { u with parts := u.dramReqs.length }).modHalf h fun y => { y with atPort := y.atPort.filter (· ≠ i) }
  | _ => none

/-- The transactions that wait at the core ports of a half enter the channel queues that have room (R239): in order for each channel,
and none holds up one for another channel. -/
def Device.pumpPorts (h : Nat) (d : Device) : Device :=
  ((d.half h).atPort.foldl
    (fun (acc : Device × List Nat) i =>
      let c := (acc.1.tag h i).addr / 64 % 8 + 8 * ((acc.1.tag h i).addr / 0xC0000000)
      if acc.2.contains c then acc
      else
        match acc.1.portPush h i with
        | some d => (d, acc.2)
        | none => (acc.1, c :: acc.2)) (d, [])).1

end Sys2Proof.Machine
end

