-- ==== Sys2Proof/Machine/Txn.lean ====
section
/-! DEFINITION. Transactions of the base network at their issue (R210, R217, R221, R223, R378): their passage over the half bridge, the
flits that carry them (R374, R375), and the accesses that a step makes whole. -/
namespace Sys2Proof.Machine

open Sys2Proof

/-! ### Bridge flits -/

/-- Role of a module (R386). -/
def Device.modRole (d : Device) (m : Nat) : Nat := d.fieldOf (brgReg (0x100 + 8 * m)) 0 2
/-- Width code of a module (R386). -/
def Device.modWidth (d : Device) (m : Nat) : Nat := d.fieldOf (brgReg (0x100 + 8 * m)) 2 2
/-- The modules of a role, ascending (R221). -/
def Device.roleModules (d : Device) (r : Nat) : List Nat := (List.range 28).filter fun m => d.modRole m == r

/-- A module. -/
def Device.module (d : Device) (m : Nat) : Module := mget Module.reset d.mods m
/-- A module changed. -/
def Device.modModule (d : Device) (m : Nat) (f : Module → Module) : Device :=
  { d with mods := mset Module.reset d.mods m (f (d.module m)) }
/-- The link of a direction. -/
def Module.link (x : Module) (toEast : Bool) : Link := if toEast then x.eastward else x.westward
/-- A link set. -/
def Module.setLink (x : Module) (toEast : Bool) (l : Link) : Module :=
  if toEast then { x with eastward := l } else { x with westward := l }

/-- The flit next in order taken at a receiver. -/
def Link.took (n : Nat) (l : Link) : Link :=
  { l with expect := (l.expect + 1) % n, nak := false, redo := l.redo.filter (· != l.expect) }

/-- A CMD entry of 6 bytes, or a slot of twelve (R374). -/
def cmdSlot (es : List Nat) : List Byte := (List.range 12).flatMap fun i => leBytes 6 (es.getD i 0)

/-- The 8 check bytes of a beat: codewords 0 to 3 in order, poisoned where marked (R289, R374). -/
def beatCheck (bs : List Byte) (bad : List Nat) : List Byte :=
  (List.range 4).flatMap fun i =>
    leBytes 2 (eccEncode (sliceBytes bs (16 * i) 16) ^^^ (if bad.contains i then poisonSyn else 0)).toNat

/-- A flit (R374) of the link's next number: one CMD slot, the beats, and empty CMD slots. -/
def bridgeFlitOf (seq ack : Nat) (nak tick : Bool) (cmds : List Nat) (beats : List (List Byte)) : List Byte :=
  let kinds := 127 - (2 ^ beats.length - 1) * 2
  let hd := seq + ack * 2 ^ 10 + kinds * 2 ^ 20 + (if tick then 2 ^ 27 else 0) + (if nak then 2 ^ 28 else 0)
  let body := leBytes 4 hd ++ cmdSlot cmds ++ beats.flatMap id ++
    (List.replicate (6 - beats.length) (cmdSlot [])).flatMap id
  body ++ leBytes 4 (crc32 body).toNat

/-- Whether a module carries nothing at all: it is down, or the bridge is fenced (R379, R383). -/
def Device.bridgeDead (d : Device) (m : Nat) : Bool := d.modWidth m == 0 || (d.half 0).lost || (d.half 1).lost

/-- A flit sent on a module in a direction: kept for replay (R376) and put out, when the module does not retrain (R379). -/
def Device.sendBridge (d : Device) (m : Nat) (toEast : Bool) (tick : Bool) (cmds : List Nat) (beats : List (List Byte)) : Device :=
  if d.bridgeDead m then d
  else
    let x := d.module m
    let l := x.link toEast
    let o := x.link !toEast
    let f := bridgeFlitOf l.nextSeq ((o.expect + 1023) % 1024) o.nak tick cmds beats
    let kept := l.kept ++ [(l.nextSeq, f)]
    let d := d.modModule m fun x =>
      (x.setLink toEast { l with nextSeq := (l.nextSeq + 1) % 1024, kept := kept.drop (kept.length - 256) }).setLink (!toEast)
        { o with nak := false }
    if x.retraining then d else d.emit (.bridgeFlit m toEast f)

/-- The service/tick modules in service, ascending (R378). -/
def Device.tickModules (d : Device) : List Nat := (d.roleModules 3).filter fun m => d.modWidth m != 0

/-- CMD entries of service traffic, sent on the lowest service/tick module in service (R377, R378). -/
def Device.sendService (d : Device) (toEast : Bool) (cmds : List Nat) : Device :=
  match d.tickModules with
  | m :: _ => d.sendBridge m toEast false cmds []
  | [] => d

/-- The 14-bit ID of a tag of a bridge port's pool (R375): `j` is the tag number. -/
def bridgeId (j gen status : Nat) : Nat :=
  let b := (j - 28160) / 80
  (b % 2) + ((j - 28160) % 80) * 2 + gen * 2 ^ 7 + status * 2 ^ 11

/-- The codewords of a line, 0 to 3, that a run touches, with the byte mask of each. -/
def cwMasks (a n : Nat) : List (Nat × Nat) :=
  (cwsOf a n).map fun c =>
    (c % 4, ((List.range 16).filter fun i => decide (a ≤ 16 * c + i) && decide (16 * c + i < a + n)).foldl (fun v i => v + 2 ^ i) 0)

/-- The MASK entries of a write: one for each two partly covered codewords (R375). -/
def maskEntries : List (Nat × Nat) → List Nat
  | [] => []
  | [(c, b)] => [3 + c * 2 ^ 4 + b * 2 ^ 6]
  | (c, b) :: (c', b') :: r => (3 + c * 2 ^ 4 + b * 2 ^ 6 + c' * 2 ^ 22 + b' * 2 ^ 24 + 2 ^ 40) :: maskEntries r

/-- What the SLICE and LINE fields of a request name (R375): the slice and line of a store address; for memory that has no slices, the
parts of the line's number (log entry 144). -/
def farPlace (a : Nat) : Nat × Nat :=
  match regionOf a with
  | .store _ o => ((storePlace o).1, (storePlace o).2 / 64)
  | _ => (a / 64 % 256, a / 64 / 256 % 2 ^ 18)

/-- The request of a bridge-port tag sent to its half: a READ entry, or a WRITE entry with its masks and its beat (R375). -/
def Device.sendRequest (d : Device) (m : Nat) (toEast : Bool) (h j : Nat) : Device :=
  let t := d.tag h j
  let p := farPlace t.addr
  let e := bridgeId j t.gen.toNat 0 * 2 ^ 4 + p.1 * 2 ^ 18 + p.2 * 2 ^ 26
  if t.write then
    let ms := cwMasks t.addr t.bytes.length
    let cw := ms.foldl (fun v c => v + 2 ^ c.1) 0
    let lead := t.addr % 64
    let line := List.replicate lead 0 ++ t.bytes ++ List.replicate (64 - lead - t.bytes.length) 0
    let bad := t.poison.map (· % 4)
    d.sendBridge m toEast false ((2 + e + cw * 2 ^ 44) :: maskEntries (ms.filter fun c => c.2 != 0xFFFF))
      [line ++ beatCheck line bad]
  else d.sendBridge m toEast false [1 + e] []

/-- The half whose store or ring a transaction's address belongs to. -/
def addrHalf (a : Nat) : Nat :=
  match regionOf a with
  | .store h _ => h
  | .capacity ch _ => ch / 6
  | .dram k _ => halfOf (towerOf k)
  | _ => 0

/-- A transaction of a half for the other half (R221, R223, R378): under a tag of its port's pool and, in the other half, under a tag of the
port of the module that serves its slice among the modules of a role. None: no module, or a tag is wanting. -/
def Device.farIssue (d : Device) (h : Nat) (pool : Nat × Nat) (role : Nat) (t : Tag) : Option Device :=
  let s := (farPlace t.addr).1
  let ms := d.roleModules role
  match ms[s % ms.length]? with
  | none => none
  | some m =>
    match d.takeTag h pool { t with st := .bridging } with
    | none => none
    | some (i, d) =>
      match d.takeTag (1 - h) (bridgePool m (s % 2)) { t with st := .bridging, owner := .bridge m i (d.tag h i).gen } with
      | none => none
      | some (j, d) => some (d.sendRequest m (h == 0) (1 - h) j)

/-- A transaction issued by a core port (R210, R221, R223): to the other half's store over the store-traffic modules, else in its own
half. None: no tag is free. -/
def Device.coreTxn (d : Device) (k : Nat) (t : Tag) : Option Device :=
  let h := halfOf (towerOf k)
  let x := if t.write then d.passPath k t.addr t.len t.poison else (d, t.poison)
  let d := x.1
  let t := { t with poison := x.2 }
  match regionOf t.addr with
  | .store h' _ => if h' = h then (d.issueTag h (corePool k) t).map (·.2) else d.farIssue h (corePool k) 1 t
  | _ => (d.issueTag h (corePool k) t).map (·.2)

/-- A transaction issued through a ring port of a half under a tag of a pool (R210, R220, R378): to the other half over the fabric-transit
modules. None: no tag is free. -/
def Device.ringTxn (d : Device) (h : Nat) (pool : Nat × Nat) (t : Tag) : Option Device :=
  if addrHalf t.addr = h then (d.issueTag h pool t).map (·.2) else d.farIssue h pool 2 t

/-- The answer of a bridge port's transaction sent back to its requester (R375): the line with STATUS 0, 1 for an error, 2 for an
acknowledgement. The tag stays taken until the answer has crossed. -/
def Device.bridgeAnswer (d : Device) (h i m status : Nat) : Device :=
  let t := d.tag h i
  let unused := 127 * 2
  let status := if t.refused then 1 else status
  let e := 4 + bridgeId i t.gen.toNat status * 2 ^ 4 + unused * 2 ^ 18 + unused * 2 ^ 32
  let beat := if status = 0 then [t.resp ++ beatCheck t.resp (t.respPoison.map fun a => a / 16 % 4)] else []
  (d.setTag h i { t with st := .bridging }).sendBridge m (h == 0) false [e] beat

/-! ### Tags for runs -/

/-- A read of a run of bytes in one line. -/
def readTag (addr len : Nat) (owner : TxnOwner) : Tag := { Tag.reset with write := false, addr := addr, len := len, owner := owner }
/-- A write within one line; `bad` are the codewords to be written in poisoned form. -/
def writeTag (addr : Nat) (bytes : List Byte) (bad : List Nat) (owner : TxnOwner) : Tag :=
  { Tag.reset with write := true, addr := addr, len := bytes.length, bytes := bytes, poison := bad, owner := owner }

end Sys2Proof.Machine
end

