-- ==== Sys2Proof/Machine/Ring.lean ====
section
/-! DEFINITION. The ring crossbar of a half (R209, R220) and the accesses of its clients: their lines, the ring ports that they wait for,
and what an access does when every line of it has been answered (R325, R403, R404, R415, R427 to R429, R434). -/
namespace Sys2Proof.Machine

open Sys2Proof

/-! ### Clients -/

/-- A ring client of a half by number (R209): 0 to 7 its fabric ports, 8 to 11 its collective engines, 12 the prefix engine, 13 to 18 the
capacity-memory channels, and in the west half 19 the host port, 20 the xSPI port and 21 the service plane's path. -/
def fabricClient (p : Nat) : Nat := p % 8
/-- The host port, with its DMA engines. -/
def hostClient : Nat := 19
/-- The prefix engine. -/
def prefixClient : Nat := 12
/-- A collective engine of its half. -/
def collClient (e : Nat) : Nat := 8 + e % 4
/-- The service plane's path. -/
def serviceClient : Nat := 21

/-- The pool whose tags the lines of a client take at a ring port (R210). -/
def clientPool (c r : Nat) : Nat × Nat := if c = serviceClient then servicePool else ringPool r

/-- The lines of a client that wait for a ring port. -/
def Device.ringQueue (d : Device) (h c r : Nat) : List RingLine := mget [] (d.half h).ring (32 * c + r)

/-- A line put behind those that its client has for the same ring port. -/
def Device.ringPut (h c : Nat) (l : RingLine) (d : Device) : Device :=
  d.modHalf h fun x => { x with ring := mmod [] x.ring (32 * c + ringPortOf l.addr) fun q => q ++ [l] }

/-- The transaction of a line. -/
def RingLine.tag (l : RingLine) : Tag :=
  if l.write then writeTag l.addr l.bytes l.bad (.ring l.access) else readTag l.addr l.len (.ring l.access)

/-- The clients in the order of a round-robin turn after the one granted last. -/
def turnOrder (last : Nat) : List Nat := (List.range 22).map fun i => (last + i) % 22

/-- A ring port's cycle (R209): the next client in turn that has a line waiting, and a tag for it, is granted. None: nobody can be. -/
def Device.ringGrant (d : Device) (h r : Nat) : Option Device :=
  (turnOrder (mget 0 (d.half h).ringTurn r)).findSome? fun c =>
    match d.ringQueue h c r with
    | [] => none
    | l :: rest =>
      (d.ringTxn h (clientPool c r) l.tag).map fun d =>
        d.modHalf h fun x => { x with ring := mset [] x.ring (32 * c + r) rest, ringTurn := mset 0 x.ringTurn r ((c + 1) % 22) }

/-- The cycles of a ring port until no line can go on, at most `n`. -/
def Device.ringDrain (h r : Nat) : Nat → Device → Device
  | 0, d => d
  | n + 1, d =>
    match d.ringGrant h r with
    | some d => Device.ringDrain h r n d
    | none => d

/-- The lines that wait in a half's crossbar. -/
def HalfState.ringWaiting (x : HalfState) : Nat := x.ring.foldl (fun n q => n + q.2.length) 0

/-- Everything that the ring ports of a half can take now; what is for tower DRAM goes on to its core port's channels (R25). -/
def Device.ringPump (h : Nat) (d : Device) : Device :=
  let n := (d.half h).ringWaiting
  (d.each (if n = 0 then [] else List.range 32) fun r d => d.ringDrain h r n).pumpPorts h

/-! ### What an access is for -/

/-- The jobs of an engine. -/
def Device.jobs (d : Device) (e : Nat) : List CollJob := mget [] d.fab.jobs e
/-- The jobs of an engine set. -/
def Device.setJobs (d : Device) (e : Nat) (l : List CollJob) : Device := { d with fab := { d.fab with jobs := mset [] d.fab.jobs e l } }

/-- Bytes of a contribution counted under its stamp (R415); a job that is whole goes behind those that were whole before it. -/
def countJob (l : List CollJob) (job stamp n whole : Nat) : List CollJob :=
  let c := (l.find? fun c => c.job == job && c.stamp == stamp).getD { job := job, stamp := stamp, written := 0, whole := 0, begun := false }
  let c' := { c with written := c.written + n, whole := whole }
  if c.written < whole ∧ whole ≤ c'.written ∨ !(l.contains c) then l.erase c ++ [c'] else l.map fun x => if x = c then c' else x

/-- An address error of a host access (R427): ADDR, HST_ADDR_ERR, and the log entry. -/
def Device.hostAddrError (d : Device) (a : Nat) : Device := ((d.setBit (hstReg 0x10) 0).count (hstReg 0x18) 1).addrError a 0

/-- A line of a host read as its completion carries it (R429): with a bad codeword in the line it comes with EP and undefined data. -/
def Access.hostLine (x : Access) (acc : Device × List Byte × List Nat) (l : Nat × Nat) : Device × List Byte × List Nat :=
  if x.bad.any fun b => b / 64 == l.1 / 64 then
    let r := acc.1.drawBytes l.2
    ((r.2.setBit (hstReg 0x10) 1).count (hstReg 0x20) 1, acc.2.1 ++ r.1, acc.2.2 ++ [l.1])
  else (acc.1, acc.2.1 ++ mget [] x.got l.1, acc.2.2)

/-- The bytes that an access has read. -/
def Access.bytes (x : Access) : List Byte := (linesOf x.addr x.len).flatMap fun l => mget [] x.got l.1

/-- An acknowledgement, when the packet came in by a port (R402, R404). -/
def Device.ackPort (d : Device) (port : Option Nat) (k : Packet) (status : Nat) : Device :=
  if port.isSome then d.ackTo k status else d

/-- The payload bytes of a packet wait to be counted on the landing counter that it names (R325). -/
def Device.landedBy (d : Device) (k : Packet) : Device :=
  if k.landing.toNat < 512 then
    d.modTake fun t => { t with landed := t.landed ++ [(k.landing.toNat, k.stamp.toNat, k.payload.length)] }
  else d

/-- A packet whose memory has stopped answering while its payload was written: refused (R403). -/
def Device.refuseLate (d : Device) (port : Option Nat) (k : Packet) : Device :=
  (d.refused (match port with
    | some p => portLog p
    | none => d.logFor k.addr.toNat) k).ackPort port k 1

/-- An output of an engine's combination has left, or the combination itself is through: with the last of them the combination is complete
(R416, R423). -/
def Device.outputLeft (e : Nat) (d : Device) : Device :=
  let n := mget 0 d.fab.leaving e
  let d := { d with fab := { d.fab with leaving := mset 0 d.fab.leaving e (n - 1) } }
  let r := fabReg (0x400 + 8 * e)
  if n = 1 then d.setField r 16 32 (min (2 ^ 32 - 1) (d.fieldOf r 16 32 + 1)) else d

/-- Every line of an access has been answered. -/
def Device.finish (x : Access) (d : Device) : Device :=
  match x.use with
  | .hostRead =>
    if x.failed then (d.hostAddrError x.addr).emit .completerAbort
    else
      let r := (linesOf x.addr x.len).foldl x.hostLine (d, [], [])
      r.1.emit (.readCompletion r.2.1 r.2.2)
  | .hostWrite => if x.failed then d.hostAddrError x.addr else d
  | .dmaOut e id =>
    match (d.engine e).flight.find? fun y => y.id == id with
    | none => d
    | some y =>
      if x.failed then (d.addrError x.addr 0).dmaFail e id 1
      else
        (d.hostPut y.host x.bytes fun c =>
            x.bad.any fun b => decide (y.host + b < 16 * c + 16 + y.dev) && decide (16 * c + y.dev < y.host + b + 16)).modDesc e id fun y =>
          { y with acked := y.len, done := true }
  | .dmaIn e id =>
    if x.failed then (d.addrError x.addr 0).dmaFail e id 1
    else d.modDesc e id fun y => { y with acked := y.acked + x.len, done := y.acked + x.len == y.len }
  | .payload port k =>
    if x.failed then d.refuseLate port k
    else (d.landedBy k).ackPort port k 0
  | .output e k => (if x.failed then d.refuseLate none k else d.landedBy k).outputLeft e
  | .contribution port e job whole k =>
    if x.failed then d.refuseLate port k
    else (d.setJobs e (countJob (d.jobs e) job k.stamp.toNat k.payload.length whole)).ackPort port k 0

/-- An access of a client begins (R428): its lines wait in the crossbar of a half, each for its ring port. `bytes` are what it writes,
`bad` the codewords to be written in poisoned form. -/
def Device.access (h c : Nat) (use : AccessUse) (a n : Nat) (write : Bool) (bytes : List Byte) (bad : Nat → Bool) (d : Device) : Device :=
  let ls := linesOf a n
  let x : Access := { id := d.accessNext, use := use, addr := a, len := n, left := ls.length, got := [], bad := [], failed := false }
  let d := { d with accessNext := d.accessNext + 1 }
  if ls.isEmpty then d.finish x
  else
    let d := { d with accesses := d.accesses ++ [x] }
    (d.each ls fun l d =>
      d.ringPut h c { access := x.id, addr := l.1, len := l.2, write := write, bytes := if write then sliceBytes bytes (l.1 - a) l.2 else [],
                      bad := if write then (cwsOf l.1 l.2).filter bad else [] }).ringPump h

/-- An access with the answer of one of its transactions. -/
def Access.answered (x : Access) (t : Tag) : Access :=
  { x with
    left := x.left - 1
    got := if t.write then x.got else mset [] x.got t.addr (sliceBytes t.resp (t.addr % 64) t.len)
    bad := if t.write then x.bad else x.bad ++ t.respPoison
    failed := x.failed || t.refused }

/-- A transaction of an access has been answered; the last answer ends the access. -/
def Device.ringAnswer (d : Device) (id : Nat) (t : Tag) : Device :=
  match d.accesses.find? fun x => x.id == id with
  | none => d
  | some x =>
    let y := x.answered t
    if y.left = 0 then ({ d with accesses := d.accesses.filter fun z => z.id != id } : Device).finish y
    else { d with accesses := d.accesses.map fun z => if z.id = id then y else z }

/-- Whether a transaction stores words that the host port has encoded (R304, R428). -/
def Device.fromHost (d : Device) (t : Tag) : Bool :=
  match t.owner with
  | .ring id =>
    d.accesses.any fun x => x.id == id &&
      match x.use with
      | .hostWrite => true
      | .dmaIn _ _ => true
      | _ => false
  | _ => false

end Sys2Proof.Machine
end

