-- ==== Sys2Proof/Machine/Access.lean ====
section
/-! DEFINITION. The accesses to device memory that a unit makes within one step (R25, R206 to R211, R217 to R223, R237 to R242, R279; log
entry 146): each line goes to its memory and back through what stands between, as a transaction of its port or as a request of its channel,
in its turn among what waits there. A step one of whose accesses would have to wait is not due yet. -/
namespace Sys2Proof.Machine

open Sys2Proof

/-- An access that has to wait: nothing comes of it. -/
def Device.mustWait (d : Device) : ReadRes := { dev := { d with blocked := true }, bytes := [], bad := [] }

/-- An access that waits for a bank in a near-bank step (R279). -/
def Device.mustWaitFor (site ch b : Nat) (d : Device) : ReadRes :=
  { d with wanted := if d.wanted.contains (site, ch, b) then d.wanted else (site, ch, b) :: d.wanted }.mustWait

/-- A tag's write at its memory (R218): the codewords of which it stores anything, in ascending address. -/
def Device.storeTag (t : Tag) (host : Bool) (d : Device) : Device :=
  d.each ((cwsOf t.addr t.bytes.length).filter fun c => (t.part c).any Option.isSome) fun c d => d.writeCw c (t.part c) (t.poison.contains c) host

/-- A line's transaction at its memory (R199, R218, R237): a read takes the whole line, a write stores its bytes. -/
def Device.atMemory (t : Tag) (host : Bool) (d : Device) : ReadRes :=
  if t.write then { dev := d.storeTag t host, bytes := [], bad := [] }
  else d.readMem (t.addr / 64 * 64) 64

/-- What a line brings to a run of bytes in it. -/
def ReadRes.run (r : ReadRes) (t : Tag) : ReadRes :=
  { r with bytes := sliceBytes r.bytes (t.addr % 64) t.len, bad := r.bad.filter fun b => (cwsOf t.addr t.len).contains (b / 16) }

/-! ### Tower DRAM -/

/-- A line of tower DRAM over the column switch, or from the service plane (R23, R239): requests of a source at its channel. -/
def Device.dramTrip (src : Nat) (small : Bool) (t : Tag) (d : Device) : ReadRes :=
  match regionOf t.addr with
  | .dram s o =>
    let p := dramPlace o
    let rs := if t.write then dramWrites src small t.addr t.bytes t.poison else [dramRead src small t.addr]
    if d.bankHeld s p.ch p.bank then d.mustWaitFor s p.ch p.bank
    else
      match d.dramAll s p.ch rs with
      | some d =>
        let d := { d with wanted := d.wanted.filter (· ≠ (s, p.ch, p.bank)) }
        if small && !t.write then
          let r := d.readMem (t.addr / 16 * 16) 16
          { r with bytes := sliceBytes r.bytes (t.addr % 16) t.len }
        else (d.atMemory t false).run t
      | none => d.mustWait
  | _ => d.mustWait

/-! ### Transactions -/

/-- The requests of a port's transaction with tower DRAM granted in order (R239, R241); none when one has to wait. -/
def Device.portTurns (site ch h i : Nat) (gen : BitVec 4) (now : Nat) : List DramReq → Device → Option Device
  | [], d => some d
  | r :: l, d =>
    match d.dramTurn site ch { req := r, owner := .port h i gen, arrived := now } turnFuel with
    | some d => d.portTurns site ch h i gen now l
    | none => none

/-- A transaction with tower DRAM that has come to its core port (R25, R239). -/
def Device.portTrip (h i : Nat) (d : Device) : ReadRes :=
  let t := d.tag h i
  match regionOf t.addr with
  | .dram s o =>
    let p := dramPlace o
    if d.bankHeld s p.ch p.bank then d.mustWaitFor s p.ch p.bank
    else
      match (d.portPush h i).bind fun e => e.portTurns s p.ch h i t.gen d.now ((e.tag h i).dramReqs) with
      | some d =>
        let r := d.atMemory (d.tag h i) false
        if t.write then r
        else
          let x := r.dev.passPath s t.addr t.len (r.bad.map (· / 16))
          { r with dev := x.1, bad := x.2.map (16 * ·) }
      | none => d.mustWait
  | _ => d.mustWait

/-- A transaction of a half, issued, to its memory in that half and back to its port (R206, R207). -/
def Device.homeTrip (h i : Nat) (d : Device) : ReadRes :=
  let t := d.tag h i
  match regionOf t.addr with
  | .dram _ _ => d.portTrip h i
  | _ =>
    match d.requestOut h i with
    | none => d.mustWait
    | some d =>
      let r := (d.openCapacity t.addr t.len).atMemory t false
      match (r.dev.served h i t).responseOut h i with
      | some d => { r with dev := d }
      | none => d.mustWait

/-- The flit just sent on a direction of a module arrives (R376); none when another one before it has still to arrive, or the module retrains. -/
def Device.crossNow (m : Nat) (toEast : Bool) (d : Device) : Option Device :=
  let l := (d.module m).link toEast
  if d.bridgeDead m || (d.module m).retraining || (l.expect + 1) % 1024 != l.nextSeq then none
  else some (d.modModule m fun x => x.setLink toEast (l.took 1024))

/-- The tag that carries a transaction of half `h`, tag `i`, in the other half, with its module (R223). -/
def Device.farTag (d : Device) (h i : Nat) : Option (Nat × Nat) :=
  (d.half (1 - h)).tags.findSome? fun p =>
    match p.2.owner with
    | .bridge m j _ => if j = i ∧ p.2.st = .bridging then some (p.1, m) else none
    | _ => none

/-- A transaction of half `h` whose request has been sent to the other half: over the bridge, to its memory, and back (R221, R223, R375). -/
def Device.awayTrip (h i : Nat) (d : Device) : ReadRes :=
  let g := 1 - h
  match d.farTag h i with
  | none => d.mustWait
  | some (j, m) =>
    match d.crossNow m (h == 0) with
    | none => d.mustWait
    | some d =>
      let d := (d.setTag g j { d.tag g j with st := .requested }).enter g j
      let r := d.homeTrip g j
      if r.dev.blocked then r
      else
        let t := r.dev.tag g j
        let d := r.dev.setTag g j { t with resp := r.bytes, respPoison := r.bad }
        match (d.bridgeAnswer g j m (if t.write then 2 else 0)).crossNow m (g == 0) with
        | some d => { r with dev := d.freeTag g j }
        | none => d.mustWait

/-- A transaction issued by a port of a half, known by the number of its access: out and back, and its tag free again (R211). -/
def Device.tripOf (h id : Nat) (d : Device) : ReadRes :=
  match (d.half h).tags.find? fun p => p.2.owner == .ring id with
  | none => d.mustWait
  | some p =>
    let t := p.2
    let r := if t.st = .bridging then d.awayTrip h p.1 else d.homeTrip h p.1
    if r.dev.blocked then r else { r with dev := r.dev.freeTag h p.1 }.run t

/-- A line of a ring client of a half (R209, R220): it waits for its ring port in its turn, and goes under a tag of the port's pool. -/
def Device.ringTrip (h c : Nat) (t : Tag) (d : Device) : ReadRes :=
  let id := d.accessNext
  let l : RingLine := { access := id, addr := t.addr, len := t.len, write := t.write, bytes := t.bytes, bad := t.poison }
  let d := { d with accessNext := id + 1 }.ringPut h c l
  (d.ringDrain h (ringPortOf t.addr) (d.half h).ringWaiting).tripOf h id

/-- A line of a core's unit outside its tower (R25, R210): under a tag of the core's port. What the through path does to a read is found at the
vector die's side. -/
def Device.coreTrip (k : Nat) (t : Tag) (d : Device) : ReadRes :=
  let id := d.accessNext
  match { d with accessNext := id + 1 }.coreTxn k { t with owner := .ring id } with
  | none => d.mustWait
  | some d =>
    let r := d.tripOf (halfOf (towerOf k)) id
    if t.write then r
    else
      let x := r.dev.passPath k t.addr t.len (r.bad.map (· / 16))
      { r with dev := x.1, bad := x.2.map (16 * ·) }

/-! ### Runs of bytes -/

/-- A run of bytes read line by line. -/
def Device.readLines (a n : Nat) (f : Tag → Device → ReadRes) (d : Device) : ReadRes :=
  (linesOf a n).foldl
    (fun acc l =>
      if acc.dev.blocked then acc
      else
        let r := f (readTag l.1 l.2 .none) acc.dev
        { dev := r.dev, bytes := acc.bytes ++ r.bytes, bad := acc.bad ++ r.bad }) { dev := d, bytes := [], bad := [] }

/-- A run of bytes written line by line. -/
def Device.writeLines (a : Nat) (bs : List Byte) (f : Tag → Device → ReadRes) (d : Device) : Device :=
  (linesOf a bs.length).foldl
    (fun d l => if d.blocked then d else (f (writeTag l.1 (sliceBytes bs (l.1 - a) l.2) [] .none) d).dev) d

/-- Whether a run lies in tower DRAM, with the core position of its slice. -/
def dramSlice (a : Nat) : Option Nat :=
  match regionOf a with
  | .dram s _ => some s
  | _ => none

/-- A line of a unit of a core, at its channel or through the core's port (R23, R25). -/
def Device.unitTrip (k : Nat) (t : Tag) (d : Device) : ReadRes :=
  match dramSlice t.addr with
  | some s => d.dramTrip (dramSource s k) false t
  | none => d.coreTrip k t

/-- A read of device memory by a unit of a core, within its step. -/
def Device.unitRead (d : Device) (k a n : Nat) : ReadRes := d.readLines a n (Device.unitTrip k)
/-- A write of device memory by a unit of a core, within its step. -/
def Device.unitWrite (d : Device) (k a : Nat) (bs : List Byte) : Device := d.writeLines a bs (Device.unitTrip k)

/-- The half whose ring the service plane's path joins: the west, or the east once the west half is lost (R209, R383). -/
def Device.serviceHalf (d : Device) : Nat := if (d.half 0).lost then 1 else 0

/-- A line of the service plane (R209, R238, R239): at a channel of tower DRAM, over the narrow path for 16 B or less, else through the
ring. -/
def Device.serviceTrip (small : Bool) (t : Tag) (d : Device) : ReadRes :=
  match dramSlice t.addr with
  | some _ => d.dramTrip 26 (small && t.addr / 16 == (t.addr + t.len - 1) / 16) t
  | none => d.ringTrip d.serviceHalf serviceClient t

/-- A read by the service plane. -/
def Device.serviceRead (d : Device) (a n : Nat) : ReadRes := d.readLines a n (Device.serviceTrip (decide (n ≤ 16)))
/-- A write by the service plane. -/
def Device.serviceWrite (d : Device) (a : Nat) (bs : List Byte) : Device := d.writeLines a bs (Device.serviceTrip (decide (bs.length ≤ 16)))

end Sys2Proof.Machine
end

