-- ==== Sys2Proof/Machine/Flags.lean ====
section
/-! DEFINITION. The sticky flags and event counters that the units of a core set (R50, R51, R78, R102, R169, R170): the flags of a
rotated list go to its home position. -/
namespace Sys2Proof.Machine

open Sys2Proof

/-- COR_ACC_FLAGS of the home of the list that a core runs. -/
def Device.accReg (d : Device) (k : Nat) : Nat := corReg (d.home k) 0x200

/-- SAT of R50. -/
def flagSat : Nat := 0
/-- INEXACT of R50. -/
def flagInexact : Nat := 1
/-- UFLOW of R50. -/
def flagUflow : Nat := 2
/-- OUT_OVF of R50. -/
def flagOutOvf : Nat := 3
/-- NAN_IN of R50. -/
def flagNanIn : Nat := 4
/-- CONV_SAT of R50. -/
def flagConvSat : Nat := 5
/-- CONV_NAN of R50. -/
def flagConvNan : Nat := 6

/-- A flag set when an event occurred. -/
def Device.accFlag (d : Device) (k flag : Nat) (on : Bool) : Device := if on then d.setBit (d.accReg k) flag else d

/-- The conversion flags of narrowed results. -/
def Device.convFlags (d : Device) (k : Nat) (sat nan : Bool) : Device :=
  (d.accFlag k flagConvSat sat).accFlag k flagConvNan nan

/-- Products lost under R44: the counter advances and UFLOW is set, also while the counter sticks (log entry 180). -/
def Device.underflow (d : Device) (k n : Nat) : Device :=
  if n = 0 then d else (d.count (d.accReg k + 8) n).setBit (d.accReg k) flagUflow

/-- A flag of COR_ATT_FLAGS (R169): 0 NAN, 1 EMPTY, 2 PAGE_STALE. -/
def Device.attFlag (d : Device) (k flag : Nat) (on : Bool) : Device :=
  if on then d.setBit (corReg (d.home k) 0x600) flag else d

/-- An event counter advanced (R78): it sticks at 2^32 − 1 and then sets EVT_SAT. -/
def Device.evtAdd (d : Device) (k e n : Nat) : Device :=
  let v := (mget 0 (d.core k).evt e).toNat + n
  let d := if 2 ^ 32 - 1 < v then d.setBit (corReg k 0x300) 16 else d
  d.modCore k fun c => { c with evt := mset 0 c.evt e (BitVec.ofNat 32 (min (2 ^ 32 - 1) v)) }

/-- Field of a cue. -/
def cf (q : BitVec 128) (lo n : Nat) : Nat := field q.toNat lo n

/-- The counter that a cue names increments (R76, R107). -/
def Device.cueEvent (d : Device) (k : Nat) (q : BitVec 128) : Device :=
  if cf q 8 1 = 1 then d.evtAdd k (cf q 9 6) 1 else d

/-- A cue error (R104, R135): recorded in COR_CUE_ERR of the position that runs the list when none is, issue stops, and the take
faults with cause CUE_ERROR. -/
def Device.cueError (d : Device) (k code idx home unit : Nat) : Device :=
  let d := if d.bitOf (corReg k 0x308) 0 then d
    else ((d.setReg (corReg k 0x308) (BitVec.ofNat 64 (1 + code * 2 + idx * 2 ^ 9 + home * 2 ^ 21))).setReg
      (corReg k 0x310) (BitVec.ofNat 64 d.frame)).noteBit (corReg k 0x308) 0
  let d := d.modCore k fun c => { c with cueState := 3 }
  d.fault 6 (towerOf k) home unit 0 0

/-- The rounding that a cue's SR field and stream number select for an element (R37, R38, R93, R145). -/
def Device.rnd (d : Device) (home : Nat) (sr : Bool) (stream elem : Nat) : Rnd :=
  match d.take.reel with
  | some r => if sr && r.srEnable then srDraw r.takeKey d.frame home stream elem else .rne
  | none => .rne

end Sys2Proof.Machine
end

