-- ==== Sys2Proof/Machine/Operands.lean ====
section
/-! DEFINITION. Tensor descriptors and the operands of cues: references (R112 to R114), descriptors (R115 to R119), element
packing (R29), and the reading and writing of tensors in device memory and core scratch. -/
namespace Sys2Proof.Machine

open Sys2Proof

/-- A field of a descriptor. -/
def df (b : BitVec 256) (lo n : Nat) : Nat := field b.toNat lo n

/-- The extent of a dimension. -/
def descExt (b : BitVec 256) (i : Nat) : Nat :=
  if i = 0 then df b 81 19 else df b (100 + 16 * (i - 1)) 16
/-- The stride of a dimension above 0, in units of 16 B. -/
def descStride (b : BitVec 256) (i : Nat) : Nat := df b (148 + 28 * (i - 1)) 28
/-- NDIM_M1. -/
def descNdim (b : BitVec 256) : Nat := df b 68 2
/-- SPACE. -/
def descSpace (b : BitVec 256) : Nat := df b 71 2
/-- VALID. -/
def descValid (b : BitVec 256) : Bool := df b 70 1 == 1
/-- FORMAT. -/
def descFmt (b : BitVec 256) : Nat := df b 64 4

/-- A descriptor that breaks a legal range or the rule on unused dimensions (R115). -/
def descMalformed (b : BitVec 256) : Bool :=
  df b 0 4 != 0 || descSpace b == 3 || (descSpace b != 2 && df b 48 16 != 0) ||
    (decide (0xFFF0 ≤ df b 48 16) && decide (df b 48 16 ≤ 0xFFFE)) ||
    (List.range 4).any fun i =>
      descExt b i == 0 || (decide (descNdim b < i) && (descExt b i != 1 || descStride b i != 0))

/-- Bytes of a row of `n` elements of a format (R29). -/
def rowBytes (fmt n : Nat) : Nat := ceilDiv (n * fmtBits fmt) 8

/-- A destination that aliases itself (R118). -/
def descAliases (b : BitVec 256) : Bool :=
  let n := descNdim b
  (decide (1 ≤ n) && decide (16 * descStride b 1 < roundUp (rowBytes (descFmt b) (descExt b 0)) 16)) ||
    (decide (2 ≤ n) && decide (descStride b 2 < descStride b 1 * descExt b 1)) ||
    (n == 3 && decide (descStride b 3 < descStride b 2 * descExt b 2))

/-- An operand: what a descriptor copy names once an index has fixed a dimension (R113, R116). Dimensions above 0 carry extent, byte
step and linear-index step, innermost first; `lin` is the linear index of the first element in the full tensor. -/
structure Opnd where
  fmt : Nat
  space : Nat
  dev : Nat
  base : Nat
  scale : Int
  ext0 : Nat
  dims : List (Nat × Nat × Nat)
  lin : Nat
  deriving DecidableEq, Repr

/-- The operand of a descriptor copy. -/
def opndOf (c : DescCopy) : Opnd :=
  let b := c.bits
  let e0 := descExt b 0
  let e1 := descExt b 1
  let e2 := descExt b 2
  let all : List (Nat × Nat × Nat) :=
    ([(e1, 16 * descStride b 1, e0), (e2, 16 * descStride b 2, e0 * e1), (descExt b 3, 16 * descStride b 3, e0 * e1 * e2)]).take
      (descNdim b)
  let base := df b 0 48
  let raw : Opnd :=
    { fmt := descFmt b, space := descSpace b, dev := df b 48 16, base := base,
      scale := (base : Int) + 16 * signedOf 24 (df b 232 24), ext0 := e0, dims := all, lin := 0 }
  match c.sel with
  | none => raw
  | some (dim, i) =>
    match all[dim - 1]? with
    | some (_, s, m) => { raw with base := base + i * s, lin := i * m, dims := all.eraseIdx (dim - 1) }
    | none => raw

/-- The four extents of an operand (R119). -/
def Opnd.exts (o : Opnd) : List Nat := (o.ext0 :: ((o.dims.map fun (x : Nat × Nat × Nat) => x.1) ++ [1, 1, 1])).take 4

/-- The element count. -/
def Opnd.count (o : Opnd) : Nat := o.exts.foldl (· * ·) 1

/-- Whether an operand is a scalar (R119). -/
def Opnd.scalar (o : Opnd) : Bool := o.exts.all (· == 1)

/-- The rows under a list of dimensions, outermost first: address and linear index of element 0 of each row. -/
def rowsFrom : List (Nat × Nat × Nat) → Nat → Nat → List (Nat × Nat)
  | [], a, l => [(a, l)]
  | (e, s, m) :: r, a, l => (List.range e).flatMap fun x => rowsFrom r (a + x * s) (l + x * m)

/-- The rows of an operand in ascending linear index. -/
def Opnd.rows (o : Opnd) : List (Nat × Nat) := rowsFrom o.dims.reverse o.base o.lin

/-- Bytes of one row. -/
def Opnd.rowLen (o : Opnd) : Nat := rowBytes o.fmt o.ext0

/-- The scale bytes of a row of an MX operand (R116): the linear index is taken modulo 2^32, so the blocks of a row that passes 2^32 go on
at the first byte of the scale tensor. -/
def Opnd.scaleSpan (o : Opnd) (lin : Nat) : List (Int × Nat) :=
  let b := lin / 32 % 2 ^ 27
  let n := o.ext0 / 32
  if b + n ≤ 2 ^ 27 then [(o.scale + b, n)] else [(o.scale + b, 2 ^ 27 - b), (o.scale, b + n - 2 ^ 27)]

/-- The runs of bytes that an operand uses: its rows, and for an MX format the scale bytes of each row (R116, R117). -/
def Opnd.spans (o : Opnd) : List (Int × Nat) :=
  o.rows.flatMap fun r => ((r.1 : Int), o.rowLen) :: (if fmtMx o.fmt then o.scaleSpan r.2 else [])

/-- The kind of memory at an address that may be named: 0 tower DRAM, 1 west store, 2 east store, 3 capacity memory. -/
def Device.memKind (d : Device) (a : Int) : Option Nat :=
  if a < 0 ∨ !d.legal a.toNat then none
  else
    match regionOf a.toNat with
    | .dram _ _ => some 0
    | .store h _ => some (1 + h)
    | .capacity _ _ => some 3
    | _ => none

/-- The one region of the map that holds every byte of an operand in device memory (R117). -/
def Device.opndKind (d : Device) (o : Opnd) : Option Nat :=
  let ks := o.spans.flatMap fun s => [d.memKind s.1, d.memKind (s.1 + s.2 - 1)]
  match ks with
  | some k :: r => if r.all (· == some k) then some k else none
  | _ => none

/-- Whether every byte of an operand lies in the 4 MiB of core scratch (R117). -/
def Opnd.inScratch (o : Opnd) : Bool := o.spans.all fun s => decide (0 ≤ s.1) && decide (s.1 + s.2 ≤ 0x400000)

/-- The column sites that hold the bytes of an operand in tower DRAM. -/
def Opnd.sites (o : Opnd) : List Nat :=
  o.spans.flatMap fun s =>
    ([s.1, s.1 + s.2 - 1] : List Int).filterMap fun (a : Int) =>
      match regionOf a.toNat with
      | .dram k _ => if a < 0 then none else some k
      | _ => none

/-! ### References -/

/-- A descriptor-table entry as the cue engine reads it, both codewords checked (R295). -/
def descRead (e : DescEntry) : Checked × Checked :=
  let lo := leBytes 16 (e.bits.toNat % 2 ^ 128)
  let hi := leBytes 16 (e.bits.toNat / 2 ^ 128)
  (eccReceive lo e.syn0, eccReceive hi e.syn1)

/-- The corrected bits of an entry. -/
def descBits (e : DescEntry) : BitVec 256 :=
  let r := descRead e
  BitVec.ofNat 256 (leNat r.1.data + 2 ^ 128 * leNat r.2.data)

/-- The value of an index register (R113). -/
def Core.index (c : Core) (i : Nat) : Nat := ((c.loops[i]?).map (·.idx)).getD 0

/-- A checked reference: the error codes that apply, and the copy that a unit takes (R91, R112 to R115). -/
structure RefRes where
  codes : List Nat
  copy : DescCopy
  deriving DecidableEq, Repr

/-- A reference checked at issue. -/
def Core.ref (c : Core) (ref : Nat) : RefRes :=
  let e := mget DescEntry.reset c.descs (field ref 0 10)
  let b := descBits e
  let iuse := bit ref 18
  let ireg := field ref 19 2
  let idim := field ref 21 2
  let i := c.index ireg
  let gen := if field ref 10 8 = e.gen.toNat then [] else [0x01]
  let inv := if descValid b && !descMalformed b then [] else [0x02]
  let fld := if !iuse && (ireg != 0 || idim != 0) then [0x11] else []
  let idx := if iuse && (idim == 0 || decide (descNdim b < idim) || decide (descExt b idim ≤ i)) then [0x04] else []
  let fmt := if 0xC ≤ descFmt b then [0x03] else []
  let mx := if fmtMx (descFmt b) && descExt b 0 % 32 != 0 then [0x0C] else []
  { codes := if inv = [] then gen ++ fld ++ idx ++ fmt ++ mx else gen ++ inv ++ fld
    copy := { bits := b, sel := if iuse && idx.isEmpty then some (idim, i) else none } }

/-- The codewords of the entries that references name, as they are read: their byte offsets in the table (R295; log entry 13). -/
def Core.refWords (c : Core) (refs : List Nat) : List (Nat × Checked) :=
  refs.flatMap fun ref =>
    let e := field ref 0 10
    let r := descRead (mget DescEntry.reset c.descs e)
    [(32 * e, r.1), (32 * e + 16, r.2)]

/-- Whether a reference names an entry whose codewords may not be consumed. -/
def Core.refBad (c : Core) (ref : Nat) : Bool :=
  let r := descRead (mget DescEntry.reset c.descs (field ref 0 10))
  r.1.bad || r.2.bad

/-- Whether two operands are shape-compatible, or the first is a scalar (R119). -/
def shapeOk (src dst : Opnd) : Bool := src.exts == dst.exts || src.scalar

/-! ### Tensor data -/

/-- An element of a tensor: its code, its linear index, and its block's scale byte (127 where the format has none). -/
structure Elem where
  code : Nat
  lin : Nat
  scale : Nat
  deriving DecidableEq, Repr

/-- The value of an element with its block scale. -/
def Elem.val (fmt : Nat) (e : Elem) : FV := if fmtMx fmt then scaledVal fmt e.code e.scale else elemVal fmt e.code

/-- The element codes of a row's bytes (R29). -/
def unpackRow (fmt n : Nat) (bs : List Byte) : List Nat :=
  let v := leNat bs
  (List.range n).map fun i => field v (fmtBits fmt * i) (fmtBits fmt)

/-- The bytes of a row of element codes. -/
def packRow (fmt : Nat) (cs : List Nat) : List Byte :=
  leBytes (rowBytes fmt cs.length) (cs.foldr (fun c a => c % 2 ^ fmtBits fmt + 2 ^ fmtBits fmt * a) 0)

/-- A read by a core's unit in a space: 0 device memory, 1 scratch. -/
def Device.readSpace (d : Device) (k unit space a n : Nat) : ReadRes :=
  if space = 1 then d.readCore k unit .scratch a n else d.unitRead k a n

/-- Whether signatures are formed: a take runs in continuity (R354, R365). -/
def Device.contOn (d : Device) : Bool := d.bitOf (svcReg 0x9100) 0 && d.take.state == 2

/-- The runs of a byte run that lie in one 64 B line each: address, bytes. -/
def lineRuns (a : Nat) (bs : List Byte) : List (Nat × List Byte) :=
  let first := 64 - a % 64
  if bs.length ≤ first then [(a, bs)]
  else
    let rest := chunksOf 64 (bs.drop first)
    (a, bs.take first) :: (rest.zip (List.range rest.length)).map fun p => (a + first + 64 * p.2, p.1)

/-- The signature record of one store write (R354). -/
def storeRecord (a : Nat) (bs : List Byte) : List Byte :=
  let o := a % 64
  [1, 0, 0, 0, 0, 0, 0, 0] ++ leBytes 8 (a - o) ++ leBytes 8 ((2 ^ bs.length - 1) * 2 ^ o) ++
    (List.replicate o 0 ++ bs ++ List.replicate (64 - o - bs.length) 0)

/-- A record's CRC added to the signature of the core whose list wrote it (R354). -/
def Device.sigAdd (d : Device) (k : Nat) (rec : List Byte) : Device :=
  if d.contOn then d.modCore k fun c => { c with sig := c.sig + crc64 rec } else d

/-- The signature records of a run of bytes that a core writes to device memory: one for each line of a store. -/
def Device.sigStore (d : Device) (k a : Nat) (bs : List Byte) : Device :=
  match regionOf a with
  | .store _ _ => d.each (lineRuns a bs) fun r d => d.sigAdd k (storeRecord r.1 r.2)
  | _ => d

/-- A write by a core's unit in a space. -/
def Device.writeSpace (d : Device) (k unit space a : Nat) (bs : List Byte) : Device :=
  if space = 1 then d.writeCore k unit .scratch a bs (fun _ => 0)
  else (d.sigStore k a bs).unitWrite k a bs

/-- A tensor as a unit read it: its elements in ascending linear index, and the addresses of bad codewords. -/
structure TensorRes where
  dev : Device
  elems : List Elem
  bad : List Nat
  deriving DecidableEq, Repr

/-- Several runs of bytes read by a core's unit, one after another. -/
def Device.readRuns (d : Device) (k unit space : Nat) (runs : List (Int × Nat)) : ReadRes :=
  runs.foldl
    (fun (r : ReadRes) s =>
      let x := r.dev.readSpace k unit space s.1.toNat s.2
      { dev := x.dev, bytes := r.bytes ++ x.bytes, bad := r.bad ++ x.bad }) { dev := d, bytes := [], bad := [] }

/-- A tensor read by a core's unit. -/
def Device.readTensor (d : Device) (k unit : Nat) (o : Opnd) : TensorRes :=
  let r := o.rows.foldl
    (fun (acc : Device × List Elem × List Nat) row =>
      let x := acc.1.readSpace k unit o.space row.1 o.rowLen
      let s := x.dev.readRuns k unit o.space (if fmtMx o.fmt then o.scaleSpan row.2 else [])
      let es := ((unpackRow o.fmt o.ext0 x.bytes).zip (List.range o.ext0)).map fun p =>
        ({ code := p.1, lin := (row.2 + p.2) % 2 ^ 32,
           scale := if fmtMx o.fmt then ((s.bytes.getD (p.2 / 32) 0).toNat) else 127 } : Elem)
      (s.dev, acc.2.1 ++ es, acc.2.2 ++ x.bad ++ s.bad)) (d, [], [])
  { dev := r.1, elems := r.2.1, bad := r.2.2 }

/-- Element codes written to a tensor, row by row in ascending linear index. -/
def Device.writeTensor (d : Device) (k unit : Nat) (o : Opnd) (codes : List Nat) : Device :=
  d.each ((o.rows).zip (chunksOf (max 1 o.ext0) codes)) fun p d =>
    d.writeSpace k unit o.space p.1.1 (packRow o.fmt p.2)

/-- The scale bytes of an MX tensor written, block by block in ascending linear index. -/
def Device.writeScales (d : Device) (k unit : Nat) (o : Opnd) (scales : List Nat) : Device :=
  d.each ((o.rows).zip (chunksOf (max 1 (o.ext0 / 32)) scales)) fun p d =>
    ((o.scaleSpan p.1.2).foldl
      (fun (a : Device × List Nat) s =>
        (a.1.writeSpace k unit o.space s.1.toNat ((a.2.take s.2).map fun v => BitVec.ofNat 8 v), a.2.drop s.2)) (d, p.2)).1

/-- The linear indices of an operand's elements. -/
def Opnd.lins (o : Opnd) : List Nat := o.rows.flatMap fun r => (List.range o.ext0).map fun i => (r.2 + i) % 2 ^ 32

end Sys2Proof.Machine
end

