-- ==== Sys2Proof/Machine/Issue.lean ====
section
/-! DEFINITION. The checks that the cue engine makes in the cycle in which a cue issues (R91, R107 to R135): one definition for
each unit, from the cue, the descriptor table, the index registers and the core's registers; and the near-bank parameter block
(R266, R267). -/
namespace Sys2Proof.Machine

open Sys2Proof

/-- An error code when a condition holds. -/
def errIf (b : Bool) (code : Nat) : List Nat := if b then [code] else []

/-- The outcome of the checks: the codes that apply, and the descriptor copies the unit takes, in the order of the layout. -/
structure IssueChk where
  codes : List Nat
  refs : List DescCopy
  deriving DecidableEq, Repr

/-- The lowest code of a list (R137). -/
def minCode : List Nat → Option Nat
  | [] => none
  | a :: r => some (r.foldl min a)

/-- Unused header fields that are not 0 (R107, R111). -/
def hdrCodes (q : BitVec 128) : List Nat :=
  errIf (cf q 8 1 == 0 && cf q 9 6 != 0) 0x11 ++ errIf (cf q 15 1 == 0 && cf q 16 24 != 0) 0x11

/-- A predicate that holds, or none (R83). -/
def predTrue (c : Core) (q : BitVec 128) : Bool :=
  if cf q 15 1 = 0 then true
  else
    let v := (mget 0 c.evt (cf q 16 6)).toNat
    let imm := cf q 24 16
    match cf q 22 2 with
    | 0 => v == imm
    | 1 => v != imm
    | 2 => decide (imm ≤ v)
    | _ => decide (v < imm)

/-! ### Where operands may lie -/

/-- SPACE 1, inside the scratch (R117). -/
def Opnd.scratchOk (o : Opnd) : Bool := o.space == 1 && o.inScratch

/-- SPACE 0 in the store of half `h`. -/
def Device.storeOk (d : Device) (h : Nat) (o : Opnd) : Bool := o.space == 0 && d.opndKind o == some (1 + h)

/-- SPACE 1, or SPACE 0 in the issuing half's store (R125, R126, R155, R190). -/
def Device.nearOk (d : Device) (k : Nat) (o : Opnd) : Bool :=
  if o.space = 1 then o.inScratch else d.storeOk (halfOf (towerOf k)) o

/-- The store of either half, or capacity memory (R130). -/
def Device.farOk (d : Device) (o : Opnd) : Bool :=
  o.space == 0 &&
    match d.opndKind o with
    | some n => n != 0
    | none => false

/-- SPACE 1, the store or capacity memory (R130, R132). -/
def Device.dmaOk (d : Device) (o : Opnd) : Bool := if o.space = 1 then o.inScratch else d.farOk o

/-- An operand that must lie in one DRAM slice of the issuing tower (R132). -/
def Device.sliceCodes (d : Device) (k : Nat) (o : Opnd) : List Nat :=
  if o.space ≠ 0 then [0x05]
  else
    let ends : List Int := o.spans.flatMap fun s => [s.1, s.1 + s.2 - 1]
    let code := fun (a : Int) =>
      match if a < 0 then Region.hole else regionOf a.toNat with
      | .dram s _ => errIf (towerOf s != towerOf k) 0x10 ++ errIf (!d.legal a.toNat) 0x05
      | _ => [0x05]
    let own := o.sites.filter fun s => towerOf s == towerOf k
    ends.flatMap code ++ errIf (own.length == o.sites.length && own.any fun s => s != own.headD 0) 0x05

/-! ### Vector and function cues -/

/-- Formats legal for vector operands other than the MX formats (R125). -/
def vecFmt (f : Nat) : Bool := f == 0 || f == 1 || f == 2 || f == 3 || f == 9 || f == 0xA

/-- An operand without its outermost dimension (R124, TREE_SUM). Of a one-dimensional one a single element is left, EXT0 = 1 (log entry
133). -/
def Opnd.inner (o : Opnd) : Opnd := if o.dims = [] then { o with ext0 := 1 } else { o with dims := o.dims.dropLast }

/-- The extent of the outermost dimension. -/
def Opnd.outer (o : Opnd) : Nat := ((o.dims.getLast?).map (·.1)).getD o.ext0

/-- The shape rules between source A and the destination of a vector operation (R119, R124). -/
def vecShape (op : Nat) (a dd : Opnd) : Bool :=
  if op ≤ 6 ∨ op = 10 then shapeOk a dd
  else if op ≤ 9 then dd.exts == 1 :: a.exts.drop 1
  else decide (1 ≤ a.outer) && decide (a.outer ≤ 480) && dd.exts == a.inner.exts

/-- Whether a vector operation uses DB. -/
def vecUsesB (op : Nat) : Bool := decide (1 ≤ op) && decide (op ≤ 6)

/-- The issue checks of a vector cue (R124, R125). -/
def Device.vecChk (d : Device) (k : Nat) (q : BitVec 128) : IssueChk :=
  let c := d.core k
  let op := cf q 0 4
  let str := cf q 112 1 == 1
  let b := vecUsesB op
  let ra := c.ref (cf q 40 24)
  let rb := c.ref (cf q 64 24)
  let rd := c.ref (cf q 88 24)
  let oa := opndOf ra.copy
  let ob := opndOf rb.copy
  let od := opndOf rd.copy
  let used := (if str then [] else [ra]) ++ (if b then [rb] else []) ++ [rd]
  { codes := used.flatMap (·.codes) ++
      errIf (str && cf q 40 24 != 0) 0x11 ++ errIf (!b && cf q 64 24 != 0) 0x11 ++
      errIf (cf q 114 1 == 0 && cf q 115 8 != 0) 0x11 ++ errIf (decide (12 ≤ op)) 0x11 ++
      errIf (!str && !(vecFmt oa.fmt || (op == 0 && fmtMx oa.fmt))) 0x03 ++
      errIf (b && !vecFmt ob.fmt) 0x03 ++
      errIf (!(if op = 10 then fmtMx od.fmt else vecFmt od.fmt)) 0x03 ++
      errIf (!str && !d.nearOk k oa) 0x05 ++ errIf (b && !d.nearOk k ob) 0x05 ++ errIf (!d.nearOk k od) 0x05 ++
      errIf (descAliases rd.copy.bits) 0x02 ++
      errIf (!str && !vecShape op oa od) 0x07 ++ errIf (b && !shapeOk ob od) 0x07
    refs := used.map (·.copy) }

/-- The issue checks of a function cue (R126). -/
def Device.funChk (d : Device) (k : Nat) (q : BitVec 128) : IssueChk :=
  let c := d.core k
  let str := cf q 88 1 == 1
  let ra := c.ref (cf q 40 24)
  let rd := c.ref (cf q 64 24)
  let oa := opndOf ra.copy
  let od := opndOf rd.copy
  let used := (if str then [] else [ra]) ++ [rd]
  { codes := used.flatMap (·.codes) ++
      errIf (str && cf q 40 24 != 0) 0x11 ++ errIf (cf q 89 1 != 0) 0x11 ++
      errIf (cf q 90 1 == 0 && cf q 91 8 != 0) 0x11 ++ errIf (decide (6 ≤ cf q 0 4)) 0x11 ++
      errIf (!str && decide (1 < oa.fmt)) 0x03 ++ errIf (decide (1 < od.fmt)) 0x03 ++
      errIf (!str && !d.nearOk k oa) 0x05 ++ errIf (!d.nearOk k od) 0x05 ++
      errIf (descAliases rd.copy.bits) 0x02 ++ errIf (!str && !shapeOk oa od) 0x07
    refs := used.map (·.copy) }

/-! ### The array cue -/

/-- The issue checks of MATRIX (R29, R122, R123). -/
def matrixChk (q : BitVec 128) : IssueChk :=
  let af := cf q 43 4
  let bf := cf q 47 4
  let mode := cf q 56 2
  let closing := mode == 0 || mode == 3
  let opening := mode == 0 || mode == 1
  let int8 := af == 9 && bf == 9
  { codes :=
      errIf (decide (0xC ≤ af) || decide (0xC ≤ bf)) 0x03 ++
      errIf (int8 && closing && (cf q 91 1 != 0 || cf q 92 1 != 0 || cf q 93 8 != 0)) 0x11 ++
      errIf (!int8 && closing && cf q 101 1 != 0) 0x11 ++
      errIf (!int8 && opening && cf q 80 1 == 0 && cf q 81 10 != 0) 0x11 ++
      errIf (closing && cf q 92 1 == 0 && cf q 93 8 != 0) 0x11 ++ errIf (cf q 0 4 != 0) 0x11
    refs := [] }

/-! ### Attention cues -/

/-- A one-dimensional operand. -/
def Opnd.line (o : Opnd) : Bool := o.dims.isEmpty

/-- The issue checks of ATTEND (R127, R128, R155). A DP that is not one-dimensional, or whose EXT0 exceeds 65,535, is a SHAPE error at issue
(log entry 134). DS is written, so it must not alias itself (R118). -/
def Device.attendChk (d : Device) (k : Nat) (q : BitVec 128) : IssueChk :=
  let c := d.core k
  let rq := c.ref (cf q 40 24)
  let rp := c.ref (cf q 64 24)
  let rs := c.ref (cf q 88 24)
  let oq := opndOf rq.copy
  let op := opndOf rp.copy
  let os := opndOf rs.copy
  let pages := cf q 114 1 == 1
  let tail := cf q 113 1 == 1
  let used := [rq] ++ (if pages then [rp] else []) ++ [rs]
  { codes := used.flatMap (·.codes) ++
      errIf (!pages && !tail) 0x11 ++ errIf (!tail && cf q 115 6 != 0) 0x11 ++
      errIf (!pages && cf q 64 24 != 0) 0x11 ++
      errIf (oq.fmt != 1 && oq.fmt != 2) 0x03 ++ errIf (os.fmt != 0) 0x03 ++ errIf (pages && op.fmt != 0xA) 0x03 ++
      errIf (!oq.scratchOk) 0x05 ++ errIf (!os.scratchOk) 0x05 ++ errIf (pages && !d.nearOk k op) 0x05 ++
      errIf (descAliases rs.copy.bits) 0x02 ++ errIf (oq.dims.length != 1) 0x07 ++ errIf (!os.line) 0x07 ++
      errIf (pages && (!op.line || decide (65535 < op.ext0))) 0x07
    refs := used.map (·.copy) }

/-- The issue checks of FINISH (R127, R164). -/
def Device.finishChk (d : Device) (k : Nat) (q : BitVec 128) : IssueChk :=
  let c := d.core k
  let rs := c.ref (cf q 40 24)
  let rd := c.ref (cf q 64 24)
  let os := opndOf rs.copy
  let od := opndOf rd.copy
  { codes := rs.codes ++ rd.codes ++ errIf (cf q 88 1 != 0) 0x11 ++ errIf (cf q 89 1 == 0 && cf q 90 8 != 0) 0x11 ++
      errIf (os.fmt != 0) 0x03 ++ errIf (decide (1 < od.fmt)) 0x03 ++ errIf (!os.scratchOk) 0x05 ++
      errIf (!d.nearOk k od) 0x05 ++ errIf (descAliases rd.copy.bits) 0x02 ++ errIf (!os.line) 0x07
    refs := [rs.copy, rd.copy] }

/-- The issue checks of APPEND (R127, R128, R179). -/
def Device.appendChk (d : Device) (k : Nat) (q : BitVec 128) : IssueChk :=
  let c := d.core k
  let rk := c.ref (cf q 40 24)
  let rv := c.ref (cf q 64 24)
  let ok := opndOf rk.copy
  let ov := opndOf rv.copy
  let dim := fun (o : Opnd) => o.dims.length == 1 && (o.ext0 == 64 || o.ext0 == 128 || o.ext0 == 256)
  { codes := rk.codes ++ rv.codes ++ errIf (cf q 94 2 == 3) 0x11 ++ errIf (cf q 96 1 == 0 && cf q 97 8 != 0) 0x11 ++
      errIf (decide (1 < ok.fmt) || decide (1 < ov.fmt)) 0x03 ++ errIf (!ok.scratchOk || !ov.scratchOk) 0x05 ++
      errIf (!dim ok || !dim ov || ok.exts != ov.exts) 0x07
    refs := [rk.copy, rv.copy] }

/-- The issue checks of the prefix cues (R127, R190). -/
def Device.prefixChk (d : Device) (k : Nat) (q : BitVec 128) : IssueChk :=
  let c := d.core k
  let rt := c.ref (cf q 40 24)
  let rr := c.ref (cf q 64 24)
  let ot := opndOf rt.copy
  let orr := opndOf rr.copy
  { codes := rt.codes ++ rr.codes ++ errIf (ot.fmt != 0xA || orr.fmt != 0xA) 0x03 ++
      errIf (!d.nearOk k ot || !d.nearOk k orr) 0x05 ++ errIf (descAliases rr.copy.bits) 0x02 ++
      errIf (!ot.line || ot.ext0 != 144 || !orr.line || orr.ext0 != 16) 0x07
    refs := [rt.copy, rr.copy] }

/-- The issue checks of an attention cue by its operation. -/
def Device.attChk (d : Device) (k : Nat) (q : BitVec 128) : IssueChk :=
  match cf q 0 4 with
  | 0 => d.attendChk k q
  | 1 => d.finishChk k q
  | 2 => d.appendChk k q
  | 3 => { codes := errIf (cf q 40 16 == 0) 0x11, refs := [] }
  | 4 => d.prefixChk k q
  | 5 => d.prefixChk k q
  | _ => { codes := [0x11], refs := [] }

/-! ### DMA cues -/

/-- The members of a multicast group: core positions with an array (R214). -/
def Device.mcastMembers (d : Device) (h g : Nat) : List Nat :=
  ((List.range 240).filter fun i => d.bitOf (stoReg h (0x10000 + 32 * g + 8 * (i / 64))) (i % 64)).filterMap fun i =>
    if d.hasArray (240 * h + i) then some (240 * h + i) else none

/-- The checks that a source and a destination tensor share (R130). -/
def pairCodes (s t : Opnd) : List Nat := errIf (s.fmt != t.fmt) 0x03 ++ errIf (s.count != t.count) 0x07

/-- The fields of a READ that depend on DBANK (R129, R136). -/
def readFields (q : BitVec 128) : List Nat :=
  let b := cf q 88 3
  errIf (decide (5 < b)) 0x11 ++ errIf (b == 0 && cf q 91 14 != 0) 0x11 ++ errIf (b != 0 && cf q 64 24 != 0) 0x11 ++
    errIf ((b == 0 || b == 5) && cf q 105 1 != 0) 0x11 ++ errIf ((b == 0 || b == 5) && cf q 106 1 != 0) 0x11

/-- The issue checks of a store-DMA or DRAM-DMA READ (R130, R132). -/
def Device.readChk (d : Device) (k : Nat) (q : BitVec 128) (store : Bool) : IssueChk :=
  let c := d.core k
  let toMem := cf q 88 3 == 0
  let rs := c.ref (cf q 40 24)
  let rd := c.ref (cf q 64 24)
  let os := opndOf rs.copy
  let od := opndOf rd.copy
  let used := [rs] ++ (if toMem then [rd] else [])
  { codes := used.flatMap (·.codes) ++ readFields q ++
      (if store then
        errIf (!d.farOk os) 0x05 ++ errIf (cf q 107 1 == 0 && cf q 108 8 != 0) 0x11 ++
          errIf (cf q 107 1 == 1 && (d.mcastMembers (halfOf (towerOf k)) (cf q 108 8)).isEmpty) 0x11
       else d.sliceCodes k os) ++
      (if toMem then pairCodes os od ++ errIf (descAliases rd.copy.bits) 0x02 ++ errIf (!d.dmaOk od) 0x05 else [])
    refs := used.map (·.copy) }

/-- The issue checks of a store-DMA WRITE (R130). -/
def Device.stoWriteChk (d : Device) (k : Nat) (q : BitVec 128) : IssueChk :=
  let c := d.core k
  let rs := c.ref (cf q 40 24)
  let rd := c.ref (cf q 64 24)
  let os := opndOf rs.copy
  let od := opndOf rd.copy
  { codes := rs.codes ++ rd.codes ++ pairCodes os od ++ errIf (descAliases rd.copy.bits) 0x02 ++
      errIf (!os.scratchOk) 0x05 ++ errIf (!d.farOk od) 0x05
    refs := [rs.copy, rd.copy] }

/-- The issue checks of a DRAM-DMA WRITE (R132). -/
def Device.dramWriteChk (d : Device) (k : Nat) (q : BitVec 128) : IssueChk :=
  let c := d.core k
  let rs := c.ref (cf q 40 24)
  let rd := c.ref (cf q 64 24)
  let os := opndOf rs.copy
  let od := opndOf rd.copy
  { codes := rs.codes ++ rd.codes ++ pairCodes os od ++ errIf (descAliases rd.copy.bits) 0x02 ++
      errIf (!(if os.space = 1 then os.inScratch else d.storeOk 0 os || d.storeOk 1 os)) 0x05 ++ d.sliceCodes k od
    refs := [rs.copy, rd.copy] }

/-- The issue checks of SEND (R129, R130, R402). -/
def Device.sendChk (d : Device) (k : Nat) (q : BitVec 128) : IssueChk :=
  let c := d.core k
  let rs := c.ref (cf q 40 24)
  let rd := c.ref (cf q 64 24)
  let os := opndOf rs.copy
  let od := opndOf rd.copy
  { codes := rs.codes ++ rd.codes ++ pairCodes os od ++ errIf (descAliases rd.copy.bits) 0x02 ++
      errIf (!d.storeOk (halfOf (towerOf k)) os) 0x05 ++ errIf (od.space != 2) 0x05 ++
      errIf (os.rowLen % 16 != 0 || od.rowLen % 16 != 0) 0x07
    refs := [rs.copy, rd.copy] }

/-- A table row as an operand: the sub-tensor at index `i` of dimension 1 (R131). -/
def tableRow (o : Opnd) (i : Nat) : Opnd :=
  match o.dims with
  | [] => o
  | (_, s, m) :: r => { o with base := o.base + i * s, lin := o.lin + i * m, dims := r }

/-- The rows of a table: the extent of dimension 1. -/
def tableRows (o : Opnd) : Nat := (o.dims.head?.map (·.1)).getD 1

/-- The issue checks of GATHER (R131, R132): row j of DD receives the table row that index j names. DD must have as many rows as there are
indices, and rows of as many elements as the table's; anything else is a SHAPE error (log entry 135). A DD of another format than DT is a
FORMAT error (log entry 182). -/
def Device.gatherChk (d : Device) (k : Nat) (q : BitVec 128) : IssueChk :=
  let c := d.core k
  let rt := c.ref (cf q 40 24)
  let ri := c.ref (cf q 64 24)
  let rd := c.ref (cf q 88 24)
  let ot := opndOf rt.copy
  let oi := opndOf ri.copy
  let od := opndOf rd.copy
  { codes := rt.codes ++ ri.codes ++ rd.codes ++ errIf (oi.fmt != 0xA) 0x03 ++ errIf (ot.fmt != od.fmt) 0x03 ++
      errIf (!oi.scratchOk) 0x05 ++ errIf (!od.scratchOk) 0x05 ++ d.sliceCodes k ot ++
      errIf (descAliases rd.copy.bits) 0x02 ++ errIf (!oi.line) 0x07 ++ errIf (tableRows od != oi.count || (tableRow od 0).count != (tableRow ot 0).count) 0x07
    refs := [rt.copy, ri.copy, rd.copy] }

/-- The issue checks of a store-DMA cue. -/
def Device.stoChk (d : Device) (k : Nat) (q : BitVec 128) : IssueChk :=
  match cf q 0 4 with
  | 0 => d.readChk k q true
  | 1 => d.stoWriteChk k q
  | 2 => d.sendChk k q
  | _ => { codes := [0x11], refs := [] }

/-- The issue checks of a DRAM-DMA cue. -/
def Device.drmChk (d : Device) (k : Nat) (q : BitVec 128) : IssueChk :=
  match cf q 0 4 with
  | 0 => d.readChk k q false
  | 1 => d.dramWriteChk k q
  | 2 => d.gatherChk k q
  | _ => { codes := [0x11], refs := [] }

/-! ### The near-bank parameter block -/

/-- What an operation takes from the parameter block (R268): rows D, A, B, C used; bytes of OPERANDS used; greatest SUB. -/
structure NbSpec where
  rows : List Bool
  opBytes : Nat
  fmts : List (Nat × Nat)
  deriving DecidableEq, Repr

/-- The rows and the legal (FMT, greatest SUB) pairs of each near-bank operation. -/
def nbSpec : Nat → NbSpec
  | 0x00 => ⟨[true, true, false, false], 0, [(0, 0)]⟩
  | 0x01 => ⟨[true, false, false, false], 16, [(0, 0)]⟩
  | 0x02 => ⟨[true, true, true, false], 0, [(0, 0)]⟩
  | 0x03 => ⟨[true, true, true, false], 0, [(0, 0)]⟩
  | 0x04 => ⟨[true, true, true, false], 0, [(0, 0)]⟩
  | 0x05 => ⟨[true, true, false, false], 0, [(0, 0)]⟩
  | 0x06 => ⟨[true, true, true, false], 0, [(0, 0), (0x11, 0)]⟩
  | 0x07 => ⟨[true, true, true, false], 0, [(0, 0), (0x11, 0)]⟩
  | 0x08 => ⟨[true, true, true, false], 0, [(0, 0), (0x11, 0)]⟩
  | 0x09 => ⟨[true, true, true, true], 0, [(0, 0), (0x11, 0)]⟩
  | 0x0A => ⟨[true, true, false, false], 4, [(0, 0), (0x11, 0)]⟩
  | 0x0B => ⟨[true, true, true, false], 4, [(0, 0), (0x11, 0)]⟩
  | 0x0C => ⟨[false, true, false, false], 4, [(0, 0), (0x01, 0)]⟩
  | 0x0D => ⟨[true, true, true, false], 4, [(0, 0), (0x11, 0)]⟩
  | 0x0E => ⟨[true, true, false, false], 12, [(0, 0), (0x11, 0)]⟩
  | 0x0F => ⟨[true, true, false, false], 0, [(0x10, 1), (0x01, 1)]⟩
  | 0x10 => ⟨[true, true, false, false], 1, [(0x20, 3), (0x30, 3), (0x21, 1), (0x31, 1)]⟩
  | _ => ⟨[true, true, true, true], 36, [(0, 0), (0x01, 1)]⟩

/-- Row i of the parameter block: 0 D, 1 A, 2 B, 3 C. -/
def nbRow (p : List Byte) (i : Nat) : Nat := leAt p (2 * i) 2
/-- COUNT_M1. -/
def nbCountM1 (p : List Byte) : Nat := leAt p 8 2
/-- Whether row i advances. -/
def nbAdv (p : List Byte) (i : Nat) : Bool := bit (leAt p 10 1) i
/-- FMT. -/
def nbFmt (p : List Byte) : Nat := leAt p 11 1
/-- SUB. -/
def nbSub (p : List Byte) : Nat := field (leAt p 12 1) 2 2
/-- A 32-bit word of OPERANDS. -/
def nbWord (p : List Byte) (i : Nat) : Nat := leAt p (16 + 4 * i) 4

/-- A parameter block that breaks R267 for an operation; the rules that depend on the operation apply to the operations there are
(any other is an NB_MASK error, R134). -/
def nbParamBad (op : Nat) (p : List Byte) : Bool :=
  let s := nbSpec op
  let n := nbCountM1 p
  let w := nbWord p 0
  leAt p 14 2 != 0 || decide (8191 < n) || decide (16 ≤ leAt p 10 1) || decide (16 ≤ leAt p 12 1) ||
    (!bit (leAt p 12 1) 0 && leAt p 13 1 != 0) || ((List.range 4).any fun i => decide (8191 < nbRow p i)) ||
    (decide (op ≤ 0x11) &&
      (((List.range 4).any fun i =>
        if s.rows.getD i false then decide (8191 < nbRow p i + (if nbAdv p i then n else 0))
        else nbRow p i != 0 || nbAdv p i) ||
      !(s.fmts.any fun f => f.1 == nbFmt p && decide (nbSub p ≤ f.2)) ||
      leAt p (16 + s.opBytes) (48 - s.opBytes) != 0 ||
      (op == 0x0C && (w % 64 != 0 || decide (0x400000 < w + 256 * (n + 1)))) ||
      (op == 0x0D && (w % 4 != 0 || decide (0x400000 < w + 4 * (n + 1)))) ||
      (op == 0x0E && (w % 64 != 0 || decide (0x400000 < w + 2048))) ||
      (op == 0x10 && leAt p 16 1 == 255)))

/-- The issue checks of an executing unit's cue, near-bank parameter block apart. -/
def Device.issueChk (d : Device) (k : Nat) (q : BitVec 128) : IssueChk :=
  let r : IssueChk :=
    match cf q 4 4 with
    | 1 => matrixChk q
    | 2 => d.vecChk k q
    | 3 => d.funChk k q
    | 4 => d.attChk k q
    | 5 => d.stoChk k q
    | 6 => d.drmChk k q
    | 7 => { codes := errIf (decide (23 < cf q 45 5)) 0x11 ++ errIf (cf q 0 4 != 0) 0x11, refs := [] }
    | _ => { codes := [0x11], refs := [] }
  { r with codes := hdrCodes q ++ r.codes }

/-- The reference fields of a cue that it uses, for the check of their entries' codewords (R295). -/
def cueRefs (q : BitVec 128) : List Nat :=
  let op := cf q 0 4
  let a := cf q 40 24
  let b := cf q 64 24
  let c := cf q 88 24
  match cf q 4 4 with
  | 2 => (if cf q 112 1 = 1 then [] else [a]) ++ (if vecUsesB op then [b] else []) ++ [c]
  | 3 => (if cf q 88 1 = 1 then [] else [a]) ++ [b]
  | 4 =>
    match op with
    | 0 => [a] ++ (if cf q 114 1 = 1 then [b] else []) ++ [c]
    | 3 => []
    | _ => [a, b]
  | 5 => if op = 0 ∧ cf q 88 3 ≠ 0 then [a] else [a, b]
  | 6 => if op = 2 then [a, b, c] else if op = 0 ∧ cf q 88 3 ≠ 0 then [a] else [a, b]
  | _ => []

end Sys2Proof.Machine
end

