-- ==== Sys2Proof/Machine/Signatures.lean ====
section
/-! DEFINITION. The signature messages of continuity (R354, R357, R358, R418): what a part sends at the end of a frame, and the
comparison with its partner's. -/
namespace Sys2Proof.Machine

open Sys2Proof

/-- The position that runs the list of a home index (R100, R102). -/
def Device.runsOn (d : Device) (home : Nat) : Nat := mget home d.take.placed home

/-- The signatures of the frame that has ended, by home index; a home that runs no list has none, and its value is 0. -/
def Device.signatures (d : Device) : List (Nat × BitVec 64) :=
  (List.range 480).map fun h => (h, if d.hasArray h then (d.core (d.runsOn h)).sig else 0)

/-- The signature message of R357, 3,872 bytes. -/
def signatureMessage (n : Nat) (sigs : List (Nat × BitVec 64)) : List Byte :=
  [0xC7] ++ List.replicate 7 0 ++ leBytes 6 n ++ List.replicate 18 0 ++ sigs.flatMap fun p => leBytes 8 p.2.toNat

/-- The lowest home index whose signatures differ (R358). -/
def firstDiffer (a b : List (Nat × BitVec 64)) : Option Nat :=
  (List.range 480).find? fun h => mget 0 a h != mget 0 b h

/-- The messages of a frame compared once both are held (R357): equal ones are done with; at the first unequal signature the take is
aborted with cause CONTINUITY and SVC_CONT_MISMATCH records the frame and the home index (R358). -/
def Device.compareFrame (n : Nat) (d : Device) : Device :=
  match d.cont.mine.find? fun p => p.1 == n, d.cont.theirs.find? fun p => p.1 == n with
  | some a, some b =>
    let d := { d with cont := { d.cont with
      mine := d.cont.mine.filter fun p => p.1 != n
      theirs := d.cont.theirs.filter fun p => p.1 != n } }
    match firstDiffer a.2 b.2 with
    | none => d
    | some h =>
      let r := svcReg 0x9108
      let d := if d.bitOf r 63 then d
        else (d.setReg r (BitVec.ofNat 64 (n % 2 ^ 48 + h * 2 ^ 48 + h / 24 * 2 ^ 57 + 2 ^ 63))).noteBit r 63
      d.fault 7 (h / 24) h 0 0 0
  | _, _ => d

/-- At the frame-done event in continuity the part sends its signature message and holds it for the comparison (R357). -/
def Device.sendSignatures (d : Device) : Device :=
  if d.contOn then
    let s := d.signatures
    let d := { d with cont := { d.cont with mine := d.cont.mine ++ [(d.frame, s)] } }
    (d.sendCont (signatureMessage d.frame s)).compareFrame d.frame
  else d

/-- The partner's signature message arrives (R357), in a take or for a frame of the last one that is still to be compared. -/
def Device.contSigs (n : Nat) (sigs : List (Nat × BitVec 64)) (d : Device) : Device :=
  d.contIn (signatureMessage n ((List.range 480).map fun h => (h, mget 0 sigs h))) fun d =>
    if d.contOn || d.cont.mine.any fun p => p.1 == n then
      ({ d with cont := { d.cont with theirs := d.cont.theirs ++ [(n, sigs)] } } : Device).compareFrame n
    else d

/-- CONT_SIGNATURES (R357). -/
def execContSignatures (n : BitVec 48) (sigs : List (Nat × BitVec 64)) (s : State) : Host.Outcome State Fault Refusal :=
  s.onClock (Device.contSigs n.toNat sigs)

end Sys2Proof.Machine
end

