-- ==== Sys2Proof/Machine/CueEngine.lean ====
section
/-! DEFINITION. The cue engines (R73 to R92): issue in list order, predicates, synchronisation cues, loops, jumps, the end of the
frame, signals between cores and the completion of cues. -/
namespace Sys2Proof.Machine

open Sys2Proof

/-- Whether a core's cue engine may issue: a take runs, the frame runs, no error has halted it, no WAIT or FENCE holds it, and cues are
left. -/
def Device.canIssue (d : Device) (k : Nat) : Bool :=
  let c := d.core k
  d.take.state == 2 && d.take.frameRuns && (c.cueState == 1 || c.cueState == 2) && c.held.isNone && !c.ending &&
    decide (c.pc < c.list.length)

/-- The loop ends that an index reaches: an open loop repeats, or closes (R82). -/
def loopEnd : Nat → List LoopLevel → Nat → Nat × List LoopLevel
  | 0, ls, pc => (pc, ls)
  | fuel + 1, ls, pc =>
    match ls.getLast? with
    | none => (pc, ls)
    | some l =>
      if pc = l.start + l.body then
        if l.idx + 1 < l.count then (l.start, ls.dropLast ++ [{ l with idx := l.idx + 1 }])
        else loopEnd fuel ls.dropLast pc
      else (pc, ls)

/-- Issue moves to an index of the list. -/
def Core.goto (c : Core) (pc : Nat) : Core :=
  let r := loopEnd 4 c.loops pc
  { c with pc := r.1, loops := r.2, held := none, cueState := 1 }

/-- Issue stopped by a full queue (R73, R103): the cue has not issued. -/
def Core.hold (c : Core) : Core := { c with cueState := 2 }

/-- Issue held by a WAIT or a FENCE that has issued (R79, R81, R103); CUE_INDEX stays at it (log entry 50). -/
def Core.holdBy (q : BitVec 128) (c : Core) : Core := { c with held := some q, cueState := 2 }

/-- A synchronisation cue issued: its event counter increments and issue passes to the next cue (R76, R110). -/
def Device.passSync (d : Device) (k : Nat) (q : BitVec 128) : Device :=
  (d.cueEvent k q).modCore k fun c => c.goto (c.pc + 1)

/-- A cue error of the cue at the head of issue. -/
def Device.issueError (d : Device) (k code : Nat) (q : BitVec 128) : Device :=
  d.cueError k code (d.core k).pc (d.core k).home (cf q 4 4)

/-- No cue is left in the units of a mask (R81, R109). -/
def Core.unitsDone (c : Core) (mask : Nat) : Bool := (List.range 7).all fun u => !bit mask u || (c.queue (u + 1)).isEmpty

/-- Whether the condition of a WAIT or a FENCE holds (R79, R81). -/
def Core.satisfied (c : Core) (q : BitVec 128) : Bool :=
  if cf q 0 4 = 0 then decide (cf q 46 32 ≤ (mget 0 c.evt (cf q 40 6)).toNat) else c.unitsDone (cf q 40 7)

/-- A WAIT or a FENCE issued (R76, R79, R81, R110): it is complete and its event counter increments at issue; then its condition is
tested, and issue passes on or is held. -/
def Device.issueHold (d : Device) (k : Nat) (q : BitVec 128) : Device :=
  (d.cueEvent k q).modCore k fun c => if c.satisfied q then c.goto (c.pc + 1) else c.holdBy q

/-- The codes that apply to a synchronisation cue at issue (R80, R82, R92, R107, R121, R137). -/
def Device.syncCodes (d : Device) (k : Nat) (q : BitVec 128) : List Nat :=
  hdrCodes q ++
    match cf q 0 4 with
    | 1 => errIf (cf q 46 8 == 0) 0x11
    | 2 => errIf (!(decide (cf q 40 9 < 480) && d.hasArray (cf q 40 9))) 0x0F ++ errIf (cf q 55 8 == 0) 0x11
    | 4 => errIf (decide (4 ≤ (d.core k).loops.length)) 0x0E
    | 7 => errIf (cf q 40 10 == 766 || cf q 40 10 == 767) 0x11
    | _ => []

/-- The descriptor entry that DESC_WRITE leaves (R90, R92, R121): the written bits without their generation field, and the advanced
generation. -/
def descWritten (old : DescEntry) (bs : List Byte) : DescEntry :=
  { bits := BitVec.ofNat 256 (withField (leNat bs) 73 8 0), gen := old.gen + 1, syn0 := 0, syn1 := 0 }

/-- An entry as it is stored under a flip mask that fires on its first codeword (R303). -/
def DescEntry.struck (e : DescEntry) : Option (BitVec 144) → DescEntry
  | none => e
  | some m =>
    let low := (List.range 16).map fun j => m.extractLsb' (8 * j) 8
    { e with bits := e.bits ^^^ (m.extractLsb' 0 128).setWidth 256, syn0 := e.syn0 ^^^ eccEncode low ^^^ m.extractLsb' 128 16 }

/-- A table entry that DESC_WRITE writes (R92), under the flip mask armed for the table (R304): the mask acts on the
codeword with the lower address (R303). -/
def Device.tableWrite (d : Device) (k e : Nat) (bs : List Byte) : Device :=
  let f := d.takeFlip (corReg k 0x1200) 5 0
  f.2.modCore k fun c =>
    { c with descs := mmod DescEntry.reset c.descs e fun old => (descWritten old bs).struck f.1 }

/-- A synchronisation cue performed in its cycle of issue (R79 to R85, R92, R120, R121). CUE_INDEX moves one past an END_FRAME that has
issued and waits (0 for a list of 4,096 cues), and STATE shows 1 until it completes: R103 does not say (log entry 129). -/
def Device.issueSync (d : Device) (k : Nat) (q : BitVec 128) : Device :=
  let c := d.core k
  match minCode (d.syncCodes k q), cf q 0 4 with
  | some e, _ => d.issueError k e q
  | none, 0 => d.issueHold k q
  | none, 1 => (d.evtAdd k (cf q 40 6) (cf q 46 8)).passSync k q
  | none, 2 =>
    (d.modTake fun t =>
      { t with signals := t.signals ++
          [{ sender := k, home := cf q 40 9, cnt := cf q 49 6, inc := cf q 55 8, mask := cf q 63 7, order := c.issued, crossing := false }] }).passSync k q
  | none, 3 => d.issueHold k q
  | none, 4 =>
    (d.cueEvent k q).modCore k fun c =>
      { c with
        pc := c.pc + 1, cueState := 1,
        loops := c.loops ++ [{ start := c.pc + 1, body := cf q 56 12, count := cf q 40 16 + 1, idx := 0 }] }
  | none, 5 =>
    (d.cueEvent k q).modCore k fun c =>
      { c with pc := ((c.pc : Int) + signedOf 13 (cf q 40 13)).toNat, cueState := 1 }
  | none, 6 => d.modCore k fun c => { c with ending := true, cueState := 1, pc := c.pc + 1 }
  | none, 7 =>
    let r := d.readCore k 0 .scratch (32 * cf q 50 17) 32
    match r.bad with
    | a :: _ => r.dev.consume k 0 a
    | [] => (r.dev.tableWrite k (cf q 40 10) r.bytes).passSync k q
  | none, _ => d.passSync k q

/-- The parameter block of a near-bank cue, copied at issue (R134, R267). -/
def Device.nbParam (d : Device) (k : Nat) (q : BitVec 128) : ReadRes :=
  if cf q 4 4 = 7 then d.readCore k 0 .scratch (64 * cf q 106 16) 64 else { dev := d, bytes := [], bad := [] }

/-- The descriptor words of a cue as the cue engine reads them: corrected and uncorrectable ones are counted and logged (R294, R305). -/
def Device.noteRefs (d : Device) (k : Nat) (q : BitVec 128) : Device :=
  d.each ((d.core k).refWords (cueRefs q)) fun w d => d.noteCore k 0 w.1 w.2

/-- An executing unit's cue: refused by its checks, held by a full queue, or put in its unit's queue with its copies (R73, R75,
R91, R114). -/
def Device.issueUnit (d : Device) (k : Nat) (q : BitVec 128) : Device :=
  let c := d.core k
  let u := cf q 4 4
  if 16 ≤ (c.queue u).length then d.modCore k Core.hold
  else
    let d := d.noteRefs k q
    match (c.refWords (cueRefs q)).filter fun w => w.2.bad with
    | w :: _ => d.consume k 0 w.1
    | [] =>
      let chk := d.issueChk k q
      let p := d.nbParam k q
      match minCode (chk.codes ++ errIf (!p.bad.isEmpty || (u == 7 && nbParamBad (cf q 40 5) p.bytes)) 0x11) with
      | some e => p.dev.issueError k e q
      | none =>
        let now := d.now
        p.dev.modCore k fun c =>
          let e : QCue :=
            { cue := q, index := c.pc, home := c.home, order := c.issued, refs := chk.refs, param := p.bytes,
              started := false, done := false, work := none, tilesFed := 0, sent := now }
          { (c.setQueue u (c.queue u ++ [e])).goto (c.pc + 1) with issued := c.issued + 1 }

/-- The address recorded for a word of the cue buffer: the place it was read from (log entry 13). -/
def Core.listAddr (c : Core) (i : Nat) : Nat := (mget 0 c.origin (16 * i + 10)) - 1

/-- The cue at the head of issue, when `sel` accepts it (R73, R83): read from the cue buffer, skipped by a false predicate, or
issued. -/
def Device.issueNext (sel : BitVec 128 → Bool) (k : Nat) (d : Device) : Device :=
  if !d.canIssue k then d
  else
    let c := d.core k
    match c.list[c.pc]? with
    | none => d
    | some w =>
      let r := eccReceive (leBytes 16 w.data.toNat) w.syn
      let q := BitVec.ofNat 128 (leNat r.data)
      if !sel q then d
      else
        let d := d.noteCore k 0 (c.listAddr c.pc) r
        if r.bad then d.consume k 0 (c.listAddr c.pc)
        else if !predTrue c q then
          d.modCore k fun c => c.goto (c.pc + 1 + (if cf q 0 8 = 4 then cf q 56 12 else 0))
        else if cf q 4 4 = 0 then d.issueSync k q
        else d.issueUnit k q

/-- The cue is the synchronisation cue of operation `op`. -/
def isSync (op : Nat) (q : BitVec 128) : Bool := cf q 0 8 == op

/-- CUE_ISSUE (R73): the next cue of the list, whatever it is. -/
def execCueIssue (c : Fin 480) (s : State) : Host.Outcome State Fault Refusal := s.inTower (Device.issueNext (fun _ => true) c)
/-- WAIT (R79). -/
def execWait (c : Fin 480) (s : State) : Host.Outcome State Fault Refusal := s.inTower (Device.issueNext (isSync 0) c)
/-- SIG_LOCAL (R80). -/
def execSigLocal (c : Fin 480) (s : State) : Host.Outcome State Fault Refusal := s.inTower (Device.issueNext (isSync 1) c)
/-- SIG_REMOTE (R80). -/
def execSigRemote (c : Fin 480) (s : State) : Host.Outcome State Fault Refusal := s.inTower (Device.issueNext (isSync 2) c)
/-- FENCE (R81). -/
def execFence (c : Fin 480) (s : State) : Host.Outcome State Fault Refusal := s.inTower (Device.issueNext (isSync 3) c)
/-- LOOP (R82). -/
def execLoop (c : Fin 480) (s : State) : Host.Outcome State Fault Refusal := s.inTower (Device.issueNext (isSync 4) c)
/-- JUMP (R84). -/
def execJump (c : Fin 480) (s : State) : Host.Outcome State Fault Refusal := s.inTower (Device.issueNext (isSync 5) c)
/-- END_FRAME (R85). -/
def execEndFrame (c : Fin 480) (s : State) : Host.Outcome State Fault Refusal := s.inTower (Device.issueNext (isSync 6) c)
/-- DESC_WRITE (R92). -/
def execDescWrite (c : Fin 480) (s : State) : Host.Outcome State Fault Refusal := s.inTower (Device.issueNext (isSync 7) c)
/-- NOP (R120). -/
def execNop (c : Fin 480) (s : State) : Host.Outcome State Fault Refusal := s.inTower (Device.issueNext (isSync 8) c)

/-- A held WAIT or FENCE tested again after the increments and completions of a cycle (R79, R81): the cue after a satisfied one issues in
the next cycle. Neither its predicate nor its event is taken again (R83, R110). -/
def Device.holdRelease (k : Nat) (d : Device) : Device :=
  match (d.core k).held with
  | some q => if (d.core k).satisfied q then d.modCore k fun c => c.goto (c.pc + 1) else d
  | none => d

/-- HOLD_RELEASE (R79, R81). -/
def execHoldRelease (c : Fin 480) (s : State) : Host.Outcome State Fault Refusal := s.inTower (Device.holdRelease c)

/-- Whether a signal may leave its sender and arrive: every cue its mask waits for is complete (R80). -/
def Device.sigReady (d : Device) (g : Signal) : Bool :=
  (List.range 7).all fun u => !bit g.mask u || ((d.core g.sender).queue (u + 1)).all fun q => decide (g.order ≤ q.order)

/-- The half of a signal's sender, and the half of the core that it increments a counter of (R80, R102). -/
def Device.sigHalves (d : Device) (g : Signal) : Nat × Nat := (halfOf (towerOf g.sender), halfOf (towerOf (d.runsOn g.home)))

/-- A signal arrives (R80, R102): the counter of the core that runs the target home's list increments. -/
def Device.arriveSignal (i : Nat) (g : Signal) (d : Device) : Device :=
  (d.modTake fun t => { t with signals := t.signals.eraseIdx i }).evtAdd (d.runsOn g.home) g.cnt g.inc

/-- The SIG entry of a signal (R375). -/
def Signal.entry (g : Signal) : Nat := 5 + g.home * 2 ^ 4 + g.cnt * 2 ^ 13 + g.inc * 2 ^ 19

/-- The i-th signal under way goes on (R80): within a half it arrives; one for the other half crosses by a service/tick module first
(R378), and arrives with its entry. -/
def Device.deliverSignal (i : Nat) (d : Device) : Device :=
  match d.take.signals[i]? with
  | some g =>
    if !d.sigReady g then d
    else if (d.sigHalves g).1 = (d.sigHalves g).2 then d.arriveSignal i g
    else if g.crossing then d
    else
      (d.modTake fun t => { t with signals := t.signals.set i { g with crossing := true } }).sendService ((d.sigHalves g).1 == 0) [g.entry]
  | none => d

/-- SIGNAL_DELIVERY (R80). -/
def execSignalDelivery (i : Nat) (s : State) : Host.Outcome State Fault Refusal := s.inTower (Device.deliverSignal i)

/-- Arithmetic cycles of a frame of the period in force (R315). -/
def Device.framePeriod (d : Device) : Nat := 850 * d.fieldOf (gafReg 0) 0 10

/-- A of R314: the largest tick correction, in arithmetic cycles. -/
def Device.maxMove (d : Device) : Nat := ceilDiv (85 * d.fieldOf (gafReg 0) 0 10) 1000 + 2

/-- The move that the chosen clapper message asks of the next tick (R321): its error in units of 0.25 ns, of which 80 make 17
cycles, rounded to a cycle. -/
def Device.askedMove (d : Device) : Int := if d.clap.msg.isSome then (2 * 17 * d.clap.error + 80).fdiv 160 else 0

/-- The move made: at most A cycles (R321). -/
def Device.tickMove (d : Device) : Int := clampInt (-(d.maxMove : Int)) d.maxMove d.askedMove

/-- The frame is done when every core with an array has completed its END_FRAME (R337): GAF_SLACK records the cycles left and vector
1 is raised. -/
def Device.checkFrameDone (d : Device) : Device :=
  if d.take.frameRuns && !d.take.frameDone && d.arrays.all fun k => (d.core k).ended then
    let left := min 0xFFFFFF (((d.take.tickAt + d.framePeriod : Int) + d.tickMove).toNat - d.now)
    let d := (d.modTake fun t => { t with frameDone := true }).setField (gafReg 0x40) 0 24 left
    ((if left < d.fieldOf (gafReg 0x40) 24 24 then d.setField (gafReg 0x40) 24 24 left else d).event 1).sendSignatures
  else d

/-- END_FRAME_COMPLETE (R85): with every cue complete and every signal delivered, an open tile is an OPEN_AT_END error, else the
core is done. -/
def Device.endFrame (k : Nat) (d : Device) : Device :=
  let c := d.core k
  if c.ending && c.unitsDone 127 && d.take.signals.all fun g => g.sender != k then
    if c.set0.isSome || c.set1.isSome then (d.cueError k 0x0A (c.pc - 1) c.home 0).modCore k fun c => { c with ending := false }
    else (d.modCore k fun c => { c with ending := false, ended := true, cueState := 0 }).checkFrameDone
  else d

/-- END_FRAME_COMPLETE (R85, R337). -/
def execEndFrameComplete (c : Fin 480) (s : State) : Host.Outcome State Fault Refusal := s.inTower (Device.endFrame c)

/-- The bank that a READ loads: its number, or none (R129). -/
def readBank (q : QCue) : Option Nat :=
  if (cf q.cue 4 4 = 5 ∨ cf q.cue 4 4 = 6) ∧ cf q.cue 0 4 = 0 ∧ 1 ≤ cf q.cue 88 3 ∧ cf q.cue 88 3 ≤ 4 then
    some (cf q.cue 88 3 - 1)
  else none

/-- A load of a bank has completed: a LOADING bank is LOADED once the load with LAST and every load accepted before it have (R55). -/
def Bank.loadDone (now : Nat) (l : LoadId) (x : Bank) : Bank :=
  let due := x.due.map fun r => r.filter (· ≠ l)
  let whole : Bool := decide (x.st = 1 ∧ due = some [])
  { x with loads := x.loads.filter (· ≠ l), due := due, st := if whole then 2 else x.st, loadedAt := if whole then now else x.loadedAt }

/-- A load of a core's bank has completed (R55). -/
def Core.loadDone (c : Core) (now b : Nat) (l : LoadId) : Core := { c with banks := mmod Bank.reset c.banks b (Bank.loadDone now l) }

/-- The cores whose bank a load completes with its cue; a multicast completes member by member (R130). -/
def loadCores (k : Nat) (q : QCue) : List Nat :=
  match q.work with
  | some w => if w.members.isEmpty then [k] else []
  | none => [k]

/-- A completed cue leaves its queue and its event counter increments (R74, R76). -/
def Device.completeCue (k u : Nat) (d : Device) : Device :=
  match (d.core k).queue u with
  | q :: r =>
    if q.done then
      let d := match readBank q with
        | some b => d.each (loadCores k q) fun m d => d.modCore m fun c => c.loadDone d.now b (k, u, q.order)
        | none => d
      (d.modCore k fun c => c.setQueue u r).cueEvent k q.cue
    else d
  | [] => d

/-- CUE_COMPLETION (R76). -/
def execCueCompletion (c : Fin 480) (unit : ExecUnit) (s : State) : Host.Outcome State Fault Refusal :=
  s.inTower (Device.completeCue c (unitNum unit))

end Sys2Proof.Machine
end

