-- ==== Sys2Proof/Machine/Pages.lean ====
section
/-! DEFINITION. References to key-value pages (R171 to R177): the pool, page headers, page references resolved, and whether an ATTEND
has a block to take to the array (R165). -/
namespace Sys2Proof.Machine

open Sys2Proof

/-- A list's i-th descriptor copy; an absent one is empty. -/
def refAt (l : List DescCopy) (i : Nat) : DescCopy := l.getD i { bits := 0, sel := none }

/-- The frame count of a pool descriptor (R172). -/
def poolFrames (b : BitVec 256) : Nat := descExt b 1 * descExt b 2

/-- The address of frame p of a pool (R172). -/
def poolAddr (b : BitVec 256) (p : Nat) : Nat :=
  df b 0 48 + 16 * ((p % descExt b 1) * descStride b 1 + (p / descExt b 1) * descStride b 2)

/-- A staging group. -/
def Core.group (c : Core) (g : Nat) : KvGroup := mget KvGroup.reset c.groups g

/-- A page header as read: fields of R175. -/
structure PageHdr where
  bytes : List Byte
  deriving DecidableEq, Repr

/-- A field of a header. -/
def PageHdr.f (h : PageHdr) (o n : Nat) : Nat := leAt h.bytes o n
/-- PAGE_ID. -/
def PageHdr.pid (h : PageHdr) : Nat := h.f 0 3
/-- GEN. -/
def PageHdr.gen (h : PageHdr) : Nat := h.f 3 1

/-- A page reference resolved (R177). -/
structure PageRes where
  dev : Device
  hdr : PageHdr
  stale : Bool
  genFound : Nat
  bad : List Nat
  deriving DecidableEq, Repr

/-- The header of frame p of a core's pool read. -/
def Device.readHdr (d : Device) (k : Nat) (pool : BitVec 256) (p : Nat) : ReadRes := d.unitRead k (poolAddr pool p) 64

/-- A page reference resolved as R177 lays down. The generation found is 0 where no header is read: without a pool, or beyond its frame
count (R162; log entry 142). -/
def Device.resolvePage (d : Device) (k ref : Nat) : PageRes :=
  let p := field ref 0 24
  let g := field ref 24 8
  match (d.core k).pool with
  | none => { dev := d, hdr := { bytes := [] }, stale := true, genFound := 0, bad := [] }
  | some b =>
    if poolFrames b ≤ p then { dev := d, hdr := { bytes := [] }, stale := true, genFound := 0, bad := [] }
    else
      let r := d.readHdr k b p
      let h : PageHdr := { bytes := r.bytes }
      { dev := r.dev, hdr := h, stale := h.f 5 1 == 0 || h.pid != p || h.gen != g, genFound := h.gen, bad := r.bad }

/-- Whether an ATTEND has a block: a page reference that is not stale, or a tail (R165). -/
def Device.attHasBlock (d : Device) (k : Nat) (q : QCue) : Bool :=
  let g := (d.core k).group (cf q.cue 115 6)
  (cf q.cue 113 1 == 1 && decide (0 < g.fill)) ||
    (cf q.cue 114 1 == 1 &&
      let t := d.readTensor k 4 (opndOf (refAt q.refs 1))
      t.elems.any fun e => !(d.resolvePage k e.code).stale)

end Sys2Proof.Machine
end

