-- ==== Sys2Proof/Machine/Array.lean ====
section
/-! DEFINITION. The matrix array (R53 to R72): operand banks, tiles, the anchored accumulator (R40 to R48), unload, and the
activity ramp. -/
namespace Sys2Proof.Machine

open Sys2Proof

/-- M and N of a shape code (R122). -/
def shapeDims : Nat → Option (Nat × Nat)
  | 0 => some (128, 32)
  | 1 => some (128, 16)
  | 2 => some (128, 8)
  | 3 => some (64, 32)
  | 4 => some (256, 16)
  | 5 => some (512, 8)
  | 6 => some (4096, 1)
  | _ => none

/-- Products per cell per cycle of an operand pair; none for a pair that R48 does not list. -/
def pairDepth (a b : Nat) : Option Nat :=
  let fp8 := fun f => decide (2 ≤ f) && decide (f ≤ 5)
  let fp6 := fun f => decide (6 ≤ f) && decide (f ≤ 8)
  if fp8 a && fp8 b then some 4
  else if a = 9 ∧ b = 9 then some 4
  else if fp6 a && fp6 b then some 8
  else if a = 1 ∧ b = 1 then some 2
  else none

/-- The fields of a MATRIX cue (R122). -/
structure MatrixCue where
  shape : Nat
  af : Nat
  bf : Nat
  abank : Nat
  bbank : Nat
  akeep : Bool
  bkeep : Bool
  s0 : Nat
  mode : Nat
  tiles : Nat
  k0 : Nat
  kn : Nat
  given : Bool
  anchor : Int
  outBf16 : Bool
  outSr : Bool
  stream : Nat
  intOut : Bool
  deriving DecidableEq, Repr

/-- The fields read from the cue's bits. Banks are numbered 0 A0, 1 A1, 2 B0, 3 B1. -/
def matrixOf (q : BitVec 128) : MatrixCue :=
  { shape := cf q 40 3, af := cf q 43 4, bf := cf q 47 4, abank := cf q 51 1, bbank := 2 + cf q 52 1,
    akeep := cf q 53 1 == 1, bkeep := cf q 54 1 == 1, s0 := cf q 55 1, mode := cf q 56 2, tiles := cf q 58 6 + 1,
    k0 := 32 * cf q 64 8, kn := 32 * (cf q 72 8 + 1), given := cf q 80 1 == 1, anchor := signedOf 10 (cf q 81 10),
    outBf16 := cf q 91 1 == 1, outSr := cf q 92 1 == 1, stream := cf q 93 8, intOut := cf q 101 1 == 1 }

/-- Whether the cue's mode opens its tiles (R65). -/
def MatrixCue.opens (m : MatrixCue) : Bool := m.mode == 0 || m.mode == 1
/-- Whether the cue's mode makes its tiles leave. -/
def MatrixCue.closes (m : MatrixCue) : Bool := m.mode == 0 || m.mode == 3
/-- The accumulator set of tile t. -/
def MatrixCue.setOf (m : MatrixCue) (t : Nat) : Nat := (m.s0 + t) % 2

/-- An accumulator set. -/
def Core.accSet (c : Core) (s : Nat) : Option Tile := if s = 0 then c.set0 else c.set1
/-- An accumulator set changed. -/
def Core.putSet (c : Core) (s : Nat) (t : Option Tile) : Core := if s = 0 then { c with set0 := t } else { c with set1 := t }
/-- A set that holds an open tile, one that has not left the array. -/
def Core.openIn (c : Core) (s : Nat) : Option Tile := (c.accSet s).filter fun t => !t.leaving

/-- The bank at an index. -/
def Core.bank (c : Core) (b : Nat) : Bank := mget Bank.reset c.banks b
/-- A bank changed. -/
def Core.modBank (c : Core) (b : Nat) (f : Bank → Bank) : Core := { c with banks := mmod Bank.reset c.banks b f }

/-- The checks made when a matrix cue reaches the array (R48, R57, R62, R65). -/
def matrixUnitCodes (c : Core) (m : MatrixCue) : List Nat :=
  let sets := if m.tiles = 1 then [m.s0] else [0, 1]
  let w := max (fmtBits m.af) (fmtBits m.bf)
  let bound := match shapeDims m.shape with
    | some (r, n) =>
      decide (262144 < r * (m.k0 + m.kn) * fmtBits m.af / 8) || decide (65536 < m.tiles * n * (m.k0 + m.kn) * fmtBits m.bf / 8)
    | none => decide (w = 0)
  errIf (pairDepth m.af m.bf).isNone 0x06 ++ errIf (shapeDims m.shape).isNone 0x07 ++ errIf bound 0x08 ++
    errIf (m.mode != 0 && decide (1 < m.tiles)) 0x09 ++
    (if m.opens then errIf (sets.any fun s => (c.openIn s).isSome) 0x09
     else
      match c.openIn m.s0 with
      | none => [0x09]
      | some t => errIf (t.shape != m.shape || t.afmt != m.af || t.bfmt != m.bf) 0x09)

/-! ### Operands and cells -/

/-- The operand row (A) or column (B) at an index of a bank, over the K range of a cue: values with their block scales (R57, R60). -/
structure Lane where
  dev : Device
  vals : List FV
  bad : List Nat
  deriving DecidableEq, Repr

/-- One lane read from a bank and its scale store. -/
def Device.readLane (d : Device) (k b fmt len k0 kn i : Nat) : Lane :=
  let e := i * len + k0
  let r := d.readCore k 1 (.bank b) (e * fmtBits fmt / 8) (rowBytes fmt kn)
  let s := if fmtMx fmt then r.dev.readCore k 1 (.scale b) (e / 32) (kn / 32) else { dev := r.dev, bytes := [], bad := [] }
  { dev := s.dev
    vals := ((unpackRow fmt kn r.bytes).zip (List.range kn)).map fun p =>
      if fmtMx fmt then scaledVal fmt p.1 ((s.bytes.getD (p.2 / 32) 0).toNat) else elemVal fmt p.1
    bad := r.bad ++ s.bad }

/-- Lanes first to first + n − 1 of a bank. -/
def Device.readLanes (d : Device) (k b fmt len k0 kn first n : Nat) : Device × List (List FV) × List Nat :=
  (List.range n).foldl
    (fun (acc : Device × List (List FV) × List Nat) i =>
      let l := acc.1.readLane k b fmt len k0 kn (first + i)
      (l.dev, acc.2.1 ++ [l.vals], acc.2.2 ++ l.bad)) (d, [], [])

/-- Erow or Ecol of R40: the largest exponent of the finite elements, −256 when all are zero. -/
def laneExp (vs : List FV) : Int := (maxExp vs).getD (-256)

/-- The clamp limit of R43. -/
def accMax : Int := 2 ^ 95 - 1

/-- What the products of a tile set: SAT, INEXACT, products lost, NAN_IN (R43 to R45). -/
structure FeedFlags where
  sat : Bool
  inexact : Bool
  lost : Nat
  nanIn : Bool
  deriving DecidableEq, Repr

/-- No event. -/
def FeedFlags.none : FeedFlags := { sat := false, inexact := false, lost := 0, nanIn := false }

/-- A product rounded to the window's LSB 2^q (R42): the multiple, whether it was rounded, whether it was lost. -/
def roundProduct (q : Int) (a b : FV) : Int × Bool × Bool :=
  match a.mul b with
  | .fin n m e =>
    let v : Int := roundUnits .rne m e q
    let exact := decide (q ≤ e) || m % 2 ^ (q - e).toNat == 0
    (if n then -v else v, !exact, m != 0 && v == 0)
  | _ => (0, false, false)

/-- One K-step of a cell (R42 to R45). `one` is the weight of the LSB of an INT8 pair. -/
def cellStep (int8 : Bool) (s : Cell × FeedFlags) (ps : List (FV × FV)) : Cell × FeedFlags :=
  let c := s.1
  let f := s.2
  if ps.any fun p => p.1.special || p.2.special then ({ c with nan := true }, { f with nanIn := true })
  else if c.nan then s
  else if c.sat then s
  else
    let q := if int8 then 0 else c.anchor - 94
    let rs := ps.map fun p => roundProduct q p.1 p.2
    let v := rs.foldl (fun a r => a + r.1) c.acc
    let esc := rs.any fun r => decide (accMax < r.1.natAbs)
    let f := { f with inexact := f.inexact || rs.any (fun r => r.2.1), lost := f.lost + (rs.filter fun r => r.2.2).length }
    if esc || decide (accMax < v.natAbs) then
      ({ c with acc := if v < 0 then -accMax else accMax, sat := true }, { f with sat := true })
    else ({ c with acc := v }, f)

/-- A cell fed the products of its row and column in ascending K, d at a time (R53). -/
def cellFeed (int8 : Bool) (depth : Nat) (s : Cell × FeedFlags) (a b : List FV) : Cell × FeedFlags :=
  (chunksOf (max 1 depth) (a.zip b)).foldl (cellStep int8) s

/-- The cells of a tile fed, in ascending r and then n; `olds` holds their state before. -/
def tileFeed (int8 : Bool) (depth : Nat) (olds : List Cell) (as bs : List (List FV)) : List Cell × FeedFlags :=
  let ops := as.flatMap fun a => bs.map fun b => (a, b)
  (olds.zip ops).foldl
    (fun (acc : List Cell × FeedFlags) p =>
      let r := cellFeed int8 depth (p.1, acc.2) p.2.1 p.2.2
      (acc.1 ++ [r.1], r.2)) ([], FeedFlags.none)

/-- The cleared cells of a tile that opens, with their anchors (R40, R65). -/
def freshCells (m : MatrixCue) (as bs : List (List FV)) : List Cell :=
  as.flatMap fun a => bs.map fun b =>
    { acc := 0, anchor := if m.given then m.anchor else laneExp a + laneExp b + 21, sat := false, nan := false }

/-- The flags that fed products set (R44, R50, R51). -/
def Device.feedFlags (d : Device) (k : Nat) (f : FeedFlags) : Device :=
  ((((d.accFlag k flagSat f.sat).accFlag k flagInexact f.inexact).accFlag k flagNanIn f.nanIn)).underflow k f.lost

/-- The bytes that a K-step needs of A and B (R61). -/
def stepNeed (m : MatrixCue) (depth : Nat) : Nat :=
  match shapeDims m.shape with
  | some (r, n) => r * depth * fmtBits m.af / 8 + n * depth * fmtBits m.bf / 8
  | none => 0

/-- Feed cycles of the first `t` tiles of a cue (R63). -/
def feedCycles (m : MatrixCue) (depth t : Nat) : Nat :=
  let steps := t * (m.kn / max 1 depth)
  if stepNeed m depth ≤ 640 then steps else ceilDiv (steps * stepNeed m depth) 640

/-- The set of a schedule: the cycle in which its last cell unloads. -/
def ArrClock.until (c : ArrClock) (s : Nat) : Nat := if s = 0 then c.set0 else c.set1

/-- The first cycle from `t` on in which a tile that opens in set s may issue its first K-step (R67): the set's last cell unloads in that
cycle + 10 or earlier. -/
def ArrClock.open (c : ArrClock) (s t : Nat) : Nat := max t (c.until s - 10)

/-- The schedule once a tile in set s has fed for `n` cycles from cycle `t` on (R54, R66): a tile that leaves unloads its cells 64 a cycle
from the cycle after its last K-step is in the accumulators, after the tile before it. -/
def ArrClock.fed (c : ArrClock) (s t n : Nat) (leaves : Bool) (cells : Nat) : ArrClock :=
  let next := t + n
  if leaves then
    let last := max (next + 11) c.path + cells / 64
    { c with next := next, path := last, set0 := if s = 0 then last else c.set0, set1 := if s = 0 then c.set1 else last }
  else { c with next := next }

/-- COR_ARR_FEED, COR_ARR_NULL and COR_ARR_STALL advanced (R72). -/
def Device.arrCount (d : Device) (k feed null stall : Nat) : Device :=
  ((d.count (corReg k 0x218) feed).count (corReg k 0x220) null).count (corReg k 0x228) stall

/-- Tile `t` of a started cue fed into its set (R42 to R45, R53, R65). The cycles in which it stalls and feeds follow from the array's
schedule (R54, R63, R66, R67, R72). -/
def Device.feedTile (d : Device) (k : Nat) (q : QCue) (t : Nat) : Device :=
  let m := matrixOf q.cue
  match shapeDims m.shape, pairDepth m.af m.bf with
  | some (rn, cn), some depth =>
    let len := m.k0 + m.kn
    let a := d.readLanes k m.abank m.af len m.k0 m.kn 0 rn
    let b := a.1.readLanes k m.bbank m.bf len m.k0 m.kn (t * cn) cn
    match a.2.2 ++ b.2.2 with
    | addr :: _ => b.1.consume k 1 addr
    | [] =>
      let s := m.setOf t
      let c := b.1.core k
      let old := match c.accSet s with
        | some x => if m.opens then freshCells m a.2.1 b.2.1 else x.cells
        | none => freshCells m a.2.1 b.2.1
      let r := tileFeed (m.af == 9) depth old a.2.1 b.2.1
      let last := t + 1 == m.tiles
      let tile : Tile :=
        { shape := m.shape, afmt := m.af, bfmt := m.bf, cells := r.1, leaving := m.closes,
          outFmt := if m.af = 9 then (if m.intOut then 0x0 else 0xA) else if m.outBf16 then 0x1 else 0x0,
          outSr := m.outSr, stream := m.stream, home := q.home, cueOrder := q.order, last := last }
      let steps := m.kn / max 1 depth
      let cycles := feedCycles m depth (t + 1) - feedCycles m depth t
      let at0 := if m.opens then c.clock.open s c.clock.next else c.clock.next
      ((b.1.feedFlags k r.2).arrCount k steps (cycles - steps) (at0 - c.clock.next)).modCore k fun c =>
        let c := (c.putSet s (some tile)).setQueue 1
          ((c.queue 1).map fun x => if x.order = q.order then { x with tilesFed := t + 1, done := last && !m.closes } else x)
        { c with
          unloads := if m.closes then c.unloads ++ [s] else c.unloads
          clock := c.clock.fed s at0 cycles m.closes (rn * cn) }
  | _, _ => d

/-- The banks of a cue released in the cycle after its last K-step (R56). -/
def Core.releaseBanks (c : Core) (m : MatrixCue) : Core :=
  let rel := fun (keep : Bool) (b : Bank) => if keep then { b with st := 2 } else { b with st := 0, loads := [], due := none }
  (c.modBank m.abank (rel m.akeep)).modBank m.bbank (rel m.bkeep)

/-- Whether tile `t` of a cue has fed. -/
def Core.hasFed (c : Core) (order t : Nat) : Bool := (c.queue 1).any fun x => x.order == order && decide (t < x.tilesFed)

/-- The tiles of a started cue fed in turn, until one meets a busy set (R67) or a bad operand, or the last has fed. -/
def Device.feedTiles (k : Nat) (q : QCue) : Nat → Nat → Device → Device
  | 0, _, d => d
  | fuel + 1, t, d =>
    let m := matrixOf q.cue
    if t < m.tiles then
      if m.opens && ((d.core k).accSet (m.setOf t)).isSome then d
      else
        let d' := d.feedTile k q t
        if (d'.core k).hasFed q.order t then
          if t + 1 = m.tiles then d'.modCore k fun c => c.releaseBanks m else Device.feedTiles k q fuel (t + 1) d'
        else d'
    else d

/-- The matrix cue that the array works on: the first in the queue that still has tiles to feed. -/
def Core.arrayCue (c : Core) : Option QCue := (c.queue 1).find? fun q => decide (q.tilesFed < (matrixOf q.cue).tiles)

/-- An ATTEND issued before a cue and ready for the array (R165): it is at the head of its queue, has a block, and no set is busy. -/
def Device.attendFirst (d : Device) (k order : Nat) : Bool :=
  let c := d.core k
  match (c.queue 4).head? with
  | some a =>
    cf a.cue 0 4 == 0 && !a.done && decide (a.order < order) && c.set0.isNone && c.set1.isNone && d.attHasBlock k a
  | none => false

/-- The cycle from which a cue's anchors are formed (R69): at once when given, else the 4 cycles after the cue has reached the array and its
banks have become LOADED. A bank that a cue kept stays LOADED all along (R56; log entry 178). INT8 tiles have no anchor (R47). -/
def Core.anchored (c : Core) (q : QCue) : Nat :=
  let m := matrixOf q.cue
  if m.opens && !m.given && m.af != 9 then max q.sent (max (c.bank m.abank).loadedAt (c.bank m.bbank).loadedAt) + 4 else 0

/-- The cycle, `t` or later, in which a cue's first K-step may issue: no earlier than the set it opens allows (R67). -/
def MatrixCue.feedAt (m : MatrixCue) (c : ArrClock) (t : Nat) : Nat := if m.opens then c.open m.s0 t else t

/-- The cycle in which a cue that reaches an array at level 8 would begin to feed with no ramp (R69). -/
def Device.chainAt (d : Device) (k : Nat) (q : QCue) : Nat :=
  let c := d.core k
  (matrixOf q.cue).feedAt c.clock (max (max d.now c.clock.next) (c.anchored q))

/-- The first tile of a cue begins to feed, in cycle `t` (R68, R69). -/
def Device.beginFeed (d : Device) (k : Nat) (q : QCue) (t : Nat) : Device :=
  (d.modCore k fun c => { c with clock := { c.clock with next := t } }).feedTiles k q 64 0

/-- Whether a ramp may begin for a cue (R67 to R69): its first tile's set will be free in time for its first K-step. -/
def Device.rampOk (d : Device) (k : Nat) (m : MatrixCue) : Bool :=
  let c := d.core k
  let t := d.now + 8 * (8 - c.level)
  m.feedAt c.clock t == t

/-- A ramp-up begins (R68), from whatever level a ramp-down has left; the cycles of the step of a ramp-down that it cuts short were null
activity (R72). -/
def Device.beginRamp (d : Device) (k : Nat) : Device :=
  (if (d.core k).phase = 3 then d.arrCount k 0 (d.cutStep k) 0 else d).modCore k fun c =>
    { c with phase := 1, level := min 8 (c.level + 1), clock := { c.clock with step := d.now } }

/-- A cue claims its banks (R55). -/
def Core.claimBanks (c : Core) (q : QCue) : Core :=
  let m := matrixOf q.cue
  let c := (c.modBank m.abank fun b => { b with st := 3 }).modBank m.bbank fun b => { b with st := 3 }
  c.setQueue 1 ((c.queue 1).map fun x => if x.order = q.order then { x with started := true } else x)

/-- A cue that is ready starts (R68, R69): at level 8 it chains until the last drain cycle, 11 cycles after the first, and counts the drain
before it as null activity (R72); later the drain ends first. Below level 8 a ramp begins. -/
def Device.startCue (d : Device) (k : Nat) (q : QCue) : Device :=
  let c := d.core k
  if c.level = 8 ∧ c.phase = 2 then
    let t := d.chainAt k q
    if t ≤ c.clock.next + 11 then
      ((d.modCore k fun c => c.claimBanks q).arrCount k 0 (t - c.clock.next) 0).beginFeed k { q with started := true } t
    else d
  else if d.rampOk k (matrixOf q.cue) then (d.modCore k fun c => c.claimBanks q).beginRamp k
  else d

/-- MATRIX (R53 to R70): the cue at the array starts once its banks are LOADED and its first set is free, and feeds its tiles when the array
stands at level 8. -/
def Device.matrixStep (k : Nat) (d : Device) : Device :=
  let c := d.core k
  match c.arrayCue with
  | none => d
  | some q =>
    let m := matrixOf q.cue
    if q.started then
      if c.phase ≠ 2 then d
      else if q.tilesFed = 0 then d.beginFeed k q (m.feedAt c.clock (max d.now c.clock.next))
      else d.feedTiles k q 64 q.tilesFed
    else
      match minCode (matrixUnitCodes c m) with
      | some e => d.cueError k e q.index q.home 1
      | none =>
        if (c.bank m.abank).st ≠ 2 ∨ (c.bank m.bbank).st ≠ 2 ∨ (m.opens && (c.accSet m.s0).isSome) ∨ d.attendFirst k q.order = true then d
        else d.startCue k q

/-- MATRIX. -/
def execMatrix (c : Fin 480) (s : State) : Host.Outcome State Fault Refusal := s.inTower (Device.matrixStep c)

/-- One cell converted as its tile leaves (R45 to R47): the code, SAT, OUT_OVF. A value that rounds to zero gives +0, whatever its sign
(R33). -/
def cellOut (int8 : Bool) (fmt : Nat) (rnd : Rnd) (c : Cell) : Nat × Bool × Bool :=
  if fmt = 0xA then
    let v := clampInt (-(2 ^ 31)) (2 ^ 31 - 1) c.acc
    (unsignedOf 32 v, decide (v ≠ c.acc), false)
  else if c.nan then (if fmt = 1 then 0x7FC0 else 0x7FC00000, false, false)
  else
    let x : FV := .fin (decide (c.acc < 0)) c.acc.natAbs (if int8 then 0 else c.anchor - 94)
    let r := narrowFloat fmt false rnd x
    let spec := if fmt = 1 then specBf16 else specF32
    let code := if r.sat then (match rnd with
        | .rne => r.code
        | .sr _ => signBit spec (decide (c.acc < 0)) + spec.maxFin) else r.code
    (if (decodeSpec spec code).isZero then 0 else code, false, r.sat)

/-- TILE_UNLOAD (R46, R47, R66): the tile that left first unloads to the vector unit, in ascending r and then n. A tile has no destination
tensor; the elem input of a stochastic rounding (R38) is the element's index within the tile in unload order (log entry 130). -/
def Device.unloadTile (k : Nat) (d : Device) : Device :=
  let c := d.core k
  match c.unloads with
  | [] => d
  | s :: rest =>
    match c.accSet s, (c.accSet s).bind fun t => shapeDims t.shape with
    | some t, some (rn, cn) =>
      let outs := (t.cells.zip (List.range t.cells.length)).map fun p =>
        cellOut (t.afmt == 9) t.outFmt (d.rnd t.home t.outSr t.stream p.2) p.1
      let d := (d.accFlag k flagSat (outs.any fun o => o.2.1)).accFlag k flagOutOvf (outs.any fun o => o.2.2)
      d.modCore k fun c =>
        { (c.putSet s none).setQueue 1
            ((c.queue 1).map fun x => if x.order = t.cueOrder ∧ t.last then { x with done := true } else x) with
          unloads := rest
          stream := c.stream ++ [{ fmt := t.outFmt, n := cn, m := rn, elems := outs.map (·.1) }] }
    | _, _ => d

/-- TILE_UNLOAD. -/
def execTileUnload (c : Fin 480) (s : State) : Host.Outcome State Fault Refusal := s.inTower (Device.unloadTile c)

/-- RAMP_UP_STEP (R68): 8 cycles of null activity end; the level rises until 8, and the step after it reached 8 ends the ramp. -/
def Device.rampUp (k : Nat) (d : Device) : Device :=
  let c := d.core k
  if c.phase = 1 then
    (d.arrCount k 0 8 0).modCore k fun c =>
      if c.level < 8 then { c with level := c.level + 1, clock := { c.clock with step := d.now } } else { c with phase := 2 }
  else d

/-- RAMP_UP_STEP. -/
def execRampUpStep (c : Fin 480) (s : State) : Host.Outcome State Fault Refusal := s.inTower (Device.rampUp c)

/-- DRAIN_END (R68): the 12 drain cycles end with no cue feeding, and ramp-down begins with group 7. -/
def Device.drainEnd (k : Nat) (d : Device) : Device :=
  let c := d.core k
  if c.phase = 2 && (match c.arrayCue with
      | some q => !q.started
      | none => true) then
    (d.arrCount k 0 12 0).modCore k fun c => { c with phase := 3, level := 7, clock := { c.clock with step := d.now } }
  else d

/-- DRAIN_END. -/
def execDrainEnd (c : Fin 480) (s : State) : Host.Outcome State Fault Refusal := s.inTower (Device.drainEnd c)

/-- The array die of a core reset (R382): every bank FREE, no accumulator set busy. -/
def Core.resetArray (c : Core) : Core := { c with banks := [], set0 := none, set1 := none, unloads := [], stream := [] }

/-- An ARRAY_RESET that waits in a tower is done, and ends, once every array of the tower is at level 0 (R382). -/
def Device.resetArrays (d : Device) (t : Nat) : Device :=
  if (d.tower t).resetting && (List.range 24).all fun c => (d.core (24 * t + c)).level == 0 then
    ((d.each (List.range 24) fun c d => d.modCore (24 * t + c) Core.resetArray).modTower t fun x => { x with resetting := false }).mbxEndOf 7 0
  else d

/-- RAMP_DOWN_STEP (R68): 8 cycles of null activity end and the level falls by 1; at level 0 the array is idle, and an ARRAY_RESET may have
waited for that (R382). -/
def Device.rampDown (k : Nat) (d : Device) : Device :=
  let c := d.core k
  if c.phase = 3 then
    ((d.arrCount k 0 8 0).modCore k fun c =>
      { c with level := c.level - 1, phase := if c.level = 1 then 0 else 3, clock := { c.clock with step := d.now } }).resetArrays (towerOf k)
  else d

/-- RAMP_DOWN_STEP. -/
def execRampDownStep (c : Fin 480) (s : State) : Host.Outcome State Fault Refusal := s.inTower (Device.rampDown c)

end Sys2Proof.Machine
end

