-- ==== Sys2Proof/Machine/Vector.lean ====
section
/-! DEFINITION. The vector unit (R138 to R145, R577): elementwise operations on the floating-point and the integer path,
conversions, reductions and MX quantisation. -/
namespace Sys2Proof.Machine

open Sys2Proof

/-- The cue at the head of a unit's queue that has not ended, when it has an operation of the list. -/
def Core.headCue (c : Core) (u : Nat) (ops : List Nat) : Option QCue :=
  match (c.queue u).head? with
  | some q => if !q.done && ops.contains (cf q.cue 0 4) then some q else none
  | none => none

/-- The head of a unit's queue has ended (R76). -/
def Device.markDone (d : Device) (k u : Nat) : Device :=
  d.modCore k fun c =>
    match c.queue u with
    | q :: r => c.setQueue u ({ q with started := true, done := true } :: r)
    | [] => c

/-- A source as a unit takes it: format, shape, elements, bad words. -/
structure Source where
  dev : Device
  opnd : Opnd
  elems : List Elem
  bad : List Nat
  deriving DecidableEq, Repr

/-- The shape of a tile taken as a two-dimensional tensor with EXT0 = N and EXT1 = M (R577). -/
def tileOpnd (t : StreamTile) : Opnd :=
  { fmt := t.fmt, space := 1, dev := 0, base := 0, scale := 0, ext0 := t.n, dims := [(t.m, 0, t.n)], lin := 0 }

/-- The elements of a tile. -/
def tileElems (t : StreamTile) : List Elem :=
  (t.elems.zip (List.range t.elems.length)).map fun p => { code := p.1, lin := p.2, scale := 127 }

/-- The first tile of the array output stream taken (R77, R125). -/
def Core.dropTile (c : Core) : Core := { c with stream := c.stream.drop 1 }

/-- A list of sources spread over `n` destination elements: a scalar is broadcast (R119). -/
def broadcast (n : Nat) (l : List Elem) : List Elem :=
  match l with
  | [e] => List.replicate n e
  | _ => l

/-- What a unit writes: element codes, and the flags of their narrowing. -/
structure Results where
  codes : List Nat
  sat : Bool
  nan : Bool
  deriving DecidableEq, Repr

/-- The results of a list of narrowed values. -/
def resultsOf (l : List Narrowed) : Results :=
  { codes := l.map (·.code), sat := l.any (·.sat), nan := l.any (·.nan) }

/-- An element widened to FP32 (R139). -/
def toLane (fmt : Nat) (e : Elem) : Nat := toF32 (e.val fmt)

/-- An element as an integer (R141). -/
def toInt (fmt : Nat) (e : Elem) : Int := signedOf (fmtBits fmt) e.code

/-- Whether a format is one of the integer path. -/
def isInt (f : Nat) : Bool := f == 9 || f == 0xA

/-- An exact integer clamped to the destination (R141). -/
def intResult (fmt : Nat) (v : Int) : Narrowed :=
  let w := fmtBits fmt
  let c := clampInt (-(2 ^ (w - 1))) (2 ^ (w - 1) - 1) v
  { code := unsignedOf w c, sat := decide (c ≠ v), nan := false }

/-- The floating-point path of an elementwise operation (R139, R142). -/
def vecF32 (op a b c : Nat) : Nat :=
  match op with
  | 1 => fadd a b
  | 2 => fsub a b
  | 3 => fmul a b
  | 4 => fma a b c
  | 5 => maxF32 a b
  | _ => minF32 a b

/-- The integer path of an elementwise operation (R141). -/
def vecInt (op : Nat) (a b c : Int) : Int :=
  match op with
  | 1 => a + b
  | 2 => a - b
  | 3 => a * b
  | 4 => a * b + c
  | 5 => max a b
  | _ => min a b

/-- The elements of lane `l` of a row, ascending (R143). -/
def laneOf {α : Type} (row : List α) (l : Nat) : List α :=
  ((row.zip (List.range row.length)).filter fun p => p.2 % 64 == l).map (·.1)

/-- A non-empty list folded from its first element. -/
def foldFirst (f : Nat → Nat → Nat) : List Nat → Nat
  | [] => 0
  | a :: r => r.foldl f a

/-- The reduction of a row of FP32 codes: 7 RSUM, 8 RMAX, 9 RSUMSQ (R143). -/
def reduceRow (op : Nat) (row : List Nat) : Nat :=
  let lanes := (List.range (min 64 row.length)).map fun l => laneOf row l
  match op with
  | 7 => treeReduce (lanes.map (foldFirst fadd))
  | 8 => foldFirst maxF32 (lanes.map (foldFirst maxF32))
  | _ => treeReduce (lanes.map fun l =>
      match l with
      | [] => 0
      | a :: r => r.foldl (fun p x => fma x x p) (fmul a a))

/-- The tree over the outermost dimension: `n` participants of `m` elements each (R144). -/
def treeSums (n m : Nat) (xs : List Nat) : List Nat :=
  (List.range m).map fun i => treeReduce ((List.range n).map fun j => xs.getD (j * m + i) 0)

/-- The results of a vector operation: `rnd` gives the rounding of a linear index, `lins` the indices of the destination. -/
def vecResults (op : Nat) (nsat : Bool) (rnd : Nat → Rnd) (oa : Opnd) (a : List Elem) (fb : Nat) (b : List Elem) (fd : Nat)
    (old : List Elem) (lins : List Nat) : Results :=
  let n := lins.length
  let a' := broadcast n a
  let b' := broadcast n b
  let intPath := isInt oa.fmt && isInt fd && (op == 7 || isInt fb)
  if op = 0 then
    resultsOf ((a'.zip lins).map fun p =>
      if fmtMx oa.fmt then { code := encodeExact fd (p.1.val oa.fmt), sat := false, nan := false }
      else convertVal oa.fmt fd nsat (rnd p.2) (p.1.val oa.fmt))
  else if op ≤ 6 then
    resultsOf (((a'.zip b').zip (lins.zip (List.range n))).map fun p =>
      let o := old.getD p.2.2 { code := 0, lin := 0, scale := 127 }
      if intPath then intResult fd (vecInt op (toInt oa.fmt p.1.1) (toInt fb p.1.2) (toInt fd o))
      else narrowF32 fd nsat (rnd p.2.1) (vecF32 op (toLane oa.fmt p.1.1) (toLane fb p.1.2) (toLane fd o)))
  else if op ≤ 9 then
    resultsOf (((chunksOf (max 1 oa.ext0) a).zip lins).map fun p =>
      if intPath && op == 7 then intResult fd (p.1.foldl (fun s e => s + toInt oa.fmt e) 0)
      else narrowF32 fd nsat (rnd p.2) (reduceRow op (p.1.map (toLane oa.fmt))))
  else
    resultsOf (((treeSums oa.outer (a.length / max 1 oa.outer) (a.map (toLane oa.fmt))).zip lins).map fun p =>
      narrowF32 fd nsat (rnd p.2) p.1)

/-- QUANT_MX: scale bytes and element codes, block by block (R36, R140). -/
def quantBlocks (fmt : Nat) (rnd : Nat → Rnd) (xs : List FV) (lins : List Nat) : List MxBlock :=
  ((chunksOf 32 xs).zip (chunksOf 32 lins)).map fun p => quantMxBlock fmt (fun i => rnd (p.2.getD i 0)) p.1

/-- Whether CONVERT covers every scale byte of an MX source (R34, R140). -/
def widenOk (fs fd : Nat) (es : List Elem) : Bool :=
  !fmtMx fs || ((fd == 0 || fd == 1) && es.all fun e => widenScaleOk fs fd e.scale)

/-- A vector cue run by its unit: `ops` names the operations the command performs. A cue on the output stream waits for its tile. Of
several bad codewords among its operands one is consumed: the first of A, then of B, then of the old destination, rows in ascending linear
index (log entry 141), and before any cue error found at the unit (log entry 183). -/
def Device.vectorStep (ops : List Nat) (k : Nat) (d : Device) : Device :=
  match (d.core k).headCue 2 ops with
  | none => d
  | some q =>
    let op := cf q.cue 0 4
    let str := cf q.cue 112 1 == 1
    let tile := (d.core k).stream.head?
    if str && tile.isNone then d
    else
      let i := if str then 0 else 1
      let usesB := vecUsesB op
      let od := opndOf (refAt q.refs (i + (if usesB then 1 else 0)))
      let ob := opndOf (refAt q.refs i)
      let a : Source :=
        match str, tile with
        | true, some t => { dev := d, opnd := tileOpnd t, elems := tileElems t, bad := [] }
        | _, _ =>
          let o := opndOf (refAt q.refs 0)
          let r := d.readTensor k 2 o
          { dev := r.dev, opnd := o, elems := r.elems, bad := r.bad }
      let codes := errIf (str && !vecFmt a.opnd.fmt) 0x03 ++ errIf (str && !vecShape op a.opnd od) 0x07 ++
        errIf (op == 0 && !widenOk a.opnd.fmt od.fmt a.elems) 0x0D
      let b := if usesB then a.dev.readTensor k 2 ob else { dev := a.dev, elems := [], bad := [] }
      let o := if op = 4 then b.dev.readTensor k 2 od else { dev := b.dev, elems := [], bad := [] }
      match a.bad ++ b.bad ++ o.bad, minCode codes with
      | x :: _, _ => o.dev.consume k 2 x
      | [], some e => o.dev.cueError k e q.index q.home 2
      | [], none =>
        let d := if str then o.dev.modCore k Core.dropTile else o.dev
        let rnd := d.rnd q.home (cf q.cue 114 1 == 1) (cf q.cue 115 8)
        if op = 10 then
          let n := od.lins.length
          let bl := quantBlocks od.fmt rnd ((broadcast n a.elems).map fun e => f32 (toLane a.opnd.fmt e)) od.lins
          let d := (d.writeTensor k 2 od (bl.flatMap (·.codes))).writeScales k 2 od (bl.map (·.scale))
          (d.convFlags k (bl.any (·.sat)) (bl.any (·.nan))).markDone k 2
        else
          let r := vecResults op (cf q.cue 113 1 == 1) rnd a.opnd a.elems ob.fmt b.elems od.fmt o.elems od.lins
          ((d.writeTensor k 2 od r.codes).convFlags k r.sat r.nan).markDone k 2

/-- CONVERT (R140). -/
def execConvert (c : Fin 480) (s : State) : Host.Outcome State Fault Refusal := s.inTower (Device.whole (Device.vectorStep [0] c))
/-- ADD (R139, R141). -/
def execAdd (c : Fin 480) (s : State) : Host.Outcome State Fault Refusal := s.inTower (Device.whole (Device.vectorStep [1] c))
/-- SUB (R139, R141). -/
def execSub (c : Fin 480) (s : State) : Host.Outcome State Fault Refusal := s.inTower (Device.whole (Device.vectorStep [2] c))
/-- MUL (R139, R141). -/
def execMul (c : Fin 480) (s : State) : Host.Outcome State Fault Refusal := s.inTower (Device.whole (Device.vectorStep [3] c))
/-- FMA (R139, R141). -/
def execFma (c : Fin 480) (s : State) : Host.Outcome State Fault Refusal := s.inTower (Device.whole (Device.vectorStep [4] c))
/-- MAX (R142). -/
def execMax (c : Fin 480) (s : State) : Host.Outcome State Fault Refusal := s.inTower (Device.whole (Device.vectorStep [5] c))
/-- MIN (R142). -/
def execMin (c : Fin 480) (s : State) : Host.Outcome State Fault Refusal := s.inTower (Device.whole (Device.vectorStep [6] c))
/-- RSUM (R143). -/
def execRsum (c : Fin 480) (s : State) : Host.Outcome State Fault Refusal := s.inTower (Device.whole (Device.vectorStep [7] c))
/-- RMAX (R143). -/
def execRmax (c : Fin 480) (s : State) : Host.Outcome State Fault Refusal := s.inTower (Device.whole (Device.vectorStep [8] c))
/-- RSUMSQ (R143). -/
def execRsumsq (c : Fin 480) (s : State) : Host.Outcome State Fault Refusal := s.inTower (Device.whole (Device.vectorStep [9] c))
/-- QUANT_MX (R36, R140). -/
def execQuantMx (c : Fin 480) (s : State) : Host.Outcome State Fault Refusal := s.inTower (Device.whole (Device.vectorStep [10] c))
/-- TREE_SUM (R144). -/
def execTreeSum (c : Fin 480) (s : State) : Host.Outcome State Fault Refusal := s.inTower (Device.whole (Device.vectorStep [11] c))

end Sys2Proof.Machine
end

