-- ==== Sys2Proof/Machine/Function.lean ====
section
/-! DEFINITION. The function unit (R146 to R149). -/
namespace Sys2Proof.Machine

open Sys2Proof

/-- The function of an operation (R126, R149). -/
def funcOf : Nat → Nat → Nat
  | 0 => exp2Fn
  | 1 => log2Fn
  | 2 => recipFn
  | 3 => rsqrtFn
  | 4 => siluFn
  | _ => geluFn

/-- A function cue run by its unit (R146). -/
def Device.functionStep (op : Nat) (k : Nat) (d : Device) : Device :=
  match (d.core k).headCue 3 [op] with
  | none => d
  | some q =>
    let str := cf q.cue 88 1 == 1
    let tile := (d.core k).stream.head?
    if str && tile.isNone then d
    else
      let od := opndOf (refAt q.refs (if str then 0 else 1))
      let a : Source :=
        match str, tile with
        | true, some t => { dev := d, opnd := tileOpnd t, elems := tileElems t, bad := [] }
        | _, _ =>
          let o := opndOf (refAt q.refs 0)
          let r := d.readTensor k 3 o
          { dev := r.dev, opnd := o, elems := r.elems, bad := r.bad }
      let codes := errIf (str && decide (1 < a.opnd.fmt)) 0x03 ++ errIf (str && !shapeOk a.opnd od) 0x07
      match a.bad, minCode codes with
      | x :: _, _ => a.dev.consume k 3 x
      | [], some e => a.dev.cueError k e q.index q.home 3
      | [], none =>
        let d := if str then a.dev.modCore k Core.dropTile else a.dev
        let rnd := d.rnd q.home (cf q.cue 90 1 == 1) (cf q.cue 91 8)
        let lins := od.lins
        let r := resultsOf (((broadcast lins.length a.elems).zip lins).map fun p =>
          narrowF32 od.fmt false (rnd p.2) (funcOf op (toLane a.opnd.fmt p.1)))
        ((d.writeTensor k 3 od r.codes).convFlags k r.sat r.nan).markDone k 3

/-- EXP2. -/
def execExp2 (c : Fin 480) (s : State) : Host.Outcome State Fault Refusal := s.inTower (Device.whole (Device.functionStep 0 c))
/-- LOG2. -/
def execLog2 (c : Fin 480) (s : State) : Host.Outcome State Fault Refusal := s.inTower (Device.whole (Device.functionStep 1 c))
/-- RECIP. -/
def execRecip (c : Fin 480) (s : State) : Host.Outcome State Fault Refusal := s.inTower (Device.whole (Device.functionStep 2 c))
/-- RSQRT. -/
def execRsqrt (c : Fin 480) (s : State) : Host.Outcome State Fault Refusal := s.inTower (Device.whole (Device.functionStep 3 c))
/-- SILU. -/
def execSilu (c : Fin 480) (s : State) : Host.Outcome State Fault Refusal := s.inTower (Device.whole (Device.functionStep 4 c))
/-- GELU. -/
def execGelu (c : Fin 480) (s : State) : Host.Outcome State Fault Refusal := s.inTower (Device.whole (Device.functionStep 5 c))

end Sys2Proof.Machine
end

