-- ==== Sys2Proof/Machine/KvPages.lean ====
section
/-! DEFINITION. Key-value pages (R171 to R188): the pool, page headers, staging groups, APPEND with its flushes and automatic
evictions, EVICT, and the page scores. -/
namespace Sys2Proof.Machine

open Sys2Proof

/-- Data bytes of a page per element of head dimension, and staging bytes per element of head dimension (R174, R179). -/
def pageFactor : Nat → Nat
  | 0 => 512
  | 1 => 256
  | _ => 136
/-- Staging bytes of a group per element of head dimension (R179). -/
def stageFactor : Nat → Nat
  | 0 => 512
  | 1 => 256
  | _ => 200

/-- The number of staging groups of a core (R194). -/
def Device.kvGroups (d : Device) (k : Nat) : Nat := 2 ^ min 6 (d.fieldOf (corReg k 0x700) 0 3)

/-- The staging offset of a group. -/
def Device.groupBase (d : Device) (k g : Nat) : Nat := g * (262144 / d.kvGroups k)

/-- The effective score of a header at frame n (R187). -/
def Device.effScore (d : Device) (k n : Nat) (h : PageHdr) : Nat :=
  let e := d.fieldOf (corReg k 0x700) 4 4
  fscale (h.f 0x10 4) (-((min 255 (n / 2 ^ e - h.f 0x14 6 / 2 ^ e) : Nat) : Int))

/-- The order of eviction candidates (R188): NaN first, then ascending score, then ascending identifier. -/
def evictBefore (a b : Nat × Nat) : Bool :=
  let x := f32 a.2
  let y := f32 b.2
  match x, y with
  | .nan, .nan => decide (a.1 < b.1)
  | .nan, _ => true
  | _, .nan => false
  | _, _ => x.lt y || (!y.lt x && decide (a.1 < b.1))

/-- Insertion into a list sorted by eviction order. -/
def evictInsert (a : Nat × Nat) : List (Nat × Nat) → List (Nat × Nat)
  | [] => [a]
  | b :: r => if evictBefore a b then a :: b :: r else b :: evictInsert a r

/-- A device and the address of a bad word that stopped an operation. -/
structure KvRes where
  dev : Device
  bad : List Nat
  deriving DecidableEq, Repr

/-- Candidates for eviction: the LIVE pages with REFCNT 0, with their effective scores, in eviction order (R188). -/
def Device.evictCands (d : Device) (k : Nat) (pool : BitVec 256) : KvRes × List (Nat × Nat) :=
  (d.core k).used.foldl
    (fun (acc : KvRes × List (Nat × Nat)) p =>
      let r := acc.1.dev.readHdr k pool p
      let h : PageHdr := { bytes := r.bytes }
      ({ dev := r.dev, bad := acc.1.bad ++ r.bad },
        if h.f 5 1 = 1 ∧ h.f 0xC 2 = 0 then evictInsert (p, d.effScore k d.frame h) acc.2 else acc.2))
    ({ dev := d, bad := [] }, [])

/-- A page freed (R178), its header read before (R188): GEN advances, STATE is FREE; a page freed by EVICT waits for the next frame. -/
def Device.freePage (d : Device) (k : Nat) (pool : BitVec 256) (p : Nat) (auto : Bool) : Device :=
  let a := poolAddr pool p
  let g := leNat (d.seeMem (a + 3) 1)
  let d := (d.unitWrite k (a + 3) [BitVec.ofNat 8 (g + 1)]).unitWrite k (a + 5) [0]
  (d.count (corReg k 0x720) 1).modCore k fun c =>
    { c with used := c.used.filter (· ≠ p), quar := if auto then c.quar else insertAsc p c.quar }

/-- The first `n` candidates freed (R188). -/
def Device.evictPages (d : Device) (k n : Nat) (auto : Bool) : KvRes :=
  match (d.core k).pool with
  | none => { dev := d, bad := [] }
  | some pool =>
    let r := d.evictCands k pool
    if r.1.bad.isEmpty then
      { dev := r.1.dev.each (r.2.take n) fun p d => d.freePage k pool p.1 auto, bad := [] }
    else r.1

/-- EVICT (R188). -/
def Device.evictStep (k : Nat) (d : Device) : Device :=
  match (d.core k).headCue 4 [3] with
  | none => d
  | some q =>
    let r := d.evictPages k (cf q.cue 40 16) false
    match r.bad with
    | a :: _ => r.dev.consume k 4 a
    | [] => r.dev.markDone k 4

/-- EVICT. -/
def execEvict (c : Fin 480) (s : State) : Host.Outcome State Fault Refusal := s.inTower (Device.whole (Device.evictStep c))

/-- Whether a frame can be allocated now (R184). -/
def Core.frameFree (c : Core) (p : Nat) : Bool := !c.used.contains p && !c.quar.contains p

/-- The first allocatable frame at or above the cursor, wrapping (R184). -/
def Core.findFrame (c : Core) (n : Nat) : Option Nat :=
  ((List.range n).map fun i => (c.cursor + i) % n).find? c.frameFree

/-- A frame allocated: an automatic eviction runs when none qualifies (R184). -/
def Device.allocFrame (d : Device) (k : Nat) (pool : BitVec 256) : KvRes × Option Nat :=
  let n := poolFrames pool
  match (d.core k).findFrame n with
  | some p => ({ dev := d.modCore k fun c => { c with cursor := p + 1 }, bad := [] }, some p)
  | none =>
    let r := d.evictPages k (max 1 (d.fieldOf (corReg k 0x700) 8 8)) true
    match (r.dev.core k).findFrame n with
    | some p => ({ r with dev := r.dev.modCore k fun c => { c with cursor := p + 1 } }, some p)
    | none => (r, none)

/-- How many frames the flushes of an APPEND could take (R184): those that qualify, and the candidates of automatic evictions. -/
def Device.roomFor (d : Device) (k flushes : Nat) : KvRes × Bool :=
  let c := d.core k
  match c.pool with
  | none => ({ dev := d, bad := [] }, flushes == 0)
  | some pool =>
    let free := poolFrames pool - c.used.length - c.quar.length
    if flushes ≤ free then ({ dev := d, bad := [] }, true)
    else if d.bitOf (corReg k 0x700) 3 then
      let r := d.evictCands k pool
      (r.1, decide (flushes ≤ free + r.2.length))
    else ({ dev := d, bad := [] }, false)

/-- The DIM code of a head dimension (R197). -/
def dimCode (dim : Nat) : Nat := if dim = 128 then 1 else if dim = 256 then 2 else 0

/-- The header of a flushed page (R175, R183). -/
def flushHdr (p gen : Nat) (g : KvGroup) (owner n : Nat) : List Byte :=
  leBytes 3 p ++ leBytes 1 gen ++ leBytes 1 g.pfmt ++ [1] ++ leBytes 2 g.dim ++ leBytes 1 128 ++ leBytes 1 g.kscale ++
    leBytes 1 g.vscale ++ [0] ++ leBytes 2 1 ++ leBytes 2 owner ++ leBytes 4 0 ++ leBytes 6 n ++ List.replicate 38 0

/-- A full group flushed to a page (R183). -/
def Device.flush (d : Device) (k gi home : Nat) : KvRes :=
  match (d.core k).pool with
  | none => { dev := d, bad := [] }
  | some pool =>
    let g := (d.core k).group gi
    let r := d.allocFrame k pool
    match r.1.bad, r.2 with
    | [], some p =>
      let n := pageFactor g.pfmt * g.dim
      let data := r.1.dev.readCore k 4 .staging (r.1.dev.groupBase k gi) n
      let a := poolAddr pool p
      let hd := data.dev.unitRead k a 16
      if (data.bad ++ hd.bad).isEmpty then
        let gen := leAt hd.bytes 3 1
        let d := (hd.dev.unitWrite k (a + 64) data.bytes).unitWrite k a (flushHdr p gen g home hd.dev.frame)
        let fl := (d.core k).flushes
        let log := ((d.core k).flushLog).getD 0
        let at8 := df log 0 48 + 8 * (fl % (descExt log 0 / 2))
        let d := d.writeCore k 4 .scratch at8 (leBytes 4 (p + gen * 2 ^ 24) ++ leBytes 4 (gi + (fl % 2 ^ 24) * 2 ^ 8)) (fun _ => 0)
        { dev := (d.count (corReg k 0x718) 1).modCore k fun c =>
            { c with used := insertAsc p c.used, flushes := fl + 1
                     groups := mset KvGroup.reset c.groups gi { g with fill := 0, lins := [] } }
          bad := [] }
      else { dev := hd.dev, bad := data.bad ++ hd.bad }
    | b, _ => { dev := r.1.dev, bad := b }

/-- The page scale of R180 over the rows of a cue that land in a page. -/
def pageScale (rows : List (List FV)) : Nat :=
  match maxExp rows.flatten with
  | none => 127
  | some e => (clampInt 3 246 (e - 8 + 127)).toNat

/-- Rows placed so far: the device, the flags, and a bad word that stopped the cue. -/
structure AppendRes where
  dev : Device
  sat : Bool
  nan : Bool
  bad : List Nat
  deriving DecidableEq, Repr

/-- Bytes written to the staging buffer by the attention unit. -/
def Device.stage (d : Device) (k off : Nat) (bs : List Byte) : Device := d.writeCore k 4 .staging off bs (fun _ => 0)

/-- Value block b of every dimension quantised from the BF16 copy of the open block (R180): slots from `fill` on count as zero. -/
structure ValBlocks where
  dev : Device
  blocks : List MxBlock
  bad : List Nat
  deriving DecidableEq, Repr

/-- The first `n` bytes of each of `count` rows of `w` bytes in staging read; the rest of each row counts as zeros. -/
def Device.readRows (d : Device) (k base w n count : Nat) : ReadRes :=
  (List.range count).foldl
    (fun acc x =>
      let r := acc.dev.readCore k 4 .staging (base + w * x) n
      { dev := r.dev, bytes := acc.bytes ++ r.bytes ++ List.replicate (w - n) 0, bad := acc.bad ++ r.bad })
    { dev := d, bytes := [], bad := [] }

/-- The open value block of a group, its slots below FILL, quantised. `rnd i d` gives the rounding of slot i of the block in dimension d. -/
def Device.quantOpen (d : Device) (k base dim fill : Nat) (rnd : Nat → Nat → Rnd) : ValBlocks :=
  let n := if fill % 32 = 0 then 32 else fill % 32
  let r := d.readRows k (base + 136 * dim) 64 (2 * n) dim
  { dev := r.dev
    blocks := (List.range dim).map fun x =>
      quantMxBlock 8 (fun i => rnd i x)
        ((List.range 32).map fun i => if i < n then elemVal 1 (leAt r.bytes (64 * x + 2 * i) 2) else .fin false 0 0)
    bad := r.bad }

/-- A row pair placed in slot FILL of a group (R180). `rnd` gives the rounding of an element index; `rest` are the rows of the cue
from this one on. -/
def Device.placeRow (d : Device) (k gi pf dim : Nat) (rnd : Nat → Rnd) (rest : List (List FV × List FV × Nat)) : AppendRes :=
  match rest with
  | [] => { dev := d, sat := false, nan := false, bad := [] }
  | (kv, vv, lin) :: _ =>
    let g0 := (d.core k).group gi
    let page := rest.take 128
    let g : KvGroup :=
      if g0.fill = 0 then
        { fill := 0, pfmt := pf, dim := dim, kscale := if pf = 1 then pageScale (page.map (·.1)) else 0,
          vscale := if pf = 1 then pageScale (page.map fun r => r.2.1) else 0, lins := [] }
      else g0
    let s := g.fill
    let base := d.groupBase k gi
    let idx := List.range dim
    let kr := fun i => rnd ((lin + i) % 2 ^ 32)
    let vr := fun i => rnd ((lin + i + 2 ^ 31) % 2 ^ 32)
    let g' : KvGroup := { g with fill := s + 1, lins := if s % 32 = 0 then [lin] else g.lins ++ [lin] }
    let put := fun (d : Device) => d.modCore k fun c => { c with groups := mset KvGroup.reset c.groups gi g' }
    if pf = 2 then
      let kb := ((chunksOf 32 kv).zip (chunksOf 32 idx)).map fun p => quantMxBlock 8 (fun i => kr (p.2.getD i 0)) p.1
      let vn := (vv.zip idx).map fun p => narrowFloat 1 false (vr p.2) p.1
      let d := d.stage k (base + s * (dim / 2)) (packRow 8 (kb.flatMap (·.codes)))
      let d := d.stage k (base + 128 * dim + s * (dim / 32)) (kb.map fun b => BitVec.ofNat 8 b.scale)
      let d := d.each (vn.zip idx) fun p d => d.stage k (base + 136 * dim + 64 * p.2 + 2 * (s % 32)) (leBytes 2 p.1.code)
      let d := put d
      let sat := kb.any (·.sat) || vn.any (·.sat)
      let nan := kb.any (·.nan) || vn.any (·.nan)
      if g'.fill % 32 = 0 then
        let b := s / 32
        let r := d.quantOpen k base dim 32 fun i x => rnd ((g'.lins.getD i 0 + x + 2 ^ 31) % 2 ^ 32)
        let d := r.dev.each (r.blocks.zip idx) fun p d =>
          (d.stage k (base + 64 * dim + 64 * p.2 + 16 * b) (packRow 8 p.1.codes)).stage k (base + 132 * dim + 4 * p.2 + b)
            [BitVec.ofNat 8 p.1.scale]
        { dev := d, sat := sat || r.blocks.any (·.sat), nan := nan || r.blocks.any (·.nan), bad := r.bad }
      else { dev := d, sat := sat, nan := nan, bad := [] }
    else
      let fmt := if pf = 0 then 1 else 2
      let nb := if pf = 0 then 2 else 1
      let sc := fun (x : FV) (b : Nat) => if pf = 0 then x else x.scale (127 - (b : Int))
      let kn := (kv.zip idx).map fun p => narrowFloat fmt false (kr p.2) (sc p.1 g.kscale)
      let vn := (vv.zip idx).map fun p => narrowFloat fmt false (vr p.2) (sc p.1 g.vscale)
      let d := d.stage k (base + s * dim * nb) (packRow fmt (kn.map (·.code)))
      let d := d.each (vn.zip idx) fun p d => d.stage k (base + 128 * dim * nb + (128 * p.2 + s) * nb) (leBytes nb p.1.code)
      { dev := put d, sat := (kn ++ vn).any (·.sat), nan := (kn ++ vn).any (·.nan), bad := [] }

/-- The rows of an APPEND placed in order, each full group flushed before the next row (R180). -/
def Device.placeRows (k gi pf dim home : Nat) (rnd : Nat → Rnd) : List (List FV × List FV × Nat) → AppendRes → AppendRes
  | [], r => r
  | row :: rest, r =>
    if r.bad.isEmpty then
      let p := r.dev.placeRow k gi pf dim rnd (row :: rest)
      let s : AppendRes := { p with sat := r.sat || p.sat, nan := r.nan || p.nan }
      if s.bad.isEmpty && decide (((s.dev.core k).group gi).fill = 128) then
        let f := s.dev.flush k gi home
        Device.placeRows k gi pf dim home rnd rest { s with dev := f.dev, bad := f.bad }
      else Device.placeRows k gi pf dim home rnd rest s
    else r

/-- The unit checks of an APPEND against its group (R179): with FILL above 0 the staging need is that of the group's own PFMT and
HEAD_DIM. -/
def Device.appendCodes (d : Device) (k : Nat) (q : QCue) : List Nat :=
  let gi := cf q.cue 88 6
  let pf := cf q.cue 94 2
  let dim := (opndOf (refAt q.refs 0)).ext0
  let g := (d.core k).group gi
  errIf (decide (d.kvGroups k ≤ gi)) 0x11 ++ errIf (decide (0 < g.fill) && (g.pfmt != pf || g.dim != dim)) 0x11 ++
    errIf (decide (262144 / d.kvGroups k < if g.fill = 0 then stageFactor pf * dim else stageFactor g.pfmt * g.dim)) 0x08 ++
    errIf (g.fill == 0 &&
      match (d.core k).pool with
      | none => true
      | some b => decide (descExt b 0 < 64 + pageFactor pf * dim)) 0x08

/-- APPEND (R179, R180, R183, R184). -/
def Device.appendStep (k : Nat) (d : Device) : Device :=
  match (d.core k).headCue 4 [2] with
  | none => d
  | some q =>
    let gi := cf q.cue 88 6
    let pf := cf q.cue 94 2
    let ok := opndOf (refAt q.refs 0)
    let ov := opndOf (refAt q.refs 1)
    let dim := ok.ext0
    let codes := d.appendCodes k q
    let room := d.roomFor k (if d.kvGroups k ≤ gi then 0 else (((d.core k).group gi).fill + ok.count / max 1 dim) / 128)
    match minCode (codes ++ errIf (room.1.bad.isEmpty && !room.2) 0x08) with
    | some e => (if codes.contains 0x08 then d else room.1.dev).cueError k e q.index q.home 4
    | none =>
      match room.1.bad with
      | a :: _ => room.1.dev.consume k 4 a
      | [] =>
        let rk := room.1.dev.readTensor k 4 ok
        let rv := rk.dev.readTensor k 4 ov
        match rk.bad ++ rv.bad with
        | a :: _ => rv.dev.consume k 4 a
        | [] =>
          let ks := chunksOf (max 1 dim) (rk.elems.map (Elem.val ok.fmt))
          let vs := chunksOf (max 1 dim) (rv.elems.map (Elem.val ov.fmt))
          let input := (ks.zip vs).zip (ok.rows.map (·.2)) |>.map fun p => (p.1.1, p.1.2, p.2)
          let rnd := d.rnd q.home (cf q.cue 96 1 == 1) (cf q.cue 97 8)
          let r := Device.placeRows k gi pf dim q.home rnd input { dev := rv.dev, sat := false, nan := false, bad := [] }
          let d := r.dev.convFlags k r.sat r.nan
          match r.bad with
          | a :: _ => d.consume k 4 a
          | [] => d.markDone k 4

/-- APPEND. -/
def execAppend (c : Fin 480) (s : State) : Host.Outcome State Fault Refusal := s.inTower (Device.whole (Device.appendStep c))

/-- The score of a page updated after an ATTEND (R187). -/
def Device.updateScore (d : Device) (k : Nat) (pm : Nat × Nat) : KvRes :=
  match (d.core k).pool with
  | none => { dev := d, bad := [] }
  | some pool =>
    let r := d.readHdr k pool pm.1
    let h : PageHdr := { bytes := r.bytes }
    if r.bad.isEmpty then
      { dev := r.dev.unitWrite k (poolAddr pool pm.1 + 0x10)
          (leBytes 4 (fadd (d.effScore k d.frame h) pm.2) ++ leBytes 6 d.frame)
        bad := [] }
    else { dev := r.dev, bad := r.bad }

end Sys2Proof.Machine
end

