-- ==== Sys2Proof/Machine/Attention.lean ====
section
/-! DEFINITION. The attention unit's ATTEND and FINISH (R155 to R170), the block procedure (R161), and the combine of records that
a collective performs (R167). -/
namespace Sys2Proof.Machine

open Sys2Proof

/-- A row of the running state of an attention: maximum, sum, outputs, as FP32 codes. -/
structure AttRow where
  m : Nat
  l : Nat
  o : List Nat
  deriving DecidableEq, Repr

/-- A block of keys and values: page format, key slots, fill count, position of slot 0, keys by slot and values by dimension. -/
structure AttBlock where
  pfmt : Nat
  slots : Nat
  fill : Nat
  pos : Nat
  keys : List (List FV)
  vals : List (List FV)
  deriving DecidableEq, Repr

/-- What the array reports of the products of an attention block. -/
structure AttOut where
  rows : List AttRow
  mass : Nat
  flags : FeedFlags
  outOvf : Bool
  convSat : Bool
  convNan : Bool
  deriving DecidableEq, Repr

/-- Flags of two feeds together. -/
def FeedFlags.join (a b : FeedFlags) : FeedFlags :=
  { sat := a.sat || b.sat, inexact := a.inexact || b.inexact, lost := a.lost + b.lost, nanIn := a.nanIn || b.nanIn }

/-- A product of two lanes in the array with a pre-scanned anchor: FP32 code, flags, OUT_OVF (R40, R46, R161). -/
def arrayDot (depth : Nat) (a b : List FV) : Nat × FeedFlags × Bool :=
  let c : Cell := { acc := 0, anchor := laneExp a + laneExp b + 21, sat := false, nan := false }
  let r := cellFeed false depth (c, FeedFlags.none) a b
  let o := cellOut false 0 .rne r.1
  (o.1, r.2, o.2.2)

/-- Products per cell and cycle of Q·Kᵀ and of P·V for a query format and a page format (R158). -/
def attDepths (qf pf : Nat) : Nat × Nat :=
  match pf with
  | 0 => (2, 2)
  | 1 => (if qf = 1 then 2 else 4, 4)
  | _ => (2, 8)

/-- Probabilities rounded to the value format (R158): values as they enter P·V, CONV_SAT and CONV_NAN. -/
def roundProbs (pf : Nat) (ps : List Nat) : List FV × Bool × Bool :=
  if pf = 2 then
    let bs := (chunksOf 32 ps).map fun b => quantMxBlock 8 (fun _ => .rne) (b.map f32)
    (bs.flatMap fun b => b.codes.map fun c => scaledVal 8 c b.scale, bs.any (·.sat), bs.any (·.nan))
  else
    let f := if pf = 0 then 1 else 2
    let ns := ps.map fun p => narrowFloat f false .rne (f32 p)
    (ns.map fun n => elemVal f n.code, ns.any (·.sat), ns.any (·.nan))

/-- Steps (1) to (9) of R161 for one row. -/
def attRow (qf : Nat) (c qpos : Nat) (b : AttBlock) (q : List FV) (r : AttRow) :
    AttRow × Nat × FeedFlags × Bool × Bool × Bool :=
  let dep := attDepths qf b.pfmt
  let s := b.keys.map fun kv => arrayDot dep.1 q kv
  let t := (s.zip (List.range b.slots)).map fun p =>
    if b.fill ≤ p.2 ∨ (qpos ≠ 0xFFFFFFFF ∧ qpos < b.pos + p.2) then ninf else fmul p.1.1 c
  let mb := t.foldl maxF32 ninf
  let mn := maxF32 r.m mb
  let a := if mn = ninf then fone else exp2Fn (fsub r.m mn)
  let p := (List.range 128).map fun n =>
    if mn = ninf then 0 else if n < b.slots then exp2Fn (fsub (t.getD n ninf) mn) else 0
  let pr := roundProbs b.pfmt p
  let bsum := treeReduce (pr.1.map toF32)
  let pv := b.vals.map fun v => arrayDot dep.2 pr.1 v
  let fl := (s.map fun x => x.2.1) ++ (pv.map fun x => x.2.1)
  ({ m := mn, l := fma r.l a bsum, o := (r.o.zip pv).map fun x => fma x.1 a x.2.1 }, bsum,
    fl.foldl FeedFlags.join FeedFlags.none, s.any (fun x => x.2.2) || pv.any (fun x => x.2.2), pr.2)

/-- A block processed for every row; the mass is the tree over the block sums (R161, R168). -/
def attBlock (qf c : Nat) (qpos : List Nat) (b : AttBlock) (qs : List (List FV)) (rows : List AttRow) : AttOut :=
  let rs := (rows.zip (qs.zip qpos)).map fun x => attRow qf c x.2.2 b x.2.1 x.1
  { rows := rs.map (·.1), mass := treeReduce (rs.map fun x => x.2.1),
    flags := (rs.map fun x => x.2.2.1).foldl FeedFlags.join FeedFlags.none,
    outOvf := rs.any fun x => x.2.2.2.1, convSat := rs.any fun x => x.2.2.2.2.1, convNan := rs.any fun x => x.2.2.2.2.2 }

/-- Key rows of a block's bytes: slot-major, with their scales (R158, R174). -/
def keyRows (pf dim n : Nat) (data scales : List Byte) (ks : Nat) : List (List FV) :=
  let w := if pf = 0 then 2 * dim else if pf = 1 then dim else dim / 2
  (List.range n).map fun s =>
    let row := sliceBytes data (s * w) w
    match pf with
    | 0 => (unpackRow 1 dim row).map (elemVal 1)
    | 1 => (unpackRow 2 dim row).map fun c => scaledVal 2 c ks
    | _ => ((unpackRow 8 dim row).zip (List.range dim)).map fun (p : Nat × Nat) =>
        scaledVal 8 p.1 (scales.getD (s * (dim / 32) + p.2 / 32) 0).toNat

/-- Value rows of a block's bytes: dimension-major, 128 slots each; slots from `n` on are zero (R161, R174). -/
def valRows (pf dim n : Nat) (data scales : List Byte) (vs : Nat) : List (List FV) :=
  let w := if pf = 0 then 256 else if pf = 1 then 128 else 64
  (List.range dim).map fun x =>
    let row := sliceBytes data (x * w) w
    let es := match pf with
      | 0 => (unpackRow 1 128 row).map (elemVal 1)
      | 1 => (unpackRow 2 128 row).map fun c => scaledVal 2 c vs
      | _ => ((unpackRow 8 128 row).zip (List.range 128)).map fun (p : Nat × Nat) =>
          scaledVal 8 p.1 (scales.getD (4 * x + p.2 / 32) 0).toNat
    es.take n ++ List.replicate (128 - n) (.fin false 0 0)

/-- The run of an ATTEND over its blocks. -/
structure AttRun where
  dev : Device
  rows : List AttRow
  masses : List (Nat × Nat)
  fmts : List Nat
  flags : FeedFlags
  outOvf : Bool
  convSat : Bool
  convNan : Bool
  /-- the stale references met, with the generations found -/
  stales : List (Nat × Nat)
  bad : List Nat
  err : Option Nat
  deriving DecidableEq, Repr

/-- The inputs that stay fixed over an ATTEND. -/
structure AttIn where
  k : Nat
  qf : Nat
  dim : Nat
  c : Nat
  kpos : Nat
  qpos : List Nat
  qs : List (List FV)
  deriving DecidableEq, Repr

/-- Whether a query format and a page format pair up, judged by the scale bytes (R158); 0xFF converts to NaN and is no error (R34). -/
def attWidenOk (qf pf ks : Nat) (kscales : List Byte) : Bool :=
  match pf with
  | 0 => true
  | 1 => qf == 2 || widenScaleOk 4 1 ks
  | _ => qf == 1 && kscales.all fun s => widenScaleOk 8 1 s.toNat

/-- A block taken into the run. -/
def AttRun.take (r : AttRun) (i : AttIn) (b : AttBlock) (page : Option Nat) : AttRun :=
  let o := attBlock i.qf i.c i.qpos b i.qs r.rows
  { r with
    rows := o.rows, masses := match page with
      | some p => r.masses ++ [(p, o.mass)]
      | none => r.masses
    fmts := r.fmts ++ [b.pfmt], flags := r.flags.join o.flags, outOvf := r.outOvf || o.outOvf,
    convSat := r.convSat || o.convSat, convNan := r.convNan || o.convNan }

/-- The q-th page of the list (R156 to R158, R162). -/
def attPage (i : AttIn) (r : AttRun) (ref : Nat × Nat) : AttRun :=
  if !r.bad.isEmpty || r.err.isSome then r
  else
    let p := r.dev.resolvePage i.k ref.1
    if !p.bad.isEmpty then { r with dev := p.dev, bad := p.bad }
    else if p.stale then { r with dev := p.dev, stales := r.stales ++ [(ref.1, p.genFound)] }
    else
      let h := p.hdr
      let pf := h.f 4 1
      if 2 < pf ∨ h.f 5 1 ≠ 1 ∨ 128 < h.f 8 1 ∨ h.f 6 2 ≠ i.dim then
        let widen := (i.qf == 2 && pf == 2) || (pf == 1 && !attWidenOk i.qf 1 (h.f 9 1) [])
        { r with dev := p.dev, err := some (if widen then 0x0D else 0x11) }
      else
        let pool := ((p.dev.core i.k).pool).getD 0
        let a := poolAddr pool (field ref.1 0 24) + 64
        let w := if pf = 0 then 256 else if pf = 1 then 128 else 64
        let sc := if pf = 2 then p.dev.unitRead i.k (a + 2 * w * i.dim) (8 * i.dim) else { dev := p.dev, bytes := [], bad := [] }
        if !sc.bad.isEmpty then { r with dev := sc.dev, bad := sc.bad }
        else if !attWidenOk i.qf pf (h.f 9 1) (sc.bytes.take (4 * i.dim)) then { r with dev := sc.dev, err := some 0x0D }
        else
          let x := sc.dev.unitRead i.k a (2 * w * i.dim)
          if !x.bad.isEmpty then { r with dev := x.dev, bad := x.bad }
          else
            let b : AttBlock :=
              { pfmt := pf, slots := 128, fill := h.f 8 1, pos := i.kpos + 128 * ref.2,
                keys := keyRows pf i.dim 128 x.bytes sc.bytes (h.f 9 1),
                vals := valRows pf i.dim 128 (x.bytes.drop (w * i.dim)) (sc.bytes.drop (4 * i.dim)) (h.f 0xA 1) }
            { r with dev := x.dev }.take i b (some (field ref.1 0 24))

/-- The staged slots of a group, 0 to FILL − 1, as an ATTEND reads them (R180, R181): key rows and, of each value row, the values or the
complete value blocks, with the value blocks' scales. -/
structure TailData where
  dev : Device
  keys : List Byte
  vals : List Byte
  valScales : List Byte
  open32 : ValBlocks
  deriving DecidableEq, Repr

/-- The staged slots of a group read, with the bad words met (R181). -/
def Device.tailData (d : Device) (k base dim : Nat) (g : KvGroup) : TailData × List Nat :=
  let w := if g.pfmt = 0 then 256 else if g.pfmt = 1 then 128 else 64
  let n := if g.pfmt = 0 then 2 * g.fill else if g.pfmt = 1 then g.fill else 16 * (g.fill / 32)
  let a := d.readCore k 4 .staging base (g.fill * (w * dim / 128))
  let b := a.dev.readRows k (base + w * dim) w n dim
  let s := if g.pfmt = 2 ∧ 32 ≤ g.fill then b.dev.readCore k 4 .staging (base + 132 * dim) (4 * dim) else { dev := b.dev, bytes := [], bad := [] }
  let o := if g.pfmt = 2 ∧ g.fill % 32 ≠ 0 then s.dev.quantOpen k base dim g.fill (fun _ _ => .rne) else { dev := s.dev, blocks := [], bad := [] }
  ({ dev := o.dev, keys := a.bytes, vals := b.bytes, valScales := s.bytes, open32 := o }, a.bad ++ b.bad ++ s.bad ++ o.bad)

/-- The values of the staging tail: the open block in the place of the one that is not complete (R181). -/
def TailData.rows (x : TailData) (dim : Nat) (g : KvGroup) : List (List FV) :=
  let vals := valRows g.pfmt dim g.fill x.vals x.valScales g.vscale
  if x.open32.blocks.isEmpty then vals
  else
    let b0 := 32 * (g.fill / 32)
    (vals.zip x.open32.blocks).map fun p => p.1.take b0 ++ (p.2.codes.map fun c => scaledVal 8 c p.2.scale) ++ p.1.drop (b0 + 32)

/-- The staging tail of a group, the last block (R156, R181). A GROUP at or above the number of groups has no fill count: no tail is read, and
no error raised (log entry 132). The format and the key scales are judged before any slot is read, and a group of another HEAD_DIM is an
error FIELD as a page is (log entry 179). -/
def attTail (i : AttIn) (r : AttRun) (gi pages : Nat) : AttRun :=
  if !r.bad.isEmpty || r.err.isSome then r
  else
    let g := (r.dev.core i.k).group gi
    if g.fill = 0 ∨ r.dev.kvGroups i.k ≤ gi then r
    else if i.qf = 2 ∧ g.pfmt = 2 then { r with err := some 0x0D }
    else if g.dim ≠ i.dim then { r with err := some 0x11 }
    else
      let base := r.dev.groupBase i.k gi
      let sc := if g.pfmt = 2 then r.dev.readCore i.k 4 .staging (base + 128 * i.dim) (g.fill * (i.dim / 32))
        else { dev := r.dev, bytes := [], bad := [] }
      if !sc.bad.isEmpty then { r with dev := sc.dev, bad := sc.bad }
      else if !attWidenOk i.qf g.pfmt g.kscale sc.bytes then { r with dev := sc.dev, err := some 0x0D }
      else
        let x := sc.dev.tailData i.k base i.dim g
        if !x.2.isEmpty then { r with dev := x.1.dev, bad := x.2 }
        else
          let b : AttBlock :=
            { pfmt := g.pfmt, slots := g.fill, fill := g.fill, pos := i.kpos + 128 * pages,
              keys := keyRows g.pfmt i.dim g.fill x.1.keys sc.bytes g.kscale, vals := x.1.rows i.dim g }
          { r with
            dev := x.1.dev, convSat := r.convSat || x.1.open32.blocks.any (·.sat),
            convNan := r.convNan || x.1.open32.blocks.any (·.nan) }.take i b none

/-- The codes of a state record against its descriptors (R155, R159, R164): a record whose ROWS or HEAD_DIM lies outside its range may break the
conditions on the extents as well, and the lowest code is reported (R137). -/
def recordCodes (rows dim : Nat) (ds t : Opnd) : List Nat :=
  let dimOk := dim == 64 || dim == 128 || dim == 256
  let rowOk := decide (1 ≤ rows) && decide (rows ≤ 128)
  errIf (!dimOk || !rowOk) 0x11 ++
    errIf (t.exts != [dim, rows, 1, 1] || decide (4 * ds.ext0 < 0x640 + 4 * rows * dim)) 0x07

/-- Whether the array is free for an ATTEND (R165). A MATRIX cue that has claimed its banks and still ramps holds the array, as one that
feeds does (log entry 131). -/
def Core.arrayFree (c : Core) (order : Nat) : Bool :=
  c.set0.isNone && c.set1.isNone &&
    match c.arrayCue with
    | some m =>
      let x := matrixOf m.cue
      !(m.started || (decide (m.order < order) && (c.bank x.abank).st == 2 && (c.bank x.bbank).st == 2))
    | none => true

/-- Whether an array at level 8 has passed its last drain cycle: what comes now finds the drain ended, and ramps (R68, R69). -/
def Device.pastDrain (d : Device) (k : Nat) : Bool :=
  let c := d.core k
  c.phase == 2 && c.level == 8 && decide (c.clock.next + 11 < d.now)

/-- The array cycles of an ATTEND with blocks (R68, R165, R166): the ramp and what it cuts
short of a ramp-down, or the drain cycles before a chained one, K-steps, and null activity between them. -/
def Device.attCycles (d : Device) (k qf dim : Nat) (pfs : List Nat) : Device :=
  let c := d.core k
  let chained := c.phase = 2 ∧ c.level = 8
  let start := max d.now c.clock.next
  let ramp := if chained then start - c.clock.next else 8 * (8 - c.level)
  let cut := if c.phase = 3 then d.cutStep k else 0
  let feed := (pfs.map fun p => let x := attDepths qf p; 4 * (dim / x.1) + (dim / 32) * (128 / x.2)).foldl (· + ·) 0
  let hold := (pfs.map fun p => let x := attDepths qf p; 4 * max (dim / x.1) 64 + (dim / 32) * max (128 / x.2) 64).foldl (· + ·) 0
  let last := start + (if chained then 0 else ramp) + hold
  (d.arrCount k feed (cut + ramp + (hold - feed)) 0).modCore k fun c =>
    { c with phase := 2, level := 8, clock := { c.clock with next := last, path := max last c.clock.path } }

/-- The cycles that an ATTEND waited for the array or a page, counted once it goes on (R170). -/
def Device.attWaited (d : Device) (k : Nat) : Device :=
  match (d.core k).clock.asked with
  | some t => (d.count (corReg k 0x610) (d.now - t)).modCore k fun c => { c with clock := { c.clock with asked := none } }
  | none => d

/-- An ATTEND begins to wait. -/
def Device.attWaits (k : Nat) (d : Device) : Device :=
  d.modCore k fun c => { c with clock := { c.clock with asked := some (c.clock.asked.getD d.now) } }

/-- The record's bytes after an ATTEND (R157, R160). -/
def recordBytes (head : List Byte) (kpos : Nat) (rows : List AttRow) : List Byte :=
  let col := fun (f : AttRow → Nat) => (rows.flatMap fun r => leBytes 4 (f r)) ++ List.replicate (4 * (128 - rows.length)) 0
  head.take 12 ++ leBytes 4 kpos ++ sliceBytes head 16 (0x240 - 16) ++ col (·.m) ++ col (·.l) ++
    rows.flatMap fun r => r.o.flatMap (leBytes 4)

/-- Whether an FP32 code is a NaN. -/
def isNan (c : Nat) : Bool := f32 c == .nan

/-- The entries of M and L above ROWS: an ATTEND that reads them writes them back unchanged; with INIT spec/ states no value for them
and they are free (R160; log entry 5). -/
def keepUpper (old new : List Byte) (rows : Nat) : List Byte :=
  let put := fun (l : List Byte) (o : Nat) => l.take (o + 4 * rows) ++ sliceBytes old (o + 4 * rows) (512 - 4 * rows) ++ l.drop (o + 512)
  put (put new 0x240) 0x440

/-- What an ATTEND reads before its blocks: the state record's rows, the queries and the page references, with the bad words of
all three. -/
structure AttLoad where
  dev : Device
  body : List Byte
  qs : List Elem
  refs : List Nat
  bad : List Nat
  deriving DecidableEq, Repr

/-- The operands of an ATTEND read, once the record's header has been (R155). -/
def Device.attLoad (d : Device) (k : Nat) (q : QCue) (rows dim : Nat) : AttLoad :=
  let oq := opndOf (refAt q.refs 0)
  let pages := cf q.cue 114 1 == 1
  let os := opndOf (refAt q.refs (if pages then 2 else 1))
  let body := if cf q.cue 112 1 == 1 then { dev := d, bytes := [], bad := [] }
    else d.readCore k 4 .scratch (os.base + 0x240) (0x400 + 4 * rows * dim)
  let qs := body.dev.readTensor k 4 oq
  let pl := if pages then qs.dev.readTensor k 4 (opndOf (refAt q.refs 1)) else { dev := qs.dev, elems := [], bad := [] }
  { dev := pl.dev, body := body.bytes, qs := qs.elems, refs := pl.elems.map (·.code), bad := body.bad ++ qs.bad ++ pl.bad }

/-- The inputs of an ATTEND from its record's header and its queries (R155, R160). -/
def attInputs (k : Nat) (q : QCue) (head : List Byte) (rows dim : Nat) (l : AttLoad) : AttIn :=
  let oq := opndOf (refAt q.refs 0)
  { k := k, qf := oq.fmt, dim := dim, c := leAt head 8 4, kpos := leAt head 12 4,
    qpos := (List.range rows).map fun x => leAt head (0x40 + 4 * x) 4
    qs := chunksOf (max 1 dim) (l.qs.map (Elem.val oq.fmt)) }

/-- The rows that an ATTEND starts from (R160): fresh ones with INIT, else the record's. -/
def attStart (init : Bool) (rows dim : Nat) (body : List Byte) : List AttRow :=
  (List.range rows).map fun x =>
    if init then { m := ninf, l := 0, o := List.replicate dim 0 }
    else { m := leAt body (4 * x) 4, l := leAt body (0x200 + 4 * x) 4,
           o := (List.range dim).map fun y => leAt body (0x400 + 4 * (x * dim + y)) 4 }

/-- The blocks of an ATTEND in order: the pages of its list, then the staging tail (R156). -/
def attBlocks (q : QCue) (i : AttIn) (l : AttLoad) (start : List AttRow) : AttRun :=
  let r0 : AttRun := { dev := l.dev, rows := start, masses := [], fmts := [], flags := FeedFlags.none, outOvf := false,
                       convSat := false, convNan := false, stales := [], bad := [], err := none }
  let r := (l.refs.zip (List.range l.refs.length)).foldl (attPage i) r0
  if cf q.cue 113 1 == 1 then attTail i r (cf q.cue 115 6) l.refs.length else r

/-- The token positions that an ATTEND adds to KPOS: 128 for each page reference and the fill count of the tail (R157). -/
def attTokens (d : Device) (k : Nat) (q : QCue) (l : AttLoad) : Nat :=
  128 * l.refs.length + if cf q.cue 113 1 == 1 then ((d.core k).group (cf q.cue 115 6)).fill else 0

/-- A stale page reference met by an ATTEND (R162, R177): counted, flagged and logged. -/
def Device.staleRef (k : Nat) (ref : Nat × Nat) (d : Device) : Device :=
  let home := d.home k
  ((d.count (corReg home 0x608) 1).attFlag k 2 true).log (towerOf k) 0x05 4 0 0
    (home + field ref.1 0 24 * 2 ^ 9 + field ref.1 24 8 * 2 ^ 33 + ref.2 * 2 ^ 41)

/-- What the blocks of an ATTEND set on their way (R50, R162, R170): the flags of the array and of the conversions, and the stale
references. -/
def Device.attFlags (d : Device) (k : Nat) (r : AttRun) : Device :=
  (((d.each r.stales (Device.staleRef k)).feedFlags k r.flags).accFlag k flagOutOvf r.outOvf).convFlags k r.convSat r.convNan

/-- What an ATTEND leaves (R157, R160, R165, R169): the array's cycles counted, the record written, the NAN flag. -/
def Device.attWrite (d : Device) (q : QCue) (i : AttIn) (head : List Byte) (l : AttLoad) (tokens : Nat) (r : AttRun) : Device :=
  let os := opndOf (refAt q.refs (if cf q.cue 114 1 == 1 then 2 else 1))
  let init := cf q.cue 112 1 == 1
  let free := d.drawBytes (if init then 0x400 else 0)
  let old := head ++ (if init then free.1 else l.body)
  let bytes := keepUpper old (recordBytes head ((i.kpos + tokens) % 2 ^ 32) r.rows) r.rows.length
  let d := free.2.attWaited i.k
  let d := if r.fmts = [] then d else d.attCycles i.k i.qf i.dim r.fmts
  (d.writeCore i.k 4 .scratch os.base bytes (fun _ => 0)).attFlag i.k 0
    (r.rows.any fun x => isNan x.m || isNan x.l || x.o.any isNan)

/-- The scores of the pages that an ATTEND used, updated in list order (R187). -/
def Device.attScores (d : Device) (k : Nat) (masses : List (Nat × Nat)) : KvRes :=
  masses.foldl (fun (a : KvRes) m => if a.bad.isEmpty then a.dev.updateScore k m else a) { dev := d, bad := [] }

/-- ATTEND (R155 to R163, R165, R168). One that ends in a cue error has no effect (R135): it sets no flag of the blocks before. -/
def Device.attendStep (k : Nat) (d : Device) : Device :=
  match (d.core k).headCue 4 [0] with
  | none => d
  | some q =>
    let oq := opndOf (refAt q.refs 0)
    let os := opndOf (refAt q.refs (if cf q.cue 114 1 == 1 then 2 else 1))
    if d.attHasBlock k q && (!(d.core k).arrayFree q.order || d.pastDrain k) then
      d.attWaits k
    else
      let hd := d.readCore k 4 .scratch os.base 0x240
      let rows := leAt hd.bytes 0 4
      let dim := leAt hd.bytes 4 4
      match hd.bad, minCode (recordCodes rows dim os oq) with
      | a :: _, _ => hd.dev.consume k 4 a
      | [], some e => hd.dev.cueError k e q.index q.home 4
      | [], none =>
        let l := hd.dev.attLoad k q rows dim
        match l.bad with
        | a :: _ => l.dev.consume k 4 a
        | [] =>
          let i := attInputs k q hd.bytes rows dim l
          let r := attBlocks q i l (attStart (cf q.cue 112 1 == 1) rows dim l.body)
          match r.bad, r.err with
          | a :: _, _ => (r.dev.attFlags k r).consume k 4 a
          | [], some e => r.dev.cueError k e q.index q.home 4
          | [], none =>
            let u := ((r.dev.attFlags k r).attWrite q i hd.bytes l (attTokens d k q l) r).attScores k r.masses
            match u.bad with
            | a :: _ => u.dev.consume k 4 a
            | [] => u.dev.markDone k 4

/-- An ATTEND whose accesses to its pages have to wait (R170). -/
def Device.attendCue (k : Nat) (d : Device) : Device :=
  let r := Device.attendStep k { d with blocked := false }
  if r.blocked then ({ d with blocked := false, wanted := r.wanted } : Device).attWaits k else r

/-- ATTEND. -/
def execAttend (c : Fin 480) (s : State) : Host.Outcome State Fault Refusal := s.inTower (Device.attendCue c)

/-- FINISH (R164). -/
def Device.finishStep (k : Nat) (d : Device) : Device :=
  match (d.core k).headCue 4 [1] with
  | none => d
  | some q =>
    let os := opndOf (refAt q.refs 0)
    let od := opndOf (refAt q.refs 1)
    let hd := d.readCore k 4 .scratch os.base 0x10
    let rows := leAt hd.bytes 0 4
    let dim := leAt hd.bytes 4 4
    match hd.bad, minCode (recordCodes rows dim os od) with
    | a :: _, _ => hd.dev.consume k 4 a
    | [], some e => hd.dev.cueError k e q.index q.home 4
    | [], none =>
      let b := hd.dev.readCore k 4 .scratch (os.base + 0x440) (0x200 + 4 * rows * dim)
      match b.bad with
      | a :: _ => b.dev.consume k 4 a
      | [] =>
        let rnd := b.dev.rnd q.home (cf q.cue 89 1 == 1) (cf q.cue 90 8)
        let vals := (List.range rows).flatMap fun x =>
          let l := leAt b.bytes (4 * x) 4
          let r := recipFn l
          (List.range dim).map fun y => if l = 0 then 0 else fmul (leAt b.bytes (0x200 + 4 * (x * dim + y)) 4) r
        let res := resultsOf ((vals.zip od.lins).map fun p => narrowF32 od.fmt false (rnd p.2) p.1)
        let d := (b.dev.writeTensor k 4 od res.codes).convFlags k res.sat res.nan
        let empty := (List.range rows).any fun x => leAt b.bytes (4 * x) 4 == 0
        ((d.attFlag k 0 (vals.any isNan)).attFlag k 1 empty).markDone k 4

/-- FINISH. -/
def execFinish (c : Fin 480) (s : State) : Host.Outcome State Fault Refusal := s.inTower (Device.whole (Device.finishStep c))

/-- The fold of R167 of one row into another. -/
def combineRow (a b : AttRow) : AttRow :=
  let mn := maxF32 a.m b.m
  let x := if mn = ninf then fone else exp2Fn (fsub a.m mn)
  let y := if mn = ninf then fone else exp2Fn (fsub b.m mn)
  { m := mn, l := fma a.l x (fmul b.l y), o := (a.o.zip b.o).map fun p => fma p.1 x (fmul p.2 y) }

/-- The rows of a record's bytes. -/
def recordRows (rec : List Byte) (rows dim : Nat) : List AttRow :=
  (List.range rows).map fun x =>
    { m := leAt rec (0x240 + 4 * x) 4, l := leAt rec (0x440 + 4 * x) 4
      o := (List.range dim).map fun y => leAt rec (0x640 + 4 * (x * dim + y)) 4 }

/-- The combine of records in ascending rank (R167): header and QPOS of rank 0. -/
def combineRecords (recs : List (List Byte)) : List Byte :=
  match recs with
  | [] => []
  | r0 :: rest =>
    let rows := leAt r0 0 4
    let dim := leAt r0 4 4
    let out := rest.foldl (fun acc r => (acc.zip (recordRows r rows dim)).map fun p => combineRow p.1 p.2) (recordRows r0 rows dim)
    recordBytes r0 (leAt r0 12 4) out

end Sys2Proof.Machine
end

