-- ==== Sys2Proof/Machine/Dma.lean ====
section
/-! DEFINITION. The DMA units (R24, R55, R58, R60, R129 to R132, R214 to R216): the pieces of a cue, the transactions and channel
requests they become, and the landing of their bytes. -/
namespace Sys2Proof.Machine

open Sys2Proof

/-! ### Pieces -/

/-- A run of bytes cut at every multiple of `w`. -/
def cutRun (w : Nat) (r : Nat × Nat) : List (Nat × Nat) :=
  if r.2 = 0 then []
  else
    (List.range ((r.1 + r.2 - 1) / w + 1 - r.1 / w)).map fun i =>
      let lo := max r.1 (w * (r.1 / w + i))
      (lo, min (r.1 + r.2) (w * (r.1 / w + i) + w) - lo)

/-- The runs of a source laid against the runs of a destination, byte by byte in order. -/
def zipRuns (scale : Bool) : Nat → List (Nat × Nat) → List (Nat × Nat) → List Piece
  | 0, _, _ => []
  | f + 1, (a, n) :: r, (b, m) :: t =>
    let l := min n m
    { src := a, dst := b, len := l, scale := scale, esz := 0, step := 0 } ::
      zipRuns scale f (if n = l then r else (a + l, n - l) :: r) (if m = l then t else (b + l, m - l) :: t)
  | _ + 1, _, _ => []

/-- The pieces that move some runs onto others: `w` is the width of a source access. -/
def piecesOf (scale : Bool) (w : Nat) (src dst : List (Nat × Nat)) : List Piece :=
  let s := src.flatMap (cutRun w)
  let t := dst.flatMap (cutRun 64)
  zipRuns scale (s.length + t.length) s t

/-- The rows of an operand as runs of bytes (R116). -/
def Opnd.runs (o : Opnd) : List (Nat × Nat) := o.rows.map fun r => (r.1, o.rowLen)
/-- The scale bytes of an operand as runs of bytes (R116); none for a format without block scales. -/
def Opnd.scaleRuns (o : Opnd) : List (Nat × Nat) :=
  if fmtMx o.fmt then o.rows.flatMap fun r => (o.scaleSpan r.2).map fun s => (s.1.toNat, s.2) else []

/-- The number of bytes of some runs. -/
def runBytes (l : List (Nat × Nat)) : Nat := l.foldl (fun n r => n + r.2) 0

/-- The pieces of a transposed load (R58): element x of source row j goes to K-contiguous place. -/
def transposed (o : Opnd) (base : Nat) : List Piece :=
  let es := fmtBits o.fmt / 8
  let kk := (o.dims.head?.map (·.1)).getD 1
  ((o.rows).zip (List.range o.rows.length)).flatMap fun p =>
    let outer := p.2 / max 1 kk
    let j := p.2 % max 1 kk
    (cutRun 64 (p.1.1, o.rowLen)).map fun f =>
      { src := f.1, dst := base + ((outer * o.ext0 + (f.1 - p.1.1) / es) * kk + j) * es, len := f.2, scale := false, esz := es,
        step := kk * es }

/-! ### The cue at the head of a DMA queue -/

/-- The head of a unit's queue changed. -/
def Device.headMod (d : Device) (k u : Nat) (f : QCue → QCue) : Device :=
  d.modCore k fun c =>
    match c.queue u with
    | q :: r => c.setQueue u (f q :: r)
    | [] => c

/-- The work of the head changed. -/
def Device.workMod (d : Device) (k u : Nat) (f : DmaWork → DmaWork) : Device :=
  d.headMod k u fun q => { q with work := q.work.map f }

/-- The work of the head, while the cue has started and not ended. -/
def Core.headWork (c : Core) (u : Nat) : Option DmaWork :=
  match (c.queue u).head? with
  | some q => if q.started && !q.done then q.work else none
  | none => none

/-- The load that the cue at the head of a unit's queue makes. -/
def Device.headLoad (d : Device) (k u : Nat) : LoadId := (k, u, (((d.core k).queue u).head?.map (·.order)).getD 0)

/-- Whether an abort keeps a core's DMA units from issuing (R556); the core whose own cue error halted it runs its started cues to
completion (R135). -/
def Device.dmaStopped (d : Device) (k : Nat) : Bool := d.take.aborting && (d.core k).cueState != 3

/-- The multicast read that a core runs (R216). -/
def Device.mcastOf (d : Device) (k : Nat) : Option Mcast := (d.half (halfOf (towerOf k))).mcasts.find? fun m => m.core == k

/-- The multicast of a core changed. -/
def Device.mcastMod (d : Device) (k : Nat) (f : Mcast → Mcast) : Device :=
  d.modHalf (halfOf (towerOf k)) fun h => { h with mcasts := h.mcasts.map fun m => if m.core = k then f m else m }

/-- A load accepted by a bank (R55). -/
def Bank.acceptLoad (l : LoadId) (last : Bool) (x : Bank) : Bank :=
  let x := if x.st = 0 then { x with loads := [], due := none } else x
  let loads := x.loads ++ [l]
  { x with st := 1, loads := loads, due := if x.due.isNone && last then some loads else x.due }

/-- A load accepted by a core's bank (R55). -/
def Core.acceptLoad (c : Core) (b : Nat) (l : LoadId) (last : Bool) : Core :=
  { c with banks := mmod Bank.reset c.banks b (Bank.acceptLoad l last) }

/-- Whether a bank can accept a load now (R55). -/
def Core.loadable (c : Core) (b : Nat) : Bool := (mget Bank.reset c.banks b).st == 0 || (mget Bank.reset c.banks b).st == 1

/-- Whether a place of a core can take a load, and the core when it has. -/
def Core.admission (c : Core) (p : Place) (l : LoadId) (last : Bool) : Option Core :=
  match p with
  | .bank b => if c.loadable b then some (c.acceptLoad b l last) else none
  | _ => some c

/-- The load of a place that has completed at a core (R55). -/
def Core.loaded (c : Core) (now : Nat) (p : Place) (l : LoadId) : Core :=
  match p with
  | .bank b => c.loadDone now b l
  | _ => c

/-- A read that has delivered its lines ends (R76, R130): a multicast when every member holds every line. -/
def Device.dmaSettle (d : Device) (k u : Nat) : Device :=
  match (d.core k).headWork u with
  | none => d
  | some w =>
    if w.todo.isEmpty && w.held.isEmpty && w.flight == 0 then
      match if w.members.isEmpty then none else d.mcastOf k with
      | none => d.markDone k u
      | some m =>
        let d := if m.ended then d
          else
            (d.each (m.accepted.filter fun c => (mget [] m.missed c).isEmpty && !m.catching.contains c) fun c d => d.modCore c fun x => x.loaded d.now w.toPlace (d.headLoad k u)).mcastMod
              k fun m => { m with ended := true }
        if m.missed.isEmpty && m.catching.isEmpty then
          (d.modHalf (halfOf (towerOf k)) fun h => { h with mcasts := h.mcasts.filter fun m => m.core != k }).markDone k u
        else d
    else d

/-! ### Landing -/

/-- The mark of a destination codeword: the address plus 1 of the bad source codeword that reaches it; 0 for none. -/
def badDst (p : Piece) (bad : List Nat) (c : Nat) : Nat :=
  match bad.find? fun b =>
      let lo := max b p.src
      let hi := min (b + 16) (p.src + p.len)
      decide (lo < hi) && decide ((p.dst + (lo - p.src)) / 16 ≤ c) && decide (c ≤ (p.dst + (hi - 1 - p.src)) / 16) with
  | some b => b + 1
  | none => 0

/-- Operands on their way to an operand bank cross the array-to-vector bond of the core position (R366): what its dead connections do to
them is found at the array's side, with the source's addresses (R368). Answers the addresses of bad source codewords. -/
def Device.passBond (d : Device) (k u : Nat) (p : Piece) (bad : List Nat) : Device × List Nat :=
  let x := d.crossed (towerOf k) u (d.bondBits k) p.src p.len (bad.map (· / 16))
  (x.1, x.2.map (16 * ·))

/-- The bytes of a piece laid down in a core memory (R58, R60, R295). -/
def Device.land (d : Device) (k u : Nat) (place : Place) (p : Piece) (bs : List Byte) (bad : List Nat) : Device :=
  let place : Place := match place with
    | .bank b => if p.scale then .scale b else .bank b
    | x => x
  let x := match place with
    | .bank _ => d.passBond k u p bad
    | .scale _ => d.passBond k u p bad
    | _ => (d, bad)
  let d := x.1
  let bad := x.2
  if p.esz = 0 then d.writeCore k u place p.dst bs (badDst p bad)
  else
    d.each ((chunksOf p.esz bs).zip (List.range bs.length)) fun e d =>
      let at0 := p.src + e.2 * p.esz
      let org := match bad.find? fun b => decide (b ≤ at0) && decide (at0 < b + 16) with
        | some b => b + 1
        | none => 0
      d.writeCore k u place (p.dst + e.2 * p.step) e.1 (fun _ => org)

/-- The destination codewords of a piece to be written in poisoned form. -/
def badCws (p : Piece) (bad : List Nat) : List Nat := (cwsOf p.dst p.len).filter fun c => badDst p bad c != 0

/-- Bytes that a cue writes to device memory, issued as a transaction or as channel requests; none when a tag or a queue is
wanting. -/
def Device.heldIssue (d : Device) (k u : Nat) (h : Held) : Option Device :=
  let p : Piece := { src := 0, dst := h.addr, len := h.bytes.length, scale := false, esz := 0, step := 0 }
  match regionOf h.addr with
  | .dram s o =>
    let rs := (dramWrites (dramSource s k) false h.addr h.bytes h.bad).map fun r => (s, (dramPlace o).ch, r, DramOwner.dma k u p)
    (d.pushAll rs).map fun d => d.workMod k u fun w => { w with flight := w.flight + rs.length }
  | _ =>
    (d.coreTxn k (writeTag h.addr h.bytes h.bad (.dma k u p))).map fun d =>
      (d.sigStore k h.addr h.bytes).workMod k u fun w => { w with flight := w.flight + 1 }

/-- A piece issued (R130, R132): a read of device memory, or a core-memory read with the write it becomes. -/
def Device.pieceIssue (d : Device) (k u : Nat) (w : DmaWork) (p : Piece) : Option Device :=
  match w.fromPlace with
  | .device =>
    match regionOf p.src with
    | .dram s o =>
      let g := cf (((d.core k).queue u).head?.map (·.cue) |>.getD 0) 0 8 == 0x62
      (d.pushReq s (dramPlace o).ch (dramRead (dramSource s k) g p.src) (if g then .gather k p else .dma k u p)).map fun d =>
        d.workMod k u fun w => { w with flight := w.flight + 1 }
    | _ =>
      (d.coreTxn k (readTag p.src p.len (if w.members.isEmpty then .dma k u p else .mcast k p))).map fun d =>
        d.workMod k u fun w => { w with flight := w.flight + 1 }
  | x =>
    let c := d.core k
    let bad := ((cwsOf p.src p.len).filter fun i => ((c.placeMem x).cw i).bad).map (16 * ·)
    let r := d.readCore k u x p.src p.len
    r.dev.heldIssue k u { addr := p.dst, bytes := r.bytes, bad := badCws p bad }

/-- Everything that a started DMA cue can issue now: first what it holds, then the pieces not yet issued (R130, R210, R239). -/
def Device.dmaPump (k u : Nat) (d : Device) : Device :=
  match (d.core k).headWork u with
  | none => d
  | some w =>
    let d := d.workMod k u fun w => { w with todo := [], held := [] }
    let d := d.each w.held fun h d =>
      match d.heldIssue k u h with
      | some d => d
      | none => d.workMod k u fun w => { w with held := w.held ++ [h] }
    let d := d.each w.todo fun p d =>
      match d.pieceIssue k u w p with
      | some d => d
      | none => d.workMod k u fun w => { w with todo := w.todo ++ [p] }
    d.dmaSettle k u

/-- A request of a cue has ended with nothing to deliver. -/
def Device.dmaEnd (d : Device) (k u : Nat) : Device :=
  match (d.core k).headWork u with
  | none => d
  | some _ => (d.workMod k u fun w => { w with flight := w.flight - 1 }).dmaSettle k u

/-- The bytes of a piece arrive: they land in a core memory, or are written on to device memory. `bad` holds the addresses of
their bad source codewords. -/
def Device.dmaArrive (d : Device) (k u : Nat) (p : Piece) (bs : List Byte) (bad : List Nat) : Device :=
  match (d.core k).headWork u with
  | none => d
  | some w =>
    let d := d.workMod k u fun w => { w with flight := w.flight - 1 }
    match w.toPlace with
    | .device =>
      let h : Held := { addr := p.dst, bytes := bs, bad := badCws p bad }
      match if d.dmaStopped k then none else d.heldIssue k u h with
      | some d => d
      | none => (if d.dmaStopped k then d else d.workMod k u fun w => { w with held := w.held ++ [h] }).dmaSettle k u
    | x => (d.land k u x p bs bad).dmaSettle k u

/-- A line of a multicast comes through a member's through path (R368) and is laid down there, when its destination can take it now: one that
has not taken the load takes it first (R215). None: it cannot. -/
def Device.mcastLand (d : Device) (k m : Nat) (q : QCue) (w : DmaWork) (p : Piece) (bs : List Byte) (bad : List Nat) : Option Device :=
  let lay := fun (d : Device) =>
    let y := d.passPath m p.src p.len (bad.map (· / 16))
    y.1.land m 5 w.toPlace p bs (y.2.map (16 * ·))
  match d.mcastOf k with
  | none => none
  | some x =>
    if x.accepted.contains m then some (lay d)
    else
      ((d.core m).admission w.toPlace (k, 5, q.order) (cf q.cue 105 1 == 1)).map fun c =>
        lay ((d.setCore m c).mcastMod k fun x => { x with accepted := insertAsc m x.accepted })

/-- A line of a multicast reaches every member that can take it; the others lack it (R215). -/
def Device.mcastArrive (d : Device) (k : Nat) (p : Piece) (bs : List Byte) (bad : List Nat) : Device :=
  match (d.core k).headWork 5, ((d.core k).queue 5).head? with
  | some w, some q =>
    (d.each w.members fun m d => (d.mcastLand k m q w p bs bad).getD
      (d.mcastMod k fun x => { x with missed := mmod [] x.missed m fun l => l ++ [p] })).dmaEnd k 5
  | _, _ => d

/-! ### Starting a cue -/

/-- The place that DBANK names (R129). -/
def dbankPlace : Nat → Place
  | 5 => .staging
  | n => .bank (n - 1)

/-- The size of a destination of a load (R55, R57, R130). -/
def placeSize : Place → Nat
  | .bank b => if b < 2 then 262144 else 65536
  | _ => 262144

/-- The formats that may be loaded transposed (R58). -/
def transposeFmt (f : Nat) : Bool := f == 1 || f == 2 || f == 3 || f == 9

/-- The errors that a READ into a bank or the staging buffer shows at the head of its queue (R58, R130). -/
def loadCodes (q : BitVec 128) (o : Opnd) : List Nat :=
  let b := cf q 88 3
  if b = 0 then []
  else
    errIf (decide (placeSize (dbankPlace b) < 16 * cf q 91 14 + runBytes o.runs)) 0x08 ++
      errIf (cf q 106 1 == 1 &&
        (!transposeFmt o.fmt || o.dims.isEmpty || o.ext0 % 32 != 0 || ((o.dims.head?.map (·.1)).getD 1) % 32 != 0)) 0x0B

/-- The memory that an operand of a DMA cue names. -/
def opndPlace (o : Opnd) : Place := if o.space = 1 then .scratch else .device

/-- The work of a READ (R129, R130, R132). -/
def Device.readWork (d : Device) (k : Nat) (q : QCue) : DmaWork :=
  let o := opndOf (refAt q.refs 0)
  let b := cf q.cue 88 3
  let off := 16 * cf q.cue 91 14
  let members := if cf q.cue 4 4 = 5 ∧ cf q.cue 107 1 = 1 ∧ ¬ (b = 0 ∧ (opndOf (refAt q.refs 1)).space ≠ 1) then
      d.mcastMembers (halfOf (towerOf k)) (cf q.cue 108 8) else []
  if b = 0 then
    let t := opndOf (refAt q.refs 1)
    { fromPlace := .device, toPlace := opndPlace t,
      todo := piecesOf false 64 o.runs t.runs ++ piecesOf true 64 o.scaleRuns t.scaleRuns, held := [], flight := 0, members := members }
  else
    let sc := if b = 5 then [] else piecesOf true 64 o.scaleRuns [(off * 8 / fmtBits o.fmt / 32, runBytes o.scaleRuns)]
    { fromPlace := .device, toPlace := dbankPlace b,
      todo := if cf q.cue 106 1 = 1 then transposed o off
        else piecesOf false 64 o.runs [(off, runBytes o.runs)] ++ sc
      held := [], flight := 0, members := members }

/-- The work of a WRITE. -/
def writeWork (q : QCue) : DmaWork :=
  let o := opndOf (refAt q.refs 0)
  let t := opndOf (refAt q.refs 1)
  { fromPlace := opndPlace o, toPlace := opndPlace t,
    todo := piecesOf false 64 o.runs t.runs ++ piecesOf true 64 o.scaleRuns t.scaleRuns, held := [], flight := 0, members := [] }

/-- A cue of a DMA unit begins its work. -/
def Device.dmaBegin (d : Device) (k u : Nat) (w : DmaWork) : Device :=
  (d.headMod k u fun q => { q with started := true, work := some w }).dmaPump k u

/-- A multicast READ begins (R214 to R216): at most 64 run in a half; the members whose destination can take the load take it. -/
def Device.mcastBegin (d : Device) (k : Nat) (q : QCue) (w : DmaWork) : Device :=
  let h := halfOf (towerOf k)
  if 64 ≤ (d.half h).mcasts.length then d
  else
    let last := cf q.cue 105 1 == 1
    let r := w.members.foldl
      (fun (acc : Device × List Nat) m =>
        match (acc.1.core m).admission w.toPlace (k, 5, q.order) last with
        | some c => (acc.1.setCore m c, acc.2 ++ [m])
        | none => acc) (d, [])
    (r.1.modHalf h fun x => { x with mcasts := x.mcasts ++ [{ core := k, accepted := r.2, missed := [], catching := [], ended := false }] }).dmaBegin
      k 5 w

/-- A READ at the head of its queue (R55, R129 to R132): its errors, its wait for the bank, its start, or its further issue. -/
def Device.readStep (u : Nat) (k : Nat) (d : Device) : Device :=
  match (d.core k).headCue u [0] with
  | none => d
  | some q =>
    if q.started then d.dmaPump k u
    else
      match minCode (loadCodes q.cue (opndOf (refAt q.refs 0))) with
      | some e => d.cueError k e q.index q.home u
      | none =>
        let w := d.readWork k q
        if !w.members.isEmpty then d.mcastBegin k q w
        else
          match (d.core k).admission w.toPlace (k, u, q.order) (cf q.cue 105 1 == 1) with
          | some c => (d.setCore k c).dmaBegin k u w
          | none => d

/-- A WRITE at the head of its queue (R130, R132). -/
def Device.writeStep (u : Nat) (k : Nat) (d : Device) : Device :=
  match (d.core k).headCue u [1] with
  | none => d
  | some q => if q.started then d.dmaPump k u else d.dmaBegin k u (writeWork q)

/-- The pieces of a GATHER (R131, R132): row j of the destination, in 16 B accesses, from the table row that index j names. -/
def gatherPieces (o t : Opnd) (is : List Int) : List Piece :=
  (is.zip (List.range is.length)).flatMap fun p =>
    let s := tableRow o p.1.toNat
    let r := tableRow t p.2
    piecesOf false 16 s.runs r.runs ++ piecesOf true 16 s.scaleRuns r.scaleRuns

/-- GATHER at the head of its queue (R131, R132): its indices are read and checked, then its rows are read in 16 B accesses. -/
def Device.gatherStep (k : Nat) (d : Device) : Device :=
  match (d.core k).headCue 6 [2] with
  | none => d
  | some q =>
    if q.started then d.dmaPump k 6
    else
      let o := opndOf (refAt q.refs 0)
      let t := opndOf (refAt q.refs 2)
      let r := d.readTensor k 6 (opndOf (refAt q.refs 1))
      match r.bad with
      | a :: _ => r.dev.consume k 6 a
      | [] =>
        let is := r.elems.map fun e => signedOf 32 e.code
        if is.any fun i => decide (i < 0) || decide ((tableRows o : Int) ≤ i) then r.dev.cueError k 0x04 q.index q.home 6
        else
          r.dev.dmaBegin k 6
            { fromPlace := .device, toPlace := .scratch, todo := gatherPieces o t is, held := [], flight := 0, members := [] }

/-- STORE_DMA_READ (R130). -/
def execStoreDmaRead (c : Fin 480) (s : State) : Host.Outcome State Fault Refusal := s.inTower (Device.readStep 5 c)
/-- STORE_DMA_WRITE (R130). -/
def execStoreDmaWrite (c : Fin 480) (s : State) : Host.Outcome State Fault Refusal := s.inTower (Device.writeStep 5 c)
/-- DRAM_DMA_READ (R132). -/
def execDramDmaRead (c : Fin 480) (s : State) : Host.Outcome State Fault Refusal := s.inTower (Device.readStep 6 c)
/-- DRAM_DMA_WRITE (R132). -/
def execDramDmaWrite (c : Fin 480) (s : State) : Host.Outcome State Fault Refusal := s.inTower (Device.writeStep 6 c)
/-- GATHER (R131, R132). -/
def execGather (c : Fin 480) (s : State) : Host.Outcome State Fault Refusal := s.inTower (Device.gatherStep c)

/-- The load of a member is whole once it lacks no line and none is read again for it (R215). -/
def Device.mcastWhole (k m : Nat) (q : QCue) (w : DmaWork) (d : Device) : Device :=
  match d.mcastOf k with
  | none => d
  | some x =>
    (if x.ended && (mget [] x.missed m).isEmpty && !x.catching.contains m then d.modCore m fun c => c.loaded d.now w.toPlace (k, 5, q.order)
     else d).dmaSettle k 5

/-- A line read again for a member arrives there (R215); one that its destination cannot take stays lacking. -/
def Device.catchArrive (d : Device) (k m : Nat) (p : Piece) (bs : List Byte) (bad : List Nat) : Device :=
  let d := d.mcastMod k fun x => { x with catching := x.catching.filter (· ≠ m) }
  match (d.core k).headWork 5, ((d.core k).queue 5).head? with
  | some w, some q =>
    ((d.mcastLand k m q w p bs bad).getD (d.mcastMod k fun x => { x with missed := mmod [] x.missed m fun l => p :: l })).mcastWhole k m q w
  | _, _ => d

/-- A lagging member catches up by one line (R215, R217, R221, R223): once its destination can take data, and unless an abort keeps the
unit from issuing (R556), the line is read again for it alone,
by a transaction of the issuing port. -/
def Device.mcastCatch (h member : Nat) (d : Device) : Device :=
  let m := 240 * h + member
  match (d.half h).mcasts.find? fun x => !(mget [] x.missed m).isEmpty && !x.catching.contains m && !d.dmaStopped x.core with
  | none => d
  | some x =>
    match (d.core x.core).headWork 5, ((d.core x.core).queue 5).head?, mget [] x.missed m with
    | some w, some q, p :: rest =>
      if x.accepted.contains m || ((d.core m).admission w.toPlace (x.core, 5, q.order) (cf q.cue 105 1 == 1)).isSome then
        match d.coreTxn x.core (readTag p.src p.len (.catchup x.core m p)) with
        | some d => d.mcastMod x.core fun y => { y with catching := insertAsc m y.catching, missed := mset [] y.missed m rest }
        | none => d
      else d
    | _, _, _ => d

/-- MCAST_CATCHUP (R215). -/
def execMcastCatchup (h : Half) (member : Fin 240) (s : State) : Host.Outcome State Fault Refusal :=
  s.onClock (Device.mcastCatch (halfNum h) member)

end Sys2Proof.Machine
end

