-- ==== Sys2Proof/Machine/Store.lean ====
section
/-! DEFINITION. The central store at work: the service of transactions (R199, R207, R217 to R219), responses, stale responses and timeouts
(R211 to R213), and merge buffers (R225, R299). -/
namespace Sys2Proof.Machine

open Sys2Proof

/-- A transaction served at its memory (R199, R218, R443): a read takes the whole line, a write stores its bytes. -/
def Device.serveTag (h i : Nat) (write : Bool) (d : Device) : Device :=
  let t := d.tag h i
  if t.st = .requested ∧ t.write = write ∧ d.legal t.addr = true then
    match d.requestOut h i with
    | none => d
    | some d =>
      let r := (d.openCapacity t.addr t.len).atMemory t (d.fromHost t)
      r.dev.served h i { t with resp := r.bytes, respPoison := r.bad }
  else d

/-- STORE_READ (R199, R217). -/
def execStoreRead (h : Half) (tag : BitVec 15) (s : State) : Host.Outcome State Fault Refusal :=
  s.onClock (Device.serveTag (halfNum h) tag.toNat false)
/-- STORE_WRITE (R218). -/
def execStoreWrite (h : Half) (tag : BitVec 15) (s : State) : Host.Outcome State Fault Refusal :=
  s.onClock (Device.serveTag (halfNum h) tag.toNat true)

/-- A poison write issued from a pool (R213); none when no tag is free. -/
def Device.baneIssue (d : Device) (h : Nat) (pool : Nat × Nat) (t : Tag) : Option Device :=
  if pool.1 < 23040 then d.coreTxn (240 * h + pool.1 / 96) t
  else if 28160 ≤ pool.1 ∧ pool.1 < 32640 then (d.issueTag h pool t).map (·.2)
  else d.ringTxn h pool t

/-- A tag of a pool has come free: the oldest poison write that waits for one goes out, and the ring ports go on. -/
def Device.payOwed (d : Device) (h i : Nat) : Device :=
  let d := match (d.half h).owed.find? fun o => o.1 == (poolOf i).1 with
    | none => d
    | some o =>
      match d.baneIssue h (o.1, o.2.1) o.2.2 with
      | some d => d.modHalf h fun x => { x with owed := x.owed.erase o }
      | none => d
  (d.ringPump h).ringPump (1 - h)

/-- What a response brings to the owner of its transaction. -/
def Device.txnAnswer (d : Device) (t : Tag) : Device :=
  match t.owner with
  | .dma k u p => if t.write then d.dmaEnd k u else d.dmaArrive k u p (sliceBytes t.resp (p.src % 64) p.len) t.respPoison
  | .mcast k p => d.mcastArrive k p (sliceBytes t.resp (p.src % 64) p.len) t.respPoison
  | .ring id => d.ringAnswer id t
  | .catchup k m p => d.catchArrive k m p (sliceBytes t.resp (p.src % 64) p.len) t.respPoison
  | .bridge _ _ _ => d
  | .none => d

/-- A stale response met in half `r` to a tag of half `h` (R212): dropped, counted and logged. -/
def Device.staleTag (d : Device) (r unit h i want got : Nat) : Device :=
  ((d.count (stoReg r 0x20) 1).setBit (stoReg r 8) 3).log (20 + r) 0x04 unit 0 0
    (i + 2 ^ 15 * h + want * 2 ^ 16 + got * 2 ^ 20)

/-- A stale response at a port of a half (R212). -/
def Device.staleResponse (d : Device) (h i want got : Nat) : Device := d.staleTag h 11 h i want got

/-- A line that comes to the members of a multicast, each by its own port (R215), and not to the port that issued it. -/
def Tag.shared (t : Tag) : Bool :=
  match t.owner with
  | .mcast _ _ => true
  | .catchup _ _ _ => true
  | _ => false

/-- A response arrives at its port (R211, R212). -/
def Device.response (h i gen : Nat) (d : Device) : Device :=
  let t := d.tag h i
  if gen ≠ t.gen.toNat then d.staleResponse h i t.gen.toNat gen
  else if t.st = .served then
    match d.responseOut h i with
    | none => d
    | some d =>
      match t.owner with
      | .bridge m _ _ => d.bridgeAnswer h i m (if t.write then 2 else 0)
      | _ =>
        let own := decide (i < 23040) && !t.write && !t.shared
        let x := if own then d.passPath (240 * h + i / 96) t.addr t.len (t.respPoison.map (· / 16)) else (d, [])
        let t := if own then { t with respPoison := x.2.map (16 * ·) } else t
        ((x.1.freeTag h i).txnAnswer t).payOwed h i
  else d

/-- STORE_RESPONSE (R211, R212). -/
def execStoreResponse (h : Half) (tag : BitVec 15) (gen : BitVec 4) (s : State) : Host.Outcome State Fault Refusal :=
  s.onClock (Device.response (halfNum h) tag.toNat gen.toNat)

/-- A line that a timed-out read returns (R213): poisoned; its bytes are free (log entry 5). -/
def Device.poisonLine (d : Device) (t : Tag) : Device × Tag :=
  let r := d.drawBytes 64
  let a := t.addr / 64 * 64
  (r.2, { t with resp := r.1, respPoison := [a, a + 16, a + 32, a + 48] })

/-- The consequences of a timeout for the requester (R213): a read returns a poisoned line; a write sends a poison write, unless its
half is lost (R383); a poison write that times out has no requester. -/
def Device.timedOut (d : Device) (h i : Nat) (t : Tag) : Device :=
  if t.write then
    if t.bane then d
    else if (d.half (addrHalf t.addr)).lost then d.txnAnswer t
    else
      let b := { t with bane := true, resp := [], respPoison := [],
                          poison := (cwsOf t.addr t.bytes.length).filter fun c => (t.part c).any Option.isSome }
      let b := match t.owner with
        | .bridge _ _ _ => { b with owner := .none }
        | _ => b
      match d.baneIssue h (poolOf i) b with
      | some d => d
      | none => d.modHalf h fun x => { x with owed := x.owed ++ [((poolOf i).1, (poolOf i).2, b)] }
  else
    let r := d.poisonLine t
    r.1.txnAnswer r.2

/-- The owner that a timed-out tag keeps: a bridge port's tag still names the requester whom its error answers. -/
def Tag.bridgeOwner (t : Tag) : TxnOwner :=
  match t.owner with
  | .bridge m r g => .bridge m r g
  | _ => .none

/-- A tag times out (R213): counted, logged, and out of use; a bridge port answers its requester with an error. -/
def Device.tagTimeout (h i : Nat) (d : Device) : Device :=
  let t := d.tag h i
  if t.st = .requested ∨ t.st = .served ∨ t.st = .bridging then
    let d := ((d.count (stoReg h 0x28) 1).setBit (stoReg h 8) 4).log (20 + h) 0x06 11 (t.addr / 64 * 64) 0
      (i + 2 ^ 15 * h + (if t.write then 2 ^ 16 else 0))
    let d := match t.owner with
      | .bridge m _ _ => if t.bane then d else d.bridgeAnswer h i m 1
      | _ => d
    ((d.leave h i).setTag h i { Tag.reset with gen := t.gen, st := .timedOut, owner := t.bridgeOwner }).timedOut h i t
  else d

/-- The transactions of a half that wait on the other half (R383): its requesters' tags with a request or response on the bridge. -/
def Device.crossTags (d : Device) (h : Nat) : List Nat :=
  ((d.half h).tags.filter fun p =>
    p.2.st == .bridging && match p.2.owner with
      | .bridge _ _ _ => false
      | _ => true).map (·.1)

/-- A tag that serves the other half answers nobody. -/
def Tag.orphan (t : Tag) : Tag :=
  match t.owner with
  | .bridge _ _ _ => { t with owner := .none }
  | _ => t

/-- A channel enters self-refresh (R255): its rows close, and it owes no refresh. -/
def Channel.sleep (c : Channel) : Channel := { c with selfRefresh := true, banks := [] }

/-- Every channel of a site in self-refresh. -/
def Site.sleep (x : Site) : Site :=
  { x with chans := (List.range 8).foldl (fun m c => mset Channel.reset m c (mget Channel.reset x.chans c).sleep) x.chans }

/-- The DRAM of a site in self-refresh under base-die control (R255). -/
def Site.hold (x : Site) : Site := { x.sleep with srBase := true, parked := false }

/-- A half lost or halted by a base die fault (R383, R558): fatal; the bridge is fenced, cross-half transactions of the survivor
return as timed out, the half's towers stop, and the survivor holds its towers' DRAM in self-refresh. -/
def Device.loseHalf (cause h : Nat) (d : Device) : Device :=
  if (d.half h).lost then d
  else
    let s := 1 - h
    let d := d.modHalf h fun x => { x with lost := true }
    let d := d.setBit (brgReg 0) 18
    let d := d.each (d.crossTags s) fun i d => d.tagTimeout s i
    let d := d.modHalf s fun x => { x with tags := x.tags.map fun p => (p.1, p.2.orphan) }
    let d := d.each (List.range 10) fun i d => d.modTower (10 * h + i) fun t => { t with lit := false }
    let d := d.each (List.range 480) fun k d => d.modSite k Site.hold
    d.fatal cause h

/-- HALF_LOSS (R383). -/
def execHalfLoss (h : Half) (s : State) : Host.Outcome State Fault Refusal := s.run (Device.loseHalf 1 (halfNum h))

/-- BASE_DIE_FAULT (R558). -/
def execBaseDieFault (h : Half) (s : State) : Host.Outcome State Fault Refusal := s.run (Device.loseHalf 2 (halfNum h))

/-- A poison write that times out is a base die fault of its half (R213, R558). -/
def Device.tagTimeoutAll (h i : Nat) (d : Device) : Device :=
  let t := d.tag h i
  let e := d.tagTimeout h i
  if t.bane && t.write && (e.tag h i).st == .timedOut && t.st != .timedOut then e.loseHalf 2 h else e

/-- STORE_TAG_TIMEOUT (R213). -/
def execStoreTagTimeout (h : Half) (tag : BitVec 15) (s : State) : Host.Outcome State Fault Refusal :=
  s.onClock (Device.tagTimeoutAll (halfNum h) tag.toNat)

/-- A timed-out tag returns to use (R211). -/
def Device.tagRelease (h i : Nat) (d : Device) : Device :=
  if (d.tag h i).st = .timedOut then (d.freeTag h i).payOwed h i else d

/-- STORE_TAG_RELEASE (R211). -/
def execStoreTagRelease (h : Half) (tag : BitVec 15) (s : State) : Host.Outcome State Fault Refusal :=
  s.onClock (Device.tagRelease (halfNum h) tag.toNat)

/-- The oldest entry of a slice's merge buffer completes as a read-modify-write (R299). -/
def Device.mergeExpire (h slice : Nat) (d : Device) : Device :=
  match d.mergeBuf h slice with
  | e :: _ => d.completeMerge h slice e.cw
  | [] => d

/-- MERGE_EXPIRY (R299). -/
def execMergeExpiry (h : Half) (slice : Fin 256) (s : State) : Host.Outcome State Fault Refusal :=
  s.onClock (Device.mergeExpire (halfNum h) slice)

end Sys2Proof.Machine
end

