-- ==== Sys2Proof/WellFormed.lean ====
section
/-! DEFINITION. Which commands name something of the part, where the types of Syntax leave more free: a request to a DRAM channel, a fabric
packet, a report of a start-up phase. A command that names nothing of the part never reaches it and changes nothing (log entry 170). -/
namespace Sys2Proof

/-- What a DRAM request must be: codewords of one line, with their bytes and mask when it writes (R237, R238). -/
def DramReq.wf (r : DramReq) : Bool :=
  decide (1 ≤ r.len) && decide (r.len ≤ 4) && (!r.small || r.len == 1) && decide (r.src ≤ 26) &&
    (if r.write then r.data.length == 16 * r.len && r.mask.length == 16 * r.len else r.data.isEmpty && r.mask.isEmpty)

/-- A fabric packet's payload is at most 4,096 bytes, and its poisoned codewords lie in it (R400). -/
def Packet.wf (p : Packet) : Bool :=
  decide (p.payload.length ≤ 4096) && p.poison.all fun i => decide (16 * i < p.payload.length)

/-- A start-up phase that physical tests report on is one of 2 to 7, and reports on every bridge module (R498); bridge training measures an L
of 16 to 96 (R377). -/
def PhaseReport.wf (r : PhaseReport) : Bool :=
  decide (2 ≤ r.phase) && decide (r.phase ≤ 7) && r.modules.length == 28 &&
    (r.phase != 4 || decide (16 ≤ r.latency) && decide (r.latency ≤ 96))

/-- Whether a command's operands name something of the part. -/
def Instr.wf : Instr → Bool
  | .dramRequest _ _ q => q.wf
  | .data _ p => p.wf
  | .coll _ p => p.wf
  | .ack _ p => p.wf
  | .packetForward _ p => p.wf
  | .packetAged _ p => p.wf
  | .topo _ p => p.wf
  | .assign _ p => p.wf
  | .route _ p => p.wf
  | .commit _ p => p.wf
  | .startUpPhase r => r.wf
  | _ => true

end Sys2Proof
end

