-- ==== Sys2Proof/Machine/Dram.lean ====
section
/-! DEFINITION. The channel controllers of tower DRAM (R237 to R251, R255): requests, arbitration and service, refresh, open rows,
self-refresh, and the copy of a retired bank; and the scrubbers (R301, R302). -/
namespace Sys2Proof.Machine

open Sys2Proof

/-- A line's bytes with those of a run laid in it. -/
def lineOf (a : Nat) (bs : List Byte) : List Byte := List.replicate (a % 64) 0 ++ bs ++ List.replicate (64 - a % 64 - bs.length) 0

/-- A request of a core port's transaction has been served: its last one is the transaction's. A transaction that has timed out since makes a
stale response (R212). -/
def Device.portServed (h i : Nat) (gen : BitVec 4) (resp : List Byte) (bad : List Nat) (d : Device) : Device :=
  let t := d.tag h i
  if t.gen ≠ gen ∨ t.st ≠ .requested then d.staleResponse h i t.gen.toNat gen.toNat
  else if t.parts ≤ 1 then
    let k := match regionOf t.addr with
      | .dram k _ => k
      | _ => 0
    let x := if t.write then (d, []) else d.passPath k t.addr t.len (bad.map (· / 16))
    x.1.setTag h i { t with st := .served, parts := 0, resp := resp, respPoison := x.2.map (16 * ·) }
  else d.setTag h i { t with parts := t.parts - 1 }

/-- Whether a queued request stores words that the host port has encoded (R304). -/
def Device.reqFromHost (d : Device) (o : DramOwner) : Bool :=
  match o with
  | .port h i _ => d.fromHost (d.tag h i)
  | _ => false

/-- A request served (R237, R243): written to its bank or read from it, and its owner told. -/
def Device.serveReq (d : Device) (w : Waiting) : Device :=
  let r := w.q.req
  let a := r.addr.toNat
  if r.write then
    let host := d.reqFromHost w.q.owner
    let d := d.each (List.range r.len) fun i d =>
      if (reqPart r i).all Option.isNone then d else d.writeCw (a / 16 + i) (reqPart r i) r.poison host
    match w.q.owner with
    | .dma k u _ => d.dmaEnd k u
    | .port h i g => d.portServed h i g [] []
    | _ => d
  else
    let x := d.readMem a (16 * r.len)
    match w.q.owner with
    | .dma k u p => x.dev.dmaArrive k u p (sliceBytes x.bytes (p.src - a) p.len) x.bad
    | .gather k p => x.dev.dmaArrive k 6 p (sliceBytes x.bytes (p.src - a) p.len) x.bad
    | .port h i g => x.dev.portServed h i g (lineOf a x.bytes) x.bad
    | .none => x.dev

/-- An access granted: it leaves its queue, is counted (R260) and served; the place that it leaves goes to what waits at its source or at a
core port. -/
def Device.grantAccess (d : Device) (site ch : Nat) (w : Waiting) : Device :=
  (((((d.unqueue site ch w).burstMade site ch (reqPlace w.q.req) w.narrow).serveReq w).admitWaiting site ch).pumpPorts 0).pumpPorts 1

/-- What the scrubber of a channel has still to write back is written, in one native burst (R240, R260, R301): no flip mask fires (R303). -/
def Device.scrubWrite (site ch : Nat) (d : Device) : Device :=
  match (d.chan site ch).scrubBack with
  | [] => d
  | a :: l =>
    let d := (d.modChan site ch fun c => { c with scrubBack := [] }).burstMade site ch (addrPlace (16 * a.1)) false
    d.each (a :: l) fun b d =>
      let w := d.wireMask b.1
      { w.2 with mem := w.2.mem.putCw b.1 (leBytes 16 b.2.1.toNat) b.2.2 w.1 }

/-- What a channel grants until nothing is left that it can grant, at most `n` times (R241). -/
def Device.drainChan (site ch : Nat) : Nat → Device → Device
  | 0, d => d
  | n + 1, d =>
    match d.grant site ch with
    | .refresh b f => Device.drainChan site ch n (d.refreshBank site ch b f)
    | .access w => Device.drainChan site ch n (d.grantAccess site ch w)
    | .none => d

/-- BURST_GRANT (R241). -/
def Device.burst (site ch : Nat) (d : Device) : Device :=
  if d.chanUp site ch then
    match d.grant site ch with
    | .refresh b f => d.refreshBank site ch b f
    | .access w => d.grantAccess site ch w
    | .none => d.scrubWrite site ch
  else d

/-- BURST_GRANT. -/
def execBurstGrant (site : Fin 480) (ch : Fin 8) (s : State) : Host.Outcome State Fault Refusal := s.inTower (Device.burst site ch)

/-- Whether a request is addressed to a channel: it lies in one line of the window of the channel's slice (R234, R235). -/
def reqBelongs (site ch : Nat) (r : DramReq) : Bool :=
  let a := r.addr.toNat
  a % 16 == 0 && decide (a / 64 = (a + 16 * r.len - 1) / 64) &&
    match regionOf a with
    | .dram s o => s == site && (dramPlace o).ch == ch
    | _ => false

/-- A request with the path that its source and its length give it (R238): the row reads of GATHER, which a core's unit marks, one whole
codeword from the core port, and at most one codeword from the service plane go narrow. -/
def routedReq (r : DramReq) : DramReq :=
  { r with
    small :=
      if r.src < 25 then r.small && !r.write
      else if r.src = 25 then r.len == 1 && r.mask.all id
      else r.len == 1 }

/-- A request reaches a controller (R239, R242): into its queue, or to wait at its source while that is full. One of the service plane for
an address that does not answer is an address error (R6, R236). -/
def Device.dramArrive (site ch : Nat) (r : DramReq) (d : Device) : Device :=
  if !reqBelongs site ch r then d
  else if !d.legal r.addr.toNat then (if r.src = 26 then d.addrError r.addr.toNat 2 else d)
  else
    match if (d.chan site ch).atSource.any (fun q => q.req.small == (routedReq r).small) then none else d.pushReq site ch (routedReq r) .none with
    | some d => d
    | none => d.modChan site ch fun c => { c with atSource := c.atSource ++ [{ req := routedReq r, owner := .none, arrived := d.now }] }

/-- DRAM_REQUEST (R239). -/
def execDramRequest (site : Fin 480) (ch : Fin 8) (r : DramReq) (s : State) : Host.Outcome State Fault Refusal :=
  s.inTower (Device.onlyIf r.wf (Device.dramArrive site ch r))

/-- The refresh window of a physical bank, 48 to 51 for the spares: 3 when it is not refreshed (R246, R249, R256), and 8 ms under base-die
control (R255). A visible bank that a spare serves is refreshed as the spare, on M13's window. -/
def Device.bankWindow (d : Device) (site ch b : Nat) : Nat :=
  let l := if b < 48 then b / 4 else 12
  if d.fuses.variant == 2 && decide (8 ≤ l) && decide (l < 12) then 3
  else if b < 48 ∧ (d.spareOf site ch b).isSome then 3
  else if 48 ≤ b ∧ d.bitOf (corReg site (0x1040 + 8 * ch)) (8 * (b - 48) + 7) = false then 3
  else if (d.site site).srBase || (d.site site).parked then 2
  else mget 0 (d.tower (towerOf site)).window l

/-- The visible bank that a physical bank serves, under whose number its refreshes count (R252). -/
def Device.servesBank (d : Device) (site ch b : Nat) : Nat :=
  if b < 48 then b else d.fieldOf (corReg site (0x1040 + 8 * ch)) (8 * (b - 48)) 6

/-- A refresh of a bank falls due (R246, R248, R252). In self-refresh the DRAM makes it at once. -/
def Device.refreshFalls (site ch b : Nat) (d : Device) : Device :=
  if d.chanUp site ch && d.bankWindow site ch b != 3 then
    d.modChan site ch fun c => c.modBank (d.servesBank site ch b) fun x => { x with openRow := none, debt := min 4 (x.debt + 1) }
  else d

/-- REFRESH_DUE (R246). -/
def execRefreshDue (site : Fin 480) (ch : Fin 8) (bank : Fin 52) (s : State) : Host.Outcome State Fault Refusal :=
  s.inTower (Device.refreshFalls site ch bank)

/-- ROW_TIMEOUT (R240). -/
def execRowTimeout (site : Fin 480) (ch : Fin 8) (bank : Fin 48) (s : State) : Host.Outcome State Fault Refusal :=
  s.inTower fun d => d.modChan site ch fun c => c.modBank bank fun x => { x with openRow := none }

/-- Whether an access from outside still needs a capacity-memory channel. -/
def Access.needsLpd (x : Access) (ch : Nat) : Bool :=
  x.left != 0 && [x.addr, x.addr + x.len - 1].any fun a =>
    match regionOf a with
    | .capacity k _ => k == ch
    | _ => false

/-- A channel that has had no request for 1 ms outside a take enters self-refresh (R255, R439). -/
def Device.idleSleep (site : IdleSite) (ch : Nat) (d : Device) : Device :=
  match site with
  | .column k =>
    let c := d.chan k ch
    if !d.inTake && decide (ch < 8) && c.native.isEmpty && c.narrow.isEmpty && c.atSource.isEmpty then d.modChan k ch Channel.sleep else d
  | .capacity =>
    let r := lpdReg (0x100 + 8 * ch)
    if !d.inTake && d.fieldOf r 0 2 == 2 && d.accesses.all fun x => !x.needsLpd ch then d.setField r 0 2 3 else d

/-- SELF_REFRESH_IDLE (R255): outside a take, with no request waiting. -/
def execSelfRefreshIdle (site : IdleSite) (ch : Fin 12) (s : State) : Host.Outcome State Fault Refusal :=
  s.inTower (Device.idleSleep site ch)

/-! ### Retired banks -/

/-- TARGET of a bank's retirement entry (R309). -/
def bankTarget (site ch b : Nat) : Nat := towerOf site + coreOf site * 2 ^ 5 + ch * 2 ^ 10 + b * 2 ^ 13

/-- Whether a spare bank of a channel is usable and serves no visible bank yet. -/
def Device.spareFree (d : Device) (site ch k : Nat) : Bool :=
  !d.bitOf (corReg site (0x1040 + 8 * ch)) (8 * k + 7) && !d.start.spares.contains (32 * site + 4 * ch + k)

/-- The spare that a bank would take: the lowest of its channel not in use and not failed (R250). -/
def Device.freeSpare (d : Device) (site ch : Nat) : Option Nat := (List.range 4).find? (d.spareFree site ch)

/-- A bank remapped to a spare (R259). -/
def Device.remap (d : Device) (site ch b k : Nat) : Device :=
  let r := corReg site (0x1040 + 8 * ch)
  let st := corReg site 0x1008
  let d := (d.setField r (8 * k) 6 b).setBit r (8 * k + 7)
  d.setField st (21 + 3 * ch) 3 (d.fieldOf st (21 + 3 * ch) 3 + 1)

/-- Whether a codeword of device memory lies in a visible bank. -/
def inBank (site ch b cw : Nat) : Bool :=
  match regionOf (16 * cw) with
  | .dram s o => s == site && (dramPlace o).ch == ch && (dramPlace o).bank == b
  | _ => false

/-- A codeword copied to the spare (R251): corrected, or poisoned. -/
def Device.copyCw (d : Device) (cw : Nat) : Device :=
  let r := d.cwHere cw
  let d := (r.1.noteWord (16 * cw) r.2 8).dropBack cw
  match r.2.cls with
  | .clean => d
  | _ => { d with mem := d.mem.putCw cw r.2.data r.2.bad none }

/-- An armed flip mask of the channel fires on the first codeword that the copy stores (R303, R304). -/
def Device.copyFlip (d : Device) (site ch b : Nat) : Device :=
  let cw := (sliceBase site + dramOffset { ch := ch, bank := b, row := 0, col := 0 }) / 16
  let f := d.takeFlip (corReg site 0x1200) 6 ch
  match f.1 with
  | some m => { f.2 with mem := f.2.mem.putCw cw (d.mem.cw cw).data (d.mem.cw cw).bad (some m) }
  | none => f.2

/-- The codewords of a bank that its copy may change: those with a check difference, and all of them over a dead connection (R368). -/
def Device.copyWords (d : Device) (site ch b : Nat) : List Nat :=
  if (d.chanBits site ch).isEmpty then (d.mem.syn.map (·.1)).filter (inBank site ch b)
  else
    (List.range (8192 * 64)).map fun i =>
      (sliceBase site + dramOffset { ch := ch, bank := b, row := i / 64, col := i / 4 % 16 }) / 16 + i % 4

/-- The native bursts of a copy (R251, R260): each of the bank's 131,072 lines is read and written, and the last leaves its row open (R240). -/
def Device.copyBursts (site ch b : Nat) (d : Device) : Device :=
  let n := 2 * 131072 - 1
  let d := (d.modChan site ch fun c => { c with sinceNarrow := c.sinceNarrow + n }).count (corReg site 0x1080) n
  d.burstMade site ch { ch := ch, bank := b, row := 8191, col := 15 } false

/-- A bank entered in the retirement table is copied to a free spare once no take runs; its entry then is in effect (R251, R310), and the spare
in use is noted for the defect map (R560). -/
def Device.copyBank (site ch b : Nat) (d : Device) : Device :=
  let due := fun (e : BitVec 64) => field e.toNat 0 3 == 6 && field e.toNat 8 32 == bankTarget site ch b
  if d.inTake then d
  else
    match d.retire.entries.find? due, d.freeSpare site ch with
    | some _, some k =>
      let d := d.each (d.copyWords site ch b) fun c d => d.copyCw c
      let d := (d.copyFlip site ch b).copyBursts site ch b
      { (d.remap site ch b k).note 2 2 (bankTarget site ch b + k * 2 ^ 19) with
        retire := { entries := d.retire.entries.map fun e => if due e then e &&& ~~~ (4 : BitVec 64) else e } }
    | _, _ => d

/-- The retirement copies of R251 that can be made. -/
def Device.copyBanks (d : Device) : Device :=
  d.each (d.retire.entries.filter fun e => field e.toNat 0 3 == 6) fun e d =>
    d.copyBank (24 * field e.toNat 8 5 + field e.toNat 13 5) (field e.toNat 18 3) (field e.toNat 21 6)

/-- BANK_COPY (R251). -/
def execBankCopy (site : Fin 480) (ch : Fin 8) (bank : Fin 48) (s : State) : Host.Outcome State Fault Refusal :=
  s.inTower (Device.copyBank site ch bank)

/-! ### Scrubbing -/

/-- What the scrubber writes back to a codeword's place (R295): a corrected word, or the poisoned form of an uncorrectable one. -/
def Checked.back (c : Checked) : Option (List Byte × Bool) :=
  match c.cls with
  | .corrected _ => some (c.data, false)
  | .uncorrectable => some (c.data, true)
  | _ => none

/-- A codeword of tower DRAM or capacity memory scrubbed (R295, R301): counted and logged by the scrubber. In tower DRAM the write-back
waits for the channel; elsewhere it follows at once. No flip mask fires (R303). -/
def Device.scrubCw (d : Device) (cw : Nat) : Device :=
  let r := d.cwHere cw
  let d := r.1.noteWord (16 * cw) r.2 9
  match r.2.back with
  | none => d
  | some b =>
    match regionOf (16 * cw) with
    | .dram k o =>
      d.modChan k (dramPlace o).ch fun c => { c with scrubBack := c.scrubBack ++ [(cw, BitVec.ofNat 128 (leNat b.1), b.2)] }
    | _ => { d with mem := d.mem.putCw cw b.1 b.2 none }

/-- A line scrubbed, unless a retired page holds it (R301, R310). -/
def Device.scrubLine (d : Device) (a : Nat) : Device :=
  if d.inRetiredPage a then d else d.each [a / 16, a / 16 + 1, a / 16 + 2, a / 16 + 3] fun c d => d.scrubCw c

/-- Lines of a channel (R301): 48 visible banks of 8 MiB, or 32. -/
def Device.chanLines (d : Device) : Nat := 524288 * variantLayers d.fuses.variant

/-- The passes that a scrubber has made over some memories, each with the lines read and the lines of a pass. -/
def passesOf (l : List (Nat × Nat)) : Nat :=
  match l with
  | [] => 0
  | a :: r => r.foldl (fun n x => min n (x.1 / max 1 x.2)) (a.1 / max 1 a.2)

/-- The end of a pass (R302, R308): PASSES advances, and LATE is set when the pass took more than PERIOD. Answers whether it
ended. -/
def Device.scrubPass (d : Device) (reg began counted passes : Nat) : Device × Bool :=
  if counted < passes then
    let late := max 1 (d.fieldOf reg 1 16) * 51000000000 < d.now - began
    let d := d.setField reg 32 16 (min 65535 passes)
    (if late then d.setBit reg 17 else d, true)
  else (d, false)

/-- The line that the scrubber of a DRAM channel reads next, as a slice offset: lines in ascending offset. -/
def Device.nextScrub (d : Device) (site ch : Nat) : Nat := ((d.chan site ch).scrubLine % d.chanLines) * 512 + ch * 64

/-- Whether a DRAM channel can make a scrub access (R301, R302): it is in service, nothing of a higher class of R241 waits, and the
line's bank is in no near-bank step (R279). -/
def Device.scrubFree (d : Device) (site ch : Nat) : Bool :=
  d.chanUp site ch && d.grant site ch == .none && !d.bankHeld site ch (dramPlace (d.nextScrub site ch)).bank

/-- The next scrub access of a DRAM channel. -/
def Device.scrubDram (site ch : Nat) (d : Device) : Device :=
  let t := towerOf site
  let reg := twrReg t 0x301220
  if d.bitOf reg 0 && d.scrubFree site ch then
    let d := d.scrubWrite site ch
    let a := sliceBase site + d.nextScrub site ch
    let d := if d.inRetiredPage a then d else (d.burstMade site ch (addrPlace a) false).scrubLine a
    let d := d.modChan site ch fun c => { c with scrubLine := c.scrubLine + 1 }
    let n := passesOf ((List.range 192).map fun i => ((d.chan (24 * t + i / 8) (i % 8)).scrubLine, d.chanLines))
    let r := d.scrubPass reg (d.tower t).scrubPass (d.tower t).passes n
    if r.2 then r.1.modTower t fun x => { x with scrubPass := d.now, passes := n } else r.1
  else d

/-- The line of a slice as an address: the inverse of R203. -/
def sliceLine (h slice u : Nat) : Nat :=
  let k := (u % 256) ^^^ ((u / 256) % 256) ^^^ (((u / 65536) % 4) * 0x55)
  0x040000000000 + h * 0x100000000 + (u * 256 + (slice ^^^ k)) * 64

/-- The memories of a half's scrubber: its store slices and its fitted capacity channels (R301, R443). -/
def Device.halfScrubs (d : Device) (h : Nat) : List (Nat × Nat) :=
  ((List.range 256).map fun i => (mget 0 (d.half h).scrub i, 196608)) ++
    ((List.range 6).filter fun i => d.lpdSize (6 * h + i) != 0).map fun i =>
      ((mget LpdChan.reset d.lpd (6 * h + i)).scrubLine, d.lpdSize (6 * h + i) / 64)

/-- A half's scrubber has read a line: its passes. -/
def Device.halfPass (d : Device) (h : Nat) : Device :=
  let n := passesOf (d.halfScrubs h)
  let r := d.scrubPass (stoReg h 0x40) (d.half h).scrubPass (d.half h).passes n
  if r.2 then r.1.modHalf h fun x => { x with scrubPass := d.now, passes := n } else r.1

/-- Whether no access waits at a store slice (R302). -/
def Device.sliceQuiet (d : Device) (h slice : Nat) : Bool := (d.half h).requests.queues.all fun q => q.2.all fun x => x.slice != slice

/-- The next scrub access of a store slice. -/
def Device.scrubStore (h slice : Nat) (d : Device) : Device :=
  if d.bitOf (stoReg h 0x40) 0 && !(d.half h).lost && d.sliceQuiet h slice then
    let n := mget 0 (d.half h).scrub slice
    let a := sliceLine h slice (n % 196608)
    let d := d.each [a / 16, a / 16 + 1, a / 16 + 2, a / 16 + 3] fun c d => d.completeMerge h slice c
    ((d.scrubLine a).modHalf h fun x => { x with scrub := mset 0 x.scrub slice (n + 1) }).halfPass h
  else d

/-- The next scrub access of a capacity-memory channel (R443), unless it is in self-refresh (R301). -/
def Device.scrubLpd (ch : Nat) (d : Device) : Device :=
  let h := ch / 6
  if d.bitOf (stoReg h 0x40) 0 && d.fieldOf (lpdReg (0x100 + 8 * ch)) 0 2 == 2 && !(d.half h).lost then
    let n := (mget LpdChan.reset d.lpd ch).scrubLine
    let v := n % (d.lpdSize ch / 64) * 64
    let d := (d.openLine ch v 64).scrubLine (0x080000000000 + ch * 0x1000000000 + v)
    { d with lpd := mmod LpdChan.reset d.lpd ch fun x => { x with scrubLine := n + 1 } }.halfPass h
  else d

/-- SCRUB_ACCESS (R301, R302). -/
def execScrubAccess (who : ScrubWho) (s : State) : Host.Outcome State Fault Refusal :=
  s.onClock fun d =>
    match who with
    | .dram site ch => d.scrubDram site ch
    | .store h slice => d.scrubStore (halfNum h) slice
    | .lpd ch => d.scrubLpd ch

end Sys2Proof.Machine
end

