-- ==== Sys2Proof/Machine/Sha.lean ====
section
/-! DEFINITION. SHAKE256, the function that spec/ names for identities, digests, fingerprints and prefix keys. Its definition is
that of FIPS 202, which is no part of spec/ (PRESUMED; log entry 15). -/
namespace Sys2Proof.Machine

open Sys2Proof

/-- A plane of the state: the five lanes of one y. -/
abbrev Plane := List W64

/-- The shift register behind the round constants after one more step: x^8 + x^6 + x^5 + x^4 + 1. -/
def rcNext (r : Nat) : Nat := if 128 ≤ r then (2 * r) ^^^ 0x171 else 2 * r

/-- The constants of `n` rounds from a register state: bits 0, 1, 3, 7, 15, 31 and 63 are the outputs of seven steps. -/
def rcFrom : Nat → Nat → List W64
  | 0, _ => []
  | n + 1, r =>
    let go := [0, 1, 3, 7, 15, 31, 63].foldl
      (fun (a : Nat × Nat) b => (a.1 + (a.2 % 2) * 2 ^ b, rcNext a.2)) (0, r)
    BitVec.ofNat 64 go.1 :: rcFrom n go.2

/-- Lane-wise exclusive or of two planes. -/
def planeXor (p q : Plane) : Plane := List.zipWith (· ^^^ ·) p q

/-- theta: every plane takes in the parities of the columns to its left and, turned by one bit, to its right. -/
def keccakTheta (a : List Plane) : List Plane :=
  let parity := a.foldl planeXor (List.replicate 5 0)
  let mix := planeXor (parity.rotateRight 1) ((parity.rotateLeft 1).map fun w => w.rotateLeft 1)
  a.map (planeXor mix)

/-- The walk of rho and pi: step t moves the lane at (x, y) to (y, 2 x + 3 y), turned by (t + 1)(t + 2) / 2 bits; the lane at (0, 0)
stays. -/
def keccakWalk (a : List Plane) : List Plane :=
  ((List.range 24).foldl
    (fun (acc : List Plane × Nat × Nat) t =>
      let x := acc.2.1
      let y := acc.2.2
      let v := ((a.getD y []).getD x 0).rotateLeft ((t + 1) * (t + 2) / 2)
      let y' := (2 * x + 3 * y) % 5
      (acc.1.modify y' (fun p => p.set y v), y, y')) (a, 1, 0)).1

/-- chi on one plane. -/
def keccakChi (p : Plane) : Plane :=
  planeXor p (List.zipWith (fun u v => ~~~u &&& v) (p.rotateLeft 1) (p.rotateLeft 2))

/-- One round with its constant, which enters lane (0, 0). -/
def keccakRound (a : List Plane) (rc : W64) : List Plane :=
  ((keccakWalk (keccakTheta a)).map keccakChi).modify 0 fun p => p.modify 0 (· ^^^ rc)

/-- The permutation of FIPS 202 with 24 rounds on 1,600 bits. -/
def keccakF (a : List Plane) : List Plane := (rcFrom 24 1).foldl keccakRound a

/-- A list in runs of `n`; `fuel` bounds the count. -/
def runsOf {α : Type} (n : Nat) : Nat → List α → List (List α)
  | 0, _ => []
  | fuel + 1, l => if l.isEmpty then [] else l.take n :: runsOf n fuel (l.drop n)

/-- The message padded to the rate of 136 bytes. -/
def shakePad (m : List Byte) : List Byte :=
  let k := 136 - m.length % 136
  if k = 1 then m ++ [0x9F] else m ++ (0x1F : Byte) :: (List.replicate (k - 2) 0 ++ [(0x80 : Byte)])

/-- The state after a block is absorbed: its seventeen words enter the first lanes, plane by plane. -/
def shakeAbsorb (a : List Plane) (blk : List Byte) : List Plane :=
  let ws := (runsOf 8 17 blk).map fun b => BitVec.ofNat 64 (leNat b)
  keccakF (List.zipWith planeXor a (runsOf 5 5 (ws ++ List.replicate 8 0)))

/-- Output blocks squeezed from a state. -/
def shakeSqueeze : Nat → List Plane → List Byte
  | 0, _ => []
  | n + 1, a => (a.flatten.take 17).flatMap (fun w => leBytes 8 w.toNat) ++ shakeSqueeze n (keccakF a)

/-- The first `n` bytes of SHAKE256 output over a message. -/
def shake256 (m : List Byte) (n : Nat) : List Byte :=
  let p := shakePad m
  (shakeSqueeze (ceilDiv n 136) ((runsOf 136 p.length p).foldl shakeAbsorb (List.replicate 5 (List.replicate 5 0)))).take n

end Sys2Proof.Machine
end

