-- ==== Sys2Proof/Machine/Reel.lean ====
section
/-! DEFINITION. Reels (R93 to R102): the header, frame table, core index, gates and descriptor images; the checks of REEL_LOAD in
the order of R576; the fingerprint (R352); where rotation places a list (R100); and the arrival of a frame's lists (R89, R327). -/
namespace Sys2Proof.Machine

open Sys2Proof

/-! ### The logical unit map -/

/-- CORES of a tower (R352, R570): its logical cores with arrays in the map that phase 6 formed; a tower that has lost its map has none. -/
def Device.coresOf (d : Device) (t : Nat) : Nat :=
  ((List.range 24).filter fun c => mget 31 (d.tower t).lumap c != 31).length

/-- Whether a tower is lit and in the logical unit map (R352, R507, R569), which phase 6 forms. -/
def Device.inMap (d : Device) (t : Nat) : Bool := decide (6 ≤ d.start.phaseDone) && (d.tower t).lit && !d.start.heldDark.contains t

/-- LIT: those towers, as a mask (R352, R569). -/
def Device.litMask (d : Device) : Nat := (List.range 20).foldl (fun a t => if d.inMap t then a + 2 ^ t else a) 0

/-- The fingerprint of the part with a reel (R352). -/
def Device.fingerprint (d : Device) (r : Reel) : List Byte :=
  shake256
    (leBytes 4 (d.start.versions.getD 0 0) ++ leBytes 4 (d.start.versions.getD 1 0) ++ leBytes 4 (d.start.versions.getD 2 0) ++
      leBytes 4 0 ++ r.identity ++ leBytes 1 d.fuses.variant ++ (List.range 20).map (fun t => BitVec.ofNat 8 (d.coresOf t)) ++
      leBytes 3 d.litMask ++ leBytes 8 r.numeric.toNat) 32

/-! ### Cues as the loader sees them -/

/-- The lowest bit from which every bit of a cue is RSV; none for a reserved UNIT or OP (R108, R120 to R133). -/
def cueTop (q : BitVec 128) : Option Nat :=
  match cf q 4 4, cf q 0 4 with
  | 0, 0 => some 78
  | 0, 1 => some 54
  | 0, 2 => some 70
  | 0, 3 => some 47
  | 0, 4 => some 68
  | 0, 5 => some 53
  | 0, 6 => some 40
  | 0, 7 => some 67
  | 0, 8 => some 40
  | 1, 0 => some 102
  | 2, op => if op ≤ 11 then some 123 else none
  | 3, op => if op ≤ 5 then some 99 else none
  | 4, 0 => some 121
  | 4, 1 => some 98
  | 4, 2 => some 105
  | 4, 3 => some 56
  | 4, 4 => some 88
  | 4, 5 => some 88
  | 5, 0 => some 116
  | 5, 1 => some 88
  | 5, 2 => some 99
  | 6, 0 => some 107
  | 6, 1 => some 88
  | 6, 2 => some 112
  | 7, 0 => some 122
  | _, _ => none

/-- The reference fields of a cue's layout, used or not (R112). -/
def cueRefFields (q : BitVec 128) : List Nat :=
  match cf q 4 4, cf q 0 4 with
  | 2, _ => [40, 64, 88]
  | 3, _ => [40, 64]
  | 4, 0 => [40, 64, 88]
  | 4, 3 => []
  | 4, _ => [40, 64]
  | 5, _ => [40, 64]
  | 6, 2 => [40, 64, 88]
  | 6, _ => [40, 64]
  | _, _ => []

/-- A cue that breaks R108, R110 or R121 as the loader checks it. -/
def cueUnloadable (q : BitVec 128) : Bool :=
  match cueTop q with
  | none => true
  | some t =>
    cf q t (128 - t) != 0 || (cueRefFields q).any (fun o => cf q (o + 23) 1 == 1) ||
      (cf q 0 8 == 6 && (cf q 8 1 == 1 || cf q 15 1 == 1)) || (cf q 0 8 == 4 && cf q 56 12 == 0)

/-- A cue that may not stand in a rotatable list (R101). Every descriptor that a cue names counts, that of a DESC_WRITE too (log entry 181). -/
def cueFixed (q : BitVec 128) : Bool :=
  let u := cf q 4 4
  let op := cf q 0 4
  u == 6 || u == 7 || (u == 4 && (op == 0 || op == 2 || op == 3)) || (u == 0 && op == 7) ||
    (cueRefs q).any fun r => decide (r % 1024 < 768)

/-- The check of one cue of a list: its index, the list's length, the open loop bodies as (first, end) innermost first. It answers
whether the cue fails, and the loop bodies open after it (R82, R84, R85). -/
def cueCheck (rot : Bool) (n i : Nat) (stack : List (Nat × Nat)) (q : BitVec 128) : Bool × List (Nat × Nat) :=
  let st := stack.dropWhile fun b => decide (b.2 ≤ i)
  let hi := (st.head?.map (·.2)).getD n
  let lo := (st.head?.map (·.1)).getD 0
  let isEnd := cf q 0 8 == 6
  let body := i + 1 + cf q 56 12
  let target : Int := i + signedOf 13 (cf q 40 13)
  let bad := cueUnloadable q || (isEnd != (i + 1 == n)) || (rot && cueFixed q) ||
    (cf q 0 8 == 4 && decide (hi < body)) ||
    (cf q 0 8 == 5 && !(decide ((lo : Int) ≤ target) && decide (target < hi) && decide (target - i ≤ 4095) && decide (-4095 ≤ target - i)))
  (bad, if cf q 0 8 == 4 then (i + 1, body) :: st else st)

/-- The index of the first cue of a list that fails (R576). -/
def listCheck (rot : Bool) (n : Nat) : Nat → List (Nat × Nat) → List (BitVec 128) → Option Nat
  | _, _, [] => none
  | i, st, q :: r =>
    let c := cueCheck rot n i st q
    if c.1 then some i else listCheck rot n (i + 1) c.2 r

/-! ### The checks of REEL_LOAD -/

/-- The first failing check: conditions with the offsets that ARG3 reports. -/
def firstBad (l : List (Bool × Nat)) : Option Nat := (l.find? fun c => c.1).map (·.2)

/-- The first answer of a list of checks. -/
def firstOf {α : Type} (f : α → Option Nat) (l : List α) : Option Nat := l.findSome? f

/-- A reserved field of `n` bytes that is not 0 (R576): its offset. -/
def nonZeroAt (buf : List Byte) (off n : Nat) : Option Nat := firstBad [((List.range n).any fun i => buf.getD (off + i) 0 != 0, off)]

/-- An offset that lies at or beyond the end of the reel, or breaks its alignment (R98). -/
def badOffset (n align off : Nat) : Bool := off % align != 0 || decide (n ≤ off)

/-- The header checks of step 3 of R576. CORES_PER_TOWER is compared with the towers that TOWER_MASK sets, and so is judged with that field;
with TOWER_MASK 0 any legal value passes (the model's choice; log entry 175). -/
def Device.headerCheck (d : Device) (buf : List Byte) (n : Nat) : Option Nat :=
  let u := leAt buf
  let mask := u 0x34 4
  let cpt := u 0x31 1
  (nonZeroAt buf 0x06 2).or <|
    (firstBad
      [(decide (2 < u 0x30 1) || decide (u 0x30 1 < d.fuses.variant), 0x30),
       (cpt != 20 && cpt != 22 && cpt != 24, 0x31)]).or <|
    (nonZeroAt buf 0x32 2).or <|
    (firstBad
      [(mask / 2 ^ 20 != 0 || (List.range 20).any fun t => bit mask t && (!d.up t || decide (d.coresOf t < cpt)), 0x34),
       (u 0x38 2 != 0 && u 0x38 2 != d.fieldOf (gafReg 0) 0 10, 0x38),
       (u 0x3A 2 / 2 != 0, 0x3A),
       (u 0x3C 4 == 0, 0x3C),
       (u 0x40 8 / 2 != 0, 0x40),
       (u 0x48 4 != 0xFFFFFFFF && decide (u 0x3C 4 ≤ u 0x48 4), 0x48)]).or <|
    (nonZeroAt buf 0x4C 4).or <|
    (firstBad
      [(badOffset n 128 (u 0x50 8) || decide (n < u 0x50 8 + 128 * u 0x3C 4), 0x50),
       (decide (n < u 0x58 8 + 7680), 0x58)]).or <|
    nonZeroAt buf 0x68 152

/-- The check of a gate entry (R96). -/
def gateCheck (buf : List Byte) (g : Nat) : Option Nat :=
  let kind := leAt buf g 1
  firstBad
    [(kind != 1 && kind != 2, g), (kind == 1 && decide (511 < leAt buf (g + 2) 2), g + 2), (leAt buf (g + 8) 8 != 0, g + 8)]

/-- A core index entry's fields: LIST, count of cues, ROTATABLE, EMPTY (R95). -/
structure CoreEntry where
  list : Nat
  len : Nat
  rot : Bool
  empty : Bool
  deriving DecidableEq, Repr

/-- A core index entry. -/
def coreEntryOf (v : Nat) : CoreEntry :=
  { list := field v 0 48, len := field v 48 12 + 1, rot := bit v 60, empty := bit v 61 }

/-- The check of a core index entry's own fields. The entry is one 8-byte word of bit fields: ARG3 gives its offset, whichever field fails
(log entry 136). LIST must lie in the reel and keep its alignment in an EMPTY entry too (R98). -/
def Device.coreEntryCheck (d : Device) (buf : List Byte) (n ci k : Nat) : Option Nat :=
  let o := ci + 8 * k
  let v := leAt buf o 8
  let e := coreEntryOf v
  firstBad
    [(decide (v / 2 ^ 62 ≠ 0), o),
     (badOffset n 16 e.list || (!e.empty && (!d.hasArray k || decide (n < e.list + 16 * e.len))), o)]

/-- The check of the list that a core index entry names. -/
def entryListCheck (buf : List Byte) (ci k : Nat) : Option Nat :=
  let e := coreEntryOf (leAt buf (ci + 8 * k) 8)
  if e.empty then none
  else
    (listCheck e.rot e.len 0 [] ((List.range e.len).map fun i => BitVec.ofNat 128 (leAt buf (e.list + 16 * i) 16))).map
      fun i => e.list + 16 * i

/-- The check of frame table entry j; a core index that an earlier entry names has been checked (R576). -/
def Device.frameCheck (d : Device) (buf : List Byte) (n ft : Nat) (j : Nat) : Option Nat :=
  let o := ft + 128 * j
  let ci := leAt buf o 8
  let gc := leAt buf (o + 8) 4
  let gs := leAt buf (o + 0x10) 8
  (firstBad [(badOffset n 8 ci || decide (n < ci + 3840), o), (decide (16 < gc), o + 8)]).or <|
    (nonZeroAt buf (o + 0x0C) 4).or <|
    (firstBad [(badOffset n 16 gs || decide (n < gs + 16 * gc), o + 0x10)]).or <|
    (nonZeroAt buf (o + 0x18) 8).or <|
    (nonZeroAt buf (o + 0x70) 16).or <|
    (firstOf (fun g => gateCheck buf (gs + 16 * g)) (List.range gc)).or <|
    if (List.range j).any fun i => leAt buf (ft + 128 * i) 8 == ci then none
    else (firstOf (d.coreEntryCheck buf n ci) (List.range 480)).or (firstOf (entryListCheck buf ci) (List.range 480))

/-- The image of a core: offset and number of entries (R97). -/
def imageOf (buf : List Byte) (di k : Nat) : Nat × Nat := (leAt buf (di + 16 * k) 8, leAt buf (di + 16 * k + 8) 2)

/-- Entry e of a core's image, its generation field cleared; 0 where the image has none, so that an entry that one image does not write
equals one that another writes as zeros (R101; log entry 137). -/
def imageEntry (buf : List Byte) (di k e : Nat) : BitVec 256 :=
  let i := imageOf buf di k
  if e < i.2 then BitVec.ofNat 256 (withField (leAt buf (i.1 + 32 * e) 32) 73 8 0) else 0

/-- The checks of an entry of the descriptor image index (R97, R98, R576): the offset alone, then the count, then the two together at the
field that the order reaches last, then the reserved field. -/
def imageIndexCheck (buf : List Byte) (n di k : Nat) : Option Nat :=
  let i := imageOf buf di k
  let o := di + 16 * k
  (firstBad [(badOffset n 1 i.1, o), (decide (1024 < i.2) || decide (n < i.1 + 32 * i.2), o + 8)]).or (nonZeroAt buf (o + 10) 6)

/-- A pool descriptor that breaks R171 for core k. -/
def Device.poolBad (d : Device) (k : Nat) (b : BitVec 256) : Bool :=
  let base := df b 0 48
  let last := base + 16 * ((descExt b 1 - 1) * descStride b 1 + (descExt b 2 - 1) * descStride b 2) + descExt b 0
  descMalformed b || descFmt b != 9 || descSpace b != 0 || descNdim b != 2 || base % 64 != 0 || descStride b 1 % 4 != 0 ||
    decide (descExt b 0 < 64) || decide (16 * descStride b 1 < descExt b 0) ||
    decide (descStride b 2 < descStride b 1 * descExt b 1) || decide (524288 < poolFrames b) ||
    decide (base < sliceBase k) || decide (sliceBase k + (if d.fuses.variant = 2 then 0x80000000 else 0xC0000000) < last)

/-- A flush log descriptor that breaks R173. -/
def flushLogBad (b : BitVec 256) : Bool :=
  !descValid b || descMalformed b || descFmt b != 0xA || descSpace b != 1 || descNdim b != 0 || descExt b 0 % 2 != 0 ||
    decide (descExt b 0 < 2)

/-- Whether ring r (cores 6 r to 6 r + 5) holds an array at every position (R100). -/
def Device.ringWhole (d : Device) (r : Nat) : Bool := (List.range 6).all fun j => d.hasArray (6 * r + j)

/-- Whether all six lists of a ring are rotatable in the core index at `ci`; EMPTY entries count as ROTATABLE (R100). -/
def ringFree (buf : List Byte) (ci r : Nat) : Bool :=
  (List.range 6).all fun j =>
    let e := coreEntryOf (leAt buf (ci + 8 * (6 * r + j)) 8)
    e.rot || e.empty

/-- Whether a ring can rotate in some entry of the frame table (R100, R101). -/
def Device.ringTurns (d : Device) (buf : List Byte) (ft frames flags r : Nat) : Bool :=
  bit flags 0 && d.ringWhole r && (List.range frames).any fun j => ringFree buf (leAt buf (ft + 128 * j) 8) r

/-- The checks of a core's image (R576): the pool, then the flush log (R171, R173), then the shared range of a ring that can rotate (R101).
That the pool's entry is judged before the flush log's, and that ARG3 names the place of a shared-range entry also where the core's image
does not reach it, is the model's choice (log entry 174). -/
def Device.imageCheck (d : Device) (buf : List Byte) (ft frames flags di k : Nat) : Option Nat :=
  let o := (imageOf buf di k).1
  let pool := imageEntry buf di k 767
  (firstBad
    [(descValid pool && d.poolBad k pool, o + 32 * 767),
     (descValid pool && flushLogBad (imageEntry buf di k 766), o + 32 * 766)]).or <|
    if k % 6 ≠ 0 ∧ d.ringTurns buf ft frames flags (k / 6) then
      firstBad ((List.range 256).map fun e =>
        (imageEntry buf di k (768 + e) != imageEntry buf di (k / 6 * 6) (768 + e), o + 32 * (768 + e)))
    else none

/-- The reel's record after a load that succeeds. -/
def reelOf (base : Nat) (buf : List Byte) : Reel :=
  { base := base, takeKey := BitVec.ofNat 64 (leAt buf 0x28 8), flags := leAt buf 0x3A 2, frames := leAt buf 0x3C 4,
    srEnable := bit (leAt buf 0x40 8) 0, loopStart := leAt buf 0x48 4, frameTable := leAt buf 0x50 8,
    descIndex := leAt buf 0x58 8, bytes := leAt buf 0x60 8, numeric := BitVec.ofNat 64 (leAt buf 0x40 8),
    identity := sliceBytes buf 8 32, towerMask := leAt buf 0x34 4 }

/-- Whether a run lies wholly in tower DRAM, in one store, or in capacity memory, and every byte of it answers (R98). -/
def Device.reelPlace (d : Device) (a n : Nat) : Bool :=
  let last := a + n - 1
  d.legalRun a n &&
    match regionOf a, regionOf last with
    | .dram _ _, .dram _ _ => true
    | .store h _, .store h' _ => h == h'
    | .capacity _ _, .capacity _ _ => true
    | _, _ => false

/-- What a load found: the device after the loader's reads, and the reel, or the offset that ARG3 reports. -/
structure LoadRes where
  dev : Device
  reel : Except Nat Reel

/-- Lines read one by one, up to the first with a bad codeword (R576): the bytes before it, and that codeword's address. -/
def Device.readUntilBad : List (Nat × Nat) → Device → Device × List Byte × Option Nat
  | [], d => (d, [], none)
  | l :: r, d =>
    let x := d.serviceRead l.1 l.2
    match x.bad with
    | a :: _ => (x.dev, [], some a)
    | [] =>
      if x.dev.blocked then (x.dev, [], none)
      else
        let y := Device.readUntilBad r x.dev
        (y.1, x.bytes ++ y.2.1, y.2.2)

/-- REEL_LOAD's checks in the order of R576. The loader reads the header first, and each line of the reel once. -/
def Device.checkReel (d : Device) (base : Nat) : LoadRes :=
  if base % 4096 ≠ 0 ∨ !d.legal base then { dev := d, reel := .error (2 ^ 64 - 1) }
  else
    let h := d.serviceRead base 256
    let head := h.bytes
    let n := leAt head 0x60 8
    match firstBad
        [(leAt head 0 4 != 0x5245454C, 0x00), (leAt head 4 2 != 0x0501, 0x04),
         (decide (n < 256) || n % 16 != 0 || !d.reelPlace base n, 0x60)], h.bad with
    | some o, _ => { dev := h.dev, reel := .error o }
    | none, a :: _ => { dev := h.dev, reel := .error (a - base) }
    | none, [] =>
      let r := h.dev.readUntilBad (linesOf (base + 256) (n - 256))
      let buf := head ++ r.2.1
      match r.2.2 with
      | some a => { dev := r.1, reel := .error (a - base) }
      | none =>
        let frames := leAt buf 0x3C 4
        let ft := leAt buf 0x50 8
        let di := leAt buf 0x58 8
        let bad :=
          (firstBad [(shake256 (buf.drop 256) 32 != sliceBytes buf 8 32, 0x08)]).or <|
            (d.headerCheck buf n).or <|
            (firstOf (d.frameCheck buf n ft) (List.range frames)).or <|
            (firstOf (imageIndexCheck buf n di) (List.range 480)).or <|
            firstOf (d.imageCheck buf ft frames (leAt buf 0x3A 2) di) (List.range 480)
        match bad with
        | some o => { dev := r.1, reel := .error o }
        | none => { dev := r.1, reel := .ok (reelOf base buf) }

/-- The reel unloaded: the fingerprint and measurement 6 are cleared (R98, R352, R535). -/
def Device.unloadReel (d : Device) : Device :=
  let d := d.modTake fun t => { t with reel := none, state := 0 }
  let d := d.setField (svcReg 0x9020) 0 1 0
  let d := d.each (List.range 4) fun w d => d.setReg (svcReg (0x9000 + 8 * w)) 0
  { d with sec := { d.sec with meas := mset [] d.sec.meas 6 [] } }

/-- A reel taken up: the fingerprint is formed, and measurement 6 is its digest (R352, R535). -/
def Device.takeReel (d : Device) (r : Reel) : Device :=
  let d := d.modTake fun t => { t with reel := some r, state := 1 }
  let fp := d.fingerprint r
  let d := d.setField (svcReg 0x9020) 0 1 1
  let d := d.each (List.range 4) fun w d => d.setReg (svcReg (0x9000 + 8 * w)) (BitVec.ofNat 64 (leAt fp (8 * w) 8))
  { d with sec := { d.sec with meas := mset [] d.sec.meas 6 (shake256 fp 64) } }

/-! ### The frames of a take -/

/-- The frame table entry of released frame n (R99); none after the last. -/
def Reel.entryIndex (r : Reel) (n : Nat) : Option Nat :=
  if n < r.frames then some n
  else if r.loopStart < r.frames then some (r.loopStart + (n - r.loopStart) % (r.frames - r.loopStart))
  else none

/-- Whether ring r runs rotated, by the core index entries of its six home indices (R100). -/
def Device.ringRotates (d : Device) (r : Reel) (ring : Nat) (es : List CoreEntry) : Bool :=
  bit r.flags 0 && d.ringWhole ring && es.all fun e => e.rot || e.empty

/-- The position that runs home k's list in frame n, when its ring runs rotated or not (R100). -/
def placeOf (rotates : Bool) (n k : Nat) : Nat := if rotates then k / 6 * 6 + (k % 6 + n / 64 % 6) % 6 else k

/-- The home whose list position c runs in frame n. -/
def homeAt (rotates : Bool) (n c : Nat) : Nat := if rotates then c / 6 * 6 + (c % 6 + 6 - n / 64 % 6) % 6 else c

/-- The core index entries of some consecutive home indices, from their bytes. -/
def coreEntries (b : List Byte) : List CoreEntry := (chunksOf 8 b).map fun e => coreEntryOf (leNat e)

/-- The frame that the next release would run. -/
def Device.comingFrame (d : Device) : Nat := d.nextFrame

/-- A word struck by a flip mask as it is stored (R303). -/
def Codeword.struck (w : Codeword) : Option (BitVec 144) → Codeword
  | none => w
  | some m =>
    { data := w.data ^^^ m.extractLsb' 0 128
      syn := w.syn ^^^ eccEncode ((List.range 16).map fun j => m.extractLsb' (8 * j) 8) ^^^ m.extractLsb' 128 16 }

/-- The words of a list read for a cue buffer (R293, R294): corrected, and poisoned where bad. -/
def readWords (r : ReadRes) (a : Nat) : List Codeword :=
  ((chunksOf 16 r.bytes).zip (List.range r.bytes.length)).map fun p =>
    { data := BitVec.ofNat 128 (leNat p.1), syn := if r.bad.contains (a + 16 * p.2) then poisonSyn else 0 }

/-- The first word of a list struck. -/
def strikeFirst (m : Option (BitVec 144)) : List Codeword → List Codeword
  | w :: r => w.struck m :: r
  | [] => []

/-- The cue buffer that a core's next list comes into (R304): the two take turns, from 0 on after reset (log entry 138). -/
def Device.fillBuffer (d : Device) (k a : Nat) (r : ReadRes) : Device :=
  let f := r.dev.takeFlip (corReg k 0x1200) 4 (d.core k).buf
  let ws := strikeFirst f.1 (readWords r a)
  f.2.modCore k fun c =>
    { c with
      next := some ws
      origin := (List.range ws.length).foldl (fun m i => mset 0 m (16 * i + 11) (a + 16 * i + 1)) c.origin }

/-- The service plane consumes a word that it may not use (R558): a base die fault of the west half (log entry 94). -/
def Device.badService (d : Device) : Device := d.loseHalf 2 d.serviceHalf

/-- The list of home index `k` arrives in position `c`, by its core index entry. An EMPTY entry has no list; it too sets NEXT_READY when it
arrives (R103; log entry 139). -/
def Device.entryArrives (r : Reel) (c : Nat) (e : CoreEntry) (d : Device) : Device :=
  if e.empty then d.modCore c fun x => { x with next := some [] }
  else d.fillBuffer c (r.base + e.list) (d.serviceRead (r.base + e.list) (16 * e.len))

/-- The next frame's list arrives in a core's cue buffer (R89, R95, R327): not between the sampling point and the tick. The frame table
entry and the core index entries of the core's ring are read for it. -/
def Device.listArrives (k : Nat) (d : Device) : Device :=
  let n := d.comingFrame
  if (d.take.state = 2 ∨ d.take.starting) ∧ d.take.decision = none ∧ d.hasArray k then
    match d.take.reel.bind fun r => (r.entryIndex n).map fun j => (r, j) with
    | none => d
    | some (r, j) =>
      let t := d.serviceRead (r.base + r.frameTable + 128 * j) 8
      if !t.bad.isEmpty then t.dev.badService
      else
        let i := t.dev.serviceRead (r.base + leAt t.bytes 0 8 + 48 * (k / 6)) 48
        if !i.bad.isEmpty then i.dev.badService
        else
          let es := coreEntries i.bytes
          let h := homeAt (d.ringRotates r (k / 6) es) n k
          match es[h % 6]? with
          | some e => i.dev.entryArrives r k e
          | none => i.dev
  else d

/-- NEXT_LIST_ARRIVAL (R327). -/
def execNextListArrival (c : Fin 480) (s : State) : Host.Outcome State Fault Refusal := s.onClock (Device.whole (Device.listArrives c))

end Sys2Proof.Machine
end

