-- ==== Sys2Proof/Machine/Rational.lean ====
section
/-! DEFINITION. Exact fractions, for the gaffers' energy arithmetic (R332 to R335) and the coolant flows. They are not reduced:
a fraction is a numerator over a positive denominator. -/
namespace Sys2Proof.Machine

open Sys2Proof

/-- A fraction; a denominator of 0 stands for 1. -/
structure Frac where
  num : Int
  den : Nat
  deriving DecidableEq, Repr

/-- The denominator in use. -/
def Frac.d (x : Frac) : Int := if x.den = 0 then 1 else (x.den : Int)
/-- A whole number. -/
def Frac.ofInt (v : Int) : Frac := { num := v, den := 1 }
/-- A quotient of whole numbers. -/
def Frac.of (n : Int) (d : Nat) : Frac := { num := n, den := d }
/-- Sum. -/
def Frac.add (x y : Frac) : Frac := { num := x.num * y.d + y.num * x.d, den := (x.d * y.d).toNat }
/-- Difference. -/
def Frac.sub (x y : Frac) : Frac := { num := x.num * y.d - y.num * x.d, den := (x.d * y.d).toNat }
/-- Product. -/
def Frac.mul (x y : Frac) : Frac := { num := x.num * y.num, den := (x.d * y.d).toNat }
/-- Quotient by a fraction above 0. -/
def Frac.div (x y : Frac) : Frac := { num := x.num * y.d, den := (x.d * y.num).toNat }
/-- At most. -/
def Frac.le (x y : Frac) : Bool := decide (x.num * y.d ≤ y.num * x.d)
/-- Less. -/
def Frac.lt (x y : Frac) : Bool := decide (x.num * y.d < y.num * x.d)
/-- The lesser. -/
def Frac.min (x y : Frac) : Frac := if x.le y then x else y
/-- The greater. -/
def Frac.max (x y : Frac) : Frac := if x.le y then y else x
/-- The largest whole number not above. -/
def Frac.floor (x : Frac) : Int := x.num.fdiv x.d
/-- The smallest whole number not below. -/
def Frac.ceil (x : Frac) : Int := -((-x.num).fdiv x.d)

/-- The fraction that an FP32 code stands for; 0 for a code that is no finite number. -/
def f32Frac (c : Nat) : Frac :=
  match f32 c with
  | .fin neg m e =>
    let s : Int := if neg then -(m : Int) else (m : Int)
    if 0 ≤ e then { num := s * 2 ^ e.toNat, den := 1 } else { num := s, den := 2 ^ (-e).toNat }
  | _ => { num := 0, den := 1 }

end Sys2Proof.Machine
end

