-- ==== Sys2Proof/Machine/TowerModel.lean ====
section
/-! DEFINITION. Sensor readings (R454) and the four-node thermal model of a tower in FP32 (R455 to R457): its nodes' start values and
its step. -/
namespace Sys2Proof.Machine

open Sys2Proof

/-! ### FP32 division and square root -/

/-- FP32 quotient, rounded to nearest even: the exact quotient is cut far below the last place with a sticky bit. -/
def fdiv (a b : Nat) : Nat :=
  match f32 a, f32 b with
  | .nan, _ => toF32 .nan
  | _, .nan => toF32 .nan
  | .inf _, .inf _ => toF32 .nan
  | .inf n, .fin n' _ _ => toF32 (.inf (n != n'))
  | .fin n _ _, .inf n' => toF32 (.fin (n != n') 0 0)
  | .fin n m e, .fin n' m' e' =>
    if m' = 0 then (if m = 0 then toF32 .nan else toF32 (.inf (n != n')))
    else
      let q := m * 2 ^ 64 / m'
      let s := if m * 2 ^ 64 % m' = 0 then 0 else 1
      toF32 (.fin (n != n') (2 * q + s) (e - e' - 65))

/-- The integer square root, bit by bit. -/
def isqrt (n : Nat) : Nat :=
  (List.range 64).foldl (fun r i => let t := r + 2 ^ (63 - i); if t * t ≤ n then t else r) 0

/-- FP32 square root of a value not below 0, rounded to nearest even. -/
def fsqrt (a : Nat) : Nat :=
  match f32 a with
  | .fin false m e =>
    let k : Nat := if e % 2 = 0 then 80 else 81
    let v := m * 2 ^ k
    let r := isqrt v
    toF32 (.fin false (2 * r + (if r * r = v then 0 else 1)) ((e - k) / 2 - 1))
  | .fin true m _ => if m = 0 then a else toF32 .nan
  | .inf false => a
  | _ => toF32 .nan

/-- An integer as an FP32 code. -/
def f32OfInt (v : Int) : Nat := toF32 (intVal v)

/-! ### Readings -/

/-- The code of a sensor without a reading (R454). -/
def noReading : Int := -32768

/-- A tower sensor's reading in 0.125 °C (R454). -/
def Tower.reading (t : Tower) (i : Nat) : Int := (mget (0x8000 : BitVec 16) t.sens i).toInt

/-- Whether a tower sensor is in use: not suspect, with a reading (R458). -/
def Tower.sensorOk (t : Tower) (i : Nat) : Bool := !t.suspect.contains i && t.reading i != noReading

/-- The sensors of a layer (R454), by layer index λ of R476. -/
def layerSensors (l : Nat) : List Nat :=
  if l = 0 then List.range 34 else if l = 1 then (List.range 26).map (· + 34) else (List.range 4).map (· + 60 + 4 * (l - 2))

/-- The layer of a tower sensor. -/
def layerOfSensor (i : Nat) : Nat := if i < 34 then 0 else if i < 60 then 1 else 2 + (i - 60) / 4

/-- The node that covers a layer (R455, R457). -/
def nodeOf (l : Nat) : Nat := if l < 2 then l else if l < 8 then 2 else 3

/-- The layers that a node covers. -/
def nodeLayers (n : Nat) : List Nat := (List.range 15).filter fun l => nodeOf l == n

/-! ### The model -/

/-- The code of a node that has no value. -/
def noNode : BitVec 32 := 0x7FC00000

/-- A node of a tower's model, as an FP32 code in °C. -/
def Tower.node (t : Tower) (n : Nat) : BitVec 32 := mget noNode t.model n

/-- The model value of a layer in units of 0.125 °C, exactly; none while its node has no value (R457). -/
def Tower.modelVal (t : Tower) (l : Nat) : Option Frac :=
  match f32 (t.node (nodeOf l)).toNat with
  | .fin _ _ _ => some ((f32Frac (t.node (nodeOf l)).toNat).mul (.ofInt 8))
  | _ => none

/-- A fraction rounded to the nearest whole number, ties upward (log entry 26). -/
def Frac.round (x : Frac) : Int := (x.add (.of 1 2)).floor

/-- A parameter of tower t in the calibration set in force (R511): the i-th FP32 of its thermal entry. -/
def Device.thermalParam (d : Device) (t i : Nat) : Nat := leAt d.start.cal (0xC100 + 64 * t + 4 * i) 4

/-- The mean of the sensors in use of a node's layers, as FP32 in °C. -/
def Tower.meanNode (x : Tower) (n : Nat) : BitVec 32 :=
  let l := ((nodeLayers n).flatMap layerSensors).filter x.sensorOk
  if l.isEmpty then noNode
  else BitVec.ofNat 32 (fdiv (f32OfInt (l.foldl (fun a i => a + x.reading i) 0)) (f32OfInt (8 * l.length)))

/-- The four nodes of a tower set. -/
def Tower.setNodes (x : Tower) (f : Nat → BitVec 32) : Tower :=
  { x with model := (List.range 4).foldl (fun m n => mset noNode m n (f n)) x.model }

/-- The nodes of a tower that lights start from the mean of the sensors of their layers (R456). -/
def Device.startModel (t : Nat) (d : Device) : Device := d.modTower t fun x => x.setNodes x.meanNode

/-! ### Coolant flow -/

/-- P in µs (R313). -/
def Device.period (d : Device) : Nat := d.fieldOf (gafReg 0) 0 10
/-- A value held between two bounds. -/
def clampNat (lo hi v : Nat) : Nat := min hi (max lo v)
/-- HORIZON_MS; 0 acts as 1. -/
def Device.horizon (d : Device) : Nat := max 1 (d.fieldOf (gafReg 0) 16 8)
/-- COOL_RISE; values below 4 act as 4. -/
def Device.coolRise (d : Device) : Nat := max 4 (d.fieldOf (gafReg 0) 24 4)
/-- LOSS_MILLI, clamped. -/
def Device.lossMilli (d : Device) : Nat := clampNat 1000 1500 (d.fieldOf (gafReg 0) 32 11)
/-- PKG_W, clamped. -/
def Device.pkgW (d : Device) : Nat := clampNat 1200 2600 (d.fieldOf (gafReg 8) 0 12)
/-- VIN_A; above 1,450 acts as 1,450. -/
def Device.vinA (d : Device) : Nat := min 1450 (d.fieldOf (gafReg 8) 12 11)
/-- SUST_W, clamped. -/
def Device.sustW (d : Device) : Nat := clampNat 40 110 (d.fieldOf (gafReg 8) 24 8)
/-- PEAK_W, clamped; below SUST it acts as SUST. -/
def Device.peakW (d : Device) : Nat := max d.sustW (clampNat 40 110 (d.fieldOf (gafReg 8) 32 8))

/-- The reported flow in mL/min (R335, R448): 2.0 L/min before the first reading and when none came for 1 s. -/
def Device.reportedFlow (d : Device) : Nat :=
  if d.bitOf (gafReg 0x18) 5 then 2000
  else match d.mgmt.effecter with
    | some v => v
    | none => 2000

/-- The derived flow in mL/min (R335): only while T_out − T_in is at least 1.0 °C. -/
def Device.derivedFlow (d : Device) : Option Frac :=
  match d.thm.tin, d.thm.tout with
  | some i, some o =>
    if 8 ≤ o - i then some (.of (60 * 80 * (d.take.lastInput : Int)) (39 * d.period * (o - i).toNat)) else none
  | _, _ => none

/-- F in mL/min: the lesser of the flows (R335). -/
def Device.usedFlow (d : Device) : Frac :=
  let r := Frac.ofInt d.reportedFlow
  match d.derivedFlow with
  | some f => r.min f
  | none => r

/-- A fraction as an FP32 code: its numerator and its denominator rounded, then their quotient (log entry 27). -/
def Frac.toF32 (x : Frac) : Nat := fdiv (f32OfInt x.num) (f32OfInt x.den)

/-- k of R456, from F in mL/min: the square root of F over 66.67 mL/s, held between 0.4 and 1.2. -/
def flowFactor (mlMin : Frac) : Nat :=
  let f := fdiv mlMin.toF32 (f32OfInt 60)
  minF32 (fdiv (f32OfInt 12) (f32OfInt 10)) (maxF32 (fdiv (f32OfInt 4) (f32OfInt 10)) (fsqrt (fdiv f (fdiv (f32OfInt 6667) (f32OfInt 100)))))

/-- One step of R456 in FP32, every operation rounded, in the order in which the rule writes them (log entry 27): the parameters,
the step's energy in µJ, k, and the sink's temperature. -/
def modelStep (p : Nat → Nat) (energy k sink : Nat) (T : Nat → Nat) : List Nat :=
  let h := fdiv fone32 (f32OfInt 10000)
  let pw := fdiv (f32OfInt energy) (f32OfInt 100)
  let half := fun v => fdiv v (f32OfInt 2)
  let a := fmul (p 4) (fsub (T 0) (T 1))
  let b := fmul (p 5) (fsub (T 1) (T 2))
  let c := fmul (p 6) (fsub (T 2) (T 3))
  let e := fmul (fmul k (p 7)) (fsub (T 3) sink)
  [fadd (T 0) (fmul (fdiv h (p 0)) (fsub (fmul (p 8) pw) a)),
   fadd (T 1) (fmul (fdiv h (p 1)) (fsub (fadd (fmul (p 9) pw) a) b)),
   fadd (T 2) (fmul (fdiv h (p 2)) (fsub (fadd (half (fmul (p 10) pw)) b) c)),
   fadd (T 3) (fmul (fdiv h (p 3)) (fsub (fadd (half (fmul (p 10) pw)) c) e))]
where
  /-- 1.0 -/
  fone32 : Nat := 0x3F800000

/-- Energy that a tower's phases have measured goes into its counter (R330, R347). -/
def Device.addEnergy (t energy : Nat) (d : Device) : Device :=
  let r := gafReg (0x1000 + 32 * t)
  d.setReg r (d.reg r + BitVec.ofNat 64 energy)

/-- The model of a tower advanced by one step (R456): `energy` has been measured since the last step or tick, and P is formed from the
increase of the tower's counter since the last step (log entry 171). A dark or fenced tower holds its nodes, and so does one whose nodes
or lid temperatures have no value yet (log entry 24). -/
def Device.advanceModel (t measured : Nat) (d : Device) : Device :=
  let d := d.addEnergy t measured
  let now := d.reg (gafReg (0x1000 + 32 * t))
  let energy := (now - (d.tower t).atStep).toNat
  let d := d.modTower t fun x => { x with atStep := now }
  let x := d.tower t
  match d.thm.tin, d.thm.tout with
  | some i, some o =>
    if d.up t && (List.range 4).all fun n => x.node n != noNode then
      let ti := fdiv (f32OfInt i) (f32OfInt 8)
      let outlet := fdiv (f32OfInt o) (f32OfInt 8)
      let sink := fadd ti (fdiv (fsub outlet ti) (f32OfInt 2))
      let r := modelStep (d.thermalParam t) energy (flowFactor d.usedFlow) sink (fun n => (x.node n).toNat)
      d.modTower t fun x => x.setNodes fun n => BitVec.ofNat 32 (r.getD n 0)
    else d
  | _, _ => d

/-- TOWER_MODEL_STEP (R456): the energy that the tower's phases have measured since its last step or tick, in µJ. -/
def execTowerModelStep (t : Fin 20) (energy : Nat) (s : State) : Host.Outcome State Fault Refusal :=
  s.run (Device.advanceModel t energy)

end Sys2Proof.Machine
end

