-- ==== Sys2Proof/Machine/Losses.lean ====
section
/-! DEFINITION. The loss of tower dies (R380, R384), the guard-band re-check of the crossings (R339, R371), ARRAY_RESET and the
rejoin of a tower (R381, R382), and the mailbox through which software commands them (R436, R437, R450). -/
namespace Sys2Proof.Machine

open Sys2Proof

/-! ### The mailbox -/

/-- A command written to HST_MBX_CMD (R436): not accepted while another runs; else it runs, and `f` is its effect. -/
def Device.mbxBegin (op : Nat) (f : Device → Device) (d : Device) : Device :=
  if d.bitOf (hstReg 0x108) 0 then d.setBit (hstReg 0x10) 3
  else f { d.setField (hstReg 0x108) 0 1 1 with mbx := { op := op, result := none, arg3 := none } }

/-- MAILBOX_COMPLETE (R436, R437): RESULT and LAST are set, BUSY clears, and vector 0 is raised. -/
def Device.mbxComplete (d : Device) : Device :=
  match d.mbx.result with
  | none => d
  | some r =>
    if d.bitOf (hstReg 0x108) 0 then
      let d := ((d.setField (hstReg 0x108) 0 1 0).setField (hstReg 0x108) 8 8 r).setField (hstReg 0x108) 16 8 d.mbx.op
      let d := match d.mbx.arg3 with
        | some v => d.setReg (hstReg 0x128) v
        | none => d
      { d with mbx := { d.mbx with result := none } }.event 0
    else d

/-- MAILBOX_COMPLETE (R436). -/
def execMailboxComplete (s : State) : Host.Outcome State Fault Refusal := s.run Device.mbxComplete

/-- An argument of the mailbox (R450). -/
def Device.mbxArg (d : Device) (i : Nat) : Nat := (d.reg (hstReg (0x110 + 8 * i))).toNat

/-- Whether the firmware takes commands at all: start-up has reached ready and no fatal condition is in force (R499, R502, R558). -/
def Device.serving (d : Device) : Bool := d.bitOf (svcReg 0xB000) 3 && !d.bitOf (svcReg 0xD000) 2

/-- A command that is allowed only in some states: RESULT 4 STATE and no effect elsewhere (R436, R502, R521). -/
def Device.mbxWhen (op : Nat) (ok : Device → Bool) (f : Device → Device) : Device → Device :=
  Device.mbxBegin op fun d => if d.serving && !d.bitOf (svcReg 0xB000) 18 && ok d then f d else d.mbxEnd 4

/-- No take runs, starts or is being aborted. -/
def Device.idleTake (d : Device) : Bool := decide (d.take.state < 2) && !d.take.starting && !d.cont.waiting

/-! ### Losing a tower die -/

/-- A transaction whose requester is a core of tower t loses its requester. -/
def Tag.dropTower (t : Nat) (x : Tag) : Tag :=
  match x.owner with
  | .dma k _ _ => if towerOf k = t then { x with owner := .none } else x
  | .mcast k _ => if towerOf k = t then { x with owner := .none } else x
  | _ => x

/-- A transaction that waits in a channel of a fenced tower gets an error response (R19, R380). -/
def Device.refusePort (q : QReq) (d : Device) : Device :=
  match q.owner with
  | .port h i g =>
    let t := d.tag h i
    if t.gen = g ∧ t.st = .requested then d.setTag h i { t with st := .served, refused := true, parts := 0 } else d
  | _ => d

/-- Every request that waits in the channels of a site. -/
def Site.requests (x : Site) : List QReq := x.chans.flatMap fun p => p.2.native ++ p.2.narrow ++ p.2.atSource

/-- The DRAM of a fenced site (R255, R380): nothing waits there and no near-bank command runs; it is in self-refresh under base-die control. -/
def Site.fence (x : Site) : Site :=
  Site.hold { x with cmds := [], chans := x.chans.map fun p => (p.1, { p.2 with native := [], narrow := [], atSource := [] }) }

/-- A tower fenced (R380): an ARRAY_RESET that waits in it ends, with no reset (R384; log entry 177); the requests of its cores are dropped, responses to their transactions will be discarded, what others ask of it gets
error responses, and its DRAM goes into self-refresh under base-die control. -/
def Device.fence (t : Nat) (d : Device) : Device :=
  let d := (if (d.tower t).resetting then d.mbxEndOf 7 4 else d).modTower t fun x =>
    { x with fenced := true, fence := [], resetting := false }
  let d := (d.setBit (twrReg t 0x302000) 20).setBit (twrReg t 0x302000) 21
  let d := d.each (List.range 24) fun c d => d.stopCore (24 * t + c)
  let d := d.each (List.range 24) fun c d =>
    (d.each (d.site (24 * t + c)).requests Device.refusePort).modSite (24 * t + c) Site.fence
  let d := d.each [0, 1] fun h d => d.modHalf h fun x => { x with tags := x.tags.map fun p => (p.1, p.2.dropTower t) }
  d.modHalf (halfOf t) fun x => { x with mcasts := x.mcasts.filter fun m => towerOf m.core != t }

/-- Whether the service plane starts the rejoin of a lost tower by itself: AUTO_REJOIN, once the abort has ended; outside a take
there is none to wait for (R381). -/
def Device.autoRejoin (t : Nat) (d : Device) : Device :=
  if (d.tower t).fenced && d.bitOf (twrReg t 0x302008) 0 && !d.inTake then d.modTower t fun x => { x with rejoining := true } else d

/-- Towers lost in one cycle (R380, R384): each is fenced, and a running take is aborted with a clock-loss fault that names them. -/
def Device.loseTowers (ts : List Nat) (d : Device) : Device :=
  match ts.filter d.up with
  | [] => d
  | t :: r =>
    let d := d.each (t :: r) Device.fence
    let d := d.fault 2 t 0 0 0 ((t :: r).foldl (fun a x => a + 2 ^ x) 0)
    d.each (t :: r) Device.autoRejoin

/-- TOWER_LOSS (R380): the towers of a mask. -/
def execTowerLoss (towers : BitVec 20) (s : State) : Host.Outcome State Fault Refusal :=
  s.run (Device.loseTowers (bitsOf 20 towers.toNat))

/-! ### Rejoining -/

/-- A dark tower: it leaves the logical unit map (R381, R571). -/
def Device.darken (t : Nat) (d : Device) : Device :=
  (d.modTower t fun x => { x with lit := false, fenced := false, rejoining := false, lumap := [], cores := 0 }).setField
    (twrReg t 0x302008) 3 1 1

/-- TOWER_REJOIN (R381, R436): a fenced tower begins its rejoin; the command ends with REJOIN_END. A tower number above 19 is a bad
argument; a tower that is not fenced, or that stays dark after three attempts, is a wrong state. -/
def Device.rejoinCmd : Device → Device :=
  Device.mbxWhen 0x06 Device.idleTake fun d =>
    let t := d.mbxArg 0
    if 19 < t then d.mbxEnd 3
    else if (d.tower t).fenced then d.modTower t fun x => { x with rejoining := true }
    else d.mbxEnd 4

/-- TOWER_REJOIN (R381). -/
def execTowerRejoin (s : State) : Host.Outcome State Fault Refusal := s.run Device.rejoinCmd

/-- The crossing delays of a tower tuned (R371): each group's line starts from its seed in the calibration set (R511), and a swept one is
set to the centre of its eye. -/
def Device.tuneTower (t : Nat) (eyes : List EyeMeas) (d : Device) : Device :=
  let seeds := ((List.range 4096).zip (sliceBytes d.start.cal (0x13000 + 4096 * t) 4096)).map fun p => (p.1, p.2.toNat % 128)
  let taps := (eyes.filter fun e => e.tower.val == t).foldl (fun m e => mset 0 m e.group (min 127 ((e.lo + e.hi) / 2))) (seeds.filter (·.2 != 0))
  d.modTower t fun x => { x with taps := taps }

/-- The end of a rejoin (R381): the crossing delays are tuned, the tower keeps its place in the map, its DRAM its contents; a third failed
attempt leaves it dark. -/
def Device.rejoinEnd (t : Nat) (ok : Bool) (eyes : List EyeMeas) (d : Device) : Device :=
  if (d.tower t).rejoining then
    let d := d.modTower t fun x => { x with rejoining := false }
    if ok then
      let d := (d.modTower t fun x => { x with fenced := false }).setField (twrReg t 0x302000) 21 1 0
      let d := d.each (List.range 24) fun c d => d.modSite (24 * t + c) fun x => { x with srBase := false }
      ((d.tuneTower t eyes).startModel t).mbxEndOf 6 0
    else
      let n := min 3 (d.fieldOf (twrReg t 0x302008) 1 2 + 1)
      let d := d.setField (twrReg t 0x302008) 1 2 n
      let d := if n = 3 then (d.darken t).setField (twrReg t 0x302000) 21 1 0
        else if d.bitOf (hstReg 0x108) 0 && d.mbx.op == 6 then d else d.autoRejoin t
      d.mbxEndOf 6 0
  else d

/-- REJOIN_END (R381). -/
def execRejoinEnd (t : Fin 20) (r : RejoinReport) (s : State) : Host.Outcome State Fault Refusal :=
  s.run (Device.rejoinEnd t r.ok r.eyes)

/-- Array cues left by an aborted take dropped, before an array is reset (R382): a ramp-up that stood for one of them ends. -/
def Device.dropArrayCues (k : Nat) (d : Device) : Device := (d.rampStop k).modCore k fun c => c.setQueue 1 []

/-- ARRAY_RESET (R382): queued array cues are dropped, and the command waits until every array of the tower is at level 0. -/
def Device.arrayResetCmd : Device → Device :=
  Device.mbxWhen 0x07 Device.idleTake fun d =>
    let t := d.mbxArg 0
    if 19 < t then d.mbxEnd 3
    else if !d.up t then d.mbxEnd 4
    else
      ((d.each (List.range 24) fun c d => d.dropArrayCues (24 * t + c)).modTower t fun x => { x with resetting := true }).resetArrays t

/-- ARRAY_RESET (R382). -/
def execArrayReset (s : State) : Host.Outcome State Fault Refusal := s.run Device.arrayResetCmd

/-! ### The guard band -/

/-- One group's re-check (R371): the line moves by at most 2 taps toward the centre; the margin after the move, in taps. -/
def recheck (tap : Nat) (e : EyeMeas) : Nat × Int :=
  let centre : Int := ((e.lo + e.hi) / 2 : Nat)
  let move := clampInt (-2) 2 (centre - tap)
  let new := clampInt 0 127 ((tap : Int) + move)
  (new.toNat, min (new - e.lo) ((e.hi : Int) - new))

/-- The re-check of one measured group: the line set, MIN_MARGIN lowered, WEAK set and logged below 6 taps. -/
def Device.recheckEye (e : EyeMeas) (d : Device) : Device :=
  let t := e.tower.val
  let r := recheck (mget 0 (d.tower t).taps e.group) e
  let d := d.modTower t fun x => { x with taps := mset 0 x.taps e.group r.1 }
  let m := (clampInt 0 127 r.2).toNat
  let d := d.setField (twrReg t 0x302000) 12 7 (min m (d.fieldOf (twrReg t 0x302000) 12 7))
  if r.2 < 6 then (d.setBit (twrReg t 0x302000) 19).log t 0x0B 0 0 0 (1 + t * 2 ^ 8 + e.group * 2 ^ 13) else d

/-- A tower whose cores still work when the guard band begins (R339). -/
def Device.towerBusy (d : Device) (t : Nat) : Bool :=
  d.take.state == 2 && d.take.frameRuns && (List.range 24).any fun c => d.hasArray (24 * t + c) && !(d.core (24 * t + c)).ended

/-- The guard band begins (R339): idle towers re-check, busy ones skip and are counted; a crossing with a margin below 2 taps is a
failed crossing. -/
def Device.guardBand (eyes : List EyeMeas) (d : Device) : Device :=
  let busy := (List.range 20).filter fun t => d.up t && d.towerBusy t
  let eyes := eyes.filter fun e => d.up e.tower && !d.towerBusy e.tower
  let failed := (eyes.filter fun e => decide ((recheck (mget 0 (d.tower e.tower).taps e.group) e).2 < 2)).map (·.tower.val)
  let d := d.count (gafReg 0x58) busy.length
  let d := d.modTake fun t => { t with guardRun := if busy = [] then 0 else t.guardRun + 1 }
  let d := d.each ((eyes.map (·.tower.val)).eraseDups) fun t d => d.setField (twrReg t 0x302000) 12 7 127
  (d.each eyes Device.recheckEye).loseTowers (failed.foldl (fun l t => insertAsc t l) [])

/-- GUARD_BAND_START (R339). -/
def execGuardBandStart (eyes : List EyeMeas) (s : State) : Host.Outcome State Fault Refusal := s.onClock (Device.guardBand eyes)

/-- GUARD_FORCE (R339): at 64 consecutive frames with a skip the next frame is to be dark. -/
def Device.guardForce (d : Device) : Device :=
  if 64 ≤ d.take.guardRun then d.modTake fun t => { t with guardForced := true } else d

/-- GUARD_FORCE (R339). -/
def execGuardForce (s : State) : Host.Outcome State Fault Refusal := s.onClock Device.guardForce

end Sys2Proof.Machine
end

