-- ==== Sys2Proof/Machine/NearBank.lean ====
section
/-! DEFINITION. Near-bank operations (R263 to R286): acceptance of commands, steps in the banks, the operations on rows, boundaries,
poison, and the fence. -/
namespace Sys2Proof.Machine

open Sys2Proof

/-- NBOP of a cue (R133). -/
def nbOp (q : BitVec 128) : Nat := cf q 40 5
/-- POS of a cue. -/
def nbPos (q : BitVec 128) : Nat := cf q 45 5
/-- CHMASK of a cue. -/
def nbChMask (q : BitVec 128) : Nat := cf q 50 8
/-- BANKMASK of a cue. -/
def nbBankMask (q : BitVec 128) : Nat := cf q 58 48

/-- The masked banks of a command, as 48 × channel + bank. -/
def nbBanks (q : BitVec 128) : List Nat :=
  (bitsOf 8 (nbChMask q)).flatMap fun ch => (bitsOf 48 (nbBankMask q)).map fun b => 48 * ch + b

/-- An NB_MASK error (R134). -/
def Device.nbMaskBad (d : Device) (q : BitVec 128) : Bool :=
  decide (0x11 < nbOp q) || nbChMask q == 0 || nbBankMask q == 0 || decide (8 < (bitsOf 48 (nbBankMask q)).length) ||
    (d.fuses.variant == 2 && decide (2 ^ 32 ≤ nbBankMask q))

/-! ### Rows -/

/-- The device-local address of byte `x` of a row of a bank (R235). -/
def rowAddr (site ch b row x : Nat) : Nat :=
  sliceBase site + dramOffset { ch := ch, bank := b, row := row, col := x / 64 } + x % 64

/-- A row as a near-bank unit reads it: 1,024 bytes, and which of its 64 codewords were bad (R283). -/
structure RowRead where
  dev : Device
  bytes : List Byte
  bad : List Nat
  deriving DecidableEq, Repr

/-- Codeword c of a row, with the number `cw`, added to what was read of the row: it comes from the bank itself, not over the channel
(R263), and is checked (R293). -/
def addWord (acc : RowRead) (c cw : Nat) : RowRead :=
  let x := acc.dev.mem.cw cw
  { dev := acc.dev.noteWord (16 * cw) x 8, bytes := acc.bytes ++ x.data, bad := if x.bad then acc.bad ++ [c] else acc.bad }

/-- A row read, codeword by codeword. -/
def Device.readRow (d : Device) (site ch b row : Nat) : RowRead :=
  (List.range 64).foldl (fun acc c => addWord acc c (rowAddr site ch b row (16 * c) / 16)) { dev := d, bytes := [], bad := [] }

/-- A whole codeword written by a near-bank unit into its bank. -/
def Device.bankWrite (d : Device) (cw : Nat) (bs : List Byte) (poison : Bool) : Device :=
  let f := (d.dropBack cw).flipFor (16 * cw) false
  { f.2 with mem := f.2.mem.putCw cw bs poison f.1 }

/-- A near-bank unit. -/
def Device.nbUnit (d : Device) (site i : Nat) : NbUnit := mget NbUnit.reset (d.site site).units i
/-- A near-bank unit changed. -/
def Device.modUnit (d : Device) (site i : Nat) (f : NbUnit → NbUnit) : Device :=
  d.modSite site fun s => { s with units := mmod NbUnit.reset s.units i f }

/-- A row not read. -/
def noRow (d : Device) : RowRead := { dev := d, bytes := [], bad := [] }

/-- Bytes written to a row from byte `x`, a multiple of 16; `bad` are the codewords of the row to be poisoned, each of which
counts (R283, R285). -/
def Device.writeRow (d : Device) (site ch b row x : Nat) (bs : List Byte) (bad : List Nat) : Device :=
  d.each ((chunksOf 16 bs).zip (List.range bs.length)) fun p d =>
    let c := x / 16 + p.2
    let d := d.bankWrite (rowAddr site ch b row (16 * c) / 16) p.1 (bad.contains c)
    if bad.contains c then d.count (corReg site 0x1118) 1 else d

/-- The elements of a row from element `o`: codes of a format. -/
def rowCodes (fmt o n : Nat) (bs : List Byte) : List Nat :=
  let w := fmtBits fmt / 8
  (List.range n).map fun e => leAt bs (w * (o + e)) w

/-- The elements of a row widened to FP32 (R269). -/
def rowF32 (fmt o n : Nat) (bs : List Byte) : List Nat := (rowCodes fmt o n bs).map fun c => toF32 (elemVal fmt c)

/-- Whether element e of a step depends on a bad codeword (R283): for each source its format, first element and bad codewords. -/
def dependBad (srcs : List (Nat × Nat × List Nat)) (e : Nat) : Bool :=
  srcs.any fun s => s.2.2.contains ((s.2.1 + e) * (fmtBits s.1 / 8) / 16)

/-! ### Results -/

/-- The activation function of an element (R273). -/
def actTable (tbl : List Byte) (x0 invw x : Nat) : Nat :=
  let t := fmul (fsub x x0) invw
  let entry := fun i => fma (leAt tbl (8 * i) 4) x (leAt tbl (8 * i + 4) 4)
  match f32 t with
  | .nan => qnan
  | .inf n => entry (if n then 0 else 255)
  | .fin true _ _ => entry 0
  | .fin false m e => entry (min 255 (if e < 0 then m / 2 ^ (-e).toNat else m * 2 ^ e.toNat))

/-- ADAMW of one element (R274): constants, D, gradient, first and second moments; D, B and C after. -/
def adamw (k : List Nat) (dd g b c : Nat) : Nat × Nat × Nat :=
  let q := fun i => k.getD i 0
  let m := fma (q 1) b (fmul (q 2) g)
  let v := fma (q 3) c (fmul (q 4) (fmul g g))
  let mh := fmul m (q 5)
  let vh := fmul v (q 6)
  let r := rsqrtFn (fadd vh (q 7))
  (fsub (fmul dd (q 8)) (fmul (q 0) (fmul mh r)), m, v)

/-- SUMSQ of a row (R271): eight lanes and the tree of R49. -/
def rowSumsq (xs : List Nat) : Nat :=
  treeReduce ((List.range 8).map fun l =>
    match ((xs.zip (List.range xs.length)).filter fun p => p.2 % 8 == l).map (·.1) with
    | [] => 0
    | a :: r => r.foldl (fun p x => fma x x p) (fmul a a))

/-- A step of an elementwise operation on widened elements (R268, R272, R273): `s` is the step's factor. -/
def nbElem (op : Nat) (p : List Byte) (tbl : List Byte) (factor a b c : Nat) : Nat :=
  match op with
  | 0x06 => fadd a b
  | 0x07 => fsub a b
  | 0x08 => fmul a b
  | 0x09 => fma a b c
  | 0x0A => fmul a (nbWord p 0)
  | 0x0B => fma b (nbWord p 0) a
  | 0x0D => fmul (fmul a factor) b
  | 0x0E => actTable tbl (nbWord p 1) (nbWord p 2) a
  | 0x10 => fscale a (127 - (leAt p 16 1 : Int))
  | _ => a

/-- A byte of a bitwise operation (R268). -/
def nbByte (op : Nat) (a b : Byte) : Byte :=
  match op with
  | 0x02 => a &&& b
  | 0x03 => a ||| b
  | 0x04 => a ^^^ b
  | 0x05 => ~~~ a
  | _ => a

/-- The place where a step runs. -/
structure NbAt where
  site : Nat
  ch : Nat
  bank : Nat
  step : Nat
  deriving DecidableEq, Repr

/-- The number of a bank in its site. -/
def NbAt.index (a : NbAt) : Nat := 48 * a.ch + a.bank

/-- The rank of a bank among the set bits of BANKMASK (R271). -/
def nbRank (q : BitVec 128) (b : Nat) : Nat := ((bitsOf 48 (nbBankMask q)).filter fun x => decide (x < b)).length

/-- Row `i` of a step: 0 D, 1 A, 2 B, 3 C. -/
def nbStepRow (p : List Byte) (i s : Nat) : Nat := nbRow p i + (if nbAdv p i then s else 0)

/-- Bytes laid into a register from its first byte on: the bytes above them stay. -/
def laidIn {w : Nat} (old : BitVec w) (bs : List Byte) : BitVec w :=
  BitVec.ofNat w (old.toNat / 2 ^ (8 * bs.length) * 2 ^ (8 * bs.length) + leNat bs)

/-- Row `i` of a step read into operand register `i` of the bank's unit (R263, R264). -/
def Device.operand (d : Device) (p : List Byte) (a : NbAt) (i : Nat) : RowRead :=
  let r := d.readRow a.site a.ch a.bank (nbStepRow p i a.step)
  { r with dev := r.dev.modUnit a.site a.index fun u => { u with operands := mset 0 u.operands i (laidIn 0 r.bytes) } }

/-- Results written to a row from byte `x`, from the unit's result register (R263, R264). -/
def Device.storeRow (d : Device) (a : NbAt) (row x : Nat) (bs : List Byte) (bad : List Nat) : Device :=
  (d.modUnit a.site a.index fun u => { u with result := laidIn u.result bs }).writeRow a.site a.ch a.bank row x bs bad

/-- The rounding of a destination element (R269): its generator input is its slice offset divided by its size. -/
def Device.nbRnd (d : Device) (home : Nat) (p : List Byte) (a : NbAt) (row df e : Nat) : Rnd :=
  let w := fmtBits df / 8
  d.rnd home (bit (leAt p 12 1) 0) (leAt p 13 1)
    ((rowAddr a.site a.ch a.bank row (w * e) - sliceBase a.site) / w)

/-- Narrowed FP32 results written to a row from element `o`, with the conversion flags of the issuing core. `bad` says which
elements depend on a bad input: their codewords are written poisoned, and they set no flag (R283). -/
def Device.writeElems (d : Device) (k home : Nat) (p : List Byte) (a : NbAt) (row df o : Nat) (vals : List Nat) (bad : Nat → Bool) :
    Device :=
  let idx := List.range vals.length
  let one := fun (v : Nat × Nat) => narrowF32 df (bit (leAt p 12 1) 1) (d.nbRnd home p a row df (o + v.2)) v.1
  let r := resultsOf ((vals.zip idx).map one)
  let f := resultsOf (((vals.zip idx).filter fun v => !bad v.2).map one)
  let w := fmtBits df / 8
  let cws := (idx.filter bad).map fun e => (o + e) * w / 16
  (d.storeRow a row (w * o) (r.codes.flatMap fun c => leBytes w c) cws).convFlags k f.sat f.nan

/-- A bitwise step (R268). -/
def Device.nbBits (d : Device) (op : Nat) (p : List Byte) (a : NbAt) : Device :=
  let ra := if op = 1 then noRow d else d.operand p a 1
  let rb := if 2 ≤ op ∧ op ≤ 4 then ra.dev.operand p a 2 else noRow ra.dev
  let bytes := if op = 1 then (List.replicate 64 (sliceBytes p 16 16)).flatMap id
    else (List.range 1024).map fun i => nbByte op (ra.bytes.getD i 0) (rb.bytes.getD i 0)
  rb.dev.storeRow a (nbStepRow p 0 a.step) 0 bytes (ra.bad ++ rb.bad)

/-- The SUMSQ of a step formed in the unit's sum register (R271). -/
def Device.nbSumsq (d : Device) (p : List Byte) (a : NbAt) : Device :=
  let f := nbFmt p % 16
  let r := d.operand p a 1
  r.dev.modUnit a.site a.index fun u =>
    { u with
      sum := rowSumsq (rowF32 f 0 (8192 / fmtBits f) r.bytes)
      sumBad := match r.bad with
        | [] => 0
        | c :: _ => rowAddr a.site a.ch a.bank (nbStepRow p 1 a.step) (16 * c) + 1 }

/-- The sum of a SUMSQ step that ends written to the issuing core's scratch (R271); a bad input poisons the word (R283). -/
def Device.nbSumOut (d : Device) (k : Nat) (q : BitVec 128) (p : List Byte) (a : NbAt) : Device :=
  let u := d.nbUnit a.site a.index
  let d := d.writeCore k 7 .scratch (nbWord p 0 + 4 * (64 * a.step + 8 * a.ch + nbRank q a.bank)) (leBytes 4 u.sum) fun _ => u.sumBad
  if u.sumBad = 0 then d else d.count (corReg a.site 0x1118) 1

/-- A step of ADAMW (R274). -/
def Device.nbAdamw (d : Device) (k home : Nat) (p : List Byte) (a : NbAt) : Device :=
  let row := fun i => nbStepRow p i a.step
  let f := nbFmt p % 16
  let o := 256 * nbSub p
  let rd := d.operand p a 0
  let ra := rd.dev.operand p a 1
  let rb := ra.dev.operand p a 2
  let rc := rb.dev.operand p a 3
  let ks := (List.range 9).map fun i => nbWord p i
  let xs := (((rowF32 0 0 256 rd.bytes).zip (rowF32 f o 256 ra.bytes)).zip
    ((rowF32 0 0 256 rb.bytes).zip (rowF32 0 0 256 rc.bytes))).map fun x => adamw ks x.1.1 x.1.2 x.2.1 x.2.2
  let da := (f, o, ra.bad)
  let db := (0, 0, rb.bad)
  let dc := (0, 0, rc.bad)
  let d := rc.dev.writeElems k home p a (row 0) 0 0 (xs.map (·.1)) (dependBad [da, db, dc, (0, 0, rd.bad)])
  let d := d.writeElems k home p a (row 2) 0 0 (xs.map fun x => x.2.1) (dependBad [da, db])
  d.writeElems k home p a (row 3) 0 0 (xs.map fun x => x.2.2) (dependBad [da, dc])

/-- A step of the other arithmetic operations (R268 to R270, R272, R273). -/
def Device.nbArith (d : Device) (k home : Nat) (op : Nat) (p : List Byte) (a : NbAt) : Device :=
  let tbl := leBytes 2048 (d.nbUnit a.site a.index).table.toNat
  let tblBad := !(d.nbUnit a.site a.index).tableBad.isEmpty
  let row := fun i => nbStepRow p i a.step
  let sf := nbFmt p % 16
  let df := nbFmt p / 16
  let n := if op = 0x0F then 256 else 8192 / fmtBits sf
  let so := if op = 0x0F ∧ sf = 1 then 256 * nbSub p else 0
  let dOff := if op = 0x0F ∧ sf = 0 then 256 * nbSub p else if op = 0x10 then n * nbSub p else 0
  let spec := (nbSpec op).rows
  let ra := d.operand p a 1
  let rb := if spec.getD 2 false then ra.dev.operand p a 2 else noRow ra.dev
  let rc := if spec.getD 3 false then rb.dev.operand p a 3 else noRow rb.dev
  let fac := if op = 0x0D then rc.dev.readCore k 7 .scratch (nbWord p 0 + 4 * a.step) 4 else { dev := rc.dev, bytes := [], bad := [] }
  let av := rowF32 sf so n ra.bytes
  let bv := rowF32 sf 0 n rb.bytes
  let cv := rowF32 sf 0 n rc.bytes
  let vals := (List.range n).map fun e => nbElem op p tbl (leNat fac.bytes) (av.getD e 0) (bv.getD e 0) (cv.getD e 0)
  let all := !fac.bad.isEmpty || (op == 0x0E && tblBad)
  fac.dev.writeElems k home p a (row 0) df dOff vals fun e => all || dependBad [(sf, so, ra.bad), (sf, 0, rb.bad), (sf, 0, rc.bad)] e

/-- The body of a step: its rows read, its result computed and written (R264). -/
def Device.nbBody (d : Device) (m : NbCmd) (a : NbAt) : Device :=
  let q := m.cue.cue
  let p := m.cue.param
  match nbOp q with
  | 0x0C => d.nbSumsq p a
  | 0x11 => d.nbAdamw m.core m.cue.home p a
  | op => if op ≤ 5 then d.nbBits op p a else d.nbArith m.core m.cue.home op p a

/-! ### Commands and steps -/

/-- A command of a site changed: the one of a core with an issue order. -/
def Device.modCmd (d : Device) (site core order : Nat) (f : NbCmd → NbCmd) : Device :=
  d.modSite site fun s => { s with cmds := s.cmds.map fun m => if m.core = core ∧ m.cue.order = order then f m else m }

/-- The progress of a command in a bank. -/
def NbCmd.bank (m : NbCmd) (i : Nat) : NbBank := mget NbBank.reset m.banks i

/-- The progress of a command in a bank set. -/
def NbCmd.setBank (m : NbCmd) (i : Nat) (b : NbBank) : NbCmd := { m with banks := mset NbBank.reset m.banks i b }

/-- The steps of a command. -/
def NbCmd.steps (m : NbCmd) : Nat := nbCountM1 m.cue.param + 1

/-- The result of the step that runs in a bank, computed once. -/
def Device.nbCompute (site i : Nat) (m : NbCmd) (d : Device) : Device :=
  let b := m.bank i
  if b.inStep && !b.computed then
    (d.nbBody m { site := site, ch := i / 48, bank := i % 48, step := b.step }).modCmd site m.core m.cue.order fun m =>
      m.setBank i { b with computed := true }
  else d

/-- A command at the head of its queue (R134, R265): refused, accepted by its site, or at work in the banks that are in a step.
`sel` accepts its operation. -/
def Device.nbCommand (sel : Nat → Bool) (k : Nat) (d : Device) : Device :=
  match ((d.core k).queue 7).head? with
  | none => d
  | some q =>
    let site := 24 * towerOf k + nbPos q.cue
    if q.done || !sel (nbOp q.cue) then d
    else if q.started then
      match (d.site site).cmds.find? fun m => m.core == k && m.cue.order == q.order with
      | some m => d.each (nbBanks q.cue) fun i d => d.nbCompute site i m
      | none => d
    else if d.nbMaskBad q.cue then d.cueError k 0x12 q.index q.home 7
    else
      let t := if nbOp q.cue = 0x0E then d.readCore k 7 .scratch (nbWord q.param 0) 2048 else { dev := d, bytes := [], bad := [] }
      (t.dev.modCore k fun c =>
        match c.queue 7 with
        | x :: r => c.setQueue 7 ({ x with started := true } :: r)
        | [] => c).modSite site fun s =>
          { s with cmds := s.cmds ++ [{ core := k, cue := q, table := t.bytes, tableBad := t.bad, banks := [] }] }

/-- The command whose step a bank runs next (R265): the first accepted one that names the bank and has steps left in it. -/
def Site.nextCmd (s : Site) (i : Nat) : Option NbCmd :=
  s.cmds.find? fun m => (nbBanks m.cue.cue).contains i && decide ((m.bank i).step < m.steps)

/-- Whether a bank of a channel is the first of those whose next step waits (R276): the command that arrived first, then the lower
bank number. -/
def Site.startsFirst (s : Site) (ch b : Nat) : Bool :=
  let waits := fun x => (s.nextCmd (48 * ch + x)).isSome && !s.cmds.any fun m => (m.bank (48 * ch + x)).inStep
  let rank := fun x => s.cmds.findIdx fun m =>
    (nbBanks m.cue.cue).contains (48 * ch + x) && decide ((m.bank (48 * ch + x)).step < m.steps)
  (List.range 48).all fun x => !waits x || decide (rank b < rank x) || (rank b == rank x && decide (b ≤ x))

/-- The banks of a channel in a step (R276, R284). -/
def Site.running (s : Site) (ch : Nat) : Nat :=
  ((List.range 48).filter fun b => s.cmds.any fun m => (m.bank (48 * ch + b)).inStep).length

/-- A bank whose debt is 4, or whose layer has moved to a shorter window, is refreshed until it owes nothing (R247, R277); a command
that has begun in the bank is suspended for it (R285), and a refresh at debt 4 counts as forced (R260). -/
def Device.nbRefresh (d : Device) (site ch b : Nat) : Device :=
  let x := (d.chan site ch).bank b
  if x.debt = 4 ∨ x.urgent then
    let begun := match (d.site site).nextCmd (48 * ch + b) with
      | some m => decide (0 < (m.bank (48 * ch + b)).step)
      | none => false
    let d := d.modChan site ch fun c => c.modBank b fun _ => DramBank.reset
    let d := if begun then d.count (corReg site 0x1110) 1 else d
    if x.debt = 4 then d.count (corReg site 0x1090) 1 else d
  else d

/-- A step begins in a bank: its rows will be opened and precharged by the step (R264), and with the first step of an ACT_TABLE the unit loads
the command's table (R273). -/
def Device.stepOpen (site i : Nat) (m : NbCmd) (d : Device) : Device :=
  let d := d.modChan site (i / 48) fun c => c.modBank (i % 48) fun x => { x with openRow := none }
  let d := if nbOp m.cue.cue = 0x0E ∧ (m.bank i).step = 0 then
      d.modUnit site i fun u => { u with table := laidIn u.table m.table, tableBad := m.tableBad } else d
  d.modCmd site m.core m.cue.order fun m => m.setBank i { (m.bank i) with inStep := true, computed := false }

/-- A bank starts its next step (R276): it is the first that waits, fewer than 8 banks of the channel are in a step, and no abort
runs (R282). -/
def Device.stepStart (site ch b : Nat) (d : Device) : Device :=
  let i := 48 * ch + b
  let s := d.site site
  match s.nextCmd i with
  | some m =>
    if d.chanUp site ch && !d.take.aborting && !(m.bank i).inStep && decide (s.running ch < 8) && s.startsFirst ch b then
      (d.nbRefresh site ch b).stepOpen site i m
    else d
  | none => d

/-- NB_STEP_START (R276). -/
def execNbStepStart (site : Fin 480) (ch : Fin 8) (bank : Fin 48) (s : State) : Host.Outcome State Fault Refusal :=
  s.inTower (Device.stepStart site ch bank)

/-- The accesses to a bank among some requests, queued before its boundary, served in the order of R241 (R277); `n` bounds their number. -/
def Device.serveBank (d : Device) (site ch b : Nat) (before : List QReq) : Nat → Device
  | 0 => d
  | n + 1 =>
    match d.grantOf site ch ((d.candidates site ch).filter fun w => (reqPlace w.q.req).bank == b && before.contains w.q) with
    | some w => (d.grantAccess site ch w).serveBank site ch b before n
    | none => d

/-- A command whose every masked bank has done every step is complete (R280). -/
def Device.nbFinish (d : Device) (site : Nat) (m : NbCmd) : Device :=
  match (d.site site).cmds.find? fun x => x.core == m.core && x.cue.order == m.cue.order with
  | some x =>
    if (nbBanks x.cue.cue).all fun i => decide (x.steps ≤ (x.bank i).step) then
      (d.modSite site fun s => { s with cmds := s.cmds.filter fun y => !(y.core == m.core && y.cue.order == m.cue.order) }).modCore
        m.core fun c =>
          match c.queue 7 with
          | q :: r => if q.order = m.cue.order then c.setQueue 7 ({ q with done := true } :: r) else c
          | [] => c
    else d
  | none => d

/-- The step that runs in a bank has ended: its result stands, a SUMSQ's sum goes to scratch, and it is counted (R264, R271, R285). -/
def Device.stepDone (site i : Nat) (m : NbCmd) (d : Device) : Device :=
  let d := d.nbCompute site i m
  let a : NbAt := { site := site, ch := i / 48, bank := i % 48, step := (m.bank i).step }
  let d := if nbOp m.cue.cue = 0x0C then d.nbSumOut m.core m.cue.cue m.cue.param a else d
  (d.modCmd site m.core m.cue.order fun m =>
    m.setBank i { step := (m.bank i).step + 1, inStep := false, computed := false }).count (corReg site 0x1108) 1

/-- A step ends (R277): the boundary's refresh and queued accesses come, and the next step starts; where a unit's access has waited for the
bank (R279), the bank stays free for it, and NB_STEP_START starts the next step. -/
def Device.stepEnd (site ch b : Nat) (d : Device) : Device :=
  let i := 48 * ch + b
  match (d.site site).cmds.find? fun m => (m.bank i).inStep with
  | some m =>
    let d := (d.stepDone site i m).nbFinish site m
    let d := if ((d.site site).nextCmd i).isSome then d.nbRefresh site ch b else d
    let ws := (d.chan site ch).waitingAll
    let d := d.serveBank site ch b (ws.map (·.q)) ws.length
    if d.wanted.contains (site, ch, b) then { d with wanted := d.wanted.filter (· ≠ (site, ch, b)) } else d.stepStart site ch b
  | none => d

/-- The steps that run when a take is aborted end (R282). -/
def Device.endSteps (d : Device) : Device :=
  d.each d.sites fun s d => d.each s.2.cmds fun m d => d.each m.banks fun b d =>
    if b.2.inStep then d.stepDone s.1 b.1 m else d

/-- NB_STEP_END (R277). -/
def execNbStepEnd (site : Fin 480) (ch : Fin 8) (bank : Fin 48) (s : State) : Host.Outcome State Fault Refusal :=
  s.inTower (Device.stepEnd site ch bank)

/-- Whether a near-bank command has not completed (R286). -/
def Device.nbOpen (d : Device) (c : Nat × Nat) : Bool := ((d.core c.1).queue 7).any fun q => q.order == c.2 && !q.done

/-- The commands that the cores of a tower have issued and not completed. -/
def Device.nbIssued (d : Device) (t : Nat) : List (Nat × Nat) :=
  (List.range 24).flatMap fun c =>
    (((d.core (24 * t + c)).queue 7).filter fun q => !q.done).map fun q => (24 * t + c, q.order)

/-- A fence (R286): it covers every command issued and not complete. -/
def Device.nbFence (t : Nat) (d : Device) : Device :=
  if d.up t then d.modTower t fun x => { x with fence := d.nbIssued t } else d

/-- DONE of TWR_NB_FENCE (R286). -/
def Device.nbFenceDone (d : Device) (t : Nat) : Bool := (d.tower t).fence.all fun c => !d.nbOpen c

/-- NB_FENCE_REQ (R286). -/
def execNbFenceReq (t : Fin 20) (s : State) : Host.Outcome State Fault Refusal := s.run (Device.nbFence t)

/-- The meaning of the near-bank rows: the operation that each names. -/
def nbIs (op : Nat) (x : Nat) : Bool := x == op

/-- COPY; a command with an unlisted operation code too, which is an NB_MASK error (R134). -/
def execCopy (c : Fin 480) (s : State) : Host.Outcome State Fault Refusal :=
  s.inTower (Device.nbCommand (fun x => x == 0 || decide (0x11 < x)) c)
/-- FILL. -/
def execFill (c : Fin 480) (s : State) : Host.Outcome State Fault Refusal := s.inTower (Device.nbCommand (nbIs 0x01) c)
/-- AND. -/
def execAnd (c : Fin 480) (s : State) : Host.Outcome State Fault Refusal := s.inTower (Device.nbCommand (nbIs 0x02) c)
/-- OR. -/
def execOr (c : Fin 480) (s : State) : Host.Outcome State Fault Refusal := s.inTower (Device.nbCommand (nbIs 0x03) c)
/-- XOR. -/
def execXor (c : Fin 480) (s : State) : Host.Outcome State Fault Refusal := s.inTower (Device.nbCommand (nbIs 0x04) c)
/-- NOT. -/
def execNot (c : Fin 480) (s : State) : Host.Outcome State Fault Refusal := s.inTower (Device.nbCommand (nbIs 0x05) c)
/-- NB_ADD (R269). -/
def execNbAdd (c : Fin 480) (s : State) : Host.Outcome State Fault Refusal := s.inTower (Device.nbCommand (nbIs 0x06) c)
/-- NB_SUB (R269). -/
def execNbSub (c : Fin 480) (s : State) : Host.Outcome State Fault Refusal := s.inTower (Device.nbCommand (nbIs 0x07) c)
/-- NB_MUL (R269). -/
def execNbMul (c : Fin 480) (s : State) : Host.Outcome State Fault Refusal := s.inTower (Device.nbCommand (nbIs 0x08) c)
/-- NB_FMA (R269). -/
def execNbFma (c : Fin 480) (s : State) : Host.Outcome State Fault Refusal := s.inTower (Device.nbCommand (nbIs 0x09) c)
/-- SCALE. -/
def execScale (c : Fin 480) (s : State) : Host.Outcome State Fault Refusal := s.inTower (Device.nbCommand (nbIs 0x0A) c)
/-- RESADD. -/
def execResadd (c : Fin 480) (s : State) : Host.Outcome State Fault Refusal := s.inTower (Device.nbCommand (nbIs 0x0B) c)
/-- SUMSQ (R271). -/
def execSumsq (c : Fin 480) (s : State) : Host.Outcome State Fault Refusal := s.inTower (Device.nbCommand (nbIs 0x0C) c)
/-- NORM_APPLY (R272). -/
def execNormApply (c : Fin 480) (s : State) : Host.Outcome State Fault Refusal := s.inTower (Device.nbCommand (nbIs 0x0D) c)
/-- ACT_TABLE (R273). -/
def execActTable (c : Fin 480) (s : State) : Host.Outcome State Fault Refusal := s.inTower (Device.nbCommand (nbIs 0x0E) c)
/-- NB_CONVERT (R270). -/
def execNbConvert (c : Fin 480) (s : State) : Host.Outcome State Fault Refusal := s.inTower (Device.nbCommand (nbIs 0x0F) c)
/-- QUANT_FP8. -/
def execQuantFp8 (c : Fin 480) (s : State) : Host.Outcome State Fault Refusal := s.inTower (Device.nbCommand (nbIs 0x10) c)
/-- ADAMW (R274). -/
def execAdamw (c : Fin 480) (s : State) : Host.Outcome State Fault Refusal := s.inTower (Device.nbCommand (nbIs 0x11) c)

end Sys2Proof.Machine
end

