-- ==== Sys2Proof/Machine/Settings.lean ====
section
/-! DEFINITION. The settings block of the slate (R510): its fields, their legal values and defaults, and the settings in force. -/
namespace Sys2Proof.Machine

open Sys2Proof

/-- A field of the settings block: offset, bytes, legal values, default. -/
structure SetField where
  off : Nat
  n : Nat
  lo : Nat
  hi : Nat
  dflt : Nat
  deriving DecidableEq, Repr

/-- The fields with one range of legal values (R510). -/
def settingFields : List SetField :=
  [⟨0x006, 1, 0, 2, 0⟩, ⟨0x007, 1, 1, 255, 16⟩, ⟨0x008, 2, 20, 1000, 100⟩, ⟨0x00A, 2, 1200, 2600, 2200⟩, ⟨0x00C, 1, 60, 95, 95⟩,
   ⟨0x00D, 1, 60, 85, 85⟩, ⟨0x00E, 1, 0x08, 0x77, 0x4E⟩, ⟨0x00F, 1, 0, 1, 1⟩, ⟨0x026, 2, 0, 0xFFF, 0⟩, ⟨0x028, 1, 0, 2, 0⟩] ++
  (List.range 16).map fun p => ⟨0x012 + p, 1, 0, 3, 1⟩

/-- Bytes replaced in a block. -/
def putBytes (l : List Byte) (off : Nat) (bs : List Byte) : List Byte := l.take off ++ bs ++ l.drop (off + bs.length)

/-- A block whose fields are legal, and whether a default was taken. -/
def fixField (a : List Byte × Bool) (f : SetField) : List Byte × Bool :=
  let v := leAt a.1 f.off f.n
  if f.lo ≤ v ∧ v ≤ f.hi then a else (putBytes a.1 f.off (leBytes f.n f.dflt), true)

/-- A field replaced by its default when it is not legal. -/
def fixWhen (bad : List Byte → Bool) (off : Nat) (dflt : List Byte) (a : List Byte × Bool) : List Byte × Bool :=
  if bad a.1 then (putBytes a.1 off dflt, true) else a

/-- The settings in force from a block as read (R510): 4,064 bytes, and whether a default was taken. -/
def settingsOf (raw : List Byte) : List Byte × Bool :=
  let body := raw.take 0xFE0
  let ok := leAt raw 0 4 == 0x53455454 && shake256 body 32 == sliceBytes raw 0xFE0 32
  let start := if ok then (body, false) else (putBytes (List.replicate 0xFE0 0) 0x00F ([0x01, 0xFF, 0xFF] ++ List.replicate 16 1), true)
  let a := settingFields.foldl fixField start
  let a := fixWhen (fun b => leAt b 4 2 != 0x0501) 4 [0x01, 0x05] a
  let a := fixWhen (fun b => decide (0xFFF0 ≤ leAt b 0x010 2) && leAt b 0x010 2 != 0xFFFF) 0x010 [0xFF, 0xFF] a
  let a := fixWhen (fun b => decide (2 ≤ ((sliceBytes b 0x012 16).filter (· == 3)).length)) 0x012 (List.replicate 16 1) a
  let a := fixWhen
    (fun b => decide (leAt b 0x022 1 < 1) || decide (leAt b 0x023 1 < 8) || decide (leAt b 0x024 1 < 2) ||
      decide (24 < leAt b 0x022 1 + leAt b 0x023 1 + leAt b 0x024 1)) 0x022 [2, 16, 6] a
  fixWhen (fun b => decide (2 ^ 24 ≤ leAt b 0x02C 4) || (List.range 12).any fun k => field (leAt b 0x02C 4) (2 * k) 2 == 3)
    0x02C [0, 0, 0, 0] a

/-- A field of the settings in force; before phase 3 has read the block, its default. -/
def Device.setting (d : Device) (off n dflt : Nat) : Nat := if d.start.settings.isEmpty then dflt else leAt d.start.settings off n

/-- ELIGIBLE of the settings block (R409). -/
def Device.eligible (d : Device) : Bool := bit (d.setting 0x00F 1 1) 0
/-- STATIC_ADDR of the settings block; 0xFFFF none. -/
def Device.staticAddr (d : Device) : Nat := d.setting 0x010 2 0xFFFF
/-- PORT_ROLE of a port (R396): OFF for a port fused off. -/
def Device.slateRole (d : Device) (p : Nat) : Nat := if d.portFused p then 0 else d.setting (0x012 + p) 1 1

end Sys2Proof.Machine
end

