-- ==== Sys2Proof/Machine/Slate.lean ====
section
/-! DEFINITION. The slate (R508 to R520): reading and programming the flash, its blocks, the defect map, the wear ledger and the
dailies, the slate-write window and the writes that wait for it (R513, R514, R516). -/
namespace Sys2Proof.Machine

open Sys2Proof

/-! ### The flash -/

/-- Bytes of the flash. It is held in complement, so that an unlisted byte is an erased one, 0xFF (log entry 29). -/
def Device.flashRead (d : Device) (a n : Nat) : List Byte := (d.flash.read a n).map fun b => ~~~ b

/-- Bytes programmed: a bit of the flash goes from 1 to 0 only (R522). -/
def Device.flashProgram (d : Device) (a : Nat) (bs : List Byte) : Device :=
  { d with flash := d.flash.put a ((bs.zip (d.flash.read a bs.length)).map fun p => ~~~ p.1 ||| p.2) }

/-- Whole sectors of 64 KiB erased (R522). -/
def Device.flashErase (d : Device) (a n : Nat) : Device :=
  { d with flash := { d.flash with bytes := d.flash.bytes.filter fun p => decide (p.1 < a) || decide (a + n ≤ p.1) } }

/-- A digest block of 32 B (R509, R510, R519, R520). -/
def digest32 (bs : List Byte) : List Byte := shake256 bs 32

/-! ### Defect records -/

/-- The slots of the defect map from a position: up to the first that is erased whole. -/
def Device.scanDefects (d : Device) : Nat → Nat → List (List Byte)
  | 0, _ => []
  | n + 1, i =>
    let r := d.flashRead (0x01B0000 + 16 * i) 16
    if r.all (· == 0xFF) then [] else r :: d.scanDefects n (i + 1)

/-- The defect map's capacity in records (R518). -/
def defectMax : Nat := 131072

/-- The slots in use of the defect map. -/
def Device.defectSlots (d : Device) : List (List Byte) := d.scanDefects defectMax 0

/-- The committed records of the defect map; torn ones are left out (R516). -/
def Device.defectMap (d : Device) : List (List Byte) := d.defectSlots.filter fun r => r.getD 15 0xFF == 0

/-- A defect found by a test of this start (R517): a target already recorded under its kind appends nothing. -/
def Device.foundDefect (d : Device) (kind target : Nat) : Device := if d.recorded kind target then d else d.note kind 0 target

/-- A repair of connections or lanes (R517, R555): recorded unless the target is, with its REPAIR entry in a log. -/
def Device.foundRepair (d : Device) (source w unit kind target : Nat) : Device :=
  if d.recorded kind target then d else (d.note kind source target).log w 0x09 unit 0 0 (target + kind * 2 ^ 56)

/-! ### The retirement table at start -/

/-- The retirement entry of a record (R309, R518): kind 1 a store slice, 4 a page, 5 a bank. -/
def entryOfRecord (r : List Byte) : Option (BitVec 64) :=
  let e := fun k => some (BitVec.ofNat 64 (k + (if recSource r = 1 then 0 else 8) + recTarget r * 2 ^ 8))
  match recKind r with
  | 1 => e 3
  | 4 => e 1
  | 5 => e 2
  | _ => none

/-- The record of a retirement entry that software added (R312, R517). -/
def recordOfEntry (start : Nat) (e : BitVec 64) : List Byte :=
  let k := field e.toNat 0 2
  defectRecord (if k = 3 then 1 else if k = 1 then 4 else 5) 1 start (field e.toNat 8 32)

/-- Whether two entries have equal KIND and TARGET (R311). -/
def sameEntry (a b : BitVec 64) : Bool := field a.toNat 0 2 == field b.toNat 0 2 && field a.toNat 8 32 == field b.toNat 8 32

/-- An entry added to the table unless an equal one is there, while it has room. -/
def Device.addEntry (d : Device) (e : BitVec 64) : Device :=
  if d.retire.entries.any (sameEntry e) || decide (4096 ≤ d.retire.entries.length) then d
  else { d with retire := { entries := d.retire.entries ++ [e] } }

/-! ### Ledger and dailies -/

/-- A wear-ledger area (R519): 0 A, 1 B. -/
def ledgerBase (i : Nat) : Nat := 0x0090000 + 0x10000 * i

/-- A ledger area as read, when it is valid. -/
def Device.ledgerArea (d : Device) (i : Nat) : Option (List Byte) :=
  let b := d.flashRead (ledgerBase i) 0x8690
  if leAt b 0 4 = 0x57454152 ∧ digest32 (b.take 0x8670) = sliceBytes b 0x8670 32 then some b else none

/-- The ledger area with the higher SEQ: its number and bytes. -/
def Device.newestLedger (d : Device) : Option (Nat × List Byte) :=
  match d.ledgerArea 0, d.ledgerArea 1 with
  | some a, some b => if leAt a 4 4 < leAt b 4 4 then some (1, b) else some (0, a)
  | some a, none => some (0, a)
  | none, some b => some (1, b)
  | none, none => none

/-- A dailies entry as read, when it is valid (R520). -/
def Device.dailiesAt (d : Device) (i : Nat) : Option (List Byte) :=
  let b := d.flashRead (0x00B0000 + 0x10000 * i) 0x1000
  if leAt b 0 4 = 0x4441494C ∧ digest32 (b.take 0xFE0) = sliceBytes b 0xFE0 32 then some b else none

/-- The newest valid dailies entry. -/
def Device.newestDailies (d : Device) : Option (List Byte) :=
  (List.range 16).foldl
    (fun a i =>
      match a, d.dailiesAt i with
      | some x, some y => if leAt x 4 4 < leAt y 4 4 then some y else some x
      | none, y => y
      | x, none => x) none

/-- The sensors excluded by the defect map (R462). -/
def Device.excluded (d : Device) : List Nat := d.recordedTargets 10

/-- The suspect sensors of the run as references of R519: suspects not excluded at start, and the sensors of MIDDLE layers (R460). -/
def Device.runSuspects (d : Device) : List Nat :=
  let layers := fun (l : Nat) => if l = 0 then List.range 34 else if l = 1 then (List.range 26).map (· + 34) else (List.range 4).map (60 + 4 * (l - 2) + ·)
  let tw := (List.range 20).flatMap fun t =>
    ((List.range 112).filter fun i =>
      (d.tower t).suspect.contains i || (d.tower t).middle.any fun l => (layers l).contains i).map fun i => t + i * 2 ^ 8
  let base := [0, 1].flatMap fun h => (d.half h).suspect.map fun i => 20 + i * 2 ^ 8
  let lid := d.thm.lidSuspect.map fun i => 21 + i * 2 ^ 8
  ((tw ++ base ++ lid).filter fun r => !d.excluded.contains r).map fun r => r / 2 ^ 8 + r % 2 ^ 8 * 2 ^ 16

/-- The MIDDLE layers of the run (R460, R519). -/
def Device.runMiddles (d : Device) : List Nat :=
  (List.range 20).flatMap fun t => (d.tower t).middle.map fun l => 16 * t + l

/-- A list of numbers of `n` bytes in a field of `k` entries; an unused entry holds ones (log entry 30). -/
def tableField (n k : Nat) (l : List Nat) : List Byte :=
  (l.take k).flatMap (leBytes n) ++ List.replicate (n * (k - l.length)) 0xFF

/-- The counts of a tower in the ledger (R476, R519): B20, B40, B60, WEAR and four bytes of 0. -/
def Device.wearBytes (d : Device) (t : Nat) : List Byte :=
  let b := thmReg (0x1030 + 128 * t)
  leBytes 4 (d.fieldOf b 0 21) ++ leBytes 4 (d.fieldOf b 21 21) ++ leBytes 4 (d.fieldOf b 42 21) ++
    leBytes 8 (d.reg (thmReg (0x1038 + 128 * t))).toNat ++ [0, 0, 0, 0]

/-- A ledger area without its digest (R519). -/
def Device.ledgerBytes (d : Device) (seq : Nat) : List Byte :=
  let added := d.start.swRetired.take 4096
  let susp := d.runSuspects.take 256
  leBytes 4 0x57454152 ++ leBytes 4 seq ++ ((List.range 20).flatMap d.wearBytes) ++ leBytes 4 added.length ++
    tableField 8 4096 (added.map (·.toNat)) ++ leBytes 4 susp.length ++ tableField 4 256 susp ++ tableField 2 64 d.runMiddles

/-! ### The slate-write window -/

/-- Whether a temperature in 0.125 °C lies from 0 °C to 70 °C. -/
def inWindow (v : Option Int) : Bool :=
  match v with
  | some x => decide (0 ≤ x) && decide (x ≤ 560)
  | none => false

/-- The slate-write window (R514). -/
def Device.slateOpen (d : Device) : Bool := inWindow (d.half 0).value && inWindow (d.half 1).value && inWindow (some d.thm.board)

/-- The PENDING bit of SVC_START_STATUS of a write (R523). -/
def SlateWrite.bit : SlateWrite → Nat
  | .dailies _ => 14
  | .defect _ => 15
  | .ledger _ => 16
  | .cal _ _ => 17

/-- The sector of a dailies entry (R520). -/
def dailiesBase (entry : List Byte) : Nat := 0x00B0000 + 0x10000 * (leAt entry 4 4 % 16)

/-- The ledger area that the next write takes: the older one (R516). -/
def Device.olderLedger (d : Device) : Nat :=
  match d.newestLedger with
  | some (0, _) => 1
  | _ => 0

/-- What a block write does as it begins: it erases what it will program (R513, R516). -/
def Device.beginWrite (d : Device) (w : SlateWrite) : Device :=
  let d := { d with start := { d.start with writing := some w } }
  match w with
  | .defect _ => d
  | .dailies e => d.flashErase (dailiesBase e) 0x10000
  | .ledger _ => d.flashErase (ledgerBase d.olderLedger) 0x10000
  | .cal 1 _ => d.flashErase 0x50000 0x40000
  | .cal 2 _ => d
  | .cal 3 _ => d.flashErase 0x10000 0x40000
  | .cal _ _ => d

/-- A write offered to the slate (R514): it begins when the window is open and no other runs, else it is held with its PENDING bit
set. -/
def Device.offerWrite (d : Device) (w : SlateWrite) : Device :=
  if d.slateOpen && d.start.writing.isNone then d.beginWrite w
  else ({ d with start := { d.start with held := d.start.held ++ [w] } } : Device).setBit (svcReg 0xB000) w.bit

/-- The first held write begins when the window is open (R514). -/
def Device.tryHeld (d : Device) : Device :=
  match d.start.held with
  | w :: r =>
    if d.slateOpen && d.start.writing.isNone then ({ d with start := { d.start with held := r } } : Device).beginWrite w else d
  | [] => d

/-- Records programmed from a slot of the defect map on (R516): a record's bytes, then its commit byte. -/
def Device.programRecords (d : Device) (slot : Nat) (rs : List (List Byte)) : Device := d.flashProgram (0x01B0000 + 16 * slot) rs.flatten

/-- What a block write leaves in the flash when it ends, and the write that follows it (R513, R514, R516). -/
def Device.commitWrite (d : Device) (w : SlateWrite) : Device × Option SlateWrite :=
  match w with
  | .defect rs =>
    let d := { d with kept := { d.kept with records := d.kept.records.filter fun k => !rs.any (sameRecord k) } }
    (d.programRecords d.defectSlots.length (rs.take (defectMax - d.defectSlots.length)), none)
  | .dailies e => (d.flashProgram (dailiesBase e) (e ++ digest32 e), none)
  | .ledger a =>
    let d := d.flashProgram (ledgerBase d.olderLedger) (a ++ digest32 a)
    ({ d with start := { d.start with ledgerSeq := leAt a 4 4 } }, none)
  | .cal 1 s => (d.flashProgram 0x50000 s, some (.cal 2 s))
  | .cal 2 s => (d.flashProgram 0x5003C [0, 0, 0, 0], some (.cal 3 s))
  | .cal 3 s => (d.flashProgram 0x10000 (putBytes s 0x3C [0, 0, 0, 0]), some (.cal 4 s))
  | .cal _ _ => (d.flashErase 0x50000 0x40000, none)

/-- Free bytes programmed: what a write that is cut short leaves (R516; log entry 5). -/
def Device.programFree (d : Device) (a n : Nat) : Device :=
  let x := d.drawBytes n
  x.2.flashProgram a x.1

/-- A write cut short by a reset or a loss of power (R516): what stands in its blocks is free, but its commit is not written. -/
def Device.tearWrite (d : Device) : Device :=
  match d.start.writing with
  | none => d
  | some (.defect rs) =>
    let x := d.draw
    let k := x.1.toNat % (rs.length + 1)
    let n := d.defectSlots.length
    let d := x.2.programRecords n (rs.take k)
    if k < rs.length then d.programFree (0x01B0000 + 16 * (n + k)) 15 else d
  | some (.dailies e) => d.programFree (dailiesBase e) 0x1000
  | some (.ledger _) => d.programFree (ledgerBase d.olderLedger) 0x8690
  | some (.cal 1 _) => (d.programFree 0x50000 0x3C).programFree 0x50040 (221184 - 0x40)
  | some (.cal 2 _) => d.programFree 0x5003C 4
  | some (.cal 3 _) => d.programFree 0x10000 221184
  | some (.cal _ _) => d.programFree 0x50000 221184

end Sys2Proof.Machine
end

