-- ==== Sys2Proof/Machine/UnitMap.lean ====
section
/-! DEFINITION. The logical unit map (R506, R571): the positions that serve the logical cores of a tower, and the towers that join the
map at a REEL_LOAD (R507). -/
namespace Sys2Proof.Machine

open Sys2Proof

/-- TARGET of a core position's defect record (R517, kind 11). -/
def positionTarget (t p : Nat) : Nat := t + p * 2 ^ 5

/-- The usable positions of a tower (R506): those that no record and no test of this start marks as failed. -/
def Device.usablePositions (d : Device) (t : Nat) : List Nat := (List.range 26).filter fun p => !d.recorded 11 (positionTarget t p)

/-- Positions for logical cores from `c` on, `n` of them: their own when usable, else the lowest of the pool. -/
def placeCores (usable : List Nat) : Nat → Nat → List Nat → List (Nat × Nat)
  | 0, _, _ => []
  | n + 1, c, pool =>
    if usable.contains c then (c, c) :: placeCores usable n (c + 1) pool
    else
      match pool with
      | p :: r => (c, p) :: placeCores usable n (c + 1) r
      | [] => placeCores usable n (c + 1) []

/-- The map of a tower from its usable positions and the variant's count of cores (R506). -/
def unitMap (usable : List Nat) (var : Nat) : List (Nat × Nat) :=
  let k := min var usable.length
  placeCores usable k 0 (usable.filter fun p => decide (k ≤ p))

/-- The map of a lit tower formed (R506). -/
def Device.formMap (t : Nat) (d : Device) : Device :=
  let u := d.usablePositions t
  let m := unitMap u (variantCores d.fuses.variant)
  d.modTower t fun x => { x with lumap := m.foldl (fun a p => mset 31 a p.1 p.2) [], cores := m.length }

/-- Towers that have been lit since ready join the map (R507). -/
def Device.joinMap (d : Device) : Device :=
  let ts := d.start.heldDark.filter fun t => (d.tower t).lit
  { d.each ts Device.formMap with start := { d.start with heldDark := d.start.heldDark.filter fun t => !(d.tower t).lit } }

end Sys2Proof.Machine
end

