-- ==== Sys2Proof/Machine/Takes.lean ====
section
/-! DEFINITION. Takes: REEL_LOAD, TAKE_START and TAKE_STOP (R98, R436), the exchange of continuity (R353), what a take start sets
(R90, R173, R255, R316, R413, R431, R575), the end of a take, and the completion of an abort (R556). -/
namespace Sys2Proof.Machine

open Sys2Proof

/-! ### Settings as they read -/

/-- The members of a multicast register of a half that exist: logical cores with arrays of that half (R214). -/
def Device.mcastMask (d : Device) (h w : Nat) : Nat :=
  (List.range 64).foldl (fun a i => if 64 * w + i < 240 ∧ d.hasArray (240 * h + 64 * w + i) then a + 2 ^ i else a) 0

/-- An STO_MCAST register as it reads: bits of cores without an array read 0 (R214, R230). -/
def Device.mcastView (d : Device) (h i : Nat) : W64 :=
  d.reg (stoReg h (0x10000 + 8 * i)) &&& BitVec.ofNat 64 (d.mcastMask h (i % 4))

/-- Whether merge region r of a half stands within its store (R224). -/
def Device.mergeLegal (d : Device) (h r : Nat) : Bool :=
  mergeBounds h (field (d.reg (stoReg h (0x20000 + 16 * r))).toNat 12 36) (field (d.reg (stoReg h (0x20008 + 16 * r))).toNat 12 36)

/-- STO_MERGE_LO as it reads: EN reads 0 in a region that breaks R224. -/
def Device.mergeView (d : Device) (h r : Nat) : W64 :=
  let v := d.reg (stoReg h (0x20000 + 16 * r))
  if d.mergeLegal h r then v else v &&& ~~~(1 : W64)

/-- The take settings of R348 in register-address order, each register as 8 bytes. -/
def Device.settingsImage (d : Device) : List Byte :=
  ([0, 1].flatMap fun h =>
    ((List.range 1024).flatMap fun i => leBytes 8 (d.mcastView h i).toNat) ++
    ((List.range 16).flatMap fun r =>
      leBytes 8 (d.mergeView h r).toNat ++ leBytes 8 (d.reg (stoReg h (0x20008 + 16 * r))).toNat) ++
    leBytes 8 (d.reg (stoReg h 0x40000)).toNat ++ leBytes 8 (d.reg (stoReg h 0x40008)).toNat) ++
  (List.range 480).flatMap fun k => leBytes 8 (if d.hasArray k then (d.reg (corReg k 0x700)).toNat else 0)

/-- The take settings digest (R353). -/
def Device.settingsDigest (d : Device) : List Byte := shake256 d.settingsImage 32

/-- The fingerprint in force (R364). -/
def Device.fprint (d : Device) : List Byte := (List.range 4).flatMap fun w => leBytes 8 (d.reg (svcReg (0x9000 + 8 * w))).toNat

/-! ### Take start -/

/-- An entry of a descriptor image as the loader stores it (R90, R97): generation 1, each word poisoned whose source was bad (R293). -/
def imageDesc (r : ReadRes) (a : Nat) : DescEntry :=
  { bits := BitVec.ofNat 256 (withField (leNat r.bytes) 73 8 0), gen := 1,
    syn0 := if r.bad.any fun b => decide (b < a + 16) then poisonSyn else 0
    syn1 := if r.bad.any fun b => decide (a < b) then poisonSyn else 0 }

/-- The descriptor table that the loader leaves at take start (R90, R97): `n` entries from an address on, the first stored word under the
flip mask armed for the table (R304). -/
def Device.loadTable (d : Device) (k a n : Nat) : Device × SMap DescEntry :=
  (List.range n).foldl
    (fun (acc : Device × SMap DescEntry) e =>
      let r := acc.1.serviceRead (a + 32 * e) 32
      let f := r.dev.takeFlip (corReg k 0x1200) 5 0
      (f.2, mset DescEntry.reset acc.2 e ((imageDesc r (a + 32 * e)).struck f.1))) (d, [])

/-- The initial descriptor image of a core: its address and entries; none where its index entry may not be used, which is a base die fault
(R558; log entry 94). -/
def Device.reelImage (d : Device) (r : Reel) (k : Nat) : Device × Nat × Nat :=
  let e := d.serviceRead (r.base + r.descIndex + 16 * k) 16
  if e.bad.isEmpty then (e.dev, r.base + leAt e.bytes 0 8, leAt e.bytes 8 2) else (e.dev.badService, 0, 0)

/-- A descriptor of a core's table that the attention unit takes at take start: none when it is invalid. One whose words may not be used is a
consumption fault of the attention unit (R295), at the address that `a` gives for its byte of the table. -/
def Device.poolEntry (d : Device) (k : Nat) (a : Nat → Nat) (t : SMap DescEntry) (e : Nat) : Device × Option (BitVec 256) :=
  let x := mget DescEntry.reset t e
  let w := descRead x
  if w.1.bad then (d.consume k 4 (a (32 * e)), none)
  else if w.2.bad then (d.consume k 4 (a (32 * e + 16)), none)
  else (d, if descValid (descBits x) then some (descBits x) else none)

/-- The page headers of a pool at take start: STATE FREE, GEN 0, PAGE_ID p (R173). -/
def Device.freePool (pool : BitVec 256) (d : Device) : Device :=
  d.each (List.range (poolFrames pool)) fun p d =>
    d.serviceWrite (poolAddr pool p) (leBytes 3 p ++ List.replicate 61 0)

/-- A core at take start (R90, R171, R173, R575): the descriptor table and the pool that the reel gives it. -/
def Device.startCore (k : Nat) (d : Device) : Device :=
  match d.take.reel with
  | none => d
  | some r =>
    let i := d.reelImage r k
    let t := i.1.loadTable k i.2.1 i.2.2
    let pool := t.1.poolEntry k (i.2.1 + ·) t.2 767
    let log := if pool.2.isSome then pool.1.poolEntry k (i.2.1 + ·) t.2 766 else (pool.1, none)
    let d := log.1.modCore k fun c =>
      { c with
        descs := t.2, groups := [], used := [], quar := [], cursor := 0, flushes := 0, next := none, list := [],
        pool := pool.2, flushLog := log.2 }
    match pool.2 with
    | some b => d.freePool b
    | none => d

/-- A DRAM site leaves self-refresh (R255). -/
def Site.wake (x : Site) : Site := { x with srBase := false, parked := false, chans := x.chans.map fun p => (p.1, { p.2 with selfRefresh := false }) }

/-- A capacity-memory channel in self-refresh returns to service (R439). -/
def Device.wakeLpd (d : Device) : Device :=
  d.each (List.range 12) fun k d =>
    if d.fieldOf (lpdReg (0x100 + 8 * k)) 0 2 = 3 then d.setField (lpdReg (0x100 + 8 * k)) 0 2 2 else d

/-- A take prepared (R90, R173, R255, R316, R345, R413, R575): descriptor tables and pools, the arithmetic registers, GAF_FRAME and
GAF_SLACK.MIN, the frozen fabric; memories leave self-refresh. A take that resumes has its tables and pools from its save image instead.
Collective engines count afresh, and so do landing counters unless a save image restores them (log entry 127). -/
def Device.prepareTake (n parts : Nat) (fresh : Bool) (d : Device) : Device :=
  let d := d.each (List.range 480) fun k d => if d.up (towerOf k) then d.modSite k Site.wake else d
  let d := d.wakeLpd
  let d := d.each (List.range 480) fun k d => d.each [0x200, 0x208, 0x600, 0x608] fun o d => d.setReg (corReg k o) 0
  let d := if fresh then d.each d.arrays Device.startCore
    else d.each d.arrays fun k d => d.modCore k fun c => { c with next := none, list := [] }
  let d := (d.setField (gafReg 0x28) 0 48 n).setField (gafReg 0x40) 24 24 0xFFFFFF
  let d := d.setBit (fabReg 0) 3
  let d := { d with fab := { d.fab with frozen := d.upPorts, jobs := [], leaving := [] } }
  let d := { d with cont := { d.cont with mine := [], theirs := [], partnerOutcome := none, late := false, darkRun := 0 } }
  d.modTake fun t =>
    { t with
      stopping := false, frameRuns := false, frameDone := false, decision := none, eastResults := false, eastOutcome := false,
      gateSlots := [], decl := [], rotating := [], guardRun := 0, guardForced := false, signals := [], placed := [], parts := parts,
      landing := if fresh then [] else t.landing }

/-- The exchange message of R353, as R418 lays it down. -/
def helloMessage (fp digest : List Byte) : List Byte := [0xC5] ++ List.replicate 7 0 ++ fp ++ digest

/-- The fabric thaws (R413). -/
def Device.thaw (d : Device) : Device := { d.setField (fabReg 0) 3 1 0 with fab := { d.fab with frozen := [] } }

/-- The take waits for its tick (R436). -/
def Device.armTake (d : Device) : Device :=
  (d.modTake fun t => { t with starting := true }).prepareTake 0 (max 1 (d.fieldOf (fabReg 0) 32 16)) true

/-- The exchange of continuity judged (R353): the take starts only when fingerprints and settings digests are equal; else FPRINT_DIFF
is set and the command ends. -/
def Device.judgeHello (d : Device) : Device :=
  match d.cont.waiting, d.cont.hello with
  | true, some m =>
    let d := { d with cont := { d.cont with waiting := false, hello := none } }
    if m.1 = d.fprint ∧ m.2 = d.settingsDigest then
      if d.mbx.op = 5 then d.modTake fun t => { t with starting := true } else d.armTake
    else (((d.setBit (svcReg 0x9020) 1).thaw.mbxEndOf 1 4).mbxEndOf 2 4).mbxEndOf 5 4
  | _, _ => d

/-- A take start accepted (R431, R436): doorbell counts clear; in continuity the part sends its exchange message and waits. -/
def Device.acceptStart (d : Device) : Device :=
  let d := { d with host := { d.host with doorbells := [] } }
  if d.bitOf (svcReg 0x9100) 0 then
    (({ d with cont := { d.cont with waiting := true } } : Device).sendCont (helloMessage d.fprint d.settingsDigest)).judgeHello
  else d.armTake

/-- SURVIVAL of R343. -/
def Device.survival (d : Device) : Bool := d.bitOf (gafReg 0x18) 9

/-- UNLOCKED of TST_STATUS (R551). -/
def Device.unlocked (d : Device) : Bool := d.bitOf (tstReg 0) 1

/-- TAKE_START (R251, R436, R471, R551): a reel must be loaded, and no take runs on an unlocked part; the retirement copies come first. -/
def Device.takeStartCmd : Device → Device :=
  Device.mbxWhen 0x02 (fun d => d.idleTake && d.take.state == 1 && !d.survival && !d.unlocked) fun d => d.copyBanks.acceptStart

/-- TAKE_START (R436). -/
def execTakeStart (s : State) : Host.Outcome State Fault Refusal := s.run (Device.whole Device.takeStartCmd)

/-- REEL_LOAD (R98, R436, R437, R507, R576): the retirement copies end (R251), towers lit since ready join the map,
and the reel is checked; with START it is then a take start. -/
def Device.reelLoadCmd : Device → Device :=
  Device.mbxWhen 0x01 (fun d => d.idleTake && !(bit (d.mbxArg 1) 0 && (d.survival || d.unlocked))) fun d =>
    let r := d.copyBanks.joinMap.unloadReel.checkReel (d.mbxArg 0)
    match r.reel with
    | .error o => { r.dev with mbx := { r.dev.mbx with result := some 5, arg3 := some (BitVec.ofNat 64 o) } }
    | .ok x => if bit (d.mbxArg 1) 0 then (r.dev.takeReel x).acceptStart else (r.dev.takeReel x).mbxEnd 0

/-- REEL_LOAD (R98). -/
def execReelLoad (s : State) : Host.Outcome State Fault Refusal := s.run (Device.whole Device.reelLoadCmd)

/-- The outcome message of continuity (R356, R418). -/
def contOutcomeMessage (n : Nat) (pass : Bool) : List Byte :=
  [0xC6] ++ List.replicate 7 0 ++ leBytes 6 n ++ [if pass then 1 else 0, 0]

/-- Whether the take that runs or starts is in continuity (R365). -/
def Device.inContinuity (d : Device) : Bool := d.bitOf (svcReg 0x9100) 0 && (d.take.state == 2 || d.take.starting)

/-- The part's release outcome sent across the mirror link (R356, R418). -/
def Device.vote (d : Device) (pass : Bool) : Device :=
  if d.inContinuity then d.sendCont (contOutcomeMessage d.nextFrame pass) else d

/-- TAKE_STOP (R436): later frames run dark, and the take ends when the running frame has ended. In continuity a vote already given for the
next frame is taken back (R356; log entry 151). -/
def Device.takeStopCmd : Device → Device :=
  Device.mbxWhen 0x03 (fun d => d.take.state == 2 || d.take.state == 3) fun d =>
    if d.take.state = 3 then d.mbxEnd 6
    else (if d.take.eastOutcome then d.vote false else d).modTake fun t => { t with stopping := true, decision := none }

/-- TAKE_STOP (R436). -/
def execTakeStop (s : State) : Host.Outcome State Fault Refusal := s.run Device.takeStopCmd

/-- CONT_EXCHANGE (R353): the partner's message is held and judged once the own start waits for it. -/
def Device.contHello (fp digest : List Byte) (d : Device) : Device :=
  d.contIn (helloMessage fp digest) fun d =>
    if d.bitOf (svcReg 0x9100) 0 && !d.inTake then ({ d with cont := { d.cont with hello := some (fp, digest) } } : Device).judgeHello
    else d

/-- CONT_EXCHANGE (R353). -/
def execContExchange (fingerprint digest : List Byte) (s : State) : Host.Outcome State Fault Refusal :=
  s.onClock (Device.contHello fingerprint digest)

/-! ### The end of a take -/

/-- A core with no list to run. -/
def Core.stand (c : Core) : Core :=
  { c with cueState := 0, list := [], next := none, held := none, ending := false, ended := false, loops := [], pc := 0, rotated := false,
           clock := { c.clock with asked := none } }

/-- The take ends without a fault (R99, R436): the reel stays loaded (log entry 18). -/
def Device.endTake (d : Device) : Device :=
  let d := d.each (d.cores.map (·.1)) fun k d => d.modCore k Core.stand
  (d.modTake fun t =>
    { t with state := 1, starting := false, stopping := false, frameRuns := false, frameDone := false, decision := none,
             eastResults := false, eastOutcome := false, overcurrent := false, signals := [], placed := [] }).thaw

/-- A core at the end of an abort (R556): every bank FREE, no accumulator set busy. The array's ramp-down goes on under R68. -/
def Core.afterAbort (c : Core) : Core :=
  { c.stand with banks := [], set0 := none, set1 := none, unloads := [], stream := [], queues := [], next := none,
                 clock := { c.clock with set0 := 0, set1 := 0, path := 0, asked := none } }

/-- A transaction whose requester has gone. -/
def Tag.forget (t : Tag) : Tag :=
  match t.owner with
  | .dma _ _ _ => { t with owner := .none }
  | .mcast _ _ => { t with owner := .none }
  | _ => t

/-- Tower DRAM and capacity memory in self-refresh (R255, R439). -/
def Device.sleepMemories (d : Device) : Device :=
  let d := d.each (List.range 480) fun k d => d.modSite k Site.sleep
  d.each (List.range 12) fun k d =>
    if d.fieldOf (lpdReg (0x100 + 8 * k)) 0 2 = 2 then d.setField (lpdReg (0x100 + 8 * k)) 0 2 3 else d

/-- Every merge-buffer entry completes (R300, R556). -/
def Device.flushMerges (d : Device) : Device :=
  d.each [0, 1] fun h d =>
    d.each (d.half h).merge fun p d => d.each p.2 fun e d => d.completeMerge h p.1 e.cw

/-- What the DMA units of an aborted take have issued to the channels of a site ends (R556): the channels serve it, with what else waits
there. -/
def Device.endIssued (k : Nat) (d : Device) : Device :=
  let d := d.modSite k fun x => { x with cmds := [] }
  d.each (List.range 8) fun ch d =>
    let c := d.chan k ch
    let n := c.native.length + c.narrow.length + c.atSource.length
    if n = 0 || !d.chanUp k ch then d else d.drainChan k ch (n + turnFuel)

/-- A request of a core's unit that no longer has a cue. -/
def QReq.forget (q : QReq) : QReq :=
  match q.owner with
  | .dma _ _ _ => { q with owner := .none }
  | .gather _ _ => { q with owner := .none }
  | _ => q

/-- What still waits in the channels of a site has no cue any more. -/
def Site.forget (x : Site) : Site :=
  { x with chans := x.chans.map fun p =>
      (p.1, { p.2 with native := p.2.native.map QReq.forget, narrow := p.2.narrow.map QReq.forget, atSource := p.2.atSource.map QReq.forget }) }

/-- Memories at the end of an abort (R255, R439, R556): in self-refresh, the DRAM of a tower in service under base-die control until its
controller takes it back (log entry 102). -/
def Device.parkMemories (d : Device) : Device :=
  d.sleepMemories.each (List.range 480) fun k d => if d.up (towerOf k) then d.modSite k fun x => { x with parked := true } else d

/-- The abort ends (R556, step 4): vector 3, the reel unloaded, memories in self-refresh, and lost towers begin to rejoin. -/
def Device.abortEnd (d : Device) : Device :=
  if d.take.state = 3 ∧ d.take.aborting then
    let d := d.endSteps
    let d := d.each (d.sites.map (·.1)) fun k d => d.endIssued k
    let d := d.each (d.cores.map (·.1)) fun k d => (d.rampStop k).modCore k Core.afterAbort
    let d := d.each (d.sites.map (·.1)) fun k d => d.modSite k Site.forget
    let d := d.each [0, 1] fun h d => d.modHalf h fun x => { x with tags := x.tags.map fun p => (p.1, p.2.forget), mcasts := [] }
    let d := d.flushMerges
    let d := (d.modTake fun t =>
      { t with state := 0, aborting := false, reel := none, overcurrent := false, starting := false, stopping := false, frameRuns := false,
               frameDone := false, decision := none, signals := [], placed := [] }).unloadReel.thaw
    let d := (d.event 3).parkMemories
    d.each (List.range 20) Device.autoRejoin
  else d

/-- ABORT_COMPLETE (R556). -/
def execAbortComplete (s : State) : Host.Outcome State Fault Refusal := s.run Device.abortEnd

end Sys2Proof.Machine
end

