-- ==== Sys2Proof/Machine/Frames.lean ====
section
/-! DEFINITION. Frames: the energy budget (R332 to R335), the release decision (R326 to R328, R356), the tick and what it applies
(R27, R78, R316, R329 to R331, R338), the clapper across the fabric (R318 to R323), landing counters (R325) and the outcomes of
continuity (R356, R357). -/
namespace Sys2Proof.Machine

open Sys2Proof

/-! ### Settings of the gaffers as they act (R342) -/

/-! ### Temperatures as the gaffers take them -/

/-- A layer value in 0.125 °C, by layer index λ of R476; none before the first reading. -/
def Tower.layerVal (t : Tower) (l : Nat) : Option Int :=
  let v := mget noReading t.layer l
  if v = noReading then none else some v

/-- The largest of the values, none when any is missing. -/
def hottest : List (Option Int) → Option Int
  | [] => none
  | [a] => a
  | a :: r =>
    match a, hottest r with
    | some x, some y => some (max x y)
    | _, _ => none

/-- T_L: the hottest logic layer (R461). -/
def Tower.logicTemp (t : Tower) : Option Int := hottest [t.layerVal 0, t.layerVal 1]
/-- T_D: the hottest DRAM layer (R461). -/
def Tower.dramTemp (t : Tower) : Option Int := hottest ((List.range 13).map fun k => t.layerVal (k + 2))

/-! ### The budget -/

/-- One node of the thermal limit (R332): heat capacity and conductance as FP32 codes, the target in °C, the node's value and T_in
in 0.125 °C. -/
def Device.nodeLimit (d : Device) (c g target : Nat) (v tin : Int) : Frac :=
  let p : Frac := .ofInt d.period
  let rise : Frac := .of (8 * target - v) 8
  let store := (((Frac.ofInt 1000000).mul (f32Frac c)).mul rise).mul (.of d.period (1000 * d.horizon))
  store.add ((p.mul (f32Frac g)).mul (.of (max 0 (v - tin)) 8))

/-- The thermal limit: the lesser node, at least 0; 0 while a temperature is missing (R332; log entry 24). -/
def Device.thermalLimit (d : Device) (t : Nat) : Frac :=
  match (d.tower t).logicTemp, (d.tower t).dramTemp, d.thm.tin with
  | some l, some m, some i =>
    let p := d.thermalParam t
    ((d.nodeLimit (p 11) (p 12) 100 l i).min (d.nodeLimit (p 13) (p 14) 91 m i)).max (.ofInt 0)
  | _, _, _ => .ofInt 0

/-- The cap limit (R332). -/
def Device.capLimit (d : Device) (t : Nat) : Nat :=
  if d.take.lastDecl.getD t 0 ≤ d.sustW * d.period then d.peakW * d.period else d.sustW * d.period

/-- The supply limit (R332, R486): V_t × 9.2 A × N_t × P. -/
def Device.supplyLimit (d : Device) (t : Nat) : Frac :=
  .of ((620 + 5 * d.fieldOf (twrReg t 0x303000) 0 6) * 92 * d.fieldOf (twrReg t 0x303000) 8 5 * d.period) 10000

/-- Whether the budget of a tower is forced to 0 (R333, R464, R487). -/
def Device.budgetForced (d : Device) (t : Nat) : Bool :=
  !(d.tower t).throttle.isEmpty || (d.half (halfOf t)).throttle || d.bitOf (twrReg t 0x303000) 15

/-- The budget of a tower and the limit that set it, the lowest code among equals (R333). -/
def Device.budget (d : Device) (t : Nat) : Nat × Nat :=
  if d.budgetForced t then (0, 3)
  else
    let a := Frac.ofInt (d.capLimit t)
    let b := d.supplyLimit t
    let c := d.thermalLimit t
    if a.le b && a.le c then (a.floor.toNat, 0)
    else if b.le c then (b.floor.toNat, 1)
    else (c.floor.toNat, 2)

/-- The budgets recorded in GAF_TWRt (R333, R347). -/
def Device.setBudgets (d : Device) : Device :=
  d.each (List.range 20) fun t d =>
    let b := d.budget t
    d.setReg (gafReg (0x1010 + 32 * t)) (BitVec.ofNat 64 (b.1 + b.2 * 2 ^ 32))

/-! ### Coolant flow -/

/-- W_rem in W (R335). -/
def Device.heatRemoved (d : Device) : Frac := d.usedFlow.mul (.of (39 * d.coolRise) 600)

/-- The flows recorded in GAF_FLOW, whole mL/min (R346; log entry 25), FLOW_LOW (R335), and FLOW_MIN with vector 7 (R469). -/
def Device.recordFlow (d : Device) : Device :=
  let der := match d.derivedFlow with
    | some f => min 0xFFFE f.floor.toNat
    | none => 0xFFFF
  let v := min 0xFFFF d.reportedFlow + der * 2 ^ 16 + min 0xFFFF d.usedFlow.floor.toNat * 2 ^ 32
  let low := d.heatRemoved.lt (.ofInt d.pkgW)
  let slow := d.usedFlow.lt (.ofInt 2000)
  let d := d.setReg (gafReg 0x50) (BitVec.ofNat 64 v)
  let d := if low then d.setBit (gafReg 0x18) 4 else d
  if slow && !d.bitOf (thmReg 0) 7 then (d.setBit (thmReg 0) 7).event 7 else d

/-! ### The release decision -/

/-- X_t (R331). -/
def Device.excess (d : Device) (t : Nat) : Nat := d.fieldOf (gafReg (0x1018 + 32 * t)) 0 32

/-- The package check (R335) for the declarations of the frame to run. -/
def Device.packageOk (d : Device) (decl : List Nat) : Bool :=
  let loss := Frac.of d.lossMilli 1000
  let measured := (List.range 20).foldl (fun a t => a + d.fieldOf (gafReg (0x1008 + 32 * t)) 0 32) 0
  let rest := ((Frac.ofInt d.take.lastInput).sub (loss.mul (.ofInt measured))).max (.ofInt 0)
  let demand := (List.range 20).foldl (fun a t => a + decl.getD t 0 + d.excess t) 0
  let plim := ((Frac.ofInt d.pkgW).min (.of (18 * d.vinA) 10)).min d.heatRemoved
  (rest.add (.ofInt (loss.mul (.ofInt demand)).ceil)).le (plim.mul (.ofInt d.period))

/-- What a landing counter has counted for a stamp (R325). -/
def Device.landed (d : Device) (c stamp : Nat) : Nat := mget 0 (mget [] d.take.landing c) stamp

/-- The landing slots that a gate of frame n tests: counter and stamp. A gate whose DIST exceeds n tests none (R96). -/
def gateSlot (g : List Byte) (n : Nat) : Option (Nat × Nat) :=
  if leAt g 0 1 = 1 ∧ leAt g 1 1 ≤ n then some (leAt g 2 2, n - leAt g 1 1) else none

/-- Whether a gate of frame n is satisfied (R96). -/
def Device.gateOk (d : Device) (g : List Byte) (n : Nat) : Bool :=
  let bytes := leAt g 4 4
  if leAt g 0 1 = 2 then decide (bytes ≤ mget 0 d.host.doorbells (leAt g 2 2))
  else match gateSlot g n with
    | some p => decide (bytes ≤ d.landed p.1 p.2)
    | none => true

/-- The lowest home index whose core lacks its next list (R89, R328), by the frame's core index and the rings that rotate; an EMPTY entry has
no list to lack. -/
def Device.lackingList (d : Device) (n : Nat) (es : List CoreEntry) (rot : List Nat) : Option Nat :=
  (List.range 480).find? fun h =>
    d.hasArray h && (d.core (placeOf (rot.contains (h / 6)) n h)).next.isNone &&
      match es[h]? with
      | some e => !e.empty
      | none => true

/-- The first failing check of R328, or a release. -/
def Device.outcomeOf (d : Device) (n : Nat) (decl : List Nat) (gates : List (List Byte)) (es : List CoreEntry) (rot : List Nat) : Outcome :=
  let none' : Outcome := { reason := 0, tower := 0, gate := 0, core := 0 }
  if d.bitOf (gafReg 0x10) 0 then { none' with reason := 1 }
  else if !(d.bitOf (gafReg 0x18) 1 || d.bitOf (gafReg 0x18) 2 || d.bitOf (gafReg 0x18) 3) then { none' with reason := 2 }
  else match d.lackingList n es rot with
    | some h => { none' with reason := 3, core := h }
    | none =>
      match findIdx (fun g => !d.gateOk g n) gates with
      | some i => { none' with reason := 4, gate := i }
      | none =>
        match (List.range 20).find? fun t => (d.budget t).1 < decl.getD t 0 + d.excess t with
        | some t => { none' with reason := 5, tower := t }
        | none =>
          if d.take.overcurrent || !d.packageOk decl then { none' with reason := 6 }
          else if d.take.guardForced || decide (64 ≤ d.take.guardRun) then { none' with reason := 7 }
          else none'

/-- The decision of the frame n to run, from its frame table entry `e`, gates `g` and core index `i` as read. -/
def Device.decideFrame (d : Device) (r : Reel) (n : Nat) (e g i : List Byte) : Device :=
  let gates := chunksOf 16 g
  let decl := (List.range 20).map fun t => leAt e (0x20 + 4 * t) 4
  let es := coreEntries i
  let rot := (List.range 80).filter fun q => d.ringRotates r q ((es.drop (6 * q)).take 6)
  let o := d.outcomeOf n decl gates es rot
  let d := d.modTake fun t =>
    { t with decision := some o, eastResults := false, eastOutcome := false, gateSlots := gates.filterMap fun g => gateSlot g n
             decl := decl, rotating := rot }
  { d with cont := { d.cont with late := false } }

/-- The sampling point of frame n in frame table entry j: its entry, gates and core index are read; a bad word that the gaffers consume is a
base die fault, and is used for nothing (R295, R558). -/
def Device.sample (d : Device) (r : Reel) (n j : Nat) : Device :=
  let e := d.serviceRead (r.base + r.frameTable + 128 * j) 128
  if !e.bad.isEmpty then e.dev.badService
  else
    let g := e.dev.serviceRead (r.base + leAt e.bytes 0x10 8) (16 * leAt e.bytes 8 4)
    if !g.bad.isEmpty then g.dev.badService
    else
      let i := g.dev.serviceRead (r.base + leAt e.bytes 0 8) 3840
      if !i.bad.isEmpty then i.dev.badService else i.dev.decideFrame r n e.bytes g.bytes i.bytes

/-- SAMPLING_POINT (R328, R332 to R335): flows and budgets, and in a take the decision for the next frame. -/
def Device.samplingPoint (d : Device) : Device :=
  let d := d.recordFlow.setBudgets
  match d.take.reel with
  | some r =>
    if (d.take.state == 2 || d.take.starting) && !d.take.stopping then
      match r.entryIndex d.nextFrame with
      | some j => d.sample r d.nextFrame j
      | none => d
    else d
  | none => d

/-- SAMPLING_POINT (R328). -/
def execSamplingPoint (s : State) : Host.Outcome State Fault Refusal := s.onClock (Device.whole Device.samplingPoint)

/-- The gaffer outcome message (R377). -/
def Device.outcomeMessage (d : Device) (o : Outcome) : List Byte :=
  [0x6A, BitVec.ofNat 8 o.reason] ++ leBytes 6 d.nextFrame ++ leBytes 4 ((d.framePeriod : Int) + d.tickMove).toNat ++ [0, 0, 0, 0]

/-- The SVC entries of a message on the service-plane stream (R375): 5 bytes each, the last filled up with zeros. -/
def svcEntries (bs : List Byte) : List Nat := (chunksOf 5 bs).map fun c => 6 + leNat c * 2 ^ 4

/-- The outcome message sent to the east gaffer (R328, R377): the west's next frame has the length that it gives. -/
def Device.sendOutcome (d : Device) (o : Outcome) : Device :=
  (d.modTake fun t => { t with west := { t.west with next := leAt (d.outcomeMessage o) 8 4 } }).sendService true (svcEntries (d.outcomeMessage o))

/-- The east half's results reach the west gaffer, which returns the outcome over the service/tick module (R328, R377, R378). -/
def Device.gafferResults (d : Device) : Device :=
  match d.take.decision with
  | some o =>
    if d.take.eastResults then d
    else
      let d := d.modTake fun t => { t with eastResults := true }
      (d.emit (.serviceStream true (d.outcomeMessage o))).sendOutcome o
  | none => d

/-- GAFFER_RESULTS (R328). -/
def execGafferResults (s : State) : Host.Outcome State Fault Refusal := s.onClock Device.gafferResults

/-- The outcome reaches the east gaffer: both hold it (R328), and in continuity it is the part's vote (R356; log entry 151). -/
def Device.gafferOutcome (d : Device) : Device :=
  match d.take.decision with
  | some o =>
    if d.take.eastResults && !d.take.eastOutcome then
      (d.modTake fun t => { t with eastOutcome := true }).vote (o.reason == 0 && !d.take.overcurrent && !d.cont.late)
    else d
  | none => d

/-- The outcome reaches the east gaffer with the length of the next frame, to which the east die counts (R377). -/
def Device.toldLength (n : Nat) (d : Device) : Device :=
  if d.take.decision.isSome && d.take.eastResults then
    (d.modTake fun t => { t with east := { t.east with next := n } }).gafferOutcome
  else d

/-- GAFFER_OUTCOME (R328): the message as the west gaffer sent it. -/
def execGafferOutcome (s : State) : Host.Outcome State Fault Refusal := s.onClock fun d => d.toldLength d.take.west.next

/-! ### Continuity -/

/-- The partner's release outcome of frame n (R356). -/
def Device.contOutcome (n : Nat) (pass : Bool) (d : Device) : Device :=
  d.contIn (contOutcomeMessage n pass) fun d =>
    if d.inContinuity then { d with cont := { d.cont with partnerOutcome := some (n, pass) } } else d

/-- CONT_OUTCOME (R356). -/
def execContOutcome (n : BitVec 48) (pass : Bool) (s : State) : Host.Outcome State Fault Refusal :=
  s.onClock (Device.contOutcome n.toNat pass)

/-- Whether the partner's outcome for the frame to be decided is held, and what it is. -/
def Device.partnerSays (d : Device) : Option Bool :=
  match d.cont.partnerOutcome with
  | some p => if p.1 = d.nextFrame then some p.2 else none
  | none => none

/-- The coming frame is dark on both parts (R356, R357): the part has voted against it, or does so now (log entry 151). -/
def Device.contLate (d : Device) : Device := ({ d with cont := { d.cont with late := true } } : Device).vote false

/-- The decision point without the partner's outcome (R356). -/
def Device.contOutcomeMissing (d : Device) : Device :=
  if d.inContinuity && d.take.decision.isSome && d.partnerSays.isNone then d.contLate else d

/-- CONT_OUTCOME_MISSING (R356). -/
def execContOutcomeMissing (s : State) : Host.Outcome State Fault Refusal := s.onClock Device.contOutcomeMissing

/-- Whether the signatures of a frame whose comparison had to end are not compared (R357). -/
def Device.uncompared (d : Device) : Bool := d.cont.mine.any fun p => decide (p.1 + 2 ≤ d.nextFrame)

/-- The decision point of the tick that ends frame n + 1, with the signatures of frame n not compared (R357). -/
def Device.contCompareLate (d : Device) : Device :=
  if d.inContinuity && d.take.decision.isSome && d.uncompared then d.contLate else d

/-- CONT_COMPARE_LATE (R357). -/
def execContCompareLate (s : State) : Host.Outcome State Fault Refusal := s.onClock Device.contCompareLate

/-! ### The tick -/

/-- The energies of the frame that ends (R330, R331, R347, R489): each counter's rise since the last tick, the input energy that the
monitors' samples add up to with what was measured besides them (log entry 171), the declaration, the excess, and EXCESS with its log
entry for a released frame. -/
def Device.tickEnergy (d : Device) (m : TickMeas) : Device :=
  let d := d.each (List.range 20) fun t d =>
    let d := d.addEnergy t (m.towers.getD t 0)
    let now := d.reg (gafReg (0x1000 + 32 * t))
    let e := min 0xFFFFFFFF (now - (d.tower t).atTick).toNat
    let rel := d.take.lastReleased
    let dec := if rel then d.take.lastDecl.getD t 0 else 0
    let d := d.modTower t fun x => { x with atTick := now }
    let d := d.setReg (gafReg (0x1008 + 32 * t)) (BitVec.ofNat 64 (e + dec * 2 ^ 32))
    let d := d.setReg (gafReg (0x1018 + 32 * t)) (BitVec.ofNat 64 (if rel then e - dec else 0))
    if rel && decide (11 * dec + 1000 < 10 * e) then (d.setBit (gafReg 0x18) 8).log t 0x0B 20 0 0 (t * 2 ^ 8) else d
  let d := d.setField (svcReg 0xA000) 32 16 (min 0xFFFF d.take.peak)
  d.modTake fun t => { t with lastInput := m.input + t.inputSum / 10000, inputSum := 0, peak := 0, tickAt := d.now }

/-- An overrun (R338): the towers and the lowest home index not done, and a fault. -/
def Device.overrun (d : Device) : Device :=
  let late := d.arrays.filter fun k => !(d.core k).ended
  let ts := (List.range 20).foldl (fun a t => if late.any fun k => towerOf k == t then a + 2 ^ t else a) 0
  let h := ((late.map d.home).foldl (fun a h => match a with
    | some x => some (min x h)
    | none => some h) (none : Option Nat)).getD 0
  let e := d.fault 4 (towerOf h) h 20 0 0
  if e.cycle.fatal || e.outranked 4 then e
  else (e.setReg (gafReg 0x48) (BitVec.ofNat 64 (1 + ts * 2 + h * 2 ^ 21))).noteBit (gafReg 0x48) 0

/-- The keys of the next list's origins become those of the list that runs. -/
def shiftOrigins (m : SMap Nat) : SMap Nat :=
  (m.filter fun p => p.1 % 16 != 10).map fun p => if p.1 % 16 = 11 then (p.1 - 1, p.2) else p

/-- A core at the release of a frame (R78, R89, R100, R102, R354). -/
def Core.release (home : Nat) (rotated : Bool) (c : Core) : Core :=
  let l := c.next.getD []
  { c with
    list := l, next := none, buf := (c.buf + 1) % 2, cueState := if l.isEmpty then 0 else 1, home := home, rotated := rotated, pc := 0, loops := [], held := none,
    evt := [], ending := false, ended := l.isEmpty, quar := [], sig := 0, origin := shiftOrigins c.origin }

/-- Landing slots at the release of frame n: those that satisfied its gates are cleared (R326), and those stamped below n − 254
(R325). -/
def landingAtRelease (n : Nat) (used : List (Nat × Nat)) (m : SMap (List (Nat × Nat))) : SMap (List (Nat × Nat)) :=
  (m.map fun p => (p.1, p.2.filter fun s => decide (n ≤ s.1 + 254) && !used.contains (p.1, s.1))).filter fun p => !p.2.isEmpty

/-- Frame n released (R27, R78, R99, R100, R316, R325, R326). -/
def Device.releaseFrame (d : Device) : Device :=
  let n := d.nextFrame
  let decl := d.take.decl
  let rot := d.take.rotating
  let placed := d.arrays.foldl (fun m h => mset h m h (placeOf (rot.contains (h / 6)) n h)) ([] : SMap Nat)
  let d := d.each d.arrays fun k d => d.modCore k (Core.release (homeAt (rot.contains (k / 6)) n k) (homeAt (rot.contains (k / 6)) n k != k))
  let d := d.setField (gafReg 0x28) 0 48 (min (2 ^ 48 - 1) (n + 1))
  let d := d.modTake fun t =>
    { t with
      frameRuns := true, frameDone := false, lastDecl := decl, lastReleased := true, signals := [], placed := placed,
      landing := landingAtRelease n t.gateSlots t.landing }
  d.checkFrameDone

/-- A dark frame (R329): counted, its event raised; the guard re-check ran in every tower (R339). -/
def Device.darkFrame (d : Device) : Device :=
  ((d.count (gafReg 0x38) 1).event 2).modTake fun t =>
    { t with frameRuns := false, lastReleased := false, guardRun := 0, guardForced := false }

/-- GAF_DARK written (R345). -/
def Device.recordDark (d : Device) (o : Outcome) : Device :=
  d.setReg (gafReg 0x30) (BitVec.ofNat 64 (o.reason + o.tower * 2 ^ 4 + o.gate * 2 ^ 9 + o.core * 2 ^ 13))

/-- The device address of the continuity partner. -/
def Device.contPartner (d : Device) : Nat :=
  match d.mirrorPort with
  | some p => d.portAddr p
  | none => 0xFFFF

/-- A frame darkened for want of the partner's outcome or of a comparison that had to end (R356, R357). -/
def Device.contWanting (d : Device) : Bool := d.inContinuity && (d.cont.late || d.partnerSays.isNone || d.uncompared)

/-- The joint outcome in continuity (R356, R357): whether the partner, or what is wanting, darkens the frame. -/
def Device.contDarkens (d : Device) : Bool := d.contWanting || (d.inContinuity && d.partnerSays != some true)

/-- The outcome applied at the tick (R328, R329, R356). With no outcome held by both gaffers the frame does not run. After an overcurrent
the reason is PACKAGE, unless a check that stands before it in R328 has failed (R488). -/
def Device.applyOutcome (d : Device) : Device :=
  let own : Outcome := match d.take.decision with
    | some o => if d.take.eastOutcome then
        o else { o with reason := 8 }
    | none => { reason := 8, tower := 0, gate := 0, core := 0 }
  let own := if d.take.overcurrent && [0, 7, 8].contains own.reason then { own with reason := 6 } else own
  let d1 := d.modTake fun t => { t with overcurrent := false }
  let d1 := { d1 with cont := { d1.cont with darkRun := if d.contWanting then d.cont.darkRun + 1 else 0 } }
  let d2 :=
    if own.reason = 8 then d1.darkFrame
    else if own.reason ≠ 0 then (d1.recordDark own).darkFrame
    else if d.contDarkens then (d1.darkFrame).count (svcReg 0x9110) 1
    else d1.releaseFrame
  let d2 := d2.modTake fun t => { t with decision := none, eastResults := false, eastOutcome := false, gateSlots := [] }
  let d2 := { d2 with cont := { d2.cont with partnerOutcome := none, late := false } }
  if 64 ≤ d2.cont.darkRun then d2.fault 9 0 0 20 d2.contPartner 0 else d2

/-- The end of the command that starts a take: REEL_LOAD with START, TAKE_START or RESUME. -/
def Device.startEnds (r : Nat) (d : Device) : Device := ((d.mbxEndOf 1 r).mbxEndOf 2 r).mbxEndOf 5 r

/-- An accepted take starts at the tick (R436). A part that has been unlocked since runs none: the command ends with RESULT 4 (R551; log entry
189). -/
def Device.startAtTick (d : Device) : Device :=
  if d.unlocked then d.endTake.startEnds 4 else (d.modTake fun t => { t with starting := false, state := 2 }).startEnds 0

/-- The take at a tick: an overrun, its end, its start, and the outcome of the next frame (R99, R338, R436). -/
def Device.tickTake (d : Device) : Device :=
  if d.take.state = 2 ∧ d.take.frameRuns ∧ ¬ d.take.frameDone then d.overrun.modTake fun t => { t with lastReleased := false }
  else
    let d := d.modTake fun t => { t with frameRuns := false }
    if d.take.state = 2 ∧ d.take.stopping then (d.endTake.mbxEndOf 3 0).modTake fun t => { t with lastReleased := false }
    else
      let d := if d.take.starting then d.startAtTick else d
      match d.take.reel with
      | some r =>
        if d.take.state ≠ 2 then d.modTake fun t => { t with lastReleased := false }
        else if (r.entryIndex d.nextFrame).isNone then d.endTake.modTake fun t => { t with lastReleased := false }
        else d.applyOutcome
      | none => d.modTake fun t => { t with lastReleased := false }

/-- A clapper message sent on those of some ports that carry more than beacons (R319, R413). -/
def Device.sendClapper (d : Device) (ports : List Nat) (m : ClapperMsg) : Device :=
  d.each (ports.filter d.carries) fun p d => d.sendClap p m

/-- The master's message for the next tick (R318, R319). -/
def Device.masterMessage (d : Device) : ClapperMsg :=
  { hops := 0, periodUs := BitVec.ofNat 16 d.period, epoch := BitVec.ofNat 32 (d.fieldOf (gafReg 0x68) 0 32),
    master := d.reg (gafReg 0x60), tick := BitVec.ofNat 48 (d.fieldOf (gafReg 0x20) 0 48 + 1),
    ttt := BitVec.ofNat 32 (4000 * d.period) }

/-- The clapper after a tick that moved by `move` seventeenths of 0.25 ns: the message chosen for the tick after is that of the coming one
now, and its error is taken from the tick as it was moved (R319, R321). -/
def Clapper.turn (c : Clapper) (move : Int) (missed : Nat) : Clapper :=
  match c.later with
  | some l => { c with msg := some l.1, port := l.2.1, error := l.2.2 - (2 * move + 17).fdiv 34, later := none, missed := missed }
  | none => { c with msg := none, error := 0, missed := missed }

/-- The part's own tick placed by the message chosen for it (R320 to R322). -/
def Device.followClapper (d : Device) : Device :=
  match d.clap.msg with
  | some m =>
    let c := d.tickMove
    let st := gafReg 0x18
    let locked : Bool := decide ((17 * d.clap.error - 80 * c).natAbs ≤ 17 * 160)
    let d' := d.setReg (gafReg 0x60) m.master
    let v := m.epoch.toNat + m.hops.toNat % 32 * 2 ^ 32 + unsignedOf 16 ((2 * 80 * c + 17).fdiv 34) * 2 ^ 40
    let d' := (d'.setReg (gafReg 0x68) (BitVec.ofNat 64 v)).setField st 2 2 (if locked then 1 else 0)
    let d' := if c = d.askedMove then d' else d'.setBit st 6
    { d' with clap := d'.clap.turn (80 * c) 0 }
  | none => { d with clap := d.clap.turn 0 (d.clap.missed + 1) }

/-- The clapper at a tick: the master announces the next tick, another part follows the message chosen (R319 to R322). -/
def Device.tickClapper (d : Device) : Device :=
  if d.bitOf (gafReg 0x18) 1 then
    ({ d with clap := { d.clap with msg := none, missed := 0, error := 0, later := none } } : Device).sendClapper d.upPorts d.masterMessage
  else d.followClapper

/-- Whether the marks of two consecutive ticks have come by no service/tick module (R377). -/
def Device.marksMissing (d : Device) : Bool := !d.tickModules.isEmpty && d.tickModules.all fun m => decide (2 ≤ (d.module m).missed + (d.module m).marks)

/-- A tick as a die counts it (R377): the frame that runs ends, and the next has the length given for it, or else the period. -/
def FrameCount.tick (period : Nat) (c : FrameCount) : FrameCount :=
  { next := 0, runs := if c.next = 0 then period else c.next, ended := c.runs }

/-- The tick marks on the service/tick modules (R377); marks missing at two ticks are a loss of clock in the east half (R383). -/
def Device.tickMarks (d : Device) : Device :=
  let d := d.modTake fun t => { t with west := t.west.tick d.framePeriod, east := t.east.tick d.framePeriod }
  if (d.half 0).lost || (d.half 1).lost then d
  else if d.marksMissing then d.loseHalf 1 1
  else d.each d.tickModules fun m d => (d.modModule m fun x => { x with marks := x.marks + 1 }).sendBridge m true true [] []

/-- TICK (R316, R317, R328 to R331, R338). -/
def Device.tick (m : TickMeas) (d : Device) : Device :=
  let d := d.tickMarks
  let d := d.setField (gafReg 0x20) 0 48 (min (2 ^ 48 - 1) (d.fieldOf (gafReg 0x20) 0 48 + 1))
  ((d.tickEnergy m).tickTake).tickClapper

/-- TICK (R317). -/
def execTick (m : TickMeas) (s : State) : Host.Outcome State Fault Refusal := s.onClock (Device.tick m)

/-! ### Clapper messages -/

/-- Whether the message replaces the one chosen for the coming tick: a newer epoch or tick, fewer HOPS, or a lower port (R319). -/
def betterClapper (m old : ClapperMsg) (p q : Nat) : Bool :=
  decide (old.epoch.toNat < m.epoch.toNat) ||
    (m.epoch == old.epoch && (decide (old.tick.toNat < m.tick.toNat) ||
      (m.tick == old.tick && (decide (m.hops.toNat < old.hops.toNat) || (m.hops == old.hops && decide (p < q))))))

/-- Whether two messages announce one tick. -/
def sameTick (m s : ClapperMsg) : Bool := m.epoch == s.epoch && m.tick == s.tick

/-- Whether a message is to be forwarded: the first for its tick, or one with fewer HOPS than all before (R319). -/
def forwardsClapper (m : ClapperMsg) (seen : List ClapperMsg) : Bool := seen.all fun s => !sameTick m s || decide (m.hops.toNat < s.hops.toNat)

/-- The best messages received, the newest first, of two ticks: no more are announced at one time (R318, R319). -/
def seeClapper (m : ClapperMsg) (seen : List ClapperMsg) : List ClapperMsg := m :: (seen.filter fun s => !sameTick m s).take 1

/-- The fields of a clapper message in the payload of its packet (R318). -/
def clapperOf (b : List Byte) : ClapperMsg :=
  { hops := BitVec.ofNat 8 (leAt b 1 1), periodUs := BitVec.ofNat 16 (leAt b 2 2), epoch := BitVec.ofNat 32 (leAt b 4 4),
    master := BitVec.ofNat 64 (leAt b 8 8), tick := BitVec.ofNat 48 (leAt b 16 6), ttt := BitVec.ofNat 32 (leAt b 24 4) }

/-- A message forwarded on the other ports with a partner (R319): HOPS + 1, and TTT less the link delay and the time spent in the
part, a free value of at most 250 ns (log entry 5). -/
def Device.forwardClapper (d : Device) (port : Nat) (m : ClapperMsg) (delay : Nat) : Device :=
  let r := d.draw
  let stay := r.1.toNat % 1001
  r.2.sendClapper (d.upPorts.filter (· ≠ port))
    { m with hops := m.hops + 1, ttt := BitVec.ofNat 32 (m.ttt.toNat - delay - stay) }

/-- A message chosen for the tick that it places, the coming one or the one after: the coming tick lies nearer than half a period
(R319). It must come before the guard band of that tick. -/
def Device.chooseClapper (d : Device) (port : Nat) (m : ClapperMsg) (delay : Nat) (error : Int) : Device :=
  let better := fun (o : Option (ClapperMsg × Nat)) => ((o.map fun o => betterClapper m o.1 port o.2).getD true)
  if m.ttt.toNat ≤ 8000 + delay then d
  else if error < 2000 * d.period then
    if better (d.clap.msg.map fun o => (o, d.clap.port)) then { d with clap := { d.clap with msg := some m, port := port, error := error } } else d
  else if better (d.clap.later.map fun o => (o.1, o.2.1)) then
    { d with clap := { d.clap with later := some (m, port, error - 4000 * d.period) } }
  else d

/-- A clapper message used (R319, R323). `early` is the arrival time less the part's own next tick, in units of 0.25 ns. -/
def Device.useClapper (port : Nat) (m : ClapperMsg) (early : Int) (d : Device) : Device :=
  let st := gafReg 0x18
  if m.epoch.toNat < d.fab.epochSeen ∨ d.carries port = false then d
  else if m.periodUs.toNat ≠ d.period then d.setBit st 10
  else if d.bitOf st 1 && decide (m.epoch.toNat ≤ d.fieldOf (gafReg 0x68) 0 32) then d
  else
    let d := { d with fab := { d.fab with epochSeen := m.epoch.toNat } }
    let d := if d.bitOf st 1 then (d.setField st 1 1 0).setField st 2 1 0 else d
    let delay := d.fieldOf (fabReg (0x100 + 16 * port)) 16 16
    let fwd := forwardsClapper m d.clap.seen
    let d := if fwd then { d with clap := { d.clap with seen := seeClapper m d.clap.seen } } else d
    let d := if fwd && decide (m.hops.toNat < 16) then d.forwardClapper port m delay else d
    d.chooseClapper port m delay (early + m.ttt.toNat - delay)

/-- A clapper message received (R319, R394): in its turn in the CTRL buffer its packet is taken, and it is used. -/
def Device.clapperIn (port : Nat) (m : ClapperMsg) (early : Int) (d : Device) : Device :=
  if d.rxNext port 4 fun k => k.kind.toNat == 0x12 && clapperOf k.payload == m then (d.takeHead port 4).useClapper port m early else d

/-- CLAPPER (R319). -/
def execClapper (port : Fin 16) (msg : ClapperMsg) (early : Int) (s : State) : Host.Outcome State Fault Refusal :=
  s.onClock (Device.clapperIn port msg early)

/-- Holdover begins after 4 ticks without a usable message (R322). -/
def Device.holdoverEntry (d : Device) : Device :=
  let st := gafReg 0x18
  if !d.bitOf st 1 && !d.bitOf st 3 && decide (4 ≤ d.clap.missed) then ((d.setBit st 7).setBit st 3).setField st 2 1 0 else d

/-- HOLDOVER_ENTRY (R322). -/
def execHoldoverEntry (s : State) : Host.Outcome State Fault Refusal := s.onClock Device.holdoverEntry

/-- The device address of the timing master, as a port's beacon gives it; 0xFFFF when no neighbour is the master. -/
def Device.masterAddr (d : Device) : Nat :=
  match (List.range 16).find? fun p => d.reg (fabReg (0x108 + 16 * p)) == d.reg (gafReg 0x60) && (d.port p).beacon.isSome with
  | some p => d.portAddr p
  | none => 0xFFFF

/-- The 65th tick of holdover without a message in a take: the loss of a fabric partner (R322). -/
def Device.holdoverExpiry (d : Device) : Device :=
  if d.bitOf (gafReg 0x18) 3 && d.take.state == 2 && decide (69 ≤ d.clap.missed) then d.fault 9 0 0 20 d.masterAddr 0 else d

/-- HOLDOVER_EXPIRY (R322). -/
def execHoldoverExpiry (s : State) : Host.Outcome State Fault Refusal := s.onClock Device.holdoverExpiry

/-! ### Landing counters -/

/-- A 32-bit byte count that would pass its largest value: the spec states no result, so a free value (log entry 5). -/
def Device.landSum (d : Device) (v : Nat) : Nat × Device :=
  if v < 2 ^ 32 then (v, d)
  else
    let a := d.draw
    let b := a.2.draw
    (a.1.toNat + b.1.toNat * 2 ^ 16, b.2)

/-- Payload bytes counted on a landing counter (R325). -/
def Device.land32 (c stamp bytes : Nat) (d : Device) : Device :=
  let slots := mget [] d.take.landing c
  let put := fun (d : Device) (l : List (Nat × Nat)) => d.modTake fun t => { t with landing := mset [] t.landing c l }
  match slots.find? fun s => s.1 == stamp with
  | some s =>
    let r := d.landSum (s.2 + bytes)
    put r.2 (slots.map fun x => if x.1 = stamp then (x.1, r.1) else x)
  | none =>
    let add := fun l => l.takeWhile (fun s : Nat × Nat => decide (s.1 < stamp)) ++ [(stamp, bytes)] ++
      l.dropWhile fun s : Nat × Nat => decide (s.1 < stamp)
    if slots.length < 8 then put d (add slots)
    else
      match slots with
      | [] => d
      | low :: r =>
        if low.1 < stamp then put (d.count (gafReg 0x78) 1) (add r) else d.count (gafReg 0x70) 1

/-- The payload bytes of a packet whose writes have been acknowledged are counted (R325, R403). -/
def Device.payloadLanded (c stamp bytes : Nat) (d : Device) : Device :=
  if d.take.landed.contains (c, stamp, bytes) then
    (d.modTake fun t => { t with landed := t.landed.erase (c, stamp, bytes) }).land32 c stamp bytes
  else d

/-- PAYLOAD_LANDED (R325): the writes of a packet's payload have been acknowledged. -/
def execPayloadLanded (landing : Fin 512) (stamp : BitVec 48) (bytes : Nat) (s : State) : Host.Outcome State Fault Refusal :=
  s.onClock (Device.payloadLanded landing stamp.toNat bytes)

/-! ### Flow readings -/

/-- No flow reading for 1 s (R335, R448): 2.0 L/min is taken. -/
def Device.flowStale (d : Device) : Device := (d.setBit (gafReg 0x18) 5).setField (gafReg 0x50) 0 16 2000

/-- FLOW_STALE (R335). -/
def execFlowStale (s : State) : Host.Outcome State Fault Refusal := s.run Device.flowStale

end Sys2Proof.Machine
end

