-- ==== Sys2Proof/Machine/Bridge.lean ====
section
/-! DEFINITION. The half bridge at its receivers (R374 to R376): flits, command entries and beats; replays; and the loss of lanes and
modules (R369, R379). -/
namespace Sys2Proof.Machine

open Sys2Proof

/-! ### Links -/

/-- Whether number `a` is at or before `b` on a link that counts modulo `n`. -/
def seqLe (n a b : Nat) : Bool := decide ((b + n - a) % n < n / 2)

/-- An acknowledgement taken by the sender of a direction (R376): flits up to it are no longer kept. -/
def Link.acked (n : Nat) (l : Link) (ack : Nat) : Link := { l with kept := l.kept.filter fun p => !seqLe n p.1 ack }

/-- A NAK owed by the receiver of a direction that counts modulo `n` (R376): what has been sent up to a number comes again. -/
def Link.owes (n : Nat) (l : Link) (seq : Nat) : Link :=
  { l with nak := true, redo := some (match l.redo with
      | some r => if seqLe n r seq then seq else r
      | none => seq) }

/-- Whether the flit next in order comes as a replay. -/
def Link.again (n : Nat) (l : Link) : Bool :=
  match l.redo with
  | some r => seqLe n l.expect r
  | none => false

/-- Replays of the last 1 ms, 850,000 cycles. -/
def Link.recent (l : Link) (now : Nat) : List Nat := l.replayAt.filter fun t => decide (now < t + 850000)

/-- A direction whose kept flits leave again: those up to the last number sent come as replays (R377). -/
def Link.replayed (l : Link) : Link :=
  match l.kept.getLast? with
  | some p => { l with redo := some p.1 }
  | none => l

/-- Everything kept on a direction of a module put out again. -/
def Device.emitKept (m : Nat) (toEast : Bool) (d : Device) : Device :=
  (d.each ((d.module m).link toEast).kept fun f d => d.emit (.bridgeFlit m toEast f.2)).modModule m fun x =>
    x.setLink toEast (x.link toEast).replayed

/-- Everything kept on a direction of a module sent again (R376): counted, and as first sent; after more than 32 replays in 1 ms the module
retrains. -/
def Device.replayBridge (d : Device) (m : Nat) (toEast : Bool) : Device :=
  let l := (d.module m).link toEast
  if l.kept.isEmpty || d.bridgeDead m || (d.module m).retraining then d
  else
    let d := (d.count (brgReg 0x208) 1).modModule m fun x => x.setLink toEast { l with replayAt := d.now :: l.recent d.now }
    let x := d.module m
    if 32 < (x.eastward.recent d.now).length + (x.westward.recent d.now).length then d.modModule m fun x => { x with retraining := true }
    else d.emitKept m toEast

/-! ### Entries -/

/-- The tag number of an ID in the half that serves it (R375). -/
def idTag (m id : Nat) : Nat := 28160 + 80 * (2 * m + id % 2) + field id 1 7
/-- Whether an ID is in use (R375). -/
def idUsed (id : Nat) : Bool := decide (field id 1 7 < 80)

/-- The half that receives a direction: 1 for the east. -/
def farHalf (toEast : Bool) : Nat := if toEast then 1 else 0

/-- Beats announced to the receiver of a direction. -/
def Module.beats (x : Module) (toEast : Bool) : List Beat := if toEast then x.beatsE else x.beatsW
/-- Announced beats set. -/
def Module.setBeats (x : Module) (toEast : Bool) (l : List Beat) : Module :=
  if toEast then { x with beatsE := l } else { x with beatsW := l }

/-- A beat announced (R375). -/
def Device.announce (d : Device) (m : Nat) (toEast : Bool) (b : Beat) : Device :=
  d.modModule m fun x => x.setBeats toEast (x.beats toEast ++ [b])

/-- Whether a tag of a bridge port waits for the request of an ID: the ID's generation is current. -/
def Device.awaits (d : Device) (h m id : Nat) (write : Bool) : Bool :=
  let t := d.tag h (idTag m id)
  idUsed id && t.st == .bridging && t.write == write && t.gen.toNat == field id 7 4

/-- The address of a request that an entry brings (R375; log entry 144). -/
def Device.bridgeAddr (h e : Nat) (t : Tag) : Nat :=
  match regionOf t.addr with
  | .store _ _ => sliceLine h (field e 18 8) (field e 26 18) + t.addr % 64
  | _ => t.addr

/-- A request that has crossed goes on in its half (R206, R239). -/
def Device.crossedTo (h j : Nat) (t : Tag) (d : Device) : Device :=
  ((d.setTag h j { t with st := .requested }).enter h j).pumpPorts h

/-- A READ entry (R375): the request is at its half. -/
def Device.bridgeRead (d : Device) (h m e : Nat) : Device :=
  let id := field e 4 14
  if d.awaits h m id false then
    let t := d.tag h (idTag m id)
    d.crossedTo h (idTag m id) { t with addr := Device.bridgeAddr h e t }
  else d

/-- The tag of a beat that nobody waits for: a number above every tag. -/
def noTag : Nat := 2 ^ 15

/-- A WRITE entry announces its beat (R375); the beat of a request that no tag awaits is taken and dropped. -/
def Device.bridgeWrite (d : Device) (toEast : Bool) (m e : Nat) : Device :=
  let h := farHalf toEast
  let id := field e 4 14
  let j := idTag m id
  let d := if d.awaits h m id true then
      let t := d.tag h j
      d.setTag h j { t with addr := Device.bridgeAddr h e t }
    else d
  d.announce m toEast { tag := if d.awaits h m id true then j else noTag, write := true, cws := field e 44 4, masks := [] }

/-- A MASK entry adds its byte masks to the write before it (R375). -/
def Device.bridgeMask (d : Device) (toEast : Bool) (m e : Nat) : Device :=
  let ms := (field e 4 2, field e 6 16) :: (if bit e 40 then [(field e 22 2, field e 24 16)] else [])
  d.modModule m fun x =>
    match (x.beats toEast).getLast? with
    | some b => x.setBeats toEast ((x.beats toEast).dropLast ++ [{ b with masks := b.masks ++ ms }])
    | none => x

/-- The requester of a bridge port's tag gets its answer (R211, R375): the answer is served, and the port's tag comes free unless it
has timed out. An answer to a transaction whose tag has been issued again since is stale (R212). -/
def Device.bridgeGive (d : Device) (h j : Nat) (f : Device → Tag → Device × Tag) : Device :=
  let t := d.tag h j
  let d := match t.owner with
    | .bridge _ i g =>
      let q := d.tag (1 - h) i
      if q.gen ≠ g then d.staleTag (1 - h) 11 (1 - h) i q.gen.toNat g.toNat
      else if q.st = .bridging then
        let r := f d q
        r.1.setTag (1 - h) i { r.2 with st := .served }
      else d
    | _ => d
  if t.st = .bridging then (d.freeTag h j).payOwed h j
  else if t.st = .timedOut then d.setTag h j { t with owner := .none }
  else d

/-- An ID of a RESP3 entry (R375): data announced, an error, or a write acknowledged. The tag is of the half that answers; an ID of
another generation is stale (R212), and its beat is taken and dropped. -/
def Device.bridgeResp (d : Device) (toEast : Bool) (m id : Nat) : Device :=
  let h := 1 - farHalf toEast
  let j := idTag m id
  if !idUsed id then d
  else if (d.tag h j).gen.toNat ≠ field id 7 4 then
    let d := d.staleTag (1 - h) 12 h j (d.tag h j).gen.toNat (field id 7 4)
    if field id 11 2 = 0 then d.announce m toEast { tag := noTag, write := false, cws := 15, masks := [] } else d
  else
    match field id 11 2 with
    | 0 => d.announce m toEast { tag := j, write := false, cws := 15, masks := [] }
    | 1 => d.bridgeGive h j fun d q =>
      let r := if q.write then (d, q) else d.poisonLine q
      (r.1, { r.2 with refused := true })
    | _ => d.bridgeGive h j fun d q => (d, q)

/-- A SIG entry (R80, R375): the signal that crosses with it arrives. -/
def Device.bridgeSig (d : Device) (toEast : Bool) (e : Nat) : Device :=
  match findIdx (fun g => g.crossing && g.entry == field e 0 27 && (d.sigHalves g).1 == 1 - farHalf toEast) d.take.signals with
  | some i =>
    match d.take.signals[i]? with
    | some g => d.arriveSignal i g
    | none => d
  | none => d

/-- The bytes of a service-plane stream from the first that begins a gaffer outcome message (R377). -/
def serviceHead : List Byte → List Byte
  | [] => []
  | b :: r => if b = 0x6A then b :: r else serviceHead r

/-- Five bytes of the service-plane stream arrive (R375, R377): a whole outcome message reaches the east gaffer, whose die counts the next
frame to the length it gives. -/
def Device.bridgeSvc (d : Device) (toEast : Bool) (m e : Nat) : Device :=
  let x := d.module m
  let s := serviceHead ((if toEast then x.svcE else x.svcW) ++ leBytes 5 (field e 4 40))
  let rest := if 16 ≤ s.length then s.drop 16 else s
  let d := d.modModule m fun x => if toEast then { x with svcE := rest } else { x with svcW := rest }
  if toEast && decide (16 ≤ s.length) && leAt s 2 6 == d.nextFrame then d.toldLength (leAt s 8 4) else d

/-- A CMD entry taken (R375). -/
def Device.bridgeEntry (toEast : Bool) (m e : Nat) (d : Device) : Device :=
  match field e 0 4 with
  | 1 => d.bridgeRead (farHalf toEast) m e
  | 2 => d.bridgeWrite toEast m e
  | 3 => d.bridgeMask toEast m e
  | 4 => ((d.bridgeResp toEast m (field e 4 14)).bridgeResp toEast m (field e 18 14)).bridgeResp toEast m (field e 32 14)
  | 5 => d.bridgeSig toEast e
  | 6 => d.bridgeSvc toEast m e
  | _ => d

/-! ### Beats -/

/-- The codewords of a DATA slot as received (R293, R374): corrected bytes, and which codewords are bad. -/
def beatWords (slot : List Byte) : List Checked :=
  (List.range 4).map fun i =>
    let w := sliceBytes slot (16 * i) 16
    eccReceive w (BitVec.ofNat 16 (leAt slot (64 + 2 * i) 2) ^^^ eccEncode w)

/-- Whether a WRITE entry and its masks write byte i of the line (R375). -/
def Beat.writes (b : Beat) (i : Nat) : Bool :=
  bit b.cws (i / 16) &&
    match b.masks.find? fun m => m.1 == i / 16 with
    | some m => bit m.2 (i % 16)
    | none => true

/-- The run of bytes of its line from the first to the last that a WRITE writes: first byte and length. -/
def Beat.run (b : Beat) : Nat × Nat :=
  match (List.range 64).filter b.writes with
  | [] => (0, 0)
  | i :: r => (i, r.getLastD i + 1 - i)

/-- A beat of a write arrives (R375): its request is at its half, with the bytes that CWMASK and the masks name. -/
def Device.writeBeat (d : Device) (h : Nat) (b : Beat) (ws : List Checked) : Device :=
  let t := d.tag h b.tag
  if t.st = .bridging ∧ t.write = true ∧ b.run.2 ≠ 0 then
    let line := ws.flatMap (·.data)
    let c0 := t.addr / 64 * 4
    let a := t.addr / 64 * 64 + b.run.1
    d.crossedTo h b.tag { t with
      addr := a, len := b.run.2, bytes := sliceBytes line b.run.1 b.run.2, holes := (List.range 64).filter fun i => !b.writes i,
      poison := (cwsOf a b.run.2).filter fun c => ((ws[c - c0]?).map (·.bad)).getD false }
  else d

/-- The corrected and uncorrectable codewords of a beat, counted in the log of the receiving half (R294, R305). -/
def Device.noteBeat (d : Device) (h line : Nat) (ws : List Checked) : Device :=
  d.each (ws.zip [0, 16, 32, 48]) fun w d =>
    match w.1.cls with
    | .corrected b => (d.countCe (20 + h)).log (20 + h) 0x01 12 (line + w.2) w.1.syn.toNat b
    | .uncorrectable => (d.countUe (20 + h)).log (20 + h) 0x02 12 (line + w.2) w.1.syn.toNat 0
    | _ => d

/-- A DATA slot: the beat announced first (R375). -/
def Device.bridgeBeat (toEast : Bool) (m : Nat) (slot : List Byte) (d : Device) : Device :=
  match (d.module m).beats toEast with
  | [] => d
  | b :: r =>
    let d := d.modModule m fun x => x.setBeats toEast r
    let ws := beatWords slot
    let h := if b.write then farHalf toEast else 1 - farHalf toEast
    let line := (d.tag h b.tag).addr / 64 * 64
    let d := d.noteBeat (farHalf toEast) line ws
    if b.write then d.writeBeat h b ws
    else
      d.bridgeGive h b.tag fun d q =>
        let a := q.addr / 64 * 64
        (d, { q with resp := ws.flatMap (·.data),
                     respPoison := ((ws.zip [0, 16, 32, 48]).filter fun w => w.1.bad).map fun w => a + w.2 })

/-! ### Flits -/

/-- Whether slot k of a flit is a CMD slot. -/
def flitCmd (f : List Byte) (k : Nat) : Bool := bit (leAt f 0 4) (20 + k)
/-- The CMD entries of slot k. -/
def flitEntries (f : List Byte) (k : Nat) : List Nat := (List.range 12).map fun i => leAt f (4 + 72 * k + 6 * i) 6

/-- Whether a flit is intact (R374 to R376): it has 512 bytes, its CRC is right, and it holds no reserved KIND. -/
def bridgeIntact (f : List Byte) : Bool :=
  f.length == 512 && (crc32 (f.take 508)).toNat == leAt f 508 4 &&
    (List.range 7).all fun k => !flitCmd f k || (flitEntries f k).all fun e => decide (field e 0 4 ≤ 6)

/-- The slots of an intact flit in order. -/
def Device.bridgeSlots (toEast : Bool) (m : Nat) (f : List Byte) (d : Device) : Device :=
  d.each (List.range 7) fun k d =>
    if flitCmd f k then d.each (flitEntries f k) fun e d => d.bridgeEntry toEast m e
    else d.bridgeBeat toEast m (sliceBytes f (4 + 72 * k) 72)

/-- A tick mark comes to the east die on a module (R377): on a service/tick module a replayed one is ignored, and one that no tick has
sent, or that ends a frame of another length than the east die counted to, disagrees with its count, which is a loss of its clock (R383;
log entry 176). -/
def Device.markIn (m : Nat) (again : Bool) (d : Device) : Device :=
  if d.modRole m ≠ 3 then d
  else if again then d.modModule m fun x => { x with marks := x.marks - 1, missed := x.missed + 1 }
  else if (d.module m).marks = 0 ∨ d.take.east.ended ≠ d.take.west.ended then d.loseHalf 1 1
  else d.modModule m fun x => { x with marks := x.marks - 1, missed := 0 }

/-- An intact flit that is next in order taken: its mark, and its slots. -/
def Device.bridgeTake (m : Nat) (toEast : Bool) (f : List Byte) (d : Device) : Device :=
  let l := (d.module m).link toEast
  let d := d.modModule m fun x => x.setLink toEast (l.took 1024)
  (if toEast && bit (leAt f 0 4) 27 then d.markIn m (l.again 1024) else d).bridgeSlots toEast m f

/-- A flit received on a module (R376): a damaged one is dropped and a NAK is owed; an intact one acknowledges the other direction, and the
one that is next in order is taken. -/
def Device.bridgeRecv (m : Nat) (toEast : Bool) (f : List Byte) (d : Device) : Device :=
  let owe := fun (seq : Nat) (d : Device) => d.modModule m fun x => x.setLink toEast ((x.link toEast).owes 1024 seq)
  if !bridgeIntact f then owe ((d.module m).link toEast).expect (d.count (brgReg 0x200) 1)
  else
    let hd := leAt f 0 4
    let seq := field hd 0 10
    let d := d.modModule m fun x => x.setLink (!toEast) ((x.link !toEast).acked 1024 (field hd 10 10))
    let d := if bit hd 28 then d.replayBridge m !toEast else d
    let want := ((d.module m).link toEast).expect
    if seq = want then d.bridgeTake m toEast f
    else if seqLe 1024 seq want then d
    else owe seq d

/-- Whether a flit carries anything: a mark, an entry or a beat. -/
def flitBusy (f : List Byte) : Bool :=
  bit (leAt f 0 4) 27 || (List.range 7).any fun k => !flitCmd f k || (flitEntries f k).any fun e => field e 0 4 != 0

/-- BRIDGE_FLIT (R376), and the flit of empty slots that takes the ACK or NAK back when nothing else has (R374; log entry 148). -/
def Device.bridgeFlit (m : Nat) (toEast : Bool) (f : List Byte) (d : Device) : Device :=
  if d.bridgeDead m || (d.module m).retraining then d
  else
    let n := ((d.module m).link !toEast).nextSeq
    let d := d.bridgeRecv m toEast f
    if ((d.module m).link !toEast).nextSeq = n ∧ (((d.module m).link toEast).nak || flitBusy f) = true then
      d.sendBridge m (!toEast) false [] []
    else d

/-- BRIDGE_FLIT (R376). -/
def execBridgeFlit (m : Fin 28) (toEast : Bool) (flit : List Byte) (s : State) : Host.Outcome State Fault Refusal :=
  s.onClock (Device.bridgeFlit m toEast flit)

/-- BRIDGE_REPLAY_TIMEOUT (R376): no acknowledgement has advanced for 128 flit times. -/
def execBridgeReplayTimeout (m : Fin 28) (toEast : Bool) (s : State) : Host.Outcome State Fault Refusal :=
  s.onClock fun d => d.replayBridge m toEast

/-! ### Lanes and modules -/

/-- The counts of BRG_STATUS after a module has gone down: active modules, and service/tick modules in service. -/
def Device.countModules (d : Device) : Device :=
  let act := (List.range 28).filter fun m => d.modRole m != 0 && d.modWidth m != 0
  (d.setField (brgReg 0) 1 5 act.length).setField (brgReg 0) 16 2 (min 3 d.tickModules.length)

/-- The tick is taken from the lowest service/tick module in service (R377, R386). -/
def Device.choosePrimary (d : Device) : Device :=
  let p := d.tickModules.head?
  d.each (List.range 28) fun m d => d.setField (brgReg (0x100 + 8 * m)) 11 1 (if p = some m then 1 else 0)

/-- What the primary service/tick module carried goes to the other one (R379): signals that were crossing set out again, and the gaffers'
message is sent again. -/
def Device.moveService (d : Device) : Device :=
  let d := d.modTake fun t => { t with signals := t.signals.map fun g => { g with crossing := false } }
  match d.take.decision with
  | some o => if d.take.eastResults && !d.take.eastOutcome then d.sendOutcome o else d
  | none => d

/-- A module goes down (R379): a store or transit module is a fault of the take; a service/tick module hands its work to the other,
and without another the east half is lost. -/
def Device.moduleDown (m : Nat) (d : Device) : Device :=
  if d.modWidth m = 0 then d
  else
    let role := d.modRole m
    let primary := d.bitOf (brgReg (0x100 + 8 * m)) 11
    let d := (d.setField (brgReg (0x100 + 8 * m)) 2 2 0).countModules
    match role with
    | 0 => d
    | 3 =>
      if d.tickModules.isEmpty then d.loseHalf 1 1
      else
        let d := if primary then (d.choosePrimary.setBit (brgReg 0) 19).moveService else d
        d.degraded d.mainLog 12 2
    | _ => d.fault 8 0 0 12 m 0

/-- Failing lanes of a direction replaced by free repair lanes (R373, R379), each with its REPAIR entry (R555): `used` are in use. -/
def Device.repairLanes (m dir used : Nat) (lanes : List (Fin 64)) (d : Device) : Device :=
  d.each ((lanes.take (4 - used)).zip (List.range 4)) fun l d =>
    d.foundRepair 2 d.mainLog 12 8 (m + dir * 2 ^ 5 + l.1.val * 2 ^ 6 + (used + l.2) * 2 ^ 13)

/-- A module goes on after a retrain (R379): everything that its replay buffers hold leaves. -/
def Device.resumeModule (m : Nat) (d : Device) : Device :=
  let d := d.modModule m fun x =>
    { x with retraining := false, eastward := { x.eastward with replayAt := [] }, westward := { x.westward with replayAt := [] } }
  if d.bridgeDead m then d else (d.emitKept m true).emitKept m false

/-- BRIDGE_RETRAIN (R376, R379): each failing lane, of the west-to-east and of the other direction, takes a free repair lane; with none left
the module narrows to a clean half, or goes down. -/
def Device.bridgeRetrain (m : Nat) (failTx failRx : List (Fin 64)) (cleanLo cleanHi : Bool) (d : Device) : Device :=
  if d.modWidth m = 0 then d
  else
    let r := brgReg (0x100 + 8 * m)
    let tx := d.fieldOf r 4 3
    let rx := d.fieldOf r 7 3
    let d := (d.repairLanes m 0 tx failTx).repairLanes m 1 rx failRx
    let tx := tx + failTx.length
    let rx := rx + failRx.length
    let d := (d.setField r 4 3 (min 4 tx)).setField r 7 3 (min 4 rx)
    let d :=
      if tx ≤ 4 ∧ rx ≤ 4 then d
      else if cleanLo || cleanHi then
        let w := d.modWidth m
        let d := d.setField r 2 2 (if cleanLo then 1 else 2)
        if w = 3 then (d.setBit r 10).degraded d.mainLog 12 (1 + m * 2 ^ 8) else d
      else d.moduleDown m
    d.resumeModule m

/-- BRIDGE_RETRAIN (R379). -/
def execBridgeRetrain (m : Fin 28) (failTx failRx : List (Fin 64)) (cleanLo cleanHi : Bool) (s : State) :
    Host.Outcome State Fault Refusal :=
  s.onClock (Device.bridgeRetrain m failTx failRx cleanLo cleanHi)

/-- ELASTIC_LIMIT (R369). -/
def execElasticLimit (m : Fin 28) (s : State) : Host.Outcome State Fault Refusal := s.onClock (Device.moduleDown m)

end Sys2Proof.Machine
end

