-- ==== Sys2Proof/Machine/Fabric.lean ====
section
/-! DEFINITION. Packets of the fabric (R400 to R407, R412): their delivery, acknowledgement, forwarding and timeouts; SEND (R402); and
flits at a receiving port (R391 to R394). -/
namespace Sys2Proof.Machine

open Sys2Proof

/-! ### Routes -/

/-- The ports of the broadcast entry (R411). -/
def Device.castPorts (d : Device) : List Nat := if bit (d.routeOf 0xFFFF) 24 then bitsOf 16 (d.routeOf 0xFFFF) else []

/-- Destinations with a VALID entry, the own address and the broadcast entry apart. -/
def Device.reachable (d : Device) : List Nat :=
  (d.fab.routes.filter fun p => p.1 != 0xFFFF && bit p.2.toNat 24 && !bit p.2.toNat 23).map (·.1)

/-! ### Tags -/

/-- A tag of a port (R405). -/
def Device.fabTag (d : Device) (p t : Nat) : FabTag := mget FabTag.reset (d.port p).tags t
/-- A tag set. -/
def Device.setFabTag (d : Device) (p t : Nat) (x : FabTag) : Device :=
  d.modPort p fun y => { y with tags := mset FabTag.reset y.tags t x }

/-- A packet under the lowest free tag of a port's pool (R405); none when no tag is free. -/
def Device.tagPacket (d : Device) (p : Nat) (k : Packet) (waiting : List Nat) : Option (Device × Packet) :=
  match (List.range 4096).find? fun t => (d.fabTag p t).st == .free with
  | none => none
  | some t =>
    let g := (d.fabTag p t).gen + 1
    some (d.setFabTag p t { gen := g, st := .requested, dest := k.dest, addr := k.addr, waiting := waiting },
      { k with tag := BitVec.ofNat 16 (4096 * p + t), gen := g.setWidth 8 })

/-! ### Delivery -/

/-- Whether the payload of a packet may be written (R403): its range lies in memory that answers, within one 4 KiB page, and its LEN
is legal. -/
def Device.landable (d : Device) (k : Packet) : Bool :=
  let n := k.payload.length
  n % 16 == 0 && decide (n ≤ 4096) && k.addr.toNat / 4096 == (k.addr.toNat + max 1 n - 1) / 4096 && d.legalRun k.addr.toNat n

/-- A packet that is not written (R403); one for the hole of a store is an address error of the fabric as well (R204). -/
def Device.refuseAt (d : Device) (w : Nat) (k : Packet) : Device :=
  (match regionOf k.addr.toNat with
    | .store _ o => if 0xC0000000 ≤ o then d.addrError k.addr.toNat 1 else d
    | _ => d).refused w k

/-- Whether codeword c holds bytes of a poisoned codeword of a packet's payload. -/
def packetBad (k : Packet) (c : Nat) : Bool :=
  k.poison.any fun i => decide (k.addr.toNat + 16 * i < 16 * c + 16) && decide (16 * c < k.addr.toNat + 16 * i + 16)

/-- The payload of a packet sent to its memory by a ring client of a half (R402, R403, R428), poisoned codewords in poisoned form (R293). -/
def Device.ringWrite (d : Device) (h c : Nat) (use : AccessUse) (k : Packet) : Device :=
  d.access h c use k.addr.toNat k.payload.length true k.payload (packetBad k)

/-- A DATA packet of the part for itself, delivered through the ring by a client of a half (R402): written, or refused at the part. -/
def Device.ringData (d : Device) (h c w : Nat) (k : Packet) : Device :=
  if d.landable k then d.ringWrite h c (.payload none k) k else d.refuseAt w k

/-- Whether a port takes data packets: up, no mirror port (R418), and in a take one of the frozen set (R413). -/
def Device.dataPort (d : Device) (p : Nat) : Bool := d.portUp p && d.portRole p != 3 && d.carries p

/-- Whether a packet is for the part: its own address, or broadcast. -/
def Device.isMine (d : Device) (k : Packet) : Bool := k.dest.toNat == 0xFFFF || k.dest.toNat == d.fabAddr

/-- A broadcast packet goes on (R406, R412): on every other port of the broadcast entry, unless it has made 16 hops. -/
def Device.castOn (d : Device) (p : Nat) (k : Packet) : Device :=
  if 16 ≤ k.hops.toNat then d else d.each (d.castPorts.filter (· ≠ p)) fun q d => d.txPacket q { k with hops := k.hops + 1 }

/-- A DATA packet for the part, in its turn (R403, R404, R407): written through the port's ring client, or refused. A broadcast one also goes
on (R412). -/
def Device.dataIn (p : Nat) (k : Packet) (d : Device) : Device :=
  if d.dataPort p && k.kind.toNat == 1 && d.isMine k && d.rxFirst p k then
    let d := d.takeRx p k
    let d := if k.dest.toNat = 0xFFFF then d.castOn p k else d
    if d.landable k then d.ringWrite (p / 8) (fabricClient p) (.payload (some p) k) k else (d.refuseAt (portLog p) k).ackTo k 1
  else d

/-- DATA (R403). -/
def execData (port : Fin 16) (pkt : Packet) (s : State) : Host.Outcome State Fault Refusal :=
  s.onClock (Device.onlyIf pkt.wf (Device.dataIn port pkt))

/-! ### Sending -/

/-- A packet of the part sent out (R402, R403, R405, R412): through the ring to the own address, to every part by broadcast, or on
the port of its route; none when it has to wait for a tag. `w` is the log of its refusal, and `ring` delivers what is for the
part itself. -/
def Device.fabSend (d : Device) (w : Nat) (k : Packet) (ring : Packet → Device → Device) : Option Device :=
  if k.dest.toNat = 0xFFFF then
    if k.kind.toNat = 2 ∨ bit (d.routeOf 0xFFFF) 24 = false then some (d.refused w k)
    else
      match d.castPorts with
      | [] => some (ring k d)
      | p :: r => (d.tagPacket p k d.reachable).map fun x =>
          x.1.each (p :: r) (fun q d => d.txPacket q x.2) |> ring k
  else if k.dest.toNat = d.fabAddr then some (ring k d)
  else
    match d.routePort k with
    | none => some (d.refused w k)
    | some p => (d.tagPacket p k []).map fun x => x.1.txPacket p x.2

/-- Outputs of the collective engines that wait for a tag go out in order. -/
def Device.pumpRing : Nat → Device → Device
  | 0, d => d
  | n + 1, d =>
    match d.fab.ring with
    | [] => d
    | k :: r =>
      match d.fabSend (portLog 0) k.2 (fun k d => d.ringData 0 8 (portLog 0) k) with
      | some e => Device.pumpRing n ({ e with fab := { e.fab with ring := r } }.outputLeft k.1)
      | none => d

/-- The packets of a SEND (R402): the rows of the destination cut at 4 KiB boundaries, with the places of their bytes in the source's
element stream. -/
def sendPieces (o : Opnd) : List Piece :=
  ((o.runs.flatMap (cutRun 4096)).foldl
    (fun (a : Nat × List Piece) r =>
      (a.1 + r.2, a.2 ++ [{ src := a.1, dst := r.1, len := r.2, scale := false, esz := 0, step := 0 }])) (0, [])).2

/-- The runs of addresses that hold `n` bytes of a stream of runs from a position. -/
def streamRuns : List (Nat × Nat) → Nat → Nat → List (Nat × Nat)
  | [], _, _ => []
  | (a, m) :: r, off, n =>
    if m ≤ off then streamRuns r (off - m) n
    else
      let l := min n (m - off)
      if n ≤ m - off then [(a + off, l)] else (a + off, l) :: streamRuns r 0 (n - l)

/-- The codewords of a stream that a bad codeword of memory touches, when a run of `n` bytes from `a` stands in the stream
from `pos`. -/
def streamBad (pos a n bad : Nat) : List Nat :=
  let lo := pos + max bad a - a
  let hi := pos + min (bad + 15) (a + n - 1) - a
  if lo / 16 = hi / 16 then [lo / 16] else [lo / 16, hi / 16]

/-- Bytes of a stream of runs read from device memory by a ring client of a half, and the indices of the codewords of the stream that bad
ones touch. -/
def Device.readStream (d : Device) (h c : Nat) (runs : List (Nat × Nat)) : Device × List Byte × List Nat :=
  runs.foldl
    (fun (acc : Device × List Byte × List Nat) r =>
      let x := acc.1.readLines r.1 r.2 (Device.ringTrip h c)
      (x.dev, acc.2.1 ++ x.bytes, acc.2.2 ++ x.bad.flatMap (streamBad acc.2.1.length r.1 r.2))) (d, [], [])

/-- The signature record of a packet sent (R354). -/
def packetRecord (k : Packet) : List Byte :=
  [2, k.cls] ++ leBytes 2 k.landing.toNat ++ leBytes 2 k.dest.toNat ++ [0, 0] ++ leBytes 8 k.addr.toNat ++ leBytes 6 k.stamp.toNat ++
    [0, 0] ++ leBytes 4 k.payload.length ++ [0, 0, 0, 0] ++ k.payload

/-- The port on which a packet of the part leaves first; none for the part itself, or with no route. -/
def Device.firstPort (d : Device) (k : Packet) : Option Nat :=
  if k.dest.toNat = 0xFFFF then d.castPorts.head? else if k.dest.toNat = d.fabAddr then none else d.routePort k

/-- The header of the packet of a piece of a SEND (R400, R402). -/
def Device.sendHead (d : Device) (q : QCue) (p : Piece) : Packet :=
  let cls := cf q.cue 88 2
  { dest := BitVec.ofNat 16 (opndOf (refAt q.refs 1)).dev, src := BitVec.ofNat 16 d.fabAddr,
    kind := if cls = 3 then 2 else 1, cls := BitVec.ofNat 8 cls, hops := 0, gen := 0, tag := 0,
    landing := BitVec.ofNat 16 (cf q.cue 90 9), addr := BitVec.ofNat 64 p.dst, stamp := BitVec.ofNat 48 d.frame,
    payload := [], poison := [] }

/-- The packet of a piece of a SEND (R400, R402). Its bytes come over the base network through a ring port, to the ring client of the
fabric port on which the packet leaves, or else to that of the half's first port (R23, R25, R209; log entry 185). -/
def Device.sendPkt (d : Device) (c : Nat) (q : QCue) (p : Piece) : Device × Packet :=
  let k := d.sendHead q p
  let port := (d.firstPort k).getD (8 * halfOf (towerOf c))
  let r := d.readStream (port / 8) (fabricClient port) (streamRuns (opndOf (refAt q.refs 0)).runs p.src p.len)
  (r.1, { k with payload := r.2.1, poison := r.2.2 })

/-- The pieces of a SEND enter the fabric one after another, until one has to wait for a tag (R405) or for the memory of its bytes (log entry
146). -/
def Device.sendPump (k : Nat) (q : QCue) (ring : Packet → Device → Device) : Nat → Device → Device
  | 0, d => d
  | n + 1, d =>
    match ((d.core k).headWork 5).map (·.todo) with
    | some (p :: r) =>
      let x := ({ d with blocked := false } : Device).sendPkt k q p
      match (if x.1.blocked then none else x.1.fabSend (20 + halfOf (towerOf k)) x.2 ring).filter fun e => !e.blocked with
      | some e => Device.sendPump k q ring n ((e.sigAdd k (packetRecord x.2)).workMod k 5 fun w => { w with todo := r })
      | none => d
    | _ => d

/-- SEND at the head of the store-DMA queue (R76, R324, R402, R405): complete when its packets are in transmit buffers. -/
def Device.sendStep (ring : Packet → Device → Device) (k : Nat) (d : Device) : Device :=
  match (d.core k).headCue 5 [2] with
  | none => d
  | some q =>
    let d := if q.started then d
      else
        let t := opndOf (refAt q.refs 1)
        d.headMod k 5 fun q => { q with
          started := true
          work := some { fromPlace := .device, toPlace := .device, todo := sendPieces t, held := [], flight := 0, members := [] } }
    let n := (((d.core k).headWork 5).map (·.todo.length)).getD 0
    (Device.sendPump k q ring n d).dmaSettle k 5

/-! ### Acknowledgements and timeouts -/

/-- A stale acknowledgement (R405): dropped, counted and logged. -/
def Device.staleAck (d : Device) (p tag want got : Nat) : Device :=
  ((d.count (fabReg 0x40) 1).setBit (fabReg 0x20) 0).log (portLog p) 0x04 13 0 0
    (tag + want * 2 ^ 16 + got * 2 ^ 20 + (tag / 4096) * 2 ^ 24)

/-- One entry of an ACK packet (R401, R405). -/
def Device.ackEntry (p src e : Nat) (d : Device) : Device :=
  let q := field e 12 4
  let t := field e 0 12
  let x := d.fabTag q t
  if x.st ≠ .requested ∨ x.gen.toNat ≠ field e 16 4 then d.staleAck p (field e 0 16) x.gen.toNat (field e 16 4)
  else
    let d := if field e 20 2 = 1 then
        ((d.count (fabReg 0x50) 1).setBit (fabReg 0x20) 2).log (portLog p) 0x08 13 x.addr.toNat 0 (d.fabAddr + x.dest.toNat * 2 ^ 16)
      else d
    let left := x.waiting.filter (· ≠ src)
    if left.isEmpty then d.setFabTag q t { FabTag.reset with gen := x.gen } else d.setFabTag q t { x with waiting := left }

/-- An ACK packet for the part (R405): its tags come free, and packets that waited for one go out. -/
def Device.ackIn (p : Nat) (k : Packet) (d : Device) : Device :=
  if d.dataPort p && k.kind.toNat == 0x10 && k.dest.toNat == d.fabAddr && d.rxFirst p k then
    let d := d.takeRx p k
    let d := d.each (List.range (k.payload.length / 4)) fun i d => d.ackEntry p k.src.toNat (leAt k.payload (4 * i) 4)
    d.pumpRing d.fab.ring.length
  else d

/-- ACK (R405). -/
def execAck (port : Fin 16) (pkt : Packet) (s : State) : Host.Outcome State Fault Refusal := s.onClock (Device.onlyIf pkt.wf (Device.ackIn port pkt))

/-- A fabric tag times out (R405): counted and logged; in a take it is the loss of a fabric partner. -/
def Device.fabTimeout (p t : Nat) (d : Device) : Device :=
  let x := d.fabTag p t
  if x.st = .requested then
    let d := d.setFabTag p t { x with st := .timedOut }
    let d := ((d.count (fabReg 0x48) 1).setBit (fabReg 0x20) 1).log (portLog p) 0x06 13 (x.addr.toNat / 64 * 64) 0
      (4096 * p + t + 2 ^ 16 + x.dest.toNat * 2 ^ 32)
    d.fault 9 0 0 13 x.dest.toNat 0
  else d

/-- FAB_TAG_TIMEOUT (R405). -/
def execFabTagTimeout (port : Fin 16) (tag : BitVec 12) (s : State) : Host.Outcome State Fault Refusal :=
  s.onClock (Device.fabTimeout port tag.toNat)

/-- A timed-out fabric tag returns to use (R405). -/
def Device.fabRelease (p t : Nat) (d : Device) : Device :=
  let x := d.fabTag p t
  if x.st = .timedOut then
    let d := d.setFabTag p t { FabTag.reset with gen := x.gen }
    d.pumpRing d.fab.ring.length
  else d

/-- FAB_TAG_RELEASE (R405). -/
def execFabTagRelease (port : Fin 16) (tag : BitVec 12) (s : State) : Host.Outcome State Fault Refusal :=
  s.onClock (Device.fabRelease port tag.toNat)

/-! ### Forwarding -/

/-- The port on which a packet in transit goes on: one that was here when a COMMIT replaced the tables finishes on its old path (R413). -/
def Device.forwardPort (d : Device) (p : Nat) (k : Packet) : Option Nat :=
  if d.fab.flight.contains (p, k) then pathPort (mget 0 d.fab.oldRoutes k.dest.toNat).toNat k else d.routePort k

/-- A packet for other parts, in its turn (R403, R406, R407, R412): HOPS + 1 on the port of its route, on every other port of the broadcast
entry, or dropped at 16 hops, or refused without a route. A broadcast DATA packet is delivered here too. -/
def Device.forward (p : Nat) (k : Packet) (d : Device) : Device :=
  let tagged : Bool := k.kind.toNat == 1 || k.kind.toNat == 2
  if k.kind.toNat == 1 && k.dest.toNat == 0xFFFF then d.dataIn p k
  else if d.dataPort p && (tagged || k.kind.toNat == 0x10) && k.dest.toNat != d.fabAddr && d.rxFirst p k then
    let r := d.forwardPort p k
    let d := d.takeRx p k
    let d := { d with fab := { d.fab with flight := d.fab.flight.erase (p, k) } }
    let go := { k with hops := k.hops + 1 }
    if k.dest.toNat = 0xFFFF then d.castOn p k
    else if 16 ≤ k.hops.toNat then ((d.count (fabReg 0x60) 1).setBit (fabReg 0x20) 4).logPacket (portLog p) k 2
    else
      match r with
      | some q => d.txPacket q go
      | none => if tagged then (d.refused (portLog p) k).ackTo k 1 else d.refused (portLog p) k
  else d

/-- PACKET_FORWARD (R406). -/
def execPacketForward (port : Fin 16) (pkt : Packet) (s : State) : Host.Outcome State Fault Refusal :=
  s.onClock (Device.onlyIf pkt.wf (Device.forward port pkt))

/-- A packet in transit that has not left 25 µs after it arrived (R406): dropped, counted and logged. -/
def Device.aged (p : Nat) (k : Packet) (d : Device) : Device :=
  let x := d.port p
  let mark := fun (d : Device) => ((d.count (fabReg 0x58) 1).setBit (fabReg 0x20) 3).logPacket (portLog p) k 1
  if k.src.toNat = d.fabAddr then d
  else if x.tx.contains k then mark (d.modPort p fun x => { x with tx := x.tx.erase k })
  else if (mget [] x.rx (pktBuf k)).contains k then mark (d.takeRx p k)
  else d

/-- PACKET_AGED (R406). -/
def execPacketAged (port : Fin 16) (pkt : Packet) (s : State) : Host.Outcome State Fault Refusal := s.onClock (Device.onlyIf pkt.wf (Device.aged port pkt))

/-! ### Flits received -/

/-- A packet from its header's bytes, its payload and its poisoned codewords (R400). -/
def packetOf (h payload : List Byte) (poison : List Nat) : Packet :=
  { dest := BitVec.ofNat 16 (leAt h 0 2), src := BitVec.ofNat 16 (leAt h 2 2), kind := BitVec.ofNat 8 (leAt h 4 1),
    cls := BitVec.ofNat 8 (leAt h 5 1), hops := BitVec.ofNat 8 (leAt h 6 1), gen := BitVec.ofNat 8 (leAt h 7 1),
    tag := BitVec.ofNat 16 (leAt h 8 2), landing := BitVec.ofNat 16 (leAt h 10 2), addr := BitVec.ofNat 64 (leAt h 16 8),
    stamp := BitVec.ofNat 48 (leAt h 24 6), payload := payload, poison := poison }

/-- The kinds of R401. -/
def knownKind (n : Nat) : Bool := [0x01, 0x02, 0x10, 0x11, 0x12, 0x13, 0x14, 0x15, 0x16, 0x20].contains n

/-- The bytes of a codeword. -/
def Codeword.bytes (c : Codeword) : List Byte := leBytes 16 c.data.toNat
/-- A codeword as read and checked. -/
def Codeword.check (c : Codeword) : Checked := eccReceive c.bytes c.syn

/-- A whole packet received on a port (R401, R403): it stands in its receive buffer; one of a reserved kind is dropped and logged, and
so is one whose header cannot be used, and its slots drain. `buf` is the buffer of the flits that brought it. -/
def Device.receive (d : Device) (p buf : Nat) (cs : List Codeword) : Device :=
  let hd := cs.take 2
  let h := hd.flatMap fun c => c.check.data
  let pay := (cs.drop 2).map Codeword.check
  let n := leAt h 12 2
  let k := packetOf h ((pay.flatMap (·.data)).take n) ((List.range pay.length).filter fun i => ((pay[i]?).map (·.bad)).getD false)
  if hd.any fun c => c.check.bad then d.modPort p fun x => x.drain buf cs.length
  else if !knownKind k.kind.toNat then
    let r := d.draw
    (r.2.logPacket (portLog p) k (r.1.toNat % 4)).modPort p fun x => x.drain buf cs.length
  else d.modPort p fun x => { x with rx := mmod [] x.rx (pktBuf k) fun l => l ++ [k] }

/-- Codewords that a packet with these first codewords has; 2 until its header is whole (R400). -/
def packetSize (cs : List Codeword) : Nat :=
  if cs.length < 2 then 2 else 2 + ceilDiv (leAt ((cs.take 2).flatMap fun c => c.check.data) 12 2) 16

/-- A codeword received: counted and logged when corrected or found uncorrectable (R290, R294, R421). -/
def Device.noteFab (d : Device) (p : Nat) (cs : List Codeword) (c : Codeword) : Device :=
  let a := if cs.length < 2 then 0 else leAt ((cs.take 2).flatMap fun c => c.check.data) 16 8 % 2 ^ 48 + 16 * (cs.length - 2)
  let x := c.check
  match x.cls with
  | .corrected b => (d.setBit (fabReg 0x20) 7).log (portLog p) 0x01 13 a x.syn.toNat b
  | .uncorrectable => d.log (portLog p) 0x02 13 a x.syn.toNat 0
  | _ => d

/-- Slot k of a flit as a codeword. -/
def flitCw (f : List Byte) (k : Nat) : Codeword :=
  let w := sliceBytes f (16 + 16 * k) 16
  { data := BitVec.ofNat 128 (leNat w), syn := BitVec.ofNat 16 (leAt f (272 + 2 * k) 2) ^^^ eccEncode w }

/-- The slots of a flit laid to the packet in progress (R392): a whole packet is received, and the next begins. Answers the codewords
of a packet that goes on in a later flit. -/
def Device.fabSlots (p buf first : Nat) : List (Nat × Codeword) → List Codeword → Device → Device × List Codeword
  | [], cs, d => (d, cs)
  | (i, c) :: r, cs, d =>
    if cs.isEmpty && decide (i < first) then Device.fabSlots p buf first r cs d
    else
      let d := d.noteFab p cs c
      let cs := cs ++ [c]
      if packetSize cs ≤ cs.length then Device.fabSlots p buf first r [] (d.receive p buf cs) else Device.fabSlots p buf first r cs d

/-- Whether a flit is intact (R391, R393): it has 304 bytes, its CRC is right, and its TYPE and CRCLASS are not reserved. -/
def fabIntact (f : List Byte) : Bool :=
  f.length == 304 && (crc32 (f.take 12 ++ f.drop 16)).toNat == leAt f 12 4 && field (leAt f 0 12) 25 2 != 3 && decide (field (leAt f 0 12) 37 3 ≤ 4)

/-- Everything kept on a port sent again (R393): counted, and as first sent but for the TTT of clapper messages (R395). -/
def Device.replayFab (d : Device) (p : Nat) : Device :=
  let l := (d.port p).link
  if l.kept.isEmpty || !d.portUp p then d
  else (d.count (fabReg 0x70) 1).each l.kept fun f d => d.emit (.fabFlit p (d.resent p f.1 f.2))

/-- The content of a flit that is next in order (R392, R394). -/
def Device.fabTake (p : Nat) (f : List Byte) (d : Device) : Device :=
  let hd := leAt f 0 12
  let slots := (List.range (min 16 (field hd 32 5))).map fun k => (k, flitCw f k)
  let first := field hd 27 5
  let hold := fun (b n : Nat) (d : Device) => d.modPort p fun x => Port.drain { x with held := mmod [] x.held b fun l => l ++ [n] } b 0
  match field hd 25 2 with
  | 1 =>
    let part := (d.port p).part
    let mine := slots.drop (if part.isEmpty then first else 0)
    let b := (((part ++ mine.map (·.2)).head?).map fun c => field (leAt c.check.data 5 1) 0 2).getD 0
    let r := Device.fabSlots p b first slots part (hold b mine.length d)
    r.1.modPort p fun x => { x with part := r.2 }
  | 2 => (Device.fabSlots p 4 first slots [] (hold 4 (slots.drop first).length d)).1
  | _ => d

/-- Credits returned by a flit (R394). -/
def Device.fabCredits (p hd : Nat) (d : Device) : Device :=
  d.modPort p fun x => { x with spent := mmod 0 x.spent (field hd 37 3) fun n => n - field hd 40 12 }

/-- A flit received on a port (R393): a damaged flit is dropped and a NAK is owed; an intact one acknowledges the flits sent, and the one
next in order gives its credits and its slots. -/
def Device.fabRecv (p : Nat) (f : List Byte) (d : Device) : Device :=
  let owe := fun (d : Device) => d.modPort p fun x => { x with link := { x.link with nak := true } }
  if !fabIntact f then owe (d.count (fabReg 0x68) 1)
  else
    let hd := leAt f 0 12
    let seq := field hd 0 12
    let d := d.modPort p fun x =>
      { x with link := { x.link with kept := x.link.kept.filter fun q => decide (2048 ≤ (field hd 12 12 + 4096 - q.1) % 4096) } }
    let d := if bit hd 24 then d.replayFab p else d
    let want := (d.port p).link.expect
    if seq = want then
      let d := d.modPort p fun x => { x with link := { x.link with expect := (want + 1) % 4096, nak := false } }
      (d.fabTake p f).fabCredits p hd
    else if (want + 4096 - seq) % 4096 < 2048 then d
    else owe d

/-- FAB_FLIT (R393): what the flit lets the port send leaves, and then what the port owes; an IDLE flit takes the ACK of a flit with slots back
when nothing else has (R392; log entry 148). -/
def Device.fabFlitIn (p : Nat) (f : List Byte) (d : Device) : Device :=
  if !d.portUp p then d
  else
    let n := (d.port p).link.nextSeq
    let d := d.fabRecv p f
    let d := (d.pumpPort p (d.port p).tx.length).settlePort p
    if (d.port p).link.nextSeq = n ∧ field (leAt f 0 12) 25 2 ≠ 0 ∧ (d.port p).link.kept.length < 2048 then d.sendFlit p 0 31 [] none else d

/-- FAB_FLIT (R393). -/
def execFabFlit (port : Fin 16) (flit : List Byte) (s : State) : Host.Outcome State Fault Refusal :=
  s.onClock (Device.fabFlitIn port flit)

/-- FAB_REPLAY_TIMEOUT (R393): no acknowledgement has advanced for 2,048 flit times. -/
def execFabReplayTimeout (port : Fin 16) (s : State) : Host.Outcome State Fault Refusal := s.onClock fun d => d.replayFab port

end Sys2Proof.Machine
end

