-- ==== Sys2Proof/Machine/Collect.lean ====
section
/-! DEFINITION. The collective engines (R414 to R417): contributions, combinations and outputs; and SEND, whose packets to the own
part are delivered through the ring (R402). -/
namespace Sys2Proof.Machine

open Sys2Proof

/-! ### Job records -/

/-- The job block of an address in the store: half, and the device-local address of its record (R414). -/
def jobOf (a : Nat) : Option (Nat × Nat) :=
  match regionOf a with
  | .store h o => some (h, a - o % 0x100000)
  | _ => none

/-- The fields of a job record (R414). -/
structure JobRec where
  op : Nat
  ranks : Nat
  len : Nat
  outLanding : Nat
  outs : List (Nat × Nat)
  member : List Nat
  deriving DecidableEq, Repr

/-- A job record read from its bytes. -/
def jobRec (b : List Byte) : JobRec :=
  { op := leAt b 4 1, ranks := leAt b 5 1, len := leAt b 8 4, outLanding := leAt b 12 2
    outs := (List.range (min 8 (leAt b 14 1))).map fun i => (leAt b (0xC0 + 16 * i) 2, leAt b (0xC8 + 16 * i) 8)
    member := (List.range 64).map fun r => leAt b (0x40 + 2 * r) 2 }

/-- Whether the bytes hold MAGIC. -/
def jobMagic (b : List Byte) : Bool := leAt b 0 4 == 0x434F4C4A

/-- Whether a job record is legal (R414). -/
def jobLegal (b : List Byte) : Bool :=
  let j := jobRec b
  jobMagic b && decide (j.op ≤ 3) && decide (1 ≤ j.ranks) && decide (j.ranks ≤ 64) && j.len % 64 == 0 && decide (1 ≤ j.len) &&
    decide (j.outLanding ≤ 511) && decide (1 ≤ leAt b 14 1) && decide (leAt b 14 1 ≤ 8) && decide (0x400 + j.ranks * j.len ≤ 0x100000)

/-- The engine of a job: 0 to 3 west, 4 to 7 east (R415, R423). -/
def jobEngine (h job : Nat) : Nat := 4 * h + job / 0x100000 % 4

/-- A read by a collective engine within a step, through the ring of its half (R209, R220, R417; log entry 146). -/
def Device.ringRead (d : Device) (e a n : Nat) : ReadRes := d.readLines a n (Device.ringTrip (e / 4) (collClient e))

/-- A bad codeword of a contribution or of a record: the engine does not use it, and the take faults (R295). -/
def Device.consumeColl (d : Device) (h a : Nat) : Device := (d.log (20 + h) 0x03 16 a 0 0).fault 5 0 0 16 a 0

/-! ### Contributions -/

/-- Where a COLL packet comes from: the ring client of a half that brings it, its port, when it came in by one, and the log of its
refusal. -/
structure CollFrom where
  half : Nat
  client : Nat
  port : Option Nat
  log : Nat
  deriving DecidableEq, Repr

/-- A COLL packet refused (R403). -/
def Device.refuseColl (d : Device) (f : CollFrom) (k : Packet) : Device := (d.refuseAt f.log k).ackPort f.port k 1

/-- A COLL packet that counts on a landing counter, an output (R416): written, or refused. -/
def Device.collOut (d : Device) (f : CollFrom) (k : Packet) : Device :=
  if d.landable k then d.ringWrite f.half f.client (.payload f.port k) k else d.refuseColl f k

/-- A contribution judged (R415, R416): refused, late, or written and counted. -/
def Device.contribute (d : Device) (f : CollFrom) (h job : Nat) (k : Packet) (b : List Byte) : Device :=
  let j := jobRec b
  let off := k.addr.toNat - (job + 0x400)
  let r := off / max 1 j.len
  let e := jobEngine h job
  let ok := jobLegal b && d.landable k && decide (job + 0x400 ≤ k.addr.toNat) && decide (r < j.ranks) &&
    decide (off % max 1 j.len + k.payload.length ≤ j.len) && j.member.getD r 0x10000 == k.src.toNat && k.landing.toNat == 0
  if !ok then d.refuseColl f k
  else if (d.jobs e).any fun c => c.job == job && c.stamp == k.stamp.toNat && c.begun then
    (d.setBit (fabReg (0x400 + 8 * e)) 1).refuseColl f k
  else d.ringWrite f.half f.client (.contribution f.port e job (j.ranks * j.len) k) k

/-- A COLL packet at its destination: a contribution where its block holds a job record, or a job is under way; else an output, which counts on
the landing counter that it names (R415, R416; log entry 84). The engine reads the record through its ring port. -/
def Device.collect (d : Device) (f : CollFrom) (k : Packet) : Device :=
  match jobOf k.addr.toNat with
  | some (h, job) =>
    if !d.legal k.addr.toNat then d.refuseColl f k
    else
    let r := d.ringRead (jobEngine h job) job 0x140
    match r.bad with
    | a :: _ => (r.dev.consumeColl h a).refuseColl f k
    | [] =>
      if jobMagic r.bytes || (d.jobs (jobEngine h job)).any fun c => c.job == job then r.dev.contribute f h job k r.bytes
      else r.dev.collOut f k
  | none => d.collOut f k

/-- COLL for the part, in its turn (R404, R407, R415). -/
def Device.collIn (p : Nat) (k : Packet) (d : Device) : Device :=
  if d.dataPort p && k.kind.toNat == 2 && k.dest.toNat == d.fabAddr && d.rxFirst p k then
    (d.takeRx p k).collect { half := p / 8, client := fabricClient p, port := some p, log := portLog p } k
  else d

/-- COLL (R415). -/
def execColl (port : Fin 16) (pkt : Packet) (s : State) : Host.Outcome State Fault Refusal :=
  s.onClock (Device.onlyIf pkt.wf (Device.whole (Device.collIn port pkt)))

/-- A packet of the part for itself, through the ring of its core's half (R402). -/
def Device.ringPacket (h : Nat) (k : Packet) (d : Device) : Device :=
  if k.kind.toNat = 2 then d.collect { half := h, client := 0, port := none, log := 20 + h } k else d.ringData h 0 (20 + h) k

/-- SEND (R402). -/
def execSend (c : Fin 480) (s : State) : Host.Outcome State Fault Refusal :=
  s.inTower (Device.sendStep (fun k d => d.ringPacket (halfOf (towerOf c)) k) c)

/-! ### Combinations -/

/-- Whether R167 states the fold of these records: legal extents, the same in all, in contributions wide enough for them. -/
def recordsMatch (len : Nat) (cs : List (List Byte)) : Bool :=
  let rows := leAt (cs.headD []) 0 4
  let dim := leAt (cs.headD []) 4 4
  decide (1 ≤ rows) && decide (rows ≤ 128) && [64, 128, 256].contains dim && decide (0x640 + 4 * rows * dim ≤ len) &&
    cs.all fun c => leAt c 0 4 == rows && leAt c 4 4 == dim

/-- The combination of contributions in ascending rank (R416): each output of SUM, MAX and ATTN is one contribution wide. Free in an
ATTN output: the bytes past its record, its M and L entries from ROWS upward, and all of it where R167 states no fold (log entry 84). -/
def Device.combined (d : Device) (j : JobRec) (cs : List (List Byte)) : Device × List Byte :=
  let words := fun (f : List Nat → Nat) => (List.range (j.len / 4)).flatMap fun i => leBytes 4 (f (cs.map fun c => leAt c (4 * i) 4))
  match j.op with
  | 0 => (d, words treeReduce)
  | 1 => (d, words (foldFirst maxF32))
  | 2 =>
    let x := d.drawBytes j.len
    let r := combineRecords cs
    (x.2, if recordsMatch j.len cs then keepUpper (x.1.take r.length) r (leAt r 0 4) ++ x.1.drop r.length else x.1)
  | _ => (d, cs.flatMap id)

/-- The packets of an output (R402, R416): one row, cut at 4 KiB boundaries. -/
def Device.outPackets (d : Device) (j : JobRec) (stamp : Nat) (o : Nat × Nat) (bs : List Byte) (bad : List Nat) : List Packet :=
  (cutRun 4096 (o.2 % 2 ^ 48, bs.length)).map fun r =>
    let at0 := r.1 - o.2 % 2 ^ 48
    { dest := BitVec.ofNat 16 o.1, src := BitVec.ofNat 16 d.fabAddr, kind := 2, cls := 3, hops := 0, gen := 0, tag := 0,
      landing := BitVec.ofNat 16 j.outLanding, addr := BitVec.ofNat 64 r.1, stamp := BitVec.ofNat 48 stamp,
      payload := sliceBytes bs at0 r.2
      poison := (List.range (ceilDiv r.2 16)).filter fun i => bad.contains (at0 / 16 + i) }

/-- An output sent out: what is for the part itself is written through the ring, the rest waits in order for tags (R405, R416). -/
def Device.sendOutput (e : Nat) (ks : List Packet) (d : Device) : Device :=
  d.each ks fun k d =>
    if k.dest.toNat = d.fabAddr then
      if d.landable k then d.ringWrite (e / 4) (collClient e) (.output e k) k else (d.refuseAt (20 + e / 4) k).outputLeft e
    else
      let d := { d with fab := { d.fab with ring := d.fab.ring ++ [(e, k)] } }
      d.pumpRing d.fab.ring.length

/-- A combination (R416): its contributions read, combined, and its outputs sent in ascending order; it runs until they have all left (R423). GATHER forwards bad codewords in
poisoned form; the other operations consume them. -/
def Device.combineJob (e : Nat) (c : CollJob) (d : Device) : Device :=
  let h := e / 4
  let r := d.ringRead e c.job 0x140
  let j := jobRec r.bytes
  let x := r.dev.ringRead e (c.job + 0x400) (j.ranks * j.len)
  let bad := x.bad.map fun a => (a - (c.job + 0x400)) / 16
  match r.bad ++ (if j.op = 3 then [] else x.bad) with
  | a :: _ => x.dev.consumeColl h a
  | [] =>
    let o := x.dev.combined j ((List.range j.ranks).map fun i => sliceBytes x.bytes (i * j.len) j.len)
    let ks := j.outs.flatMap fun out => o.1.outPackets j c.stamp out o.2 (if j.op = 3 then bad else [])
    (({ o.1 with fab := { o.1.fab with leaving := mset 0 o.1.fab.leaving e (ks.length + 1) } } : Device).sendOutput e ks).outputLeft e

/-- The job of an engine whose contributions are all written, in the order in which they became so (R417). -/
def Device.readyJob (d : Device) (e : Nat) : Option CollJob :=
  (d.jobs e).find? fun c => !c.begun && decide (1 ≤ c.whole) && decide (c.whole ≤ c.written)

/-- BUSY of an engine (R423): a combination runs. -/
def Device.collBusy (d : Device) (e : Nat) : Bool := mget 0 d.fab.leaving e != 0

/-- COMBINE (R415 to R417): one combination at a time. -/
def Device.combine (e : Nat) (d : Device) : Device :=
  match if d.take.state = 3 ∨ d.collBusy e = true then none else d.readyJob e with
  | some c => (d.setJobs e ((d.jobs e).map fun x => if x = c then { x with begun := true } else x)).combineJob e c
  | none => d

/-- COMBINE (R416). -/
def execCombine (engine : Fin 8) (s : State) : Host.Outcome State Fault Refusal := s.onClock (Device.whole (Device.combine engine))

end Sys2Proof.Machine
end

