-- ==== Sys2Proof/Machine/Save.lean ====
section
/-! DEFINITION. Saving and resuming a take (R359 to R363): draining, the save image, and its restoration. -/
namespace Sys2Proof.Machine

open Sys2Proof

/-! ### Draining -/

/-- Whether a take stands under HOLD (R342, R436). -/
def Device.heldTake (d : Device) : Bool := d.take.state == 2 && d.bitOf (gafReg 0x10) 0

/-- SAVE with phase DRAIN (R359): the command waits for DRAIN_DONE. -/
def Device.saveDrainCmd : Device → Device :=
  Device.mbxWhen 0x04 Device.heldTake fun d => d.setField (svcReg 0x9118) 0 5 0

/-- SAVE_DRAIN (R359). -/
def execSaveDrain (s : State) : Host.Outcome State Fault Refusal := s.run Device.saveDrainCmd

/-- Whether a port's buffers are empty (R359). -/
def Port.drained (x : Port) : Bool := x.tx.isEmpty && (x.rx.all fun p => p.2.isEmpty) && x.part.isEmpty

/-- Whether nothing that came by the fabric is under way to memory, and everything that has been written is counted (R325, R359). -/
def Device.ringQuiet (d : Device) : Bool :=
  d.take.landed.isEmpty && d.accesses.all fun x =>
    match x.use with
    | .payload _ _ => false
    | .output _ _ => false
    | .contribution _ _ _ _ _ => false
    | _ => true

/-- DRAIN_DONE (R359): with the buffers empty and the merge entries complete, DRAINED is set. -/
def Device.drainDone (d : Device) : Device :=
  if d.bitOf (hstReg 0x108) 0 && d.mbx.op == 4 && d.mbx.result.isNone && (d.fab.ports.all fun p => p.2.drained) && d.fab.ring.isEmpty && d.ringQuiet
  then (d.flushMerges.setBit (svcReg 0x9118) 0).mbxEnd 0
  else d

/-- DRAIN_DONE (R359). -/
def execDrainDone (s : State) : Host.Outcome State Fault Refusal := s.run Device.drainDone

/-! ### The STATE section -/

/-- A list of numbers with its length, `n` bytes each. -/
def putList (n : Nat) (l : List Nat) : List Byte := leBytes 4 l.length ++ l.flatMap (leBytes n)

/-- A descriptor entry in the STATE section. -/
def putDesc (e : DescEntry) : List Byte := leBytes 32 e.bits.toNat ++ leBytes 4 e.gen.toNat ++ leBytes 2 e.syn0.toNat ++ leBytes 2 e.syn1.toNat

/-- A group of the page pool in the STATE section. -/
def putGroup (g : KvGroup) : List Byte := [g.fill, g.pfmt, g.dim, g.kscale, g.vscale].flatMap (leBytes 4) ++ putList 4 g.lins

/-- The registers of a core that a save keeps (R52, R169, R362). -/
def savedRegs : List Nat := [0x200, 0x208, 0x600, 0x608]

/-- A core in the STATE section: descriptor table, registers, page-pool state. -/
def Device.putCore (d : Device) (k : Nat) : List Byte :=
  let c := d.core k
  ((List.range 1024).flatMap fun i => putDesc (mget DescEntry.reset c.descs i)) ++
    (savedRegs.flatMap fun o => leBytes 8 (d.reg (corReg k o)).toNat) ++
    ((List.range 64).flatMap fun g => putGroup (mget KvGroup.reset c.groups g)) ++
    putList 4 c.used ++ putList 4 c.quar ++ leBytes 4 c.cursor ++ leBytes 8 c.flushes

/-- The registers of the take settings of R348 in register-address order. -/
def settingsRegs : List Nat :=
  ([0, 1].flatMap fun h =>
    ((List.range 1024).map fun i => stoReg h (0x10000 + 8 * i)) ++
    ((List.range 16).flatMap fun r => [stoReg h (0x20000 + 16 * r), stoReg h (0x20008 + 16 * r)]) ++
    [stoReg h 0x40000, stoReg h 0x40008]) ++
  (List.range 480).map fun k => corReg k 0x700

/-- A landing counter in the STATE section. -/
def putLanding (l : List (Nat × Nat)) : List Byte := leBytes 4 l.length ++ l.flatMap fun s => leBytes 6 s.1 ++ leBytes 4 s.2

/-- The STATE section (R362). Its contents are the spec's, their order in the section is the model's. -/
def Device.stateSection (d : Device) : List Byte :=
  leBytes 8 d.nextFrame ++ (d.arrays.flatMap d.putCore) ++ (settingsRegs.flatMap fun a => leBytes 8 (d.reg a).toNat) ++
    (List.range 512).flatMap fun c => putLanding (mget [] d.take.landing c)

/-! ### The image -/

/-- A directory entry (R362). -/
def dirEntry (kind index base len off : Nat) : List Byte :=
  leBytes 2 kind ++ leBytes 2 index ++ [0, 0, 0, 0] ++ leBytes 8 base ++ leBytes 8 len ++ leBytes 8 off

/-- The highest fitted byte of capacity memory, counted from its base; 0 with none fitted. -/
def Device.capacityEnd (d : Device) : Nat :=
  maxOf ((List.range 12).map fun k => if d.lpdSize k = 0 then 0 else k * 0x1000000000 + d.lpdSize k)

/-- A run of bytes in codeword form, check bits included. -/
def cwForm (n : Nat) : Nat := n / 16 * 18

/-- The sections of the image in order: kind, index, device base, length (R362). The part writes the first three kinds. -/
def Device.sections (d : Device) (stateLen : Nat) : List (Nat × Nat × Nat × Nat) :=
  [(1, 0, 0, stateLen)] ++ (d.arrays.map fun k => (4, k, 0, 0x400000)) ++ (d.arrays.map fun k => (5, k, 0, 0x40000)) ++
    ([0, 1].map fun h => (2, h, 0x040000000000 + h * 0x100000000, cwForm 0xC0000000)) ++
    (((List.range 480).filter fun k => d.up (towerOf k)).map fun k =>
      (3, k, sliceBase k, cwForm (if d.fuses.variant = 2 then 0x80000000 else 0xC0000000))) ++
    (if d.capacityEnd = 0 then [] else [(6, 0, 0x080000000000, cwForm d.capacityEnd)])

/-- The sections with their offsets in the image. -/
def placeSections (start : Nat) (l : List (Nat × Nat × Nat × Nat)) : List (List Byte × Nat × Nat × Nat) :=
  (l.foldl (fun (a : Nat × List (List Byte × Nat × Nat × Nat)) s =>
    (a.1 + s.2.2.2, a.2 ++ [(dirEntry s.1 s.2.1 s.2.2.1 s.2.2.2 a.1, s.1, s.2.1, a.1)])) (start, [])).2

/-- The image header (R361). -/
def Device.imageHeader (d : Device) (r : Reel) (sections dir : Nat) (state : List Byte) : List Byte :=
  leBytes 4 0x53415645 ++ leBytes 2 0x0501 ++ leBytes 2 d.take.parts ++ d.fprint ++ r.identity ++ leBytes 8 r.takeKey.toNat ++
    leBytes 6 d.nextFrame ++ leBytes 2 d.fabAddr ++ leBytes 4 sections ++ [0, 0, 0, 0] ++ leBytes 8 dir ++ shake256 state 32 ++
    List.replicate 120 0

/-- A core memory written to host memory, bad codewords with EP. Its bytes come over the through path of the core's column (R23, R372; log
entry 186). -/
def Device.saveMem (d : Device) (host k : Nat) (p : Place) (n : Nat) : Device :=
  let r := d.readCore k 14 p 0 n
  let x := r.dev.passPath k 0 n ((cwsOf 0 n).filter fun c => (((d.core k).placeMem p).cw c).bad)
  let bad := x.2.map (16 * ·)
  x.1.hostPut host r.bytes fun c => bad.any fun b => decide (host + b < 16 * c + 16) && decide (16 * c < host + b + 16)

/-- The image written to host memory (R359, step 3). -/
def Device.writeImage (d : Device) (r : Reel) (host : Nat) : Device :=
  let st := d.stateSection
  let ss := d.sections st.length
  let dir := 256 + 32 * ss.length
  let ps := placeSections dir ss
  let d := d.hostPut host (d.imageHeader r ss.length 256 st) fun _ => false
  let d := d.hostPut (host + 256) (ps.flatMap (·.1)) fun _ => false
  let d := d.hostPut (host + dir) st fun _ => false
  d.each ps fun s d =>
    if s.2.1 = 4 then d.saveMem (host + s.2.2.2) s.2.2.1 .scratch 0x400000
    else if s.2.1 = 5 then d.saveMem (host + s.2.2.2) s.2.2.1 .staging 0x40000
    else d

/-- Bytes of the image that the part writes. -/
def Device.imageBytes (d : Device) : Nat :=
  let n := d.stateSection.length
  256 + 32 * (d.sections n).length + n + d.arrays.length * 0x440000

/-- SAVE with phase CAPTURE (R359, R360, R436): refused while engine 7 runs, a bank is not FREE, or the part is not drained. -/
def Device.saveCaptureCmd : Device → Device :=
  Device.mbxWhen 0x04 (fun d => d.heldTake && !d.bitOf (hstReg (0x200 + 64 * 7 + 0x28)) 0) fun d =>
    let held := d.arrays.any fun k => (List.range 4).any fun b => (mget Bank.reset (d.core k).banks b).st != 0
    if held then (d.setField (svcReg 0x9118) 2 3 1).mbxEnd 4
    else if !d.bitOf (svcReg 0x9118) 0 then (d.setField (svcReg 0x9118) 2 3 2).mbxEnd 4
    else
      match d.take.reel with
      | none => d.mbxEnd 4
      | some r =>
        if d.mbxArg 2 < d.imageBytes then d.mbxEnd 3
        else if !d.hostReach then d.mbxEnd 7
        else (((d.writeImage r (d.mbxArg 1)).setField (svcReg 0x9118) 2 3 0).setBit (svcReg 0x9118) 1).mbxEnd 0

/-- SAVE_CAPTURE (R360). -/
def execSaveCapture (s : State) : Host.Outcome State Fault Refusal := s.run Device.saveCaptureCmd

/-! ### Resuming -/

/-- A number taken off the front of a byte list. -/
def takeLe (n : Nat) (l : List Byte) : Nat × List Byte := (leNat (l.take n), l.drop n)

/-- Numbers of `n` bytes taken off the front, `k` of them. -/
def takeLes (n : Nat) : Nat → List Byte → List Nat × List Byte
  | 0, l => ([], l)
  | k + 1, l =>
    let a := takeLe n l
    let r := takeLes n k a.2
    (a.1 :: r.1, r.2)

/-- A list with its length taken off the front. -/
def takeList (n : Nat) (l : List Byte) : List Nat × List Byte :=
  let a := takeLe 4 l
  takeLes n (min a.1 a.2.length) a.2

/-- A descriptor table taken off the front. -/
def takeDescs : Nat → Nat → List Byte → SMap DescEntry → SMap DescEntry × List Byte
  | 0, _, l, m => (m, l)
  | n + 1, i, l, m =>
    let e : DescEntry :=
      { bits := BitVec.ofNat 256 (leAt l 0 32), gen := BitVec.ofNat 8 (leAt l 32 4), syn0 := BitVec.ofNat 16 (leAt l 36 2),
        syn1 := BitVec.ofNat 16 (leAt l 38 2) }
    takeDescs n (i + 1) (l.drop 40) (mset DescEntry.reset m i e)

/-- The groups of a page pool taken off the front. -/
def takeGroups : Nat → Nat → List Byte → SMap KvGroup → SMap KvGroup × List Byte
  | 0, _, l, m => (m, l)
  | n + 1, i, l, m =>
    let a := takeLes 4 5 l
    let b := takeList 4 a.2
    let g : KvGroup :=
      { fill := a.1.getD 0 0, pfmt := a.1.getD 1 0, dim := a.1.getD 2 0, kscale := a.1.getD 3 0, vscale := a.1.getD 4 0, lins := b.1 }
    takeGroups n (i + 1) b.2 (mset KvGroup.reset m i g)

/-- A core restored from the front of the STATE section. -/
def takeCore (a : Device × List Byte) (k : Nat) : Device × List Byte :=
  let ds := takeDescs 1024 0 a.2 []
  let rs := takeLes 8 savedRegs.length ds.2
  let gs := takeGroups 64 0 rs.2 []
  let us := takeList 4 gs.2
  let qs := takeList 4 us.2
  let cu := takeLe 4 qs.2
  let fl := takeLe 8 cu.2
  let pool := a.1.poolEntry k (fun _ => 0) ds.1 767
  let log := if pool.2.isSome then pool.1.poolEntry k (fun _ => 0) ds.1 766 else (pool.1, none)
  let d := log.1.modCore k fun c =>
    { c with
      descs := ds.1, groups := gs.1, used := us.1, quar := qs.1, cursor := cu.1, flushes := fl.1
      pool := pool.2, flushLog := log.2 }
  (d.each (savedRegs.zip rs.1) fun p d => d.setReg (corReg k p.1) (BitVec.ofNat 64 p.2), fl.2)

/-- A landing counter restored from the front of the STATE section. -/
def takeLanding (a : Device × List Byte) (c : Nat) : Device × List Byte :=
  let n := takeLe 4 a.2
  let l := (chunksOf 10 (n.2.take (10 * n.1))).map fun b => (leAt b 0 6, leAt b 6 4)
  (a.1.modTake fun t => { t with landing := mset [] t.landing c l }, n.2.drop (10 * n.1))

/-- The STATE section restored (R363). -/
def Device.restoreState (d : Device) (bs : List Byte) : Device :=
  let a := d.arrays.foldl takeCore (d, bs.drop 8)
  let rs := takeLes 8 settingsRegs.length a.2
  let d := a.1.each (settingsRegs.zip rs.1) fun p d => d.setReg p.1 (BitVec.ofNat 64 p.2)
  ((List.range 512).foldl takeLanding (d, rs.2)).1

/-- A core memory restored from host memory over the through path of the core's column: what came with EP, or is found bad there, is stored
in poisoned form. -/
def Device.restoreMem (d : Device) (host k : Nat) (p : Place) (n : Nat) : Device :=
  let r := d.hostGet host n
  let bad := fun w => r.2.any fun h => decide (16 * h < host + 16 * w + 16) && decide (host + 16 * w < 16 * h + 16)
  let x := d.passPath k 0 n (if r.2.isEmpty then [] else (cwsOf 0 n).filter bad)
  x.1.writeCore k 14 p 0 r.1 fun w => if x.2.contains w then 16 * w + 1 else 0

/-- The directory entry of a section in an image: its length and offset. -/
def findSection (dir : List Byte) (kind index : Nat) : Option (Nat × Nat) :=
  ((chunksOf 32 dir).find? fun e => leAt e 0 2 == kind && leAt e 2 2 == index).map fun e => (leAt e 16 8, leAt e 24 8)

/-- Whether a directory entry could stand in an image of this part (R362): reserved bytes 0, and the kind, index, base address and length
of a section that the part lists; the length of STATE is the image's own. -/
def Device.sectionOk (d : Device) (stateLen : Nat) (e : List Byte) : Bool :=
  leAt e 4 4 == 0 && (d.sections stateLen).contains (leAt e 0 2, leAt e 2 2, leAt e 8 8, leAt e 16 8)

/-- Whether sections, in the order of the directory, lie one after another behind the directory (R362; log entry 140). -/
def sectionsInOrder : Nat → List (List Byte) → Bool
  | _, [] => true
  | lo, e :: r => decide (lo ≤ leAt e 24 8) && sectionsInOrder (leAt e 24 8 + leAt e 16 8) r

/-- Whether the header and directory of an image are well formed (R361, R362): MAGIC, VERSION, and a directory behind the header whose
entries are sections of this part, every one of them once, at places of their own (log entry 140). -/
def Device.imageOk (d : Device) (hd dir : List Byte) : Bool :=
  let es := chunksOf 32 dir
  let len := ((findSection dir 1 0).map (·.1)).getD 0
  leAt hd 0 4 == 0x53415645 && leAt hd 4 2 == 0x0501 && decide (256 ≤ leAt hd 0x60 8) &&
    es.length == (d.sections len).length && es.all (d.sectionOk len) &&
    ((d.sections len).all fun s => (findSection dir s.1 s.2.1).isSome) &&
    sectionsInOrder (leAt hd 0x60 8 + 32 * es.length) es

/-- RESUME_RESULT of an image (R363): 0 when it is accepted. -/
def Device.judgeImage (d : Device) (host parts : Nat) (hd dir : List Byte) : Nat :=
  if sliceBytes hd 8 32 ≠ d.fprint then 1
  else if leAt hd 6 2 ≠ parts then 2
  else if leAt hd 0x56 2 ≠ d.fabAddr then 3
  else if !d.imageOk hd dir then 5
  else
    let s := (findSection dir 1 0).getD (0, 0)
    if shake256 (d.hostGet (host + s.2) s.1).1 32 = sliceBytes hd 0x68 32 then 0 else 4

/-- RESUME (R363, R431, R436, R551): the doorbell counts cleared as the command is accepted, the image judged; an accepted one is restored, with GAF_FRAME at n and HOLD at 1, and the take starts
at the next tick, after the exchange of continuity when it is enabled. -/
def Device.resumeCmd : Device → Device :=
  Device.mbxWhen 0x05 (fun d => d.idleTake && d.take.state == 1 && !d.survival && !d.unlocked) fun d =>
    let d := { d with host := { d.host with doorbells := [] } }
    if !d.hostReach then d.mbxEnd 7
    else
    let host := d.mbxArg 0
    let parts := d.mbxArg 1
    let hd := (d.hostGet host 256).1
    let dir := (d.hostGet (host + leAt hd 0x60 8) (32 * leAt hd 0x58 4)).1
    let r := d.judgeImage host parts hd dir
    let d := d.setField (svcReg 0x9118) 5 3 r
    if r ≠ 0 then d.mbxEnd 4
    else
      let s := (findSection dir 1 0).getD (0, 0)
      let d := d.prepareTake (leAt hd 0x50 6) parts false
      let d := d.restoreState (d.hostGet (host + s.2) s.1).1
      let d := d.each d.arrays fun k d =>
        (d.restoreMem (host + ((findSection dir 4 k).getD (0, 0)).2) k .scratch 0x400000).restoreMem
          (host + ((findSection dir 5 k).getD (0, 0)).2) k .staging 0x40000
      let d := d.setBit (gafReg 0x10) 0
      if d.bitOf (svcReg 0x9100) 0 then
        (({ d with cont := { d.cont with waiting := true } } : Device).sendCont (helloMessage d.fprint d.settingsDigest)).judgeHello
      else d.modTake fun t => { t with starting := true }

/-- RESUME (R363). -/
def execResume (s : State) : Host.Outcome State Fault Refusal := s.run (Device.whole Device.resumeCmd)

end Sys2Proof.Machine
end

