-- ==== Sys2Proof/Machine/Security.lean ====
section
/-! DEFINITION. Signatures, the rollback counter, the identity key, measurements and attestation (R525 to R537), and the mailbox
commands that read and write the calibration set (R512, R513). -/
namespace Sys2Proof.Machine

open Sys2Proof

/-! ### Signed messages and images -/

/-- The message that a signature covers (R525): an 8-byte tag and the SHAKE256-512 digest of the covered bytes. -/
def sigMessage (tag covered : List Byte) : List Byte := tag ++ shake256 covered 64

/-- SVDIMG01. -/
def tagImage : List Byte := [0x53, 0x56, 0x44, 0x49, 0x4D, 0x47, 0x30, 0x31]
/-- SVDCRT01. -/
def tagCert : List Byte := [0x53, 0x56, 0x44, 0x43, 0x52, 0x54, 0x30, 0x31]
/-- SVDATT01. -/
def tagAttest : List Byte := [0x53, 0x56, 0x44, 0x41, 0x54, 0x54, 0x30, 0x31]
/-- SVDIDK01. -/
def tagIdKey : List Byte := [0x53, 0x56, 0x44, 0x49, 0x44, 0x4B, 0x30, 0x31]

/-- The bytes of a fuse value, lowest first. -/
def fuseBytes (v : BitVec 256) : List Byte := leBytes 32 v.toNat

/-- Whether a rollback step reads blown (R529): at least two of its three fuses. -/
def Fuses.stepBlown (f : Fuses) (i : Nat) : Bool := decide (2 ≤ ((List.range 3).filter (mget (0 : BitVec 3) f.steps i).getLsbD).length)

/-- Consecutive blown steps from a step on; `fuel` bounds the count. -/
def Fuses.blownFrom (f : Fuses) : Nat → Nat → Nat
  | 0, _ => 0
  | n + 1, i => if f.stepBlown i then f.blownFrom n (i + 1) + 1 else 0

/-- The rollback counter C (R529). -/
def Fuses.counter (f : Fuses) : Nat := f.blownFrom 64 1

/-- A directory entry of the slate's header (R509). -/
structure DirEntry where
  kind : Nat
  copy : Nat
  version : Nat
  off : Nat
  len : Nat
  deriving DecidableEq, Repr

/-- The directory of a header. -/
def headerDir (h : List Byte) : List DirEntry :=
  (List.range (leAt h 7 1)).map fun i =>
    let b := 0x40 + 32 * i
    { kind := leAt h b 1, copy := leAt h (b + 1) 1, version := leAt h (b + 4) 4, off := leAt h (b + 8) 8, len := leAt h (b + 16) 8 }

/-- Whether a copy of an image, as a reader of its bytes gives it, passes the checks of R527 with the fuses given. -/
def imagePasses (f : Fuses) (e : DirEntry) (bytes : Nat → Nat → List Byte) : Bool :=
  let h := bytes 0 256
  let n := leAt h 0x10 8
  let t := 256 + n
  let sig := leAt (bytes (t + 1793) 2) 0 2
  leAt h 0 4 == 0x494D4147 && leAt h 4 2 == 0x0501 && leAt h 6 1 == e.kind && leAt h 8 4 == e.version && t + 3075 == e.len &&
    digest32 (bytes t 1793) == fuseBytes f.keyDigest && decide (1 ≤ sig) && decide (sig ≤ 1280) &&
    Config.falconVerify (bytes t 1793) (sigMessage tagImage h) (bytes (t + 1795) sig) &&
    sliceBytes h 0x40 64 == shake256 (bytes 256 n) 64 && decide (f.counter ≤ leAt h 0x0C 1)

/-- Whether a copy of an image passes as it stands in the flash. -/
def Device.copyPasses (d : Device) (e : DirEntry) : Bool := imagePasses d.fuses e fun o n => d.flashRead (e.off + o) n

/-- Whether a copy is tried before another (R503): the higher VERSION first, ties to the lower COPY. -/
def triedBefore (a b : DirEntry) : Bool := decide (b.version < a.version) || (decide (a.version = b.version) && decide (a.copy ≤ b.copy))

/-- A copy put in its place in the order of trial. -/
def insertTry (e : DirEntry) : List DirEntry → List DirEntry
  | [] => [e]
  | a :: r => if triedBefore e a then e :: a :: r else a :: insertTry e r

/-- The order in which copies are tried (R503). -/
def tryOrder (l : List DirEntry) : List DirEntry := l.foldr insertTry []

/-- The image of a kind that start-up uses, and whether it is another than the first tried (R503, R527). -/
def Device.chooseImage (d : Device) (dir : List DirEntry) (kind : Nat) : Option (DirEntry × Bool) :=
  let l := tryOrder (dir.filter fun e => e.kind == kind)
  (l.find? d.copyPasses).map fun e => (e, l.head? != some e)

/-! ### The identity block -/

/-- The identity block as read (R508, R533). -/
def Device.idBlock (d : Device) : List Byte := d.flashRead 0x0002000 0x1370

/-- Whether the identity block is valid (R533). -/
def Device.idBlockOk (d : Device) : Bool :=
  let b := d.idBlock
  let key := sliceBytes b 0x740 1793
  leAt b 0 4 == 0x49444E54 && leAt b 4 2 == 0x0501 && digest32 key == fuseBytes d.fuses.keyDigest &&
    decide (leAt b 0xE60 2 ≤ 1280) && Config.falconVerify key (sigMessage tagCert (b.take 0xE60)) (sliceBytes b 0xE70 (leAt b 0xE60 2)) &&
    leAt b 8 8 == d.fuses.identity.toNat

/-- The SHAKE256 output stream over bytes, read from its first byte onward (R532). -/
def shakeStream (bs : List Byte) (i : Nat) : Byte := (shake256 bs (i + 1)).getD i 0

/-- The identity key derived (R532): ID_KEY, and ID_KEY_MISMATCH when it is not the block's SUBJECT_KEY (R534). -/
def Device.deriveKey (d : Device) : Device :=
  if d.sec.keyReady then d
  else
    let k := Config.falconKeygen (shakeStream (tagIdKey ++ fuseBytes d.sec.seed))
    let d := ({ d with sec := { d.sec with idPublic := k.1, idPrivate := k.2, keyReady := true } } : Device).setBit (secReg 0) 0
    if k.1 = sliceBytes d.idBlock 0x20 1793 then d else d.setBit (secReg 0) 2

/-! ### Measurements -/

/-- A measurement formed (R535). -/
def Device.measure (d : Device) (i : Nat) (bytes : List Byte) : Device :=
  { d with sec := { d.sec with meas := mset [] d.sec.meas i (shake256 bytes 64) } }

/-- MEAS_MASK. -/
def Device.measMask (d : Device) : Nat := (List.range 7).foldl (fun a i => if (mget [] d.sec.meas i).isEmpty then a else a + 2 ^ i) 0

/-- The 64 bytes of a measurement; zeros before it is formed. -/
def Device.measBytes (d : Device) (i : Nat) : List Byte := sliceBytes (mget [] d.sec.meas i) 0 64

/-! ### Attestation -/

/-- START_NUMBER (R520). -/
def Device.startNumber (d : Device) : Nat := d.fieldOf (svcReg 0xB000) 32 32

/-- FLAGS of a report (R536). -/
def Device.reportFlags (d : Device) : Nat :=
  let b := fun (x : Bool) (i : Nat) => if x then 2 ^ i else 0
  b d.inTake 0 + b (d.bitOf (svcReg 0xB000) 5) 1 + b (d.bitOf (svcReg 0xB000) 18) 2 + b (d.bitOf (svcReg 0xB000) 17) 3 +
    b (d.bitOf (svcReg 0xB000) 20) 4 + b (d.bitOf (secReg 0) 3) 5

/-- The bytes of a report that its signature covers (R536). -/
def Device.reportBody (d : Device) : List Byte :=
  leBytes 4 0x41545354 ++ leBytes 2 0x0501 ++ leBytes 2 d.reportFlags ++ sliceBytes d.idBlock 8 8 ++ leBytes 8 (d.mbxArg 2) ++
    leBytes 8 (d.mbxArg 3) ++ leBytes 4 d.startNumber ++ leBytes 1 d.fuses.counter ++ leBytes 1 d.fuses.variant ++
    leBytes 1 d.measMask ++ [0] ++ ((List.range 3).flatMap fun i => leBytes 4 (d.start.versions.getD i 0)) ++
    ((List.range 3).flatMap fun i => leBytes 1 (d.start.rollbacks.getD i 0)) ++ [0] ++ leBytes 8 d.sec.reports ++
    (List.range 7).flatMap d.measBytes

/-- ATTEST (R532, R534, R536): the report, its signature with a fresh salt, and the certificate. -/
def Device.attest (d : Device) : Device :=
  if d.mbxArg 1 < 6784 then d.mbxEnd 3
  else
    let d := d.deriveKey
    if d.bitOf (secReg 0) 1 || d.bitOf (secReg 0) 2 then d.mbxEnd 4
    else if !d.hostReach then d.mbxEnd 7
    else
      let d := { d with sec := { d.sec with reports := d.sec.reports + 1 } }
      let body := d.reportBody
      let sig := (Config.falconSign d.sec.idPrivate (sigMessage tagAttest body) d.freeCtr).take 1280
      let d := { d with freeCtr := d.freeCtr + 1 }
      let report := body ++ leBytes 2 sig.length ++ List.replicate 14 0 ++ sliceBytes sig 0 1280 ++ d.idBlock
      (d.hostPut (d.mbxArg 0) report fun _ => false).mbxEnd 0

/-- ATTEST (R536); it is served in a failed start and after STOP (R502, R521). -/
def Device.attestCmd : Device → Device := Device.mbxBegin 0x20 Device.attest

/-- ATTEST (R536). -/
def execAttest (s : State) : Host.Outcome State Fault Refusal := s.run Device.attestCmd

/-! ### The calibration set -/

/-- Bytes of a calibration set (R511). -/
def calSize : Nat := 221184

/-- Whether a calibration set is valid (R508): MAGIC, VERSION and DIGEST. -/
def calValid (b : List Byte) : Bool :=
  leAt b 0 4 == 0x43414C42 && leAt b 4 2 == 0x0501 && digest32 ((b.take calSize).drop 0x40) == sliceBytes b 0x1C 32

/-- CAL_READ (R513): the set read at this start; a buffer below its size is a bad argument, and before phase 3 has read a set there is
none. -/
def Device.calReadCmd : Device → Device :=
  Device.mbxBegin 0x10 fun d =>
    if d.mbxArg 1 < calSize then d.mbxEnd 3
    else if d.start.cal.isEmpty then d.mbxEnd 4
    else if !d.hostReach then d.mbxEnd 7
    else (d.hostPut (d.mbxArg 0) (sliceBytes d.start.cal 0 calSize) fun _ => false).mbxEnd 0

/-- CAL_READ (R513). -/
def execCalRead (s : State) : Host.Outcome State Fault Refusal := s.run Device.calReadCmd

/-- Whether an FP32 code is positive and finite. -/
def positiveFinite (c : Nat) : Bool :=
  match f32 c with
  | .fin s m _ => !s && decide (0 < m)
  | _ => false

/-- Whether the thermal parameters of a tower are legal (R512). -/
def thermalOk (b : List Byte) (t : Nat) : Bool :=
  let p := fun i => leAt b (0xC100 + 64 * t + 4 * i) 4
  let sum := ((f32Frac (p 8)).add (f32Frac (p 9))).add (f32Frac (p 10))
  let diff := sum.sub (.ofInt 1)
  ((List.range 15).all fun i => positiveFinite (p i)) && decide (diff.num.natAbs * 2 ^ 20 ≤ diff.d)

/-- Whether CAL_WRITE accepts a set (R512). -/
def calAccepts (b : List Byte) : Bool :=
  leAt b 0 4 == 0x43414C42 && leAt b 4 2 == 0x0501 && (((b.drop 0x13000).take 81920).all fun x => decide (x.toNat ≤ 127)) &&
    ((List.range 20).all fun t => thermalOk b t && decide (leAt b (0xC000 + 4 * t) 2 < leAt b (0xC002 + 4 * t) 2))

/-- The set that the part writes (R512): SOURCE 1, WRITES one more than in the set in force, its own DIGEST, COMMIT as erased. -/
def Device.calToWrite (d : Device) (b : List Byte) : List Byte :=
  let b := putBytes b 6 [1]
  let b := putBytes b 8 (leBytes 4 (leAt d.start.cal 8 4 + 1))
  let b := putBytes b 0x1C (digest32 (b.drop 0x40))
  putBytes b 0x3C [0xFF, 0xFF, 0xFF, 0xFF]

/-- Whether a write of a calibration set has begun its first stage (R513). -/
def Device.calBegun (d : Device) : Bool :=
  match d.start.writing with
  | some (.cal _ _) => true
  | _ => d.start.held.any fun w => match w with
    | .cal n _ => decide (n ≠ 1)
    | _ => false

/-- A held write of a calibration set. -/
def SlateWrite.isCal : SlateWrite → Bool
  | .cal _ _ => true
  | _ => false

/-- CAL_WRITE (R512, R513): an accepted set replaces one that waits, and is written under the slate-write window. -/
def Device.calWriteCmd : Device → Device :=
  Device.mbxWhen 0x11 Device.idleTake fun d =>
    if d.mbxArg 1 ≠ calSize then d.mbxEnd 3
    else if !d.hostReach then d.mbxEnd 7
    else
      let b := (d.hostGet (d.mbxArg 0) calSize).1
      if !calAccepts b then d.mbxEnd 3
      else if d.calBegun then d.mbxEnd 4
      else
        let d := { d with start := { d.start with held := d.start.held.filter fun w => !w.isCal } }
        ((d.setBit (svcReg 0xB000) 17).offerWrite (.cal 1 (d.calToWrite b))).mbxEnd 0

/-- CAL_WRITE (R512). -/
def execCalWrite (s : State) : Host.Outcome State Fault Refusal := s.run Device.calWriteCmd

/-! ### Advancing the rollback counter -/

/-- T (R530): the least ROLLBACK of the three images in use; 0 before there are any (R537). -/
def Device.rollbackTarget (d : Device) : Nat := if d.start.rollbacks.isEmpty then 0 else d.start.rollbacks.foldl (fun a r => min a r) 64

/-- ADV_BUSY (R537). -/
def Device.advBusy (d : Device) : Bool := d.bitOf (secReg 0) 11

/-- ROLLBACK_ADVANCE (R530): a write of KEY 0x5EC1 begins blowing step C + 1, or sets ADV_RESULT. -/
def Device.rollbackAdvance (key : Nat) (d : Device) : Device :=
  if key ≠ 0x5EC1 ∨ d.advBusy then d
  else if d.inTake || !d.bitOf (svcReg 0xB000) 3 then d.setField (secReg 0) 12 2 2
  else if d.rollbackTarget ≤ d.fuses.counter then d.setField (secReg 0) 12 2 1
  else
    { d.setBit (secReg 0) 11 with
      sec := { d.sec with advTarget := d.rollbackTarget, advStep := d.fuses.counter + 1, attempts := 0 } }

/-- ROLLBACK_ADVANCE (R530). -/
def execRollbackAdvance (key : BitVec 16) (s : State) : Host.Outcome State Fault Refusal := s.run (Device.rollbackAdvance key.toNat)

/-- FUSE_STEP_BLOWN (R529, R530): the step is read back with the fuses that have blown; the next step begins, the step is tried
again, or the advance ends. -/
def Device.stepBlown (blown : BitVec 3) (d : Device) : Device :=
  if !d.advBusy then d
  else
    let i := d.sec.advStep
    let d := { d with fuses := { d.fuses with steps := mset 0 d.fuses.steps i (mget 0 d.fuses.steps i ||| blown) } }
    if d.fuses.stepBlown i then
      if d.sec.advTarget ≤ i then (d.setField (secReg 0) 11 1 0).setField (secReg 0) 12 2 0
      else { d with sec := { d.sec with advStep := i + 1, attempts := 0 } }
    else if 2 ≤ d.sec.attempts then (d.setField (secReg 0) 11 1 0).setField (secReg 0) 12 2 3
    else { d with sec := { d.sec with attempts := d.sec.attempts + 1 } }

/-- FUSE_STEP_BLOWN (R530). -/
def execFuseStepBlown (blown : BitVec 3) (s : State) : Host.Outcome State Fault Refusal := s.run (Device.stepBlown blown)

end Sys2Proof.Machine
end

