-- ==== Sys2Proof/Machine/Thermal.lean ====
section
/-! DEFINITION. A conversion of the sensors (R454): the cross-checks (R458 to R461), layer values, refresh windows (R246, R247), levels
and their effects (R463 to R466), coolant (R336, R467 to R472), and bond wear (R473). -/
namespace Sys2Proof.Machine

open Sys2Proof

/-! ### Medians and means -/

/-- A number put into an ascending list. -/
def insertInt (v : Int) : List Int → List Int
  | [] => [v]
  | a :: r => if v ≤ a then v :: a :: r else a :: insertInt v r

/-- Twice the median: of an even count, the sum of the two middle values (log entry 28). -/
def median2 (l : List Int) : Option Int :=
  let s := l.foldl (fun a v => insertInt v a) []
  let n := s.length
  if n = 0 then none else some (s.getD ((n - 1) / 2) 0 + s.getD (n / 2) 0)

/-- The mean, rounded to the nearest unit (log entry 26). -/
def meanOf (l : List Int) : Option Int :=
  if l.isEmpty then none else some (Frac.of (l.foldl (· + ·) 0) l.length).round

/-- The largest value. -/
def maxInt : List Int → Option Int
  | [] => none
  | a :: r =>
    match maxInt r with
    | some b => some (max a b)
    | none => some a

/-- Whether a whole number lies more than `lim` away from a fraction. -/
def Frac.farFrom (m : Frac) (r : Int) (lim : Nat) : Bool := decide ((lim : Int) * m.d < ((m.num - r * m.d).natAbs : Int))

/-! ### Sensors -/

/-- Reference of a sensor in logs and in the ledger (R519): index and group (0 to 19 tower, 20 base die, 21 lid). -/
def sensorRef (g i : Nat) : Nat := i + g * 2 ^ 16

/-- A SENSOR log entry (R555): 0 suspect, 1 MIDDLE, 2 PAIR_FAR. -/
def Device.logSensor (d : Device) (w ref what : Nat) : Device := d.log w 0x0A 18 0 0 (ref + what * 2 ^ 24)

/-- The neighbour list of die sensor g (112 t + i, or 2,240 + base-die index) in the calibration set (R454, R511). -/
def Device.neighbours (d : Device) (g : Nat) : List Nat :=
  if d.start.cal = [] then []
  else ((List.range 6).map fun j => leAt d.start.cal (0x4000 + 12 * g + 2 * j) 2).filter (· ≠ 0xFFFF)

/-- A reading that makes a die sensor suspect at once (R458): none, below −40 °C or above 150 °C. -/
def badReading (r : Int) : Bool := r == noReading || decide (r < -320) || decide (1200 < r)

/-- A count of consecutive samples advanced or cleared, up to 16. -/
def runCount (m : SMap Nat) (i : Nat) (on : Bool) : SMap Nat := mset 0 m i (if on then min 16 (mget 0 m i + 1) else 0)

/-- A tower sensor becomes suspect (R458, R459). -/
def Device.suspectTower (t i : Nat) (d : Device) : Device :=
  ((d.modTower t fun x => { x with suspect := insertAsc i x.suspect }).setBit (thmReg 0) 2).logSensor t (sensorRef t i) 0

/-- The median, twice, of the neighbours in use of a tower sensor. -/
def Device.nearMedian (d : Device) (t i : Nat) : Option Int :=
  median2 (((d.neighbours (112 * t + i)).filter (d.tower t).sensorOk).map (d.tower t).reading)

/-- Whether a sensor reads far from both its neighbours and its layer's model value (R458). -/
def Device.sensorFar (d : Device) (t i : Nat) : Bool :=
  let r := (d.tower t).reading i
  match d.nearMedian t i, (d.tower t).modelVal (layerOfSensor i) with
  | some m, some v => decide (160 < (2 * r - m).natAbs) && v.farFrom r 80
  | _, _ => false

/-- R458 for a tower: the sensors suspect at once, then those far for 16 consecutive samples. -/
def Device.checkTowerSensors (t : Nat) (d : Device) : Device :=
  let now := (List.range 112).filter fun i => !(d.tower t).suspect.contains i && badReading ((d.tower t).reading i)
  let d := d.each now (Device.suspectTower t)
  let live := (List.range 112).filter (d.tower t).sensorOk
  let far := live.foldl (fun m i => runCount m i (d.sensorFar t i)) (d.tower t).farSensor
  let d := d.modTower t fun x => { x with farSensor := far }
  d.each (live.filter fun i => mget 0 far i = 16) (Device.suspectTower t)

/-- Deviation of R459 of a hot-spot sensor: from the mean of its model value and its neighbours' median. -/
def Device.deviation (d : Device) (t i : Nat) : Option Frac :=
  match d.nearMedian t i, (d.tower t).modelVal 0 with
  | some m, some v =>
    let c := (v.add (.of m 2)).mul (.of 1 2)
    let x := c.sub (.ofInt ((d.tower t).reading i))
    some { num := x.num.natAbs, den := x.den }
  | _, _ => none

/-- R459 for hot-spot pair h of a tower. -/
def Device.checkPair (t h : Nat) (d : Device) : Device :=
  let a := 26 + 2 * h
  let b := 27 + 2 * h
  let x := d.tower t
  let apart := x.sensorOk a && x.sensorOk b && decide (48 < (x.reading a - x.reading b).natAbs)
  let far := runCount x.farPair h apart
  let d := d.modTower t fun x => { x with farPair := far }
  let off := d.modTower t fun x => { x with pairFar := x.pairFar.filter (· ≠ h) }
  if mget 0 far h = 16 then
    match d.deviation t a, d.deviation t b with
    | some p, some q =>
      let lim := Frac.ofInt 64
      if lim.lt p && lim.lt q then
        if x.pairFar.contains h then d
        else (((d.modTower t fun x => { x with pairFar := insertAsc h x.pairFar }).setBit (thmReg 0) 4).logSensor t (sensorRef t a) 2)
      else off.suspectTower t (if p.lt q then b else a)
    | _, _ => off
  else off

/-- The highest reading of a layer's sensors in use. -/
def Tower.highest (x : Tower) (l : Nat) : Option Int := maxInt (((layerSensors l).filter x.sensorOk).map x.reading)

/-- The condition of R460 in one sample. -/
def Tower.middleNow (x : Tower) (l : Nat) : Bool :=
  match x.highest l, x.modelVal l, x.highest (l + 1), x.modelVal (l + 1) with
  | some r, some m, some ra, some ma => (Frac.ofInt (r + 64)).lt m && ma.lt (.ofInt ra)
  | _, _, _, _ => false

/-- R460 for a tower: a middle layer that reads low. -/
def Device.checkMiddles (t : Nat) (d : Device) : Device :=
  let x := d.tower t
  let far := (List.range 14).foldl (fun m l => runCount m l (x.middleNow l)) x.farMiddle
  let d := d.modTower t fun x => { x with farMiddle := far }
  d.each ((List.range 14).filter fun l => mget 0 far l = 16 && !x.middle.contains l) fun l d =>
    ((d.modTower t fun x => { x with middle := insertAsc l x.middle }).setBit (thmReg 0) 3).logSensor t
      (sensorRef t ((layerSensors l).headD 0)) 1

/-- The model value of a layer plus 5 °C. -/
def Tower.modelPlus (x : Tower) (l : Nat) : Option Int := (x.modelVal l).map fun m => (m.add (.ofInt 40)).round

/-- The value of a hot-spot pair (R459). -/
def Tower.pairVal (x : Tower) (h : Nat) : Option Int :=
  let a := 26 + 2 * h
  let b := 27 + 2 * h
  if x.pairFar.contains h then x.modelPlus 0
  else if x.sensorOk a && x.sensorOk b then some (max (x.reading a) (x.reading b))
  else if x.sensorOk a then some (x.reading a)
  else if x.sensorOk b then some (x.reading b)
  else x.modelPlus 0

/-- The layer value of R461. -/
def Tower.value (x : Tower) (l : Nat) : Option Int :=
  let plain := ((layerSensors l).filter fun i => x.sensorOk i && !(decide (26 ≤ i) && decide (i < 34))).map x.reading
  let s := if l = 0 then plain ++ (List.range 4).filterMap x.pairVal else plain
  let v := match maxInt s with
    | some a => some a
    | none => x.modelPlus l
  if x.middle.contains l then
    match v, x.modelVal l with
    | some a, some m => some (max a m.round)
    | _, _ => v
  else v

/-! ### Levels -/

/-- A level mark after a value: entered at the level, left below the level less its hysteresis (R463). -/
def levelMark (was : Bool) (v level hyst : Int) : Bool := if was then decide (level - hyst ≤ v) else decide (level ≤ v)

/-- The warning level of a logic layer or a DRAM layer in force, in 0.125 °C (R463, R475). -/
def Device.warnLevel (d : Device) (dram : Bool) : Int := 8 * (d.fieldOf (thmReg 0x10) (if dram then 8 else 0) 8 : Nat)
/-- The throttle level. -/
def throttleLevel (dram : Bool) : Int := if dram then 760 else 840
/-- The shutdown level. -/
def shutdownLevel (dram : Bool) : Int := if dram then 840 else 920
/-- The hysteresis. -/
def hysteresis (dram : Bool) : Int := if dram then 32 else 40

/-- A layer enters warning (R464): WARN, vector 7 and a NOTICE; `w` is the log and the tower number of the entry. -/
def Device.warned (d : Device) (w l : Nat) : Device :=
  ((d.setBit (thmReg 0) 0).event 7).log w 0x0B 18 0 0 (2 + w * 2 ^ 8 + l * 2 ^ 13)

/-- A list of marks with one set or cleared. -/
def markAs (l : List Nat) (i : Nat) (on : Bool) : List Nat := if on then insertAsc i l else l.filter (· ≠ i)

/-- A new value of a layer of tower t: the value and its warning and throttle marks (R461, R463, R464). -/
def Device.setLayer (t l : Nat) (d : Device) : Device :=
  let x := d.tower t
  match x.value l with
  | none => d.modTower t fun x => { x with layer := mset noReading x.layer l noReading }
  | some v =>
    let dram := decide (2 ≤ l)
    let w := levelMark (x.warn.contains l) v (d.warnLevel dram) (hysteresis dram)
    let h := levelMark (x.throttle.contains l) v (throttleLevel dram) (hysteresis dram)
    let d' := d.modTower t fun x =>
      { x with
        layer := mset noReading x.layer l v, warn := markAs x.warn l w, throttle := markAs x.throttle l h,
        throttleIn := if h then (if x.throttle.contains l then x.throttleIn else mset noReading x.throttleIn l v)
                      else mset noReading x.throttleIn l noReading }
    if w && !x.warn.contains l then d'.warned t l else d'

/-- The refresh window that follows a window at a layer temperature (R246, R247): 0 32 ms, 1 16 ms, 2 8 ms. -/
def nextWindow (w : Nat) (v : Int) : Nat :=
  if 760 ≤ v then 2
  else if 680 ≤ v then (if w = 2 ∧ 728 ≤ v then 2 else 1)
  else if w = 0 then 0
  else if v < 648 then 0
  else 1

/-- The visible banks of a channel whose rows lie on a layer, by index ℓ of R261: on M13 those that spares serve (R249, R252). -/
def Device.layerBanks (d : Device) (k ch l : Nat) : List Nat :=
  (List.range 48).filter fun b => if (d.spareOf k ch b).isSome then l == 12 else b / 4 == l

/-- A bank that owes refreshes is to be refreshed first (R247). -/
def urgeBank (m : SMap DramBank) (b : Nat) : SMap DramBank :=
  if 0 < (mget DramBank.reset m b).debt then mmod DramBank.reset m b (fun y => { y with urgent := true }) else m

/-- The windows of a tower's DRAM layers (R246, R247): on a move to a shorter one, banks of the layer that owe refreshes are
refreshed first. -/
def Device.setWindow (t l : Nat) (d : Device) : Device :=
  let x := d.tower t
  let w := mget 0 x.window l
  match x.layerVal (l + 2) with
  | none => d
  | some v =>
    let n := nextWindow w v
    if w = 3 ∨ n = w then d
    else
      let d := d.modTower t fun x => { x with window := mset 0 x.window l n }
      if n < w then d
      else d.each (List.range 24) fun c d => d.each (List.range 8) fun ch d =>
        d.modChan (24 * t + c) ch fun k => { k with banks := (d.layerBanks (24 * t + c) ch l).foldl urgeBank k.banks }

/-- A conversion in one tower, but for what trips or faults (R458 to R464, R246). -/
def Device.convertTower (t : Nat) (d : Device) : Device :=
  let d := (d.checkTowerSensors t).each (List.range 4) (Device.checkPair t)
  let d := (d.checkMiddles t).each (List.range 15) (Device.setLayer t)
  d.each (List.range 13) (Device.setWindow t)

/-! ### Base dies and lid -/

/-- The base-die sensors of a half (R454). -/
def baseSensors (h : Nat) : List Nat := (List.range 64).map (· + 64 * h)
/-- A base-die sensor's reading. -/
def HalfState.reading (x : HalfState) (i : Nat) : Int := (mget (0x8000 : BitVec 16) x.sens i).toInt
/-- Whether a base-die sensor is in use. -/
def HalfState.sensorOk (x : HalfState) (i : Nat) : Bool := !x.suspect.contains i && x.reading i != noReading

/-- A base-die sensor becomes suspect (R458). -/
def Device.suspectBase (h i : Nat) (d : Device) : Device :=
  ((d.modHalf h fun x => { x with suspect := insertAsc i x.suspect }).setBit (thmReg 0) 2).logSensor (20 + h) (sensorRef 20 i) 0

/-- Whether a base-die sensor reads far from its neighbours and from the median of its half, which stands for the model (R458,
R461). -/
def Device.baseFar (d : Device) (h i : Nat) : Bool :=
  let x := d.half h
  let r := x.reading i
  match median2 (((d.neighbours (2240 + i)).filter x.sensorOk).map x.reading), median2 (((baseSensors h).filter x.sensorOk).map x.reading) with
  | some m, some v => decide (160 < (2 * r - m).natAbs) && decide (160 < (2 * r - v).natAbs)
  | _, _ => false

/-- The base-die value of a half (R461): with every sensor suspect, the median of those that have a reading plus 5.0 °C. -/
def HalfState.dieValue (x : HalfState) (h : Nat) : Option Int :=
  match maxInt (((baseSensors h).filter x.sensorOk).map x.reading) with
  | some v => some v
  | none => (median2 (((baseSensors h).map x.reading).filter fun r => r != noReading)).map fun m => (Frac.of (m + 80) 2).round

/-- A conversion in a base die (R458, R461, R463, R464). -/
def Device.convertBase (h : Nat) (d : Device) : Device :=
  let x := d.half h
  let d := d.each ((baseSensors h).filter fun i => !x.suspect.contains i && badReading (x.reading i)) (Device.suspectBase h)
  let live := (baseSensors h).filter (d.half h).sensorOk
  let far := live.foldl (fun m i => runCount m i (d.baseFar h i)) (d.half h).farSensor
  let d := (d.modHalf h fun x => { x with farSensor := far }).each (live.filter fun i => mget 0 far i = 16) (Device.suspectBase h)
  let x := d.half h
  match x.dieValue h with
  | none => d.modHalf h fun x => { x with value := none }
  | some v =>
    let w := levelMark x.warn v (d.warnLevel false) 40
    let t := levelMark x.throttle v 840 40
    let d := d.modHalf h fun x =>
      { x with value := some v, warn := w, throttle := t, throttleIn := if t then (if x.throttle then x.throttleIn else some v) else none }
    if w && !x.warn then d.warned (20 + h) 0 else d

/-- A lid sensor's reading. -/
def Thermal.reading (x : Thermal) (i : Nat) : Int := (mget (0x8000 : BitVec 16) x.lid i).toInt
/-- Whether a lid sensor is in use. -/
def Thermal.sensorOk (x : Thermal) (i : Nat) : Bool := !x.lidSuspect.contains i && x.reading i != noReading

/-- The lid sensors of a manifold: 0 inlet, 1 outlet. -/
def lidSensors (m : Nat) : List Nat := (List.range 4).map (· + 4 * m)

/-- A lid sensor becomes suspect (R461). -/
def Device.suspectLid (i : Nat) (d : Device) : Device :=
  (({ d with thm := { d.thm with lidSuspect := insertAsc i d.thm.lidSuspect } } : Device).setBit (thmReg 0) 2).logSensor 20 (sensorRef 21 i) 0

/-- The check of a manifold's sensors against their median (R461). -/
def Device.checkManifold (m : Nat) (d : Device) : Device :=
  let x := d.thm
  let live := (lidSensors m).filter x.sensorOk
  match median2 (live.map x.reading) with
  | none => d
  | some v =>
    let far := live.foldl (fun a i => runCount a i (decide (32 < (2 * x.reading i - v).natAbs))) x.lidFar
    ({ d with thm := { d.thm with lidFar := far } } : Device).each (live.filter fun i => mget 0 far i = 16) Device.suspectLid

/-- A 16-bit field of a temperature; 0x8000 for none. -/
def tempCode (v : Option Int) : Nat :=
  match v with
  | some x => unsignedOf 16 x
  | none => 0x8000

/-- Means of the manifolds and the pressure drop (R461, R475). -/
def Device.setCoolant (d : Device) : Device :=
  let mean := fun m => meanOf (((lidSensors m).filter d.thm.sensorOk).map d.thm.reading)
  let i := mean 0
  let o := mean 1
  let hist := match o with
    | some v => (d.thm.history ++ [v]).drop (d.thm.history.length + 1 - 11)
    | none => []
  let dp := if d.thm.press.1 = 0x8000 ∨ d.thm.press.2 = 0x8000 then 0 else (d.thm.press.1 - d.thm.press.2).toNat
  { d with thm := { d.thm with tin := i, tout := o, history := hist } }.setReg (thmReg 8)
    (BitVec.ofNat 64 (tempCode i + tempCode o * 2 ^ 16 + dp * 2 ^ 32))

/-- A bit of THM_STATUS that a warning sets, with vector 7 when it was clear. -/
def Device.coolantWarning (d : Device) (b : Nat) (on : Bool) : Device :=
  if on && !d.bitOf (thmReg 0) b then (d.setBit (thmReg 0) b).event 7 else d

/-- The range of the pressure drop for the used flow (R470, R511): the calibration set gives it at nine flows; at any other flow spec/
states no range, and both ends are free values (log entry 5). -/
def Device.pressureRange (d : Device) : (Nat × Nat) × Device :=
  let f := d.fieldOf (gafReg 0x50) 32 16
  if 2000 ≤ f ∧ f ≤ 6000 ∧ f % 500 = 0 then
    let a := 0xC800 + 4 * ((f - 2000) / 500)
    ((leAt d.start.cal a 2, leAt d.start.cal (a + 2) 2), d)
  else
    let x := d.draw
    let y := x.2.draw
    ((x.1.toNat, y.1.toNat), y.2)

/-- INLET and PRESSURE (R470). -/
def Device.coolantRanges (d : Device) : Device :=
  let d := match d.thm.tin with
    | some v => d.coolantWarning 5 (decide (v < 120) || decide (320 < v))
    | none => d
  if d.thm.press.1 = 0x8000 ∨ d.thm.press.2 = 0x8000 then d
  else
    let r := d.pressureRange
    let dp := d.fieldOf (thmReg 8) 32 16
    r.2.coolantWarning 6 (decide (dp < r.1.1) || decide (r.1.2 < dp))

/-! ### Stops and trips -/

/-- The fabric lanes in electrical idle (R336, R466, R521): every port that was up is out of service. -/
def Device.fabIdle (d : Device) : Device :=
  d.each d.upPorts fun p d => d.setField (fabReg (0x100 + 16 * p)) 0 3 5

/-- Tower DRAM under base-die control and every memory in self-refresh (R255, R336, R466). -/
def Device.baseHold (d : Device) : Device :=
  (d.each (List.range 480) fun k d => d.modSite k Site.hold).sleepMemories

/-- A thermal trip (R466): THERMTRIP_N, the clocks stop, memories in self-refresh, lanes idle; a fatal condition. -/
def Device.trip (h : Nat) (d : Device) : Device :=
  if d.thm.stopped then d
  else
    let d := { d with pins := { d.pins with thermtripN := false }, thm := { d.thm with stopped := true } }
    ((d.setBit (thmReg 0) 10).baseHold).fabIdle.fatal 3 h

/-- A sudden stop of coolant (R336, R468): FLOW_STOP; the take is aborted, SURVIVAL entered with vector 7, memories in self-refresh,
lanes idle. In a sample that trips, the abort is not recorded separately (R472). -/
def Device.coolantStop (tripped : Bool) (d : Device) : Device :=
  let d := d.setBit (thmReg 0) 8
  if d.survival then d
  else
    let d := if tripped then d else d.fault 1 0 0 20 0 0
    ((d.setBit (gafReg 0x18) 9).event 7).baseHold.fabIdle

/-- The towers and halves with a layer at its shutdown level, or a sensor in use at it: the comparators of R466. The answer is the
half of the first. -/
def Device.tripHalf (d : Device) : Option Nat :=
  let hot := fun t =>
    let x := d.tower t
    (List.range 15).any fun l =>
      let s := shutdownLevel (decide (2 ≤ l))
      (match x.layerVal l with
        | some v => decide (s ≤ v)
        | none => false) || (layerSensors l).any fun i => x.sensorOk i && decide (s ≤ x.reading i)
  let base := fun h => match (d.half h).value with
    | some v => decide (920 ≤ v)
    | none => false
  match (List.range 20).find? hot, [0, 1].find? base with
  | some t, some b => some (min (halfOf t) b)
  | some t, none => some (halfOf t)
  | none, b => b

/-- Whether T_out exceeds by more than 2.0 °C its value of 10 samples earlier (R468). -/
def Device.outletRise (d : Device) : Bool :=
  match d.thm.history with
  | a :: r => r.length == 10 && decide (16 < (r.getLastD a) - a)
  | [] => false

/-- The towers with a layer that has risen 3 °C above the value at which it entered throttle (R465). -/
def Device.holdFails (d : Device) : List Nat :=
  (List.range 20).filter fun t =>
    let x := d.tower t
    x.throttle.any fun l =>
      match x.layerVal l with
      | some v => mget noReading x.throttleIn l != noReading && decide (mget noReading x.throttleIn l + 24 ≤ v)
      | none => false

/-- Whether a base die has risen so. -/
def Device.baseHoldFail (d : Device) (h : Nat) : Bool :=
  match (d.half h).value, (d.half h).throttleIn with
  | some v, some e => (d.half h).throttle && decide (e + 24 ≤ v)
  | _, _ => false

/-- A throttle that fails to hold (R465): HOLD_FAIL, and in a take a fault. -/
def Device.holdFail (t : Nat) (faulted : Bool) (d : Device) : Device :=
  let d := d.setBit (thmReg 0) 11
  if faulted && d.inTake then d.fault 3 t 0 18 0 0 else d

/-- Readings stored (R454); a reading that names no sensor of the part is none. -/
def Device.takeReadings (m : SensorSample) (d : Device) : Device :=
  let d := d.each (m.towers.filter fun p => decide (p.1 < 2240)) fun p d => d.modTower (p.1 / 112) fun x => { x with sens := mset 0x8000 x.sens (p.1 % 112) p.2 }
  let d := d.each (m.base.filter fun p => decide (p.1 < 128)) fun p d => d.modHalf (p.1 / 64) fun x => { x with sens := mset 0x8000 x.sens p.1 p.2 }
  { d with thm := { d.thm with
      lid := (m.lid.filter fun p => decide (p.1 < 8)).foldl (fun a p => mset 0x8000 a p.1 p.2) d.thm.lid
      press := m.press.getD d.thm.press
      board := (m.board.map (·.toInt)).getD d.thm.board } }

/-- SENSOR_CONVERSION: one conversion of every sensor (R454). A trip takes precedence over the faults of its sample (R472). -/
def Device.conversion (m : SensorSample) (d : Device) : Device :=
  let d := ((d.takeReadings m).each (List.range 20) Device.convertTower).each [0, 1] Device.convertBase
  let d := (d.each [0, 1] Device.checkManifold).setCoolant.coolantRanges
  let tripped := d.tripHalf
  let d := match tripped with
    | some h => d.trip h
    | none => d
  let d := if d.outletRise then d.coolantStop tripped.isSome else d
  let d := d.each d.holdFails fun t d => d.holdFail t tripped.isNone
  d.each ([0, 1].filter d.baseHoldFail) fun _ d => d.holdFail 0 tripped.isNone

/-- SENSOR_CONVERSION (R454). -/
def execSensorConversion (sample : SensorSample) (s : State) : Host.Outcome State Fault Refusal :=
  s.run (Device.conversion sample)

/-- A layer has stayed in throttle for 20 ms (R465). Layers are numbered 15 t + λ, then 300 and 301 for the base dies. -/
def Device.throttleLong (layer : Nat) (d : Device) : Device :=
  if layer < 300 then (if (d.tower (layer / 15)).throttle.contains (layer % 15) then d.holdFail (layer / 15) true else d)
  else if layer < 302 ∧ (d.half (layer - 300)).throttle then d.holdFail 0 true
  else d

/-- THROTTLE_HOLD_FAIL (R465). -/
def execThrottleHoldFail (layer : Nat) (s : State) : Host.Outcome State Fault Refusal := s.run (Device.throttleLong layer)

/-- FLOW_OK sampled (R467): three consecutive low samples are a deassertion, a sudden stop (R468). -/
def Device.flowSample (level : Bool) (d : Device) : Device :=
  let d := { d with pins := { d.pins with flowOkIn := level } }
  if level then { d with thm := { d.thm with lowSamples := 0, flowOk := true } }
  else
    let n := min 3 (d.thm.lowSamples + 1)
    let d' := { d with thm := { d.thm with lowSamples := n, flowOk := d.thm.flowOk && decide (n < 3) } }
    if d.thm.flowOk && decide (n = 3) then d'.coolantStop false else d'

/-- FLOW_OK_SAMPLE (R467). -/
def execFlowOkSample (level : Bool) (s : State) : Host.Outcome State Fault Refusal := s.run (Device.flowSample level)

/-- Every sensor in use lies below its warning level. -/
def Device.allCool (d : Device) : Bool :=
  ((List.range 20).all fun t => (List.range 112).all fun i =>
    !(d.tower t).sensorOk i || decide ((d.tower t).reading i < d.warnLevel (decide (60 ≤ i)))) &&
    [0, 1].all fun h => (baseSensors h).all fun i => !(d.half h).sensorOk i || decide ((d.half h).reading i < d.warnLevel false)

/-- The end of survival (R336): SURVIVAL clears and the fabric lanes retrain. -/
def Device.survivalEnd (d : Device) : Device :=
  if d.survival && d.thm.flowOk && d.allCool && !d.thm.stopped then
    let d := d.setField (gafReg 0x18) 9 1 0
    let d := d.each (List.range 480) fun k d => if d.up (towerOf k) then d.modSite k fun x => { x with srBase := false } else d
    d.each (List.range 16) fun p d =>
      if d.fieldOf (fabReg (0x100 + 16 * p)) 0 3 = 5 ∧ (d.port p).present then d.setField (fabReg (0x100 + 16 * p)) 0 3 2 else d
  else d

/-- SURVIVAL_EXIT (R336). -/
def execSurvivalExit (s : State) : Host.Outcome State Fault Refusal := s.run Device.survivalEnd

/-! ### Bond wear -/

/-- One step of the turning-point procedure (R473): the new (ext, cur, dir), and the swing that it closes. -/
def wearStep (x : Int) : Option (Int × Int × Int) → (Int × Int × Int) × Option Nat
  | none => ((x, x, 0), none)
  | some (ext, cur, dir) =>
    if dir = 0 then
      (if 40 ≤ (x - ext).natAbs then ((ext, x, if ext < x then 1 else -1), none) else ((ext, cur, dir), none))
    else if 0 < dir * (x - cur) then ((ext, x, dir), none)
    else if 40 ≤ (cur - x).natAbs then ((cur, x, -dir), some (cur - ext).natAbs)
    else ((ext, cur, dir), none)

/-- A swing counted in its bin and in WEAR (R473, R476). -/
def Device.countSwing (t q : Nat) (d : Device) : Device :=
  if q < 160 then d
  else
    let lo := if q < 320 then 0 else if q < 480 then 21 else 42
    let r := thmReg (0x1030 + 128 * t)
    let d := d.setField r lo 21 (min (2 ^ 21 - 1) (d.fieldOf r lo 21 + 1))
    d.setReg (thmReg (0x1038 + 128 * t)) (d.reg (thmReg (0x1038 + 128 * t)) + BitVec.ofNat 64 (q * q))

/-- WEAR_SAMPLE (R473): the array-die value of a tower. -/
def Device.wearSample (t : Nat) (d : Device) : Device :=
  match (d.tower t).layerVal 0 with
  | none => d
  | some x =>
    let r := wearStep x (d.tower t).wear
    let d := d.modTower t fun y => { y with wear := some r.1 }
    match r.2 with
    | some q => d.countSwing t q
    | none => d

/-- WEAR_SAMPLE (R473). -/
def execWearSample (t : Fin 20) (s : State) : Host.Outcome State Fault Refusal := s.run (Device.wearSample t)

end Sys2Proof.Machine
end

