-- ==== Sys2Proof/Machine/Topology.lean ====
section
/-! DEFINITION. Discovery, election, addresses and routes (R408 to R413), and what becomes of the ports of the fabric: partners,
lanes, delays (R395 to R399). -/
namespace Sys2Proof.Machine

open Sys2Proof

/-! ### Beacons and candidates -/

/-- Whether a port takes part in election, addresses and routes: up, and no mirror port (R397, R409). -/
def Device.joins (d : Device) (p : Nat) : Bool := d.dataPort p
/-- Those ports, ascending. -/
def Device.joinPorts (d : Device) : List Nat := (List.range 16).filter d.joins
/-- FROZEN: a take runs (R413). -/
def Device.isFrozen (d : Device) : Bool := d.bitOf (fabReg 0) 3

/-- The beacons of the ports that take part, with their ports. -/
def Device.beacons (d : Device) : List (Nat × List Byte) := d.joinPorts.filterMap fun p => ((d.port p).beacon).map fun b => (p, b)

/-- The better of two candidates: the lower identity, then fewer hops; the first of equals, which has the lower port. -/
def betterCand (a b : Nat × Nat × Option Nat) : Nat × Nat × Option Nat :=
  if b.1 < a.1 ∨ (b.1 = a.1 ∧ b.2.1 < a.2.1) then b else a

/-- The candidate of the part (R409, step 1): the lowest of its own identity, when it is eligible, and its neighbours' candidates; with
no eligible part NO_COORD is set and the part is its own timing master. A candidate that moves opens the election again, and a part
with a parent is no coordinator. -/
def Device.findCandidate (d : Device) : Device :=
  let none' := 0xFFFFFFFFFFFFFFFF
  let own : Nat × Nat × Option Nat := (if d.eligible then d.fab.identity.toNat else none', 0, none)
  let c := (d.beacons.filterMap fun b =>
    if leAt b.2 0x38 1 < 16 then some (leAt b.2 0x28 8, leAt b.2 0x38 1 + 1, some b.1) else none).foldl betterCand own
  let moved := decide (c.1 ≠ d.fab.cand.toNat)
  let d := { d with fab := { d.fab with
    cand := BitVec.ofNat 64 c.1, candHops := c.2.1, parent := c.2.2, electing := d.fab.electing || moved } }
  let d := if c.2.2 = none then d else d.setField (fabReg 0) 1 1 0
  if c.1 = none' then
    let d := if d.joinPorts.all fun p => (d.port p).beacon.isSome then { d with fab := { d.fab with routes := [] } } else d
    (((d.setField (fabReg 0) 2 1 1).setField (gafReg 0x18) 1 2 3).setField (gafReg 0x18) 3 1 0).setReg (gafReg 0x60) d.fab.identity
  else d.setField (fabReg 0) 2 1 0

/-- R409 starts again: outside a take the candidate is formed anew. -/
def Device.rediscover (d : Device) : Device :=
  if d.isFrozen then d else ({ d with fab := { d.fab with electing := true, topo := [] } } : Device).findCandidate

/-- The beacon that the part sends on a port (R408). -/
def Device.beaconBytes (d : Device) (p : Nat) : List Byte :=
  let fp := (List.range 4).flatMap fun w => leBytes 8 (d.reg (svcReg (0x9000 + 8 * w))).toNat
  let flags := (if d.eligible then 1 else 0) + (if d.inTake then 2 else 0) + (if d.portRole p = 3 then 4 else 0) +
    (if d.bitOf (fabReg 0) 1 then 8 else 0)
  leBytes 8 d.fab.identity.toNat ++ fp ++ leBytes 8 d.fab.cand.toNat ++ leBytes 4 d.fab.epochSeen ++ leBytes 2 d.fabAddr ++
    [BitVec.ofNat 8 p, BitVec.ofNat 8 flags, BitVec.ofNat 8 d.fab.candHops, if d.portState p = 3 then 8 else 4] ++
    List.replicate 6 0

/-- BEACON_SEND (R408): a port in service sends its beacon. -/
def Device.beaconOut (p : Nat) (d : Device) : Device :=
  if d.portUp p then d.txPacket p (d.ctrlPacket 0x11 0xFFFF (d.beaconBytes p)) else d

/-- BEACON_SEND (R408). -/
def execBeaconSend (port : Fin 16) (s : State) : Host.Outcome State Fault Refusal := s.onClock (Device.beaconOut port)

/-- A beacon received (R397, R408, R409, R420): its identity is held; the part's own marks the port LOOP, and else the
candidate formed anew outside a take. -/
def Device.beaconIn (p : Nat) (b : List Byte) (d : Device) : Device :=
  if d.portUp p && d.rxNext p 4 fun k => k.kind.toNat == 0x11 && k.payload == b then
    let d := d.takeHead p 4
    let d := d.setReg (fabReg (0x108 + 16 * p)) (BitVec.ofNat 64 (leAt b 0 8))
    if leAt b 0 8 = d.fab.identity.toNat then (d.setField (portReg p) 0 3 6).modPort p fun x => { x with beacon := none }
    else
      let d := d.modPort p fun x => { x with beacon := some b }
      if d.isFrozen || d.portRole p == 3 then d else d.findCandidate
  else d

/-- BEACON (R408). -/
def execBeacon (port : Fin 16) (payload : List Byte) (s : State) : Host.Outcome State Fault Refusal :=
  s.onClock (Device.beaconIn port payload)

/-! ### Election and topology -/

/-- A packet broadcast before COMMIT (R409): on every port that takes part but the one it came from; a part accepts it only on its
parent port, so it follows the parent tree. -/
def Device.flood (d : Device) (from' : Option Nat) (k : Packet) : Device :=
  d.each (d.joinPorts.filter fun p => from' != some p) fun p d => d.txPacket p k

/-- The part's answer to a TOPO (R409, step 3). -/
def Device.topoAnswer (d : Device) : List Byte :=
  leBytes 8 d.fab.identity.toNat ++ leBytes 2 d.staticAddr ++ List.replicate 6 0 ++
    ((List.range 16).flatMap fun p => leBytes 8 (if d.portUp p then (d.reg (fabReg (0x108 + 16 * p))).toNat else 0)) ++
    (List.range 16).map fun p =>
      BitVec.ofNat 8 (d.portRole p + (if d.portState p = 3 then 8 else if d.portState p = 4 then 4 else 0) * 2 ^ 4)

/-- ELECTION (R409, step 2): the part's own identity has been CAND for 20 ms and every neighbour shows it: the part becomes
coordinator and timing master, and asks for the topology. -/
def Device.election (d : Device) : Device :=
  let me := d.fab.identity
  if d.fab.electing && !d.isFrozen && d.eligible && d.fab.cand == me &&
      d.joinPorts.all fun p => (((d.port p).beacon).map fun b => leAt b 0x28 8 == me.toNat).getD false then
    let heard := maxOf (d.fab.epochSeen :: d.beacons.map fun b => leAt b.2 0x30 4)
    let e := (heard + 1) % 2 ^ 32
    let d := { d with fab := { d.fab with electing := false, stagedEpoch := e, epochSeen := e, topo := [d.topoAnswer] } }
    let d := (d.setField (fabReg 0) 1 2 1).setReg (fabReg 0x10) me
    let d := ((d.setField (gafReg 0x18) 1 2 3).setField (gafReg 0x18) 3 1 0).setReg (gafReg 0x60) me
    let d := d.setField (gafReg 0x68) 0 37 e
    d.flood none (d.ctrlPacket 0x13 0xFFFF [])
  else d

/-- ELECTION (R409). -/
def execElection (s : State) : Host.Outcome State Fault Refusal := s.onClock Device.election

/-- A control packet of a kind taken in its turn (R407), whether it is used or not; `f` uses it. -/
def Device.ctrlIn (p kind : Nat) (k : Packet) (ok : Bool) (f : Device → Device) (d : Device) : Device :=
  if d.portUp p && k.kind.toNat == kind && d.rxFirst p k then (if ok then f (d.takeRx p k) else d.takeRx p k) else d

/-- A TOPO packet (R409, step 3): the coordinator's is answered and passed on; an answer goes on toward the coordinator, which keeps
it. -/
def Device.topoIn (p : Nat) (k : Packet) (d : Device) : Device :=
  d.ctrlIn p 0x13 k (d.joins p && !d.isFrozen) fun d =>
    let go := { k with hops := k.hops + 1 }
    if k.dest.toNat = 0xFFFE then
      if d.bitOf (fabReg 0) 1 then
        { d with fab := { d.fab with topo := (d.fab.topo.filter fun t => leAt t 0 8 != leAt k.payload 0 8) ++ [k.payload] } }
      else
        match d.fab.parent with
        | some q => if 16 ≤ k.hops.toNat then d else d.txPacket q go
        | none => d
    else if d.fab.parent = some p ∧ d.bitOf (fabReg 0) 1 = false then
      let d := d.txPacket p (d.ctrlPacket 0x13 0xFFFE d.topoAnswer)
      if 16 ≤ k.hops.toNat then d else d.flood (some p) go
    else d

/-- TOPO (R409). -/
def execTopo (port : Fin 16) (pkt : Packet) (s : State) : Host.Outcome State Fault Refusal := s.onClock (Device.onlyIf pkt.wf (Device.topoIn port pkt))

/-! ### Addresses and routes -/

/-- A part as its TOPO answer describes it: identity, static address, and its links: port, partner's identity, cost (R409, R410). -/
structure TopoPart where
  ident : Nat
  static : Nat
  links : List (Nat × Nat × Nat)
  deriving DecidableEq, Repr

/-- A TOPO answer read: links over mirror ports and ports without a width are none. -/
def topoPart (b : List Byte) : TopoPart :=
  { ident := leAt b 0 8, static := leAt b 8 2
    links := (List.range 16).filterMap fun p =>
      let who := leAt b (16 + 8 * p) 8
      let rw := leAt b (144 + p) 1
      if who = 0 ∨ rw % 4 = 3 ∨ rw / 16 = 0 then none else some (p, who, if rw / 16 = 8 then 1 else 2) }

/-- The parts of a topology in ascending identity, with the places of the parts that their links reach. -/
def topoParts (l : List (List Byte)) : List TopoPart :=
  let ps := l.map topoPart
  let ids := (ps.map (·.ident)).foldl (fun a i => insertAsc i a) []
  ids.filterMap fun i => ps.find? fun p => p.ident == i

/-- The links of part i as (port, part, cost), to parts of the topology. -/
def topoLinks (ps : List TopoPart) (i : Nat) : List (Nat × Nat × Nat) :=
  (((ps[i]?).map (·.links)).getD []).filterMap fun l => (findIdx (fun q => q.ident == l.2.1) ps).map fun j => (l.1, j, l.2.2)

/-- The lesser of two distances: cost, then links crossed. -/
def nearer (a b : Option (Nat × Nat)) : Option (Nat × Nat) :=
  match a, b with
  | none, x => x
  | x, none => x
  | some x, some y => if y.1 < x.1 ∨ (y.1 = x.1 ∧ y.2 < x.2) then some y else some x

/-- One round of distances to a destination. -/
def relax (ls : List (List (Nat × Nat × Nat))) (dst : Nat) (ds : List (Option (Nat × Nat))) : List (Option (Nat × Nat)) :=
  (ls.zip (List.range ls.length)).map fun p =>
    if p.2 = dst then some (0, 0)
    else (p.1.map fun l => ((ds[l.2.1]?).getD none).map fun x => (x.1 + l.2.2, x.2 + 1)).foldl nearer none

/-- Distances after some rounds. -/
def relaxN (ls : List (List (Nat × Nat × Nat))) (dst : Nat) : Nat → List (Option (Nat × Nat)) → List (Option (Nat × Nat))
  | 0, ds => ds
  | n + 1, ds => relaxN ls dst n (relax ls dst ds)

/-- Distances of every part to a destination (R410). -/
def distances (ls : List (List (Nat × Nat × Nat))) (dst : Nat) : List (Option (Nat × Nat)) :=
  relaxN ls dst (ls.length + 1) (ls.map fun _ => none)

/-- The route entry of part i to a destination (R410, R411): the ports that begin a least-cost path, at most four; 0 when it is not
reachable. -/
def routeEntry (ls : List (List (Nat × Nat × Nat))) (ds : List (Option (Nat × Nat))) (i : Nat) : Nat :=
  match (ds[i]?).getD none with
  | none => 0
  | some x =>
    if 16 < x.2 then 0
    else
      let ps := (((ls[i]?).getD []).filter fun l =>
        match (ds[l.2.1]?).getD none with
        | some y => y.1 + l.2.2 == x.1
        | none => false).map (·.1)
      let ps := ps.take 4
      (ps.zip [0, 4, 8, 12]).foldl (fun a p => a + p.1 * 2 ^ p.2) ((ps.length - 1) * 2 ^ 16 + x.2 * 2 ^ 18 + 2 ^ 24)

/-- The lowest addresses not taken, for the parts without one (R409, step 4). -/
def fillAddrs : List (Option Nat) → List Nat → Nat → List Nat
  | [], _, _ => []
  | some a :: r, used, next => a :: fillAddrs r used next
  | none :: r, used, next =>
    let a := ((List.range (used.length + 1)).find? fun i => !used.contains (next + i)).getD 0 + next
    a :: fillAddrs r used (a + 1)

/-- The addresses of the parts in ascending identity (R409, step 4): unique static addresses confirmed, the lower identity of two that
ask for one keeping it. -/
def partAddrs (ps : List TopoPart) : List Nat :=
  let st := ps.foldl (fun (a : List (Option Nat)) p => a ++ [if 0xFFF0 ≤ p.static ∨ a.contains (some p.static) then none else some p.static]) []
  fillAddrs st (st.filterMap id) 0

/-- Links to the coordinator by hops alone, for the parent tree (R409, step 1). -/
def hopLinks (ls : List (List (Nat × Nat × Nat))) : List (List (Nat × Nat × Nat)) := ls.map fun l => l.map fun x => (x.1, x.2.1, 1)

/-- The parent port of part i: the lowest port to a part one link nearer the coordinator. -/
def parentOf (ls : List (List (Nat × Nat × Nat))) (hops : List (Option (Nat × Nat))) (i : Nat) : Option (Nat × Nat) :=
  match (hops[i]?).getD none with
  | some x =>
    (((ls[i]?).getD []).find? fun l => ((hops[l.2.1]?).getD none).map (·.2 + 1) == some x.2).map fun l => (l.1, l.2.1)
  | none => none

/-- The port of part j that faces port p of part i: the links between two parts pair in ascending port. -/
def facing (ls : List (List (Nat × Nat × Nat))) (i p j : Nat) : Option Nat :=
  let mine := (((ls[i]?).getD []).filter fun l => l.2.1 == j).map (·.1)
  let theirs := (((ls[j]?).getD []).filter fun l => l.2.1 == i).map (·.1)
  (findIdx (· == p) mine).bind fun n => theirs[n]?

/-- The broadcast entry of part i (R411): the ports of the coordinator's parent tree that touch it. -/
def castEntry (ls : List (List (Nat × Nat × Nat))) (hops : List (Option (Nat × Nat))) (i : Nat) : Nat :=
  let up := (parentOf ls hops i).map (·.1)
  let down := (List.range ls.length).filterMap fun c =>
    match parentOf ls hops c with
    | some (p, j) => if j = i then facing ls c p i else none
    | none => none
  ((up.toList ++ down).eraseDups).foldl (fun a p => a + 2 ^ p) (2 ^ 24)

/-- The route table of part i as (destination, entry), ascending, VALID entries only (R409 to R411). -/
def tableOf (ls : List (List (Nat × Nat × Nat))) (addrs : List Nat) (hops : List (Option (Nat × Nat))) (i : Nat) : List (Nat × Nat) :=
  let es := (List.range ls.length).map fun j =>
    (addrs.getD j 0, if i = j then 2 ^ 23 + 2 ^ 24 else routeEntry ls (distances ls j) i)
  let m := es.foldl (fun (m : SMap Nat) e => mset 0 m e.1 e.2) ([] : SMap Nat)
  m ++ [(0xFFFF, castEntry ls hops i)]

/-- A table cut into runs of at most 52 destinations that follow one another (R409, step 5). -/
def routeRuns (l : List (Nat × Nat)) : List (List (Nat × Nat)) :=
  l.foldl (fun a e =>
    match a.getLast? with
    | some r =>
      match r.getLast? with
      | some x => if x.1 + 1 = e.1 ∧ r.length < 52 then a.dropLast ++ [r ++ [e]] else a ++ [[e]]
      | none => a ++ [[e]]
    | none => [[e]]) []

/-- The payload of a ROUTE packet. -/
def routePayload (ident : Nat) (r : List (Nat × Nat)) : List Byte :=
  leBytes 8 ident ++ leBytes 2 ((r.head?.map (·.1)).getD 0) ++ leBytes 2 r.length ++ [0, 0, 0, 0] ++ r.flatMap fun e => leBytes 4 e.2

/-- The payload of an ASSIGN packet. -/
def assignPayload (ident addr epoch : Nat) : List Byte := leBytes 8 ident ++ leBytes 2 addr ++ [0, 0] ++ leBytes 4 epoch

/-- The packets in transit that stand in receive buffers, with their ports. -/
def Device.inTransit (d : Device) : List (Nat × Packet) :=
  (List.range 16).flatMap fun p => ((d.port p).rx.flatMap (·.2)).map fun k => (p, k)

/-- The staged address and table taken up (R409, step 6; R419); packets in transit finish on their old paths (R413; log entry 187). -/
def Device.takeUp (d : Device) (epoch parts : Nat) : Device :=
  match d.fab.stagedAddr with
  | none => d
  | some a =>
    let r := fabReg 0
    let d := { d with fab := { d.fab with flight := d.inTransit, oldRoutes := d.fab.routes, routes := d.fab.staged, stagedAddr := none, staged := [], epochSeen := epoch } }
    let d := (((d.setField r 0 1 1).setField r 2 1 0).setField r 8 16 a.toNat).setField r 32 16 parts
    let s := d.staticAddr
    let d := d.setField r 24 1 (if s = a.toNat then 1 else 0)
    let d := if s < 0xFFF0 ∧ s ≠ a.toNat then d.setBit r 25 else d
    (d.setReg (fabReg 0x10) d.fab.cand).setField (fabReg 0x18) 0 32 epoch

/-- The address and the table of the part itself staged. -/
def Device.stageOwn (d : Device) (addr : Nat) (t : List (Nat × Nat)) : Device :=
  { d with fab := { d.fab with
      stagedAddr := some (BitVec.ofNat 16 addr)
      staged := t.foldl (fun m e => mset 0 m e.1 (BitVec.ofNat 32 e.2)) ([] : SMap (BitVec 32)) } }

/-- ROUTE_DELIVERY (R409 steps 4 to 6, R410): the coordinator assigns addresses, computes the routes, and broadcasts ASSIGN, ROUTE
and COMMIT. -/
def Device.routeDelivery (d : Device) : Device :=
  if d.bitOf (fabReg 0) 1 && !d.fab.electing && !d.isFrozen && !d.fab.topo.isEmpty then
    let ps := topoParts d.fab.topo
    let ls := (List.range ps.length).map (topoLinks ps)
    let as' := partAddrs ps
    let me := (findIdx (fun p => p.ident == d.fab.identity.toNat) ps).getD 0
    let hops := distances (hopLinks ls) me
    let e := d.fab.stagedEpoch
    let d := d.each (List.range ps.length) fun i d =>
      let id := ((ps[i]?).map (·.ident)).getD 0
      let t := tableOf ls as' hops i
      let d := if i = me then d.stageOwn (as'.getD i 0) t else d
      let d := d.flood none (d.ctrlPacket 0x14 0xFFFF (assignPayload id (as'.getD i 0) e))
      d.each (routeRuns (t.filter fun x => x.2 != 0)) fun r d => d.flood none (d.ctrlPacket 0x15 0xFFFF (routePayload id r))
    let d := d.flood none (d.ctrlPacket 0x16 0xFFFF (leBytes 4 e ++ leBytes 2 ps.length))
    d.takeUp e ps.length
  else d

/-- ROUTE_DELIVERY (R410). -/
def execRouteDelivery (s : State) : Host.Outcome State Fault Refusal := s.onClock Device.routeDelivery

/-- Whether a packet of the coordinator is accepted: it comes on the parent port, outside a take (R409, R413). -/
def Device.fromParent (d : Device) (p : Nat) : Bool := d.joins p && !d.isFrozen && d.fab.parent == some p && !d.bitOf (fabReg 0) 1

/-- A broadcast of the coordinator passed on. -/
def Device.passOn (d : Device) (p : Nat) (k : Packet) : Device :=
  if 16 ≤ k.hops.toNat then d else d.flood (some p) { k with hops := k.hops + 1 }

/-- ASSIGN (R409, step 5): the address is staged when IDENTITY is the part's own. -/
def Device.assignIn (p : Nat) (k : Packet) (d : Device) : Device :=
  d.ctrlIn p 0x14 k (d.fromParent p) fun d =>
    let d := d.passOn p k
    if leAt k.payload 0 8 = d.fab.identity.toNat then
      { d with fab := { d.fab with
          stagedAddr := some (BitVec.ofNat 16 (leAt k.payload 8 2)), staged := [], stagedEpoch := leAt k.payload 12 4 } }
    else d

/-- ASSIGN (R409). -/
def execAssign (port : Fin 16) (pkt : Packet) (s : State) : Host.Outcome State Fault Refusal := s.onClock (Device.onlyIf pkt.wf (Device.assignIn port pkt))

/-- ROUTE (R409, step 5): entries for destinations FIRST onward are staged. -/
def Device.routeIn (p : Nat) (k : Packet) (d : Device) : Device :=
  d.ctrlIn p 0x15 k (d.fromParent p) fun d =>
    let d := d.passOn p k
    if leAt k.payload 0 8 = d.fab.identity.toNat then
      let first := leAt k.payload 8 2
      let m := (List.range (min 52 (leAt k.payload 10 2))).foldl
        (fun m i => if first + i ≤ 0xFFFF then mset 0 m (first + i) (BitVec.ofNat 32 (leAt k.payload (16 + 4 * i) 4)) else m) d.fab.staged
      { d with fab := { d.fab with staged := m } }
    else d

/-- ROUTE (R409). -/
def execRoute (port : Fin 16) (pkt : Packet) (s : State) : Host.Outcome State Fault Refusal := s.onClock (Device.onlyIf pkt.wf (Device.routeIn port pkt))

/-- COMMIT (R409, step 6): the staged address and table of its EPOCH are put in force; the coordinator is the timing master. -/
def Device.commitIn (p : Nat) (k : Packet) (d : Device) : Device :=
  d.ctrlIn p 0x16 k (d.fromParent p) fun d =>
    let d := d.passOn p k
    let e := leAt k.payload 0 4
    if d.fab.stagedEpoch = e ∧ d.fab.stagedAddr.isSome = true then
      let d := { d with fab := { d.fab with electing := false } }
      let d := if d.bitOf (gafReg 0x18) 1 then d.setField (gafReg 0x18) 1 2 0 else d
      d.takeUp e (leAt k.payload 4 2)
    else d

/-- COMMIT (R409). -/
def execCommit (port : Fin 16) (pkt : Packet) (s : State) : Host.Outcome State Fault Refusal := s.onClock (Device.onlyIf pkt.wf (Device.commitIn port pkt))

/-- REROUTE (R413, R436): discovery, election and routing start again; refused while a take runs. -/
def Device.rerouteCmd : Device → Device :=
  Device.mbxWhen 0x08 Device.idleTake fun d =>
    (({ d with fab := { d.fab with ports := d.fab.ports.map fun p => (p.1, { p.2 with beacon := none }) } } : Device).setField (fabReg 0) 1 1 0
      ).rediscover.mbxEnd 0

/-- REROUTE (R436). -/
def execReroute (s : State) : Host.Outcome State Fault Refusal := s.run Device.rerouteCmd

/-! ### Ports -/

/-- PARTNER_ABSENT (R397): a training port whose partner does not answer. -/
def Device.partnerAbsent (p : Nat) (d : Device) : Device :=
  if d.portState p = 2 then (d.setField (portReg p) 0 3 1).modPort p fun x => { x with present := false } else d

/-- PARTNER_ABSENT (R397). -/
def execPartnerAbsent (port : Fin 16) (s : State) : Host.Outcome State Fault Refusal := s.onClock (Device.partnerAbsent port)

/-- The lanes of a port that the defect map records as spliced (R517, R518). -/
def Device.recordedLanes (d : Device) (p : Nat) : List Nat :=
  ((d.recordedTargets 7).filter fun v => v % 16 == p).map fun v => v / 16 % 8

/-- How a port has trained: whether at x8, its half at x4, and the lane that LS replaces. -/
structure Trained where
  wide : Bool
  half : Nat
  splice : Option Nat
  deriving DecidableEq, Repr

/-- The width and lanes at which a role trains with failed lanes, 8 being LS (R396, R397, R399): all its lanes, with LS for one failed lane;
else, in the X8 role, a half that holds no failed lane, or the lower half that LS makes good. -/
def trainChoice (role : Nat) (bad : List Nat) : Option Trained :=
  let try' := fun (wide : Bool) (h : Nat) (ls : Bool) (lanes : List Nat) =>
    match lanes.filter bad.contains with
    | [] => some { wide := wide, half := h, splice := none }
    | [l] => if ls && !bad.contains 8 then some { wide := wide, half := h, splice := some l } else none
    | _ => none
  if role = 1 then
    (try' true 0 true (List.range 8)).or ((try' false 0 false [0, 1, 2, 3]).or ((try' false 1 false [4, 5, 6, 7]).or
      ((try' false 0 true [0, 1, 2, 3]).or (try' false 1 true [4, 5, 6, 7]))))
  else try' false 0 true [0, 1, 2, 3]

/-- A port trains with its partner (R397): on the lanes that the test and the defect map leave; one with no such choice is down (R399). A
new splice is recorded under a source (R517). -/
def Device.trainPort (source p : Nat) (failing : List Nat) (delay : Nat) (d : Device) : Device :=
  let r := portReg p
  let bad := (failing ++ d.recordedLanes p).foldl (fun l x => insertAsc x l) []
  let d := d.modPort p fun x => { x with present := true, badLanes := bad }
  match trainChoice (d.portRole p) bad with
  | none => d.setField r 0 3 5
  | some c =>
    let d := ((d.setField r 0 3 (if c.wide then 3 else 4)).setField r 10 1 c.half).setField r 16 16 delay
    match c.splice with
    | none => d.setField r 5 4 0
    | some l => ((d.setField r 5 1 1).setField r 6 3 l).foundRepair source (portLog p) 13 7 (p + l * 2 ^ 4)

/-- PARTNER_APPEAR (R396, R397, R413): a listening or training port trains, and outside a take discovery starts again. -/
def Device.partnerAppear (p : Nat) (failing : List Nat) (delay : Nat) (d : Device) : Device :=
  if (d.portState p = 1 ∨ d.portState p = 2) ∧ d.portRole p ≠ 0 ∧ d.survival = false then
    let d := d.trainPort 2 p failing delay
    let d := d.modPort p fun x => { x with link := Link.reset, spent := [], held := [], owed := [], part := [], rx := [] }
    let d := (d.rediscover.beaconOut p)
    d.pumpPort p (d.port p).tx.length
  else d

/-- PARTNER_APPEAR (R397). -/
def execPartnerAppear (port : Fin 16) (failing : List Sys2Proof.Lane) (delay : BitVec 16) (s : State) :
    Host.Outcome State Fault Refusal :=
  s.onClock (Device.partnerAppear port (failing.map (·.val)) delay.toNat)

/-- A port goes down (R399, R413, R418): in a take, a port of the frozen set is the loss of a fabric partner; outside one, discovery
starts again. -/
def Device.portDown (p : Nat) (d : Device) : Device :=
  if d.portUp p then
    let a := d.portAddr p
    let d := ((d.setField (portReg p) 0 3 5).setBit (fabReg 0x20) 6).modPort p fun x => { x with beacon := none }
    if d.isFrozen then
      if d.fab.frozen.contains p then d.fault 9 0 0 13 a 0 else d
    else d.rediscover
  else d

/-- PORT_SILENT (R399). -/
def execPortSilent (port : Fin 16) (s : State) : Host.Outcome State Fault Refusal := s.onClock (Device.portDown port)

/-- The lanes that a port uses, LS apart: 0 to 7 at x8; four of them at x4 (R396, R399). -/
def Device.lanesInUse (d : Device) (p : Nat) : List Nat :=
  if d.portState p = 3 then List.range 8 else if d.bitOf (portReg p) 10 then [4, 5, 6, 7] else [0, 1, 2, 3]

/-- Whether a half of the lanes holds no failed lane that LS does not replace. -/
def Device.cleanLanes (d : Device) (p : Nat) (l : List Nat) : Bool :=
  let sp := if d.bitOf (portReg p) 5 ∧ ¬ (d.port p).badLanes.contains 8 then [d.fieldOf (portReg p) 6 3] else []
  l.all fun i => !(d.port p).badLanes.contains i || sp.contains i

/-- A port narrows to x4 on a half of its lanes (R399). -/
def Device.narrow (d : Device) (p half : Nat) : Device :=
  let d := ((d.setField (portReg p) 0 3 4).setField (portReg p) 10 1 half).setBit (portReg p) 9
  (d.setBit (fabReg 0x20) 5).degraded (portLog p) 13 (p * 2 ^ 8)

/-- A failing lane (R398, R399): spliced to LS when LS is free; else an X8 port narrows to its clean half, and a port with none goes
down. -/
def Device.laneFailure (p lane : Nat) (d : Device) : Device :=
  if !d.portUp p || (d.port p).badLanes.contains lane then d
  else
    let r := portReg p
    let used := d.bitOf r 5
    let d := d.modPort p fun x => { x with badLanes := insertAsc lane x.badLanes }
    let active := d.lanesInUse p
    if lane ≠ 8 ∧ ¬ active.contains lane then d
    else if lane = 8 ∧ ¬ used then d
    else if lane ≠ 8 ∧ ¬ used ∧ ¬ (d.port p).badLanes.contains 8 then
      ((d.setField r 5 1 1).setField r 6 3 lane).foundRepair 2 (portLog p) 13 7 (p + lane * 2 ^ 4)
    else if d.portState p = 3 then
      if d.cleanLanes p [0, 1, 2, 3] then d.narrow p 0
      else if d.cleanLanes p [4, 5, 6, 7] then d.narrow p 1
      else d.portDown p
    else if d.cleanLanes p active then d
    else d.portDown p

/-- LANE_FAILURE (R398). -/
def execLaneFailure (port : Fin 16) (lane : Sys2Proof.Lane) (s : State) : Host.Outcome State Fault Refusal := s.onClock (Device.laneFailure port lane.val)

/-- DELAY_ECHO (R395): the link delay measured. -/
def Device.delayEcho (p delay : Nat) (d : Device) : Device := if d.portUp p then d.setField (portReg p) 16 16 delay else d

/-- DELAY_ECHO (R395). -/
def execDelayEcho (port : Fin 16) (delay : BitVec 16) (s : State) : Host.Outcome State Fault Refusal :=
  s.onClock (Device.delayEcho port delay.toNat)

end Sys2Proof.Machine
end

