-- ==== Sys2Proof/Machine/Startup.lean ====
section
/-! DEFINITION. Start-up (R498 to R507): the phases, failed starts, the dailies, ready; the slate's writes and their retries (R514), the
orderly stop (R521), and the lighting of towers held dark (R507). -/
namespace Sys2Proof.Machine

open Sys2Proof

/-! ### The end of a slate write -/

/-- A STOP that has not ended (R521). -/
def Device.stopRuns (d : Device) : Bool := d.bitOf (hstReg 0x108) 0 && d.mbx.op == 9 && d.mbx.result.isNone

/-- STOP ends once nothing is being written, and nothing is held or it has waited 5 s for the slate-write window (R521). -/
def Device.finishStop (d : Device) : Device :=
  if d.stopRuns && d.start.writing.isNone && (d.start.held.isEmpty || d.start.stopWait == 0) then
    (d.setBit (svcReg 0xB000) 18).mbxEnd 0
  else d

/-- SLATE_WRITE_END (R513, R514): the block write ends; its next stage follows, or its PENDING bit clears. -/
def Device.slateWriteEnd (d : Device) : Device :=
  match d.start.writing with
  | none => d
  | some w =>
    let r := d.commitWrite w
    let d := { r.1 with start := { r.1.start with writing := none } }
    match r.2 with
    | some n => (({ d with start := { d.start with held := n :: d.start.held } } : Device).setBit (svcReg 0xB000) n.bit).tryHeld.finishStop
    | none =>
      let d := if d.start.held.any fun h => h.bit == w.bit then d else d.setField (svcReg 0xB000) w.bit 1 0
      d.tryHeld.finishStop

/-- SLATE_WRITE_END (R514). -/
def execSlateWriteEnd (s : State) : Host.Outcome State Fault Refusal := s.run Device.slateWriteEnd

/-- SLATE_WRITE_RETRY (R514, R521): every 1 s the first held write is tried again; a STOP that waits for the window has waited 1 s more. -/
def Device.retryHeld (d : Device) : Device :=
  ({ d.tryHeld with start := { d.tryHeld.start with stopWait := d.tryHeld.start.stopWait - 1 } } : Device).finishStop

/-- SLATE_WRITE_RETRY (R514). -/
def execSlateWriteRetry (s : State) : Host.Outcome State Fault Refusal := s.run Device.retryHeld

/-! ### STOP -/

/-- STOP (R521): retirement copies, memories in self-refresh, lanes idle, the wear ledger and then a held calibration set written; with
the window closed STOP waits for it, for five tries of one second each, and then leaves the writes pending. -/
def Device.stopCmd : Device → Device :=
  Device.mbxWhen 0x09 Device.idleTake fun d =>
    let d := d.copyBanks.sleepMemories.fabIdle
    let d := { d with start := { d.start with
      held := .ledger (d.ledgerBytes (d.start.ledgerSeq + 1)) :: d.start.held, stopWait := 5 } }
    (d.setBit (svcReg 0xB000) 16).tryHeld.finishStop

/-- STOP (R521). -/
def execStop (s : State) : Host.Outcome State Fault Refusal := s.run Device.stopCmd

/-! ### The dailies and failed starts -/

/-- The store slices of a half that are not usable (R201, R310): failed in a test, or retired. -/
def Device.badSlices (d : Device) (h : Nat) : List Nat :=
  (List.range 272).filter fun n => d.recorded 1 (h + 2 * n) || d.retire.entries.any fun e =>
    field e.toNat 0 2 == 3 && field e.toNat 8 32 == h + 2 * n

/-- Spare store slices left in a half. -/
def Device.slicesLeft (d : Device) (h : Nat) : Nat := 16 - (d.badSlices h).length

/-- The records that phase 7 appends (R518): those kept of repairs in service, with this start's number (R398; log entry 188), those of this
start's tests, then the retirements that the wear ledger carries. -/
def Device.appends (d : Device) : List (List Byte) :=
  let led := (List.range (min 4096 (leAt d.start.lastLedger 0x1E8 4))).map fun i =>
    recordOfEntry d.startNumber (BitVec.ofNat 64 (leAt d.start.lastLedger (0x1EC + 8 * i) 8))
  let kept := (d.kept.records.filter fun r => !d.start.records.any (sameRecord r)).map fun r => putBytes r 2 (leBytes 4 d.startNumber)
  kept ++ d.start.newRecords ++ led.filter fun r => !d.recorded (recKind r) (recTarget r)

/-- Those of them for which the defect map has room (R518). -/
def Device.fitting (d : Device) : List (List Byte) := d.appends.take (defectMax - d.defectSlots.length)

/-- FLAGS of the dailies (R520). -/
def Device.dailiesFlags (d : Device) : Nat :=
  let b := fun (x : Bool) (i : Nat) => if x then 2 ^ i else 0
  let port4 := (List.range 16).any fun p => d.portRole p == 1 && d.portState p == 4
  let full := decide (defectMax < d.defectSlots.length + d.appends.length)
  b d.start.brgShort 0 + b port4 1 + b d.start.capped 2 + b d.start.noSpare 3 + b (d.bitOf (svcReg 0xB000) 20) 4 + b full 5 +
    b (!d.start.heldDark.isEmpty) 6 + b d.start.ledgerMissing 7

/-- The sensors that this start's tests found failed, as references of R519. -/
def Device.newFailedSensors (d : Device) : List Nat :=
  ((d.start.newRecords.filter fun r => recKind r == 10).map recTarget).map fun v => v / 2 ^ 8 + v % 2 ^ 8 * 2 ^ 16

/-- The towers that are lit, as a mask (R520). -/
def Device.towersLit (d : Device) : Nat := (List.range 20).foldl (fun a t => if (d.tower t).lit then a + 2 ^ t else a) 0

/-- A dailies entry without its digest (R520), with the count of records that this start appends. -/
def Device.dailiesEntry (d : Device) (result code ap : Nat) (durations : List Nat) : List Byte :=
  let susp := (List.range (min 256 (leAt d.start.lastLedger 0x81EC 4))).map fun i => leAt d.start.lastLedger (0x81F0 + 4 * i) 4
  let head := leBytes 4 0x4441494C ++ leBytes 4 d.startNumber ++ leBytes 1 (d.fieldOf (svcReg 0xB000) 4 1) ++ leBytes 1 result ++
    leBytes 1 code ++ leBytes 1 (d.fieldOf (svcReg 0xA010) 0 4) ++ ((List.range 3).flatMap fun i => leBytes 4 (d.start.versions.getD i 0)) ++
    leBytes 4 (leAt d.start.cal 8 4) ++ ((List.range 7).flatMap fun i => leBytes 4 (durations.getD i 0)) ++ leBytes 4 d.towersLit ++
    ((List.range 20).flatMap fun t => leBytes 1 (d.tower t).cores) ++ leBytes 4 ap ++ leBytes 4 (d.start.records.length + ap) ++
    leBytes 4 d.dailiesFlags ++ leBytes 2 (tempCode (d.half 0).value) ++ leBytes 2 (tempCode (d.half 1).value) ++
    leBytes 2 (unsignedOf 16 d.thm.board) ++ leBytes 2 (tempCode d.thm.tin) ++ leBytes 2 (d.slicesLeft 0) ++ leBytes 2 (d.slicesLeft 1)
  let mid := if d.start.lastLedger.isEmpty then List.replicate 128 0xFF else sliceBytes d.start.lastLedger 0x85F0 128
  sliceBytes head 0 0x100 ++ tableField 4 256 (susp ++ d.newFailedSensors) ++ mid ++ List.replicate (0xFE0 - 0x580) 0

/-- A failed start (R502): it appends nothing to the defect map. The command gives no durations of its phases: in its dailies entry they are
free (log entry 5). -/
def Device.failStart (d : Device) (code : Nat) : Device :=
  let d := { d with pins := { d.pins with faultN := false } }
  let d := (d.setBit (svcReg 0xB000) 5).setField (svcReg 0xB000) 6 8 code
  if code < 4 then d
  else
    let t := d.drawBytes 28
    t.2.offerWrite (.dailies (t.2.dailiesEntry 1 code 0 ((List.range 7).map fun i => leAt t.1 (4 * i) 4)))

/-! ### Phase 2: the boot ROM -/

/-- A half whose sensors stand at the shutdown level trips (R466); else the work goes on. -/
def Device.tripOr (f : Device → Device) (d : Device) : Device :=
  match d.tripHalf with
  | some h => d.trip h
  | none => f d

/-- The base-die and lid sensors read (R491, R498): one still at or above its shutdown level trips again. -/
def Device.readBase (m : SensorSample) (d : Device) : Device :=
  let d := (d.takeReadings { m with towers := [] }).each [0, 1] Device.convertBase
  (d.each [0, 1] Device.checkManifold).setCoolant.tripOr fun d => d

/-- The identity seed read by the boot ROM, which then closes the fuses' read path until the next reset (R531). -/
def Device.readSeed (d : Device) : Device :=
  if d.sec.seedClosed then d else { d with sec := { d.sec with seed := d.fuses.seed, seedClosed := true } }

/-- Phase 2 (R498, R503, R531): fuses and sensors read, and the boot link: the lowest-numbered module whose sideband trained. -/
def Device.phase2 (r : PhaseReport) (d : Device) : Device :=
  let d := d.readSeed
  ({ d with start := { d.start with bootLink := (List.range 28).find? fun m => r.sideband.any (·.val == m) } } : Device).readBase r.sense

/-! ### Phase 3: the slate -/

/-- The calibration set in force and whether it is the staging set, to be copied to the active area (R508): a committed staging set is
a copy that completes at this start (R516; log entry 109). -/
def Device.calInForce (d : Device) : Option (List Byte × Bool) :=
  let a := d.flashRead 0x10000 calSize
  let b := d.flashRead 0x50000 calSize
  if calValid b && leAt b 0x3C 4 == 0 then some (b, true) else if calValid a then some (a, false) else none

/-- The images taken into use (R503, R530, R535): versions, rollbacks, digests, measurements and COPY_FALLBACK. -/
def Device.useImages (d : Device) (l : List (DirEntry × Bool)) : Device :=
  let size := fun (e : DirEntry) => 256 + leAt (d.flashRead e.off 256) 0x10 8
  let bytes := fun (e : DirEntry) => d.flashRead e.off (size e)
  let start := { d.start with
    versions := l.map fun e => e.1.version
    rollbacks := l.map fun e => leAt (d.flashRead e.1.off 256) 0x0C 1
    core := match l.getLast? with
      | some e => (e.1.off, size e.1)
      | none => (0, 0) }
  let key := match l with
    | e :: _ => d.flashRead (e.1.off + e.1.len - 3075) 1793
    | [] => []
  let d := { d with sec := { d.sec with serviceKey := key } }
  let d := ({ d with start := start } : Device).each ((List.range 3).zip l) fun p d => d.measure p.1 (bytes p.2.1)
  if l.any (·.2) then d.setBit (secReg 0) 3 else d

/-- The settings block in force (R510) and what it sets (R231, R313, R342, R396, R453, R475). -/
def Device.useSettings (d : Device) : Device :=
  let raw := d.flashRead 0x0001000 0x1000
  let r := settingsOf raw
  let d := ({ d with start := { d.start with settings := r.1 } } : Device).measure 3 raw
  let d := if r.2 then d.setBit (svcReg 0xB000) 20 else d
  let d := (d.setField (gafReg 0) 0 10 (leAt r.1 0x008 2)).setField (gafReg 8) 0 12 (leAt r.1 0x00A 2)
  let d := (d.setField (thmReg 0x10) 0 8 (leAt r.1 0x00C 1)).setField (thmReg 0x10) 8 8 (leAt r.1 0x00D 1)
  let d := d.each (List.range 16) fun p d => d.setField (portReg p) 3 2 (d.slateRole p)
  let d := d.each (List.range 32) fun i d =>
    let b := stoReg (i / 16) (0x20000 + 16 * (i % 16))
    (d.setReg b (BitVec.ofNat 64 (leAt r.1 (0x040 + 16 * i) 8) &&& 0x0000FFFFFFFFF001)).setReg (b + 8)
      (BitVec.ofNat 64 (leAt r.1 (0x048 + 16 * i) 8) &&& 0x0000FFFFFFFFF000)
  (d.setField (lpdReg 0) 0 12 (leAt r.1 0x026 2)).setField (lpdReg 0) 12 2 (leAt r.1 0x028 1)

/-- START_NUMBER and FULL (R501, R520). -/
def Device.startKind (d : Device) : Device :=
  let last := d.newestDailies
  let n := match last with
    | some e => leAt e 4 4 + 1
    | none => 1
  let forced := match last with
    | some e => leAt e 9 1 == 1 || leAt e 0x18 4 != leAt d.start.cal 8 4
    | none => false
  let mode := d.setting 0x006 1 0
  let full := forced || mode == 1 || (mode == 2 && n % d.setting 0x007 1 16 == 0)
  (d.setField (svcReg 0xB000) 32 32 n).setField (svcReg 0xB000) 4 1 (if full then 1 else 0)

/-- The wear ledger read (R474, R519): the counts of the towers continue from it. One with the SEQ that the start before read is not from the
last run (R520). -/
def Device.useLedger (d : Device) : Device :=
  match d.newestLedger with
  | none => { d with start := { d.start with ledgerMissing := true }, kept := { d.kept with ledger := none } }
  | some (_, b) =>
    let n := leAt b 4 4
    let d := { d with
      start := { d.start with lastLedger := b, ledgerSeq := n, ledgerMissing := d.kept.ledger == some n }
      kept := { d.kept with ledger := some n } }
    d.each (List.range 20) fun t d =>
      let o := 8 + 24 * t
      (d.setReg (thmReg (0x1030 + 128 * t))
        (BitVec.ofNat 64 (leAt b o 4 % 2 ^ 21 + leAt b (o + 4) 4 % 2 ^ 21 * 2 ^ 21 + leAt b (o + 8) 4 % 2 ^ 21 * 2 ^ 42))).setReg
        (thmReg (0x1038 + 128 * t)) (BitVec.ofNat 64 (leAt b (o + 12) 8))

/-- The defect map read and applied (R312, R518): the retirement table from its records and from the retirements of the wear ledger,
failed sensors excluded, failed spares unusable. -/
def Device.useDefects (d : Device) : Device :=
  let rs := d.defectMap
  let d := { d with start := { d.start with records := rs } }
  let led := (List.range (min 4096 (leAt d.start.lastLedger 0x1E8 4))).map fun i =>
    recordOfEntry d.startNumber (BitVec.ofNat 64 (leAt d.start.lastLedger (0x1EC + 8 * i) 8))
  let es := (rs ++ led).filterMap entryOfRecord
  let d := d.each es fun e d => d.addEntry (if field e.toNat 0 2 = 2 then e ||| 4 else e)
  let d := d.each (d.recordedTargets 10) fun v d =>
    let g := v % 2 ^ 8
    let i := v / 2 ^ 8
    if g < 20 then d.modTower g fun x => { x with suspect := insertAsc i x.suspect }
    else if g = 20 then d.modHalf (i / 64) fun x => { x with suspect := insertAsc i x.suspect }
    else { d with thm := { d.thm with lidSuspect := insertAsc i d.thm.lidSuspect } }
  let spare := fun (v : Nat) => 32 * (24 * (v % 2 ^ 5) + v / 2 ^ 5 % 2 ^ 5) + 4 * (v / 2 ^ 10 % 2 ^ 3) + v / 2 ^ 19 % 4
  { d with start := { d.start with spares := (d.recordedTargets 3).foldl (fun a v => insertAsc (spare v) a) d.start.spares } }

/-- The identity block judged (R533, R534): the subsystem IDs, and FAB_IDENTITY. One that cannot be read is not valid. -/
def Device.useIdentity (readable : Bool) (d : Device) : Device :=
  let ok := readable && d.idBlockOk
  let d := if ok then d else d.setBit (secReg 0) 1
  let ids := if ok then leAt d.idBlock 0x10 4 else 0
  let d := { d with host := { d.host with cfg := mset 0 d.host.cfg 11 (BitVec.ofNat 32 ids) } }
  d.setReg (fabReg 8) d.fuses.identity

/-- Whether the service image that the west chose passes on the east, which fetches it over the boot link (R503, R528); a part whose sideband
has trained on no module has no boot link, and the image cannot pass (log entry 190). -/
def Device.eastPasses (d : Device) (e : DirEntry) (fetched : Option (List Byte)) : Bool :=
  d.start.bootLink.isSome &&
    match fetched with
    | none => d.copyPasses e
    | some b => imagePasses d.fuses e (sliceBytes b)

/-- Phase 3 (R498): the slate read and checked, the images verified; the east takes the service image that the west chose, and the start fails
when that fails on the east (R528). The identity block is judged in every start that reaches this phase (R534). -/
def Device.phase3 (r : PhaseReport) (d : Device) : Device :=
  let d := d.useIdentity r.flashOk
  let h := d.flashRead 0 0x1000
  if !r.flashOk || decide (leAt h 6 1 < 26) || leAt h 0 4 != 0x534C4154 || leAt h 4 2 != 0x0501 || digest32 (h.take 0xFE0) != sliceBytes h 0xFE0 32 then d.failStart 1
  else
    let dir := headerDir h
    match d.chooseImage dir 1, d.chooseImage dir 2, d.chooseImage dir 3 with
    | some a, some b, some c =>
      if !d.eastPasses a.1 r.eastImage then d.failStart 2
      else
      let d := d.useImages [a, b, c]
      match d.calInForce with
      | none => d.failStart 3
      | some (s, copy) =>
        let d := ({ d with start := { d.start with cal := s } } : Device).measure 4 s
        let d := d.useSettings.startKind.useLedger.useDefects
        if copy then (d.setBit (svcReg 0xB000) 17).offerWrite (.cal 3 s) else d
    | _, _, _ => d.failStart 2

/-! ### Phase 4: base dies, bridge, capacity memory -/

/-- Retirement entries that come into effect: PENDING clears (R310). -/
def takeEffect (due : BitVec 64 → Bool) (l : List (BitVec 64)) : List (BitVec 64) :=
  l.map fun e => if due e then e &&& ~~~(4 : BitVec 64) else e

/-- The slice map of a half (R200, R229): each logical slice at its own physical slice when usable, else at the lowest usable spare
(log entry 32). -/
def Device.mapSlices (d : Device) (h : Nat) : Device :=
  let bad := d.badSlices h
  let spare := (List.range 16).map (256 + ·) |>.filter fun n => !bad.contains n
  let r := (List.range 256).foldl
    (fun (a : Device × List Nat) n =>
      if !bad.contains n then (a.1.setReg (stoReg h (0x1000 + 8 * n)) (BitVec.ofNat 64 n), a.2)
      else
        match a.2 with
        | p :: q => (a.1.setReg (stoReg h (0x1000 + 8 * n)) (BitVec.ofNat 64 (p + 2 ^ 9)), q)
        | [] => a) (d, spare)
  r.1

/-- A role filled with modules (R378): up to a count, from the front of a list. -/
def fillRole (role count : Nat) (a : Device × List Nat) : Device × List Nat × Nat :=
  let take := a.2.take count
  (a.1.each take fun m d => d.setField (brgReg (0x100 + 8 * m)) 0 2 role, a.2.drop count, take.length)

/-- The lane repairs of a module's direction that the defect map records (R517, R518): lane and repair lane. -/
def Device.recordedRepairs (d : Device) (m dir : Nat) : List (Nat × Nat) :=
  ((d.recordedTargets 8).filter fun v => v % 2 ^ 6 == m + dir * 2 ^ 5).map fun v => (v / 2 ^ 6 % 2 ^ 7, v / 2 ^ 13 % 4)

/-- The lanes of a module's direction that failed at the training (R373): each that is not repaired takes the lowest free repair lane. -/
def Device.repairAtStart (m dir : Nat) (lanes : List Nat) (d : Device) : Device :=
  d.each lanes fun l d =>
    let rs := d.recordedRepairs m dir
    if rs.any fun x => x.1 == l then d
    else
      match (List.range 4).find? fun i => !rs.any fun x => x.2 == i with
      | some i => d.foundRepair 0 d.mainLog 12 8 (m + dir * 2 ^ 5 + l * 2 ^ 6 + i * 2 ^ 13)
      | none => d

/-- A module after training (R373, R386): its width, and the repair lanes in use west to east and the other way. -/
def Device.trainModule (r : PhaseReport) (m : Nat) (d : Device) : Device :=
  let lanes := fun (east : Bool) => (r.bridgeLanes.filter fun x => x.1.val == m && x.2.1 == east).map (·.2.2)
  let d := (d.repairAtStart m 0 (lanes true)).repairAtStart m 1 (lanes false)
  let b := brgReg (0x100 + 8 * m)
  ((d.setField b 2 2 (r.modules.getD m 0).toNat).setField b 4 3 (min 4 (d.recordedRepairs m 0).length)).setField b 7 3
    (min 4 (d.recordedRepairs m 1).length)

/-- The roles of the bridge modules planned (R378, R385, R386). -/
def Device.planBridge (r : PhaseReport) (d : Device) : Device :=
  let d := d.each (List.range 28) (Device.trainModule r)
  let wide := (List.range 28).filter fun m => d.modWidth m == 3
  let thin := (List.range 28).filter fun m => d.modWidth m == 1 || d.modWidth m == 2
  let want := [(3, d.setting 0x022 1 2), (1, d.setting 0x023 1 16), (2, d.setting 0x024 1 6)]
  let fill := fun (a : Device × List Nat) (have' : List Nat) =>
    (want.zip have').foldl
      (fun (x : (Device × List Nat) × List Nat) w =>
        let f := fillRole w.1.1 (w.1.2 - w.2) x.1
        ((f.1, f.2.1), x.2 ++ [w.2 + f.2.2])) (a, [])
  let x := fill (d, wide) [0, 0, 0]
  let y := fill (x.1.1, thin) x.2
  let d := y.1.1
  let n := y.2
  let d := ((d.setBit (brgReg 0) 0).setField (brgReg 0) 6 5 (n.getD 1 0)).setField (brgReg 0) 11 5 (n.getD 2 0)
  let d := (d.setField (brgReg 0) 32 7 r.latency).countModules.choosePrimary
  { d with start := { d.start with brgShort := (want.zip n).any fun w => decide (w.2 < w.1.2) } }

/-- The roles that the bridge has modules for (R378): enough for the least counts. -/
def Device.bridgeEnough (d : Device) : Bool :=
  let n := fun r => ((List.range 28).filter fun m => d.modRole m == r).length
  decide (1 ≤ n 3) && decide (8 ≤ n 1) && decide (2 ≤ n 2)

/-- The capacity-memory channels that are fitted, trained (R439, R453), but for those that failed. -/
def Device.trainLpd (bad : List Nat) (d : Device) : Device :=
  d.each (List.range 12) fun k d =>
    if d.bitOf (lpdReg 0) k then
      (d.setField (lpdReg (0x100 + 8 * k)) 0 2 (if bad.contains k then 1 else 2)).setField (lpdReg (0x100 + 8 * k)) 2 2
        (field (d.setting 0x02C 4 0) (2 * k) 2)
    else d

/-- The IVR phases of a tower after self-test (R485, R497): the lowest 16 usable are in service. -/
def Device.setPhases (t : Nat) (d : Device) : Device :=
  let bad := (List.range 18).filter fun p => d.recorded 9 (t + p * 2 ^ 6) || d.recorded 9 (t + 2 ^ 5 + p * 2 ^ 6)
  let use := ((List.range 18).filter fun p => !bad.contains p).take 16
  let d := d.modTower t fun x => { x with badPhases := bad }
  let d := (d.setField (twrReg t 0x303000) 8 5 use.length).setField (twrReg t 0x303000) 13 2 (use.filter fun p => decide (16 ≤ p)).length
  if use.length < 16 then
    (({ d with start := { d.start with capped := true } } : Device).setBit (svcReg 0xA008) 2).degraded (20 + halfOf t) 19 (3 + t * 2 ^ 8)
  else d

/-- TARGET of an IVR phase of a tower (R517, kind 9). -/
def phaseTarget (t p : Nat) : Nat := t + halfOf t * 2 ^ 5 + p * 2 ^ 6

/-- TARGET of an IVR phase of a base die (R517, kind 9). -/
def basePhaseTarget (h p : Nat) : Nat := 31 + h * 2 ^ 5 + p * 2 ^ 6

/-- FULL: this start is full (R501). -/
def Device.fullStart (d : Device) : Bool := d.bitOf (svcReg 0xB000) 4

/-- Whether this start tests a line of a store slice (R500): a quick start the first and last 256 lines. -/
def Device.testsLine (d : Device) (line : Nat) : Bool :=
  decide (line < 196608) && (d.fullStart || decide (line < 256) || decide (196352 ≤ line))

/-- Whether this start tests a row of a DRAM bank (R500): a quick start rows 0 and 8,191 and every 128th. -/
def Device.testsRow (d : Device) (row : Nat) : Bool := decide (row < 8192) && (d.fullStart || row == 8191 || row % 128 == 0)

/-- The slices of a half that fail the store self-test (R500). -/
def Device.testSlices (h : Nat) (bad : List (Nat × Nat)) (d : Device) : Device :=
  d.each (bad.filter fun x => decide (x.1 < 272) && d.testsLine x.2) fun x d => d.foundDefect 1 (h + 2 * x.1)

/-- The record of a failed IVR phase, of a tower or of a base die. -/
def Device.testPhase (v : Nat) (d : Device) : Device :=
  if v < 360 then d.foundRepair 0 (20 + halfOf (v / 18)) 19 9 (phaseTarget (v / 18) (v % 18))
  else if v < 488 then d.foundRepair 0 (20 + (v - 360) / 64) 19 9 (basePhaseTarget ((v - 360) / 64) ((v - 360) % 64))
  else d

/-- Phase 4 (R498): store, base network, bridge, capacity memory. The store and capacity memory hold zero (R202, R443), and the store's first
scrub pass begins. -/
def Device.phase4 (r : PhaseReport) (d : Device) : Device :=
  let d := (d.testSlices 0 r.badSlicesW).testSlices 1 r.badSlicesE
  let d := d.each (d.start.newRecords.filterMap entryOfRecord) fun e d => d.addEntry e
  let usable := fun h => 272 - (d.badSlices h).length
  if usable 0 < 256 then d.failStart 4
  else if usable 1 < 256 then d.failStart 5
  else
    let d := d.each [0, 1] fun h d => (d.mapSlices h).modHalf h fun x => { x with scrubPass := d.now }
    let d := { d with
      retire := { entries := takeEffect (fun e => field e.toNat 0 2 == 3) d.retire.entries }
      mem := { bytes := d.mem.bytes.filter fun p => decide (p.1 < 0x016800000000)
               syn := d.mem.syn.filter fun p => decide (16 * p.1 < 0x016800000000) } }
    let d := d.planBridge r
    let d := d.each [0, 1] fun h d =>
      ((d.setBit (stoReg h 0) 0).setField (stoReg h 0) 1 5 (d.slicesLeft h)).setField (stoReg h 0) 6 5 (d.fieldOf (brgReg 0) 6 5)
    if !d.bridgeEnough then d.failStart 6
    else if r.baseBad then d.failStart 7
    else
      let d := if d.start.brgShort then d.degraded 20 12 5 else d
      let d := d.trainLpd (r.badLpd ++ if d.fullStart then r.badLpdBits else [])
      let d := d.each r.badPhases Device.testPhase
      d.each (List.range 20) Device.setPhases

/-! ### Phase 5: towers -/

/-- Whether the sensors of a tower show every layer below its throttle level less hysteresis (R491, R507). -/
def Device.coolTower (d : Device) (t : Nat) : Bool :=
  (List.range 15).all fun l =>
    match (d.tower t).layerVal l with
    | some v => decide (v < throttleLevel (decide (2 ≤ l)) - hysteresis (decide (2 ≤ l)))
    | none => false

/-- The refresh window that the temperature of a layer M1 to M13 asks for as its tower lights (R246), by index ℓ of R261. -/
def Tower.firstWindow (x : Tower) (l : Nat) : Nat :=
  match x.layerVal (l + 2) with
  | some v => nextWindow 0 v
  | none => 0

/-- A tower lights (R246, R253, R256, R456, R486): channels trained, VCODE 32, its model started, its refresh windows by the layers'
temperatures, power-down on M9 to M12 of DN5-400L, and its first scrub pass begun (R302). -/
def Device.lightTower (t : Nat) (d : Device) : Device :=
  let d := d.modTower t fun x =>
    { x with
      lit := true, fenced := false, lowRun := 0, highRun := 0, okRun := 0, scrubPass := d.now
      window := (List.range 13).foldl
        (fun m l => mset 0 m l (if d.fuses.variant = 2 ∧ 8 ≤ l ∧ l < 12 then 3 else x.firstWindow l)) [] }
  let d := (d.setField (twrReg t 0x303000) 0 6 32).setField (twrReg t 0x302008) 3 1 0
  let d := d.each (List.range 24) fun c d =>
    (d.setField (corReg (24 * t + c) 0x1008) 0 8 0xFF).setField (corReg (24 * t + c) 0x1008) 17 4 (variantLayers d.fuses.variant)
  d.startModel t

/-- Whether a bank is to be remapped (R250): found bad now, recorded as remapped, or retired. -/
def Device.bankDue (d : Device) (bad : List (Nat × Nat × Nat)) (k ch b : Nat) : Bool :=
  bad.contains (k, ch, b) || (d.recordedTargets 2).any (fun v => v % 2 ^ 19 == bankTarget k ch b) ||
    d.retire.entries.any fun e => field e.toNat 0 2 == 2 && field e.toNat 8 32 == bankTarget k ch b

/-- Whether a visible bank is remapped. -/
def Device.isRemapped (d : Device) (k ch b : Nat) : Bool := (d.spareOf k ch b).isSome

/-- A visible bank remapped to a spare (R250): its retirement takes effect, and the spare in use is recorded unless it is. -/
def Device.remapTo (d : Device) (k ch b s : Nat) : Device :=
  let due := fun (e : BitVec 64) => field e.toNat 0 2 == 2 && field e.toNat 8 32 == bankTarget k ch b
  let d := d.remap k ch b s
  ({ d with retire := { entries := takeEffect due d.retire.entries } } : Device).foundDefect 2 (bankTarget k ch b + s * 2 ^ 19)

/-- The spare that the last record of a visible bank names (R517, kind 2). -/
def Device.namedSpare (d : Device) (k ch b : Nat) : Option Nat :=
  ((d.recordedTargets 2).reverse.find? fun v => v % 2 ^ 19 == bankTarget k ch b).map fun v => v / 2 ^ 19 % 4

/-- The banks of a channel that are due, in ascending order: one that a record names a spare for keeps that spare while it is usable (R560), and
every other takes the lowest free (R250). -/
def Device.remapBanks (bad : List (Nat × Nat × Nat)) (k ch : Nat) (d : Device) : Device :=
  let due := (List.range 48).filter (d.bankDue bad k ch)
  let d := d.each due fun b d =>
    match d.namedSpare k ch b with
    | some s => if d.spareFree k ch s then d.remapTo k ch b s else d
    | none => d
  d.each due fun b d =>
    if d.isRemapped k ch b then d
    else
      match d.freeSpare k ch with
      | some s => d.remapTo k ch b s
      | none => { d with start := { d.start with noSpare := true } }

/-- A failing row of a bank that stays in service: its page is retired (R250, R517). -/
def Device.retireRow (x : Nat × Nat × Nat × Nat) (d : Device) : Device :=
  if d.isRemapped x.1 x.2.1 x.2.2.1 then d
  else
    let a := sliceBase x.1 + dramOffset { ch := x.2.1, bank := x.2.2.1, row := x.2.2.2, col := 0 }
    (d.foundDefect 4 (a / 65536)).addEntry (BitVec.ofNat 64 (1 + 8 + a / 65536 * 2 ^ 8))

/-- The splices of a group that the defect map records (R517, R518): connection and spare. -/
def Device.recordedSplices (d : Device) (t g : Nat) : List (Nat × Nat) :=
  ((d.recordedTargets 6).filter fun v => v % 2 ^ 21 == t + g * 2 ^ 5).map fun v => (v / 2 ^ 21 % 2 ^ 6, v / 2 ^ 27 % 2)

/-- The connections of a tested group that do not conduct (R367). -/
def Device.deadOf (d : Device) (r : GroupReport) : List Nat :=
  (r.failing ++ (d.recordedSplices r.tower r.group).map (·.1)).foldl (fun l x => insertAsc x l) []

/-- A tested group (R367): each failing connection that no conducting spare replaces is spliced to a free spare of the group. -/
def Device.spliceGroup (r : GroupReport) (d : Device) : Device :=
  let bad := d.deadOf r
  if 2 < bad.length then d
  else
    d.each (bad.filter (· < 32)) fun c d =>
      let rs := (d.recordedSplices r.tower r.group).filter fun x => !bad.contains (32 + x.2)
      if rs.any fun x => x.1 == c then d
      else
        match [0, 1].find? fun s => !bad.contains (32 + s) && !rs.any fun x => x.2 == s with
        | some s => d.foundRepair 0 r.tower 0 6 (r.tower + r.group * 2 ^ 5 + c * 2 ^ 21 + s * 2 ^ 27)
        | none => d

/-- The groups that cannot be repaired (R367). -/
def Device.lostGroups (d : Device) (l : List GroupReport) : List GroupReport := l.filter fun r => decide (2 < (d.deadOf r).length)

/-- The towers that a lost group leaves dark (R367): not one that serves a core position. -/
def darkGroups (l : List GroupReport) : List Nat :=
  l.filterMap fun r =>
    match r.use with
    | .position _ => none
    | _ => some r.tower.val

/-- A lost group of a core position: the position fails (R367, R506). -/
def Device.losePosition (r : GroupReport) (d : Device) : Device :=
  match r.use with
  | .position p => d.foundDefect 11 (positionTarget r.tower p)
  | _ => d

/-- Spare connections in use in a tower (R387). -/
def Device.splices (d : Device) (t : Nat) : Nat :=
  (((d.recordedTargets 6).filter fun v => v % 2 ^ 5 == t).map fun v => v % 2 ^ 27).eraseDups.length

/-- A sensor that does not pass its self test is suspect: of a tower, of a half's base die, else of the lid. -/
def Device.suspectSensor (p : Nat × Nat) (d : Device) : Device :=
  let d := d.foundDefect 10 (p.1 + p.2 * 2 ^ 8)
  if p.1 < 20 then d.modTower p.1 fun x => { x with suspect := insertAsc p.2 x.suspect }
  else if p.1 = 20 then d.modHalf (p.2 / 64) fun x => { x with suspect := insertAsc p.2 x.suspect }
  else { d with thm := { d.thm with lidSuspect := insertAsc p.2 d.thm.lidSuspect } }

/-- The sensors of a dark tower that read more than 3 °C from the median of their layer (R462). -/
def Device.retestFails (d : Device) (t : Nat) : List Nat :=
  let x := d.tower t
  (List.range 15).flatMap fun l =>
    let here := (layerSensors l).filter fun i => x.reading i != noReading
    match median2 (here.map x.reading) with
    | none => []
    | some m => here.filter fun i => decide (48 < (2 * x.reading i - m).natAbs)

/-- Sensors tested again while their tower is dark (R462): one far from its layer is failed. -/
def Device.retestSensors (t : Nat) (d : Device) : Device := d.each (d.retestFails t) fun i d => d.suspectSensor (t, i)

/-- The towers that go on are lit and tuned, the others shown dark; those held back for heat are noted. -/
def Device.lightTowers (r : PhaseReport) (lit hot : List Nat) (d : Device) : Device :=
  let d := { d with start := { d.start with heldDark := hot } }
  let d := d.each ((List.range 20).filter fun t => !lit.contains t) fun t d => d.setField (twrReg t 0x302008) 3 1 1
  d.each lit fun t d => (d.lightTower t).tuneTower t r.eyes

/-- The failing rows that the DRAM self-test of the lit towers finds in banks below a number (R500). -/
def Device.failingRows (d : Device) (lit : List Nat) (banks : Nat) (l : List (Nat × Nat × Nat × Nat)) : List (Nat × Nat × Nat × Nat) :=
  l.eraseDups.filter fun x => lit.contains (towerOf x.1) && decide (x.2.1 < 8) && decide (x.2.2.1 < banks) && d.testsRow x.2.2.2

/-- The banks with more than 4 failing rows (R250): site, channel, bank. -/
def worstBanks (l : List (Nat × Nat × Nat × Nat)) : List (Nat × Nat × Nat) :=
  let b := l.map fun x => (x.1, x.2.1, x.2.2.1)
  b.eraseDups.filter fun x => decide (4 < (b.filter (· == x)).length)

/-- The DRAM of the lit towers: bad spares, banks remapped, rows retired; the towers' memory starts empty. -/
def Device.startMemories (r : PhaseReport) (lit : List Nat) (d : Device) : Device :=
  let d := d.each (d.failingRows lit 4 r.badSpares) fun p d =>
    let d := d.foundDefect 3 (bankTarget p.1 p.2.1 0 + p.2.2.1 * 2 ^ 19)
    { d with start := { d.start with spares := insertAsc (32 * p.1 + 4 * p.2.1 + p.2.2.1) d.start.spares } }
  let rows := d.failingRows lit 48 r.badRows
  let d := d.each (lit.flatMap fun t => (List.range 24).map (24 * t + ·)) fun k d =>
    d.each (List.range 8) fun ch d => d.remapBanks (worstBanks rows) k ch
  let d := d.each rows Device.retireRow
  { d with mem := { bytes := d.mem.bytes.filter fun p => decide (0x016800000000 ≤ p.1)
                    syn := d.mem.syn.filter fun p => decide (0x016800000000 ≤ 16 * p.1) } }

/-- Whether every attempt to receive an image gave another digest than phase 3 computed (R504, R505): the first, and two retries. -/
def digestLost (want : List Byte) (tries : List (List Byte)) : Bool := decide (3 ≤ tries.length) && (tries.take 3).all (· != want)

/-- The towers whose supervisor could not fetch its image (R504). -/
def Device.lostSupervisors (d : Device) (r : PhaseReport) : List Nat :=
  (r.supervisors.filter fun x => digestLost (mget [] d.sec.meas 1) x.2).map (·.1.val)

/-- The towers that no cause of R19, R253, R367 or R504 leaves dark (R507). -/
def Device.startable (d : Device) (r : PhaseReport) (lost : List GroupReport) : List Nat :=
  (List.range 20).filter fun t => !r.darkTowers.contains t && !(darkGroups lost).contains t && !(d.lostSupervisors r).contains t

/-- The sensors of the towers as phase 5 reads and tests them (R491, R500). -/
def Device.towerReadings (r : PhaseReport) (d : Device) : Device :=
  let d := d.takeReadings { r.sense with base := [], lid := [], press := none, board := none }
  let d := (d.each r.badSensors Device.suspectSensor).each (List.range 20) Device.retestSensors
  d.each (List.range 20) Device.convertTower

/-- The stack connections as phase 5 tests them: the groups spliced, the positions that lost a group, and the splices counted (R366, R500). -/
def Device.towerSplices (r : PhaseReport) (d : Device) : Device :=
  let d := (d.each r.groups Device.spliceGroup).each (d.lostGroups r.groups) Device.losePosition
  d.each (List.range 20) fun t d => d.setField (twrReg t 0x302000) 0 12 (d.splices t)

/-- The towers lit and their memories made ready (R254, R498); with a half that has none the start fails with code 8 (R507). -/
def Device.lightStart (r : PhaseReport) (lost : List GroupReport) (d : Device) : Device :=
  let live := d.startable r lost
  let lit := live.filter d.coolTower
  let d := (d.lightTowers r lit (live.filter fun t => !d.coolTower t)).startMemories r lit
  if (lit.filter fun t => decide (t < 10)).isEmpty || (lit.filter fun t => decide (10 ≤ t)).isEmpty then d.failStart 8 else d

/-- Phase 5 (R498): sensors, splices, towers lit, crossings tuned, banks remapped, DRAM at zero (R254). Each tower's sensors are read before it
is lit, and one still at or above its shutdown level trips again (R491). -/
def Device.phase5 (r : PhaseReport) (d : Device) : Device :=
  (d.towerReadings r).tripOr fun d => (d.towerSplices r).lightStart r (d.lostGroups r.groups)

/-! ### Phases 6 and 7 -/

/-- The core image placed in each half's store (R505). -/
def Device.placeImage (d : Device) : Device :=
  let b := d.flashRead d.start.core.1 d.start.core.2
  d.each [0, 1] fun h d => d.modHalf h fun x => { x with image := b }

/-- The positions whose copy of the core image never matched (R505): 26 t + p. -/
def Device.lostCopies (d : Device) (r : PhaseReport) : List Nat :=
  (r.copies.filter fun x => digestLost (mget [] d.sec.meas 2) x.2).map (·.1)

/-- Phase 6 (R498, R505, R506): the core image placed and multicast to every position; positions that failed are recorded, and the maps of the
lit towers formed. -/
def Device.phase6 (r : PhaseReport) (d : Device) : Device :=
  let d := d.placeImage
  let lost := d.lostCopies r
  let d := d.each (List.range 20) fun t d => d.modTower t fun x => { x with loaded := (List.range 26).filter fun p => !lost.contains (26 * t + p) }
  let d := d.each (lost ++ r.badPositions) fun v d => if v < 520 then d.foundDefect 11 (positionTarget (v / 26) (v % 26)) else d
  d.each ((List.range 20).filter fun t => (d.tower t).lit) Device.formMap

/-- A fabric port in phase 7 (R396, R397, R420): it trains when its partner has answered, and else goes on waiting (log entry 155). -/
def Device.startPort (p : Nat) (m : Option (List Nat × Nat)) (d : Device) : Device :=
  if d.portRole p = 0 then d.setField (portReg p) 0 3 0
  else
    match m with
    | none => d.setField (portReg p) 0 3 2
    | some x =>
      let d := d.trainPort 0 p x.1 x.2
      if d.portRole p = 1 ∧ d.portState p = 4 then d.degraded (portLog p) 13 5 else d

/-- Ready (R499): Request Retry Status ends with the readiness message, and READY rises. -/
def Device.makeReady (d : Device) : Device :=
  let d := { d with pins := { d.pins with ready := true } }
  (d.setBit (svcReg 0xB000) 3).emit .readinessMessage

/-- Measurement 5 (R535): the committed records in force, then this start's appends; those dropped for want of room are none (R518). -/
def Device.measureDefects (d : Device) : Device := d.measure 5 (d.start.records.flatten ++ d.fitting.flatten)

/-- Discovery begins (R409, R499) with a beacon on every port (R408); a part without a partner is its own timing master (R318, R320). -/
def Device.beginDiscovery (d : Device) : Device :=
  let d := ({ d with fab := { d.fab with electing := true } } : Device).findCandidate
  let d := d.each d.upPorts Device.beaconOut
  if d.joinPorts.isEmpty then ((d.setField (gafReg 0x18) 1 2 3).setField (gafReg 0x18) 3 1 0).setReg (gafReg 0x60) d.fab.identity else d

/-- Phase 7 (R498, R499, R518): fabric, defect-map append, dailies, measurements, identity key, ready. The store holds zero again where the core
image was placed (R202). -/
def Device.phase7 (r : PhaseReport) (d : Device) : Device :=
  let d := d.each (List.range 16) fun p d => d.startPort p ((r.ports.find? fun x => x.1 == p).map (·.2))
  let d := d.each [0, 1] fun h d => d.modHalf h fun x => { x with image := [] }
  let d := d.measureDefects
  let entry := d.dailiesEntry 0 0 d.fitting.length r.durations
  let d := if d.appends.isEmpty then d else d.offerWrite (.defect d.appends)
  let d := d.offerWrite (.dailies entry)
  d.deriveKey.beginDiscovery.makeReady

/-! ### Boundary scan and start-up -/

/-- Whether a die takes part in a shift: the west base die always does (R538, R544). -/
def Test.has (t : Test) (i : Nat) : Bool := i == 0 || t.included.contains i

/-- The chain position of a base die (R539). -/
def basePos (east : Bool) : Nat := if east then 151 else 0

/-- Whether EXTEST holds the lands of a base die: before phase 3 begins (R543). -/
def Device.landsTaken (d : Device) (east : Bool) : Bool :=
  d.tst.has (basePos east) && mget 2 d.tst.ir (basePos east) == 0 && decide (d.start.phaseDone < 3)

/-! ### A phase -/

/-- The work of a phase (R498). -/
def Device.phaseWork (r : PhaseReport) (d : Device) : Device :=
  match r.phase with
  | 2 => d.phase2 r
  | 3 => d.phase3 r
  | 4 => d.phase4 r
  | 5 => d.phase5 r
  | 6 => d.phase6 r
  | 7 => d.phase7 r
  | _ => d

/-- Whether a start-up phase is due (R498, R543): both halves have ended the one before, the start has not failed, and EXTEST does not
hold start-up at the end of phase 2. -/
def Device.phaseDue (d : Device) (p : Nat) : Bool :=
  d.start.phaseDone + 1 == p && !(p == 3 && (mget 2 d.tst.ir 0 == 0 || mget 2 d.tst.ir 151 == 0)) && !d.bitOf (svcReg 0xB000) 5 && !d.bitOf (svcReg 0xD000) 2

/-- START_UP_PHASE (R498). -/
def Device.startUpPhase (r : PhaseReport) (d : Device) : Device :=
  if d.phaseDue r.phase then
    let d := (d.setField (svcReg 0xB000) 0 3 r.phase).phaseWork r
    { d with start := { d.start with phaseDone := r.phase } }
  else d

/-- START_UP_PHASE (R498). -/
def execStartUpPhase (report : PhaseReport) (s : State) : Host.Outcome State Fault Refusal :=
  s.run (Device.onlyIf report.wf (Device.startUpPhase report))

/-- DEFERRED_TOWER_LIGHT (R507): a tower held dark is lit once it has cooled, outside a take; it joins the map at the next REEL_LOAD. -/
def Device.deferredLight (t : Nat) (d : Device) : Device :=
  if d.start.heldDark.contains t && !(d.tower t).lit && !d.inTake && decide (6 ≤ d.start.phaseDone) && d.coolTower t &&
      !d.bitOf (svcReg 0xB000) 5 then
    let d := ((d.lightTower t).tuneTower t []).modTower t fun x => { x with loaded := List.range 26 }
    d.each (List.range 24) fun c d => d.each (List.range 8) fun ch d => d.remapBanks [] (24 * t + c) ch
  else d

/-- DEFERRED_TOWER_LIGHT (R507). -/
def execDeferredTowerLight (t : Fin 20) (s : State) : Host.Outcome State Fault Refusal := s.run (Device.deferredLight t)

end Sys2Proof.Machine
end

