-- ==== Sys2Proof/Machine/Power.lean ====
section
/-! DEFINITION. Power and reset (R482 to R491): power-good, resets and their causes, loss and return of power; and the regulators and
input monitors (R485 to R489). -/
namespace Sys2Proof.Machine

open Sys2Proof

/-! ### Resets -/

/-- A rollback step that a reset or a loss of power cuts short (R530): which of its fuses have blown is free (log entry 5). -/
def Device.tearFuse (d : Device) : Device :=
  if d.advBusy then
    let x := d.draw
    let m := mget 0 d.fuses.steps d.sec.advStep ||| x.1.setWidth 3
    { x.2 with fuses := { d.fuses with steps := mset 0 d.fuses.steps d.sec.advStep m } }
  else d

/-- The part as a reset leaves it (R490, R492): fuses, flash and the levels of the input pins stay; a slate write is cut short (R516);
`cause` is SVC_RESET_CAUSE. -/
def Device.resetTo (cause : Nat) (d : Device) : Device :=
  let d := d.tearWrite.tearFuse
  let r := Device.afterReset d.fuses d.flash d.hostMem
  let pins := { d.pins with
    ready := false, faultN := true, thermtripN := true, releaseDue := false, resetDue := false, inReset := true }
  ({ r with pins := pins, kept := d.kept, out := d.out, freeCtr := d.freeCtr } : Device).setField (svcReg 0xA010) 0 4 cause

/-- Whether the internal reset release may be scheduled (R482). -/
def Pins.mayRelease (p : Pins) : Bool := p.powered && p.pwrgd && p.resetN && p.inReset

/-- The release is scheduled when PWRGD_IN and RESET_N are both high (R482). -/
def Device.scheduleRelease (d : Device) : Device := { d with pins := { d.pins with releaseDue := d.pins.mayRelease } }

/-- POWER_GOOD (R482): PWRGD_IN rises; with RESET_N high the internal reset release is scheduled. -/
def Device.powerGood (d : Device) : Device :=
  if d.pins.pwrgd then d else ({ d with pins := { d.pins with pwrgd := true } } : Device).scheduleRelease

/-- POWER_GOOD (R482). -/
def execPowerGood (s : State) : Host.Outcome State Fault Refusal := s.always Device.powerGood

/-- RESET_N_RELEASE (R482): RESET_N rises; with PWRGD_IN high the internal reset release is scheduled. -/
def Device.resetNRelease (d : Device) : Device :=
  if d.pins.resetN then d else ({ d with pins := { d.pins with resetN := true } } : Device).scheduleRelease

/-- RESET_N_RELEASE (R482). -/
def execResetNRelease (s : State) : Host.Outcome State Fault Refusal := s.always Device.resetNRelease

/-- RESET_RELEASE (R482): the internal reset is released; phase 1 of start-up is reached. -/
def Device.resetRelease (d : Device) : Device :=
  if d.pins.releaseDue && d.pins.mayRelease then { d with pins := { d.pins with releaseDue := false, inReset := false } } else d

/-- RESET_RELEASE (R482). -/
def execResetRelease (s : State) : Host.Outcome State Fault Refusal := s.always Device.resetRelease

/-- COLD_RESET (R490): PWRGD_IN falls, and everything inside the part is reset. -/
def Device.coldReset (d : Device) : Device := (({ d with pins := { d.pins with pwrgd := false } } : Device)).resetTo 0

/-- COLD_RESET (R490). -/
def execColdReset (s : State) : Host.Outcome State Fault Refusal := s.always Device.coldReset

/-- SVC_RESET_CAUSE after a device reset of a cause (R496): with TRIPPED and FATAL as they stood. -/
def Device.causeOf (d : Device) (cause : Nat) : Nat :=
  cause + (if d.pins.thermtripN then 0 else 4) + (if d.bitOf (svcReg 0xD000) 2 then 8 else 0)

/-- DEVICE_RESET (R490, R491): the reset that SVC_RESET has scheduled, after which the release follows by itself; else RESET_N has
fallen, which holds the part in reset until it rises. With PWRGD_IN low the part is in a cold reset already. -/
def Device.deviceReset (d : Device) : Device :=
  if d.pins.resetDue then (d.resetTo (d.causeOf 2)).scheduleRelease
  else if !d.pins.pwrgd || !d.pins.powered then { d with pins := { d.pins with resetN := false, releaseDue := false } }
  else (({ d with pins := { d.pins with resetN := false } } : Device)).resetTo (d.causeOf 1)

/-- DEVICE_RESET (R490). -/
def execDeviceReset (s : State) : Host.Outcome State Fault Refusal := s.always Device.deviceReset

/-- A write of SVC_RESET (R490): KEY 0xD505 schedules a device reset; other values are ignored. -/
def Device.svcResetKey (key : Nat) (d : Device) : Device :=
  if key = 0xD505 then { d with pins := { d.pins with resetDue := true } } else d

/-- SVC_RESET (R490). -/
def execSvcReset (key : BitVec 16) (s : State) : Host.Outcome State Fault Refusal := s.run (Device.svcResetKey key.toNat)

/-- POWER_LOSS (R484): every internal state is lost, and the outputs take their unpowered states. -/
def Device.powerLoss (d : Device) : Device := ({ d with pins := { d.pins with powered := false } } : Device).resetTo 0

/-- POWER_LOSS (R484). -/
def execPowerLoss (s : State) : Host.Outcome State Fault Refusal := s.always Device.powerLoss

/-- POWER_RETURN (R484): VIN_CORE is within limits again, and the part restarts at phase 1, the internal reset release of R482. -/
def Device.powerReturn (d : Device) : Device :=
  if d.pins.powered then d else ({ d with pins := { d.pins with powered := true } } : Device).scheduleRelease

/-- POWER_RETURN (R484). -/
def execPowerReturn (s : State) : Host.Outcome State Fault Refusal := s.always Device.powerReturn

/-! ### Pins -/

/-- The pin groups of the table of R492 that behave alike. -/
inductive PinGroup where
  | fabricTx | fabricRx | pcieTx | pcieRx | refclk | smbus | xspi | lpReset | lpddr | inputs | tdo | openDrain | ready | boardSense
  deriving DecidableEq, Repr

/-- What a pin group does (R492): `open'` is high impedance or released, `unterminated` a receiver without terminations, `idle` electrical
idle or no sensing, `driven` in service or at the level that `Pins` holds, `scanned` as the boundary register of its base die has it (R543). -/
inductive PinLevel where
  | open' | unterminated | idle | input | low | driven | scanned
  deriving DecidableEq, Repr

/-- The level of a pin group in reset (R492); LP_RESET_N is driven low only where the board supplies VDDQ_LP (R478). -/
def PinGroup.inReset : PinGroup → PinLevel
  | .fabricTx => .idle
  | .fabricRx => .unterminated
  | .pcieTx => .idle
  | .pcieRx => .unterminated
  | .refclk => .input
  | .smbus => .open'
  | .xspi => .open'
  | .lpReset => if Config.vddqLp then .low else .open'
  | .lpddr => .open'
  | .inputs => .input
  | .tdo => .open'
  | .openDrain => .open'
  | .ready => .low
  | .boardSense => .idle

/-- The level of a pin group of an unpowered part (R492): receivers unterminated, the rest without a path to any rail. -/
def PinGroup.unpowered : PinGroup → PinLevel
  | .fabricRx => .unterminated
  | .pcieRx => .unterminated
  | .inputs => .input
  | _ => .open'

/-- Whether EXTEST drives a pin group (R542, R543): the lands of capacity memory at both base dies, xSPI, SMBus and the outputs at the west's. -/
def Device.scans (d : Device) : PinGroup → Bool
  | .lpReset => d.landsTaken false || d.landsTaken true
  | .lpddr => d.landsTaken false || d.landsTaken true
  | .smbus => d.landsTaken false
  | .xspi => d.landsTaken false
  | .openDrain => d.landsTaken false
  | .ready => d.landsTaken false
  | _ => false

/-- What a pin group does (R492): fabric lanes in electrical idle (R336, R466, R521) apart, it is in service once the part is powered and out
of reset, unless EXTEST drives it. -/
def Device.pinLevel (d : Device) (g : PinGroup) : PinLevel :=
  if !d.pins.powered then g.unpowered else if d.pins.inReset then g.inReset else if d.scans g then .scanned else .driven

/-- The level of the west base die's land THERMTRIP_N, FAULT_N or READY, number 2, 3 or 4 of those behind its ports: the part's own, or while
EXTEST drives it that of its cells, released to the board's resistor where its enable cell is 0 (R492, R542, R543). -/
def Device.landLevel (d : Device) (k : Nat) : Bool :=
  let own := if k = 2 then d.pins.thermtripN else if k = 3 then d.pins.faultN else d.pins.ready
  if d.landsTaken false then
    let b := mget [] d.tst.boundary 0
    if b.getD (895 + 2 * k) false then b.getD (894 + 2 * k) false else k != 4
  else own

/-! ### Regulators -/

/-- The phases of a tower in service (R485): the lowest 16 usable. -/
def Tower.inService (x : Tower) : List Nat := ((List.range 18).filter fun p => !x.badPhases.contains p).take 16

/-- PHASE_FAILURE (R485): the phase is taken out of service; a spare takes its place, or the tower falls below 16 phases. -/
def Device.phaseFailure (t p : Nat) (d : Device) : Device :=
  let old := (d.tower t).inService
  if (d.tower t).badPhases.contains p then d
  else
    let d := d.modTower t fun x => { x with badPhases := insertAsc p x.badPhases }
    let use := (d.tower t).inService
    let r := twrReg t 0x303000
    let d := (d.setField r 8 5 use.length).setField r 13 2 (use.filter fun q => decide (16 ≤ q)).length
    let d := if d.recorded 9 (phaseTarget t p) then d else d.note 9 2 (phaseTarget t p)
    if !old.contains p then d
    else if use.length = 16 then
      (d.setBit (svcReg 0xA008) 1).log (20 + halfOf t) 0x09 19 0 0 (phaseTarget t p + 9 * 2 ^ 56)
    else
      let d := { d with start := { d.start with capped := true } }
      (d.setBit (svcReg 0xA008) 2).degraded (20 + halfOf t) 19 (3 + t * 2 ^ 8)

/-- PHASE_FAILURE (R485). -/
def execPhaseFailure (t : Fin 20) (phase : Fin 18) (s : State) : Host.Outcome State Fault Refusal := s.run (Device.phaseFailure t phase)

/-- RAISE and LOWER of a tower (R486, R511). -/
def Device.cpmRaise (d : Device) (t : Nat) : Nat := leAt d.start.cal (0xC000 + 4 * t) 2
/-- LOWER. -/
def Device.cpmLower (d : Device) (t : Nat) : Nat := leAt d.start.cal (0xC002 + 4 * t) 2

/-- A pinned tower (R487). -/
def Device.pin (t : Nat) (d : Device) : Device :=
  ((d.setBit (twrReg t 0x303000) 15).setBit (svcReg 0xA008) 3).degraded (20 + halfOf t) 19 (4 + t * 2 ^ 8)

/-- A margin below RAISE (R486, R487): VCODE rises, or at 32 the tenth such sample pins the tower. -/
def Device.marginLow (t : Nat) (d : Device) : Device :=
  let r := twrReg t 0x303000
  let v := d.fieldOf r 0 6
  if v < 32 then (d.setField r 0 6 (v + 1)).modTower t fun x => { x with lowRun := 0, highRun := 0, okRun := 0 }
  else
    let n := min 10 ((d.tower t).lowRun + 1)
    let d := (d.setBit r 24).modTower t fun x => { x with lowRun := n, highRun := 0, okRun := 0 }
    if n = 10 ∧ ¬ d.bitOf r 15 then d.pin t else d

/-- A margin above LOWER (R486): the hundredth such sample lowers VCODE. -/
def Device.marginHigh (t : Nat) (d : Device) : Device :=
  let r := twrReg t 0x303000
  let n := (d.tower t).highRun + 1
  let d := d.modTower t fun x => { x with highRun := if n = 100 then 0 else n }
  if n = 100 then d.setField r 0 6 (d.fieldOf r 0 6 - 1) else d

/-- A pinned tower whose margin stays above RAISE for 100 samples, 1 ms, is released (R487). -/
def Device.marginOk (t : Nat) (d : Device) : Device :=
  let r := twrReg t 0x303000
  if d.bitOf r 15 then
    let n := (d.tower t).okRun + 1
    let d := d.modTower t fun x => { x with okRun := if n = 100 then 0 else n }
    if n = 100 then d.setField r 15 1 0 else d
  else d

/-- CPM_SAMPLE (R486, R487, R497): the least margin of a lit tower's monitors. -/
def Device.cpmSample (t margin : Nat) (d : Device) : Device :=
  if !d.up t then d
  else
    let d := d.setField (twrReg t 0x303000) 16 8 margin
    if margin < d.cpmRaise t then d.marginLow t
    else
      let d := d.modTower t fun x => { x with lowRun := 0 }
      let d := if d.cpmLower t < margin then d.marginHigh t else d.modTower t fun x => { x with highRun := 0 }
      if d.cpmRaise t < margin then d.marginOk t else d.modTower t fun x => { x with okRun := 0 }

/-- CPM_SAMPLE (R486). -/
def execCpmSample (t : Fin 20) (margin : BitVec 8) (s : State) : Host.Outcome State Fault Refusal :=
  s.inTower (Device.cpmSample t margin.toNat)

/-- Whether a frame follows that an overcurrent can darken: a take runs or is about to start. -/
def Device.frameFollows (d : Device) : Bool := d.take.state == 2 || d.take.starting || d.cont.waiting

/-- An overcurrent (R488): OVERCURRENT, the next frame dark with reason PACKAGE, and an event whose entry the rule does not lay down:
a NOTICE of the gaffer with a free DETAIL (log entry 34). -/
def Device.overcurrent (d : Device) : Device :=
  let x := d.draw
  let d := ((x.2.setBit (svcReg 0xA008) 0).modTake fun t => { t with overcurrent := d.frameFollows }).log x.2.mainLog 0x0B 20 0 0 x.1.toNat
  if d.take.eastOutcome then d.vote false else d

/-- INPUT_MONITOR_SAMPLE (R488, R489, R496): the readings of the two monitors, voltage and current of each. Their energies of 1 µs are
summed; CURR is their current together and VOLT the mean of their voltages (log entry 173); the peak of the frame is kept, and the samples
above VIN_A are counted. While the current stays above it past the twentieth, the following frame runs dark too. -/
def Device.inputSample (west east : Nat × Nat) (d : Device) : Device :=
  let mv := (west.1 + east.1) / 2
  let deciAmp := min 0xFFFF (west.2 + east.2)
  let d := (d.setField (svcReg 0xA000) 0 16 mv).setField (svcReg 0xA000) 16 16 deciAmp
  let d := d.modTake fun t => { t with inputSum := t.inputSum + west.1 * west.2 + east.1 * east.2 }
  let above := decide (10 * d.vinA < deciAmp)
  let n := if above then min 21 (d.take.overSamples + 1) else 0
  let d := d.modTake fun t =>
    { t with peak := max t.peak deciAmp, overSamples := n, overcurrent := t.overcurrent || (decide (20 < n) && d.frameFollows) }
  if n = 20 then d.overcurrent else d

/-- INPUT_MONITOR_SAMPLE (R488). -/
def execInputMonitorSample (mv deciAmp : BitVec 16 × BitVec 16) (s : State) : Host.Outcome State Fault Refusal :=
  s.run (Device.inputSample (mv.1.toNat, deciAmp.1.toNat) (mv.2.toNat, deciAmp.2.toNat))

end Sys2Proof.Machine
end

