-- ==== Sys2Proof/Machine/Host.lean ====
section
/-! DEFINITION. The host port (R424 to R438): the link and configuration requests, reads and writes of device memory through BAR2,
doorbells, MSI-X, power states and function resets, and the DMA engines. -/
namespace Sys2Proof.Machine

open Sys2Proof

/-! ### The link and configuration space -/

/-- LINK_UP (R449). -/
def Device.linkUp (d : Device) : Bool := d.bitOf (hstReg 0) 11

/-- HOST_LINK_UP (R425, R449, R482): training ends; it begins once phase 2 has begun and PERST_N is high. -/
def Device.hostLinkUp (rate width : Nat) (d : Device) : Device :=
  if d.linkUp || !d.pins.perstN || decide (d.start.phaseDone < 2) || decide (6 < rate) || !(([1, 2, 4, 8, 16] : List Nat).contains width) then d
  else
    let d := (d.setField (hstReg 0) 0 4 rate).setField (hstReg 0) 4 5 width
    (d.setField (hstReg 0) 9 1 (if 5 ≤ rate then 1 else 0)).setBit (hstReg 0) 11

/-- HOST_LINK_UP (R425). -/
def execHostLinkUp (rate : BitVec 4) (width : BitVec 5) (s : State) : Host.Outcome State Fault Refusal :=
  s.run (Device.hostLinkUp rate.toNat width.toNat)

/-- Whether configuration requests complete (R425, R502): start-up has reached ready, or has failed. -/
def Device.cfgOpen (d : Device) : Bool := d.bitOf (svcReg 0xB000) 3 || d.bitOf (svcReg 0xB000) 5

/-- The function enters D3hot (R438): memory space closes, and the engines pause after their current descriptors. -/
def Device.enterD3 (d : Device) : Device :=
  if d.linkUp && !d.bitOf (hstReg 0) 10 then
    { d.setBit (hstReg 0) 10 with
      host := { d.host with engines := (List.range 8).foldl (fun m e => mmod DmaEngine.reset m e fun x => { x with paused := true }) d.host.engines } }
  else d

/-- The function returns to D0 (R438): engines resume, and pending vectors are sent. -/
def Device.enterD0 (d : Device) : Device :=
  if d.bitOf (hstReg 0) 10 then
    ({ d.setField (hstReg 0) 10 1 0 with
      host := { d.host with engines := (List.range 8).foldl (fun m e => mmod DmaEngine.reset m e fun x => { x with paused := false }) d.host.engines } } :
        Device).sendPending
  else d

/-- D3HOT_ENTRY (R438). -/
def execD3hotEntry (s : State) : Host.Outcome State Fault Refusal := s.run Device.enterD3
/-- D0_ENTRY (R438). -/
def execD0Entry (s : State) : Host.Outcome State Fault Refusal := s.run Device.enterD0

/-- The base address registers (R426): the dwords of BAR0, BAR2 and BAR4, with the size of each as a power of two, and whether it is
prefetchable. -/
def Device.bars (d : Device) : List (Nat × Nat × Bool) := [(4, 29, false), (6, d.host.bar2Log2, true), (8, 20, false)]

/-- The dwords that a configuration write stores (R424, R426): the six of the BARs, and the control of the PCI Express capability. -/
def cfgStored (dword : Nat) : Bool := (decide (4 ≤ dword) && decide (dword < 10)) || dword == Config.pcieDword + 2

/-- A write of a configuration register (R424, R426, R432, R438): MSI-X Enable and Function Mask, the power state, the BAR2 size, the
BARs, and the payload and read request sizes; the bits are those of PCI Express (PRESUMED; log entry 33). -/
def Device.cfgWrite (d : Device) (dword : Nat) (v : BitVec 32) : Device :=
  if dword = Config.msixDword then
    ({ d with host := { d.host with msixEnable := v.getLsbD 31, funcMask := v.getLsbD 30 } } : Device).sendPending
  else if dword = Config.pmDword then
    if field v.toNat 0 2 = 3 then d.enterD3 else if field v.toNat 0 2 = 0 then d.enterD0 else d
  else if dword = Config.rebarDword then
    let n := 20 + field v.toNat 8 6
    if 30 ≤ n ∧ n ≤ 41 then { d with host := { d.host with bar2Log2 := n } } else d
  else if cfgStored dword then { d with host := { d.host with cfg := mset 0 d.host.cfg dword v } }
  else d

/-- A BAR as read (R426): its address bits above its size, and in the lower dword its type, a 64-bit memory BAR, prefetchable or not. -/
def Device.barRead (d : Device) (x : Nat × Nat × Bool) (upper : Bool) : Nat :=
  let a := (mget 0 d.host.cfg x.1).toNat + (mget 0 d.host.cfg (x.1 + 1)).toNat * 2 ^ 32
  let a := a / 2 ^ x.2.1 * 2 ^ x.2.1
  if upper then a / 2 ^ 32 else a % 2 ^ 32 + 4 + if x.2.2 then 8 else 0

/-- Fields put into a word one after another: place, width and value. -/
def withFields (w : Nat) (l : List (Nat × Nat × Nat)) : Nat := l.foldl (fun w f => withField w f.1 f.2.1 f.2.2) w

/-- The header of a capability: its ID and the dword of the next, 0 for the last. -/
def capHeader (id next : Nat) : List (Nat × Nat × Nat) := [(0, 8, id), (8, 8, 4 * next)]

/-- The header of an extended capability. -/
def extHeader (id next : Nat) : List (Nat × Nat × Nat) := [(0, 16, id), (20, 12, 4 * next)]

/-- Payload and read request sizes in force (R424): codes of 128 B up to 512 B, and up to 4,096 B. -/
def Device.sizeCodes (d : Device) : List (Nat × Nat × Nat) :=
  let v := (mget 0 d.host.cfg (Config.pcieDword + 2)).toNat
  [(5, 3, min 2 (field v 5 3)), (12, 3, min 5 (field v 12 3))]

/-- The fields of a configuration register that R424, R426, R432 and R438 give: type 0 header, no INTx; the capabilities for power management,
MSI-X and PCI Express, and as extended ones AER and Resizable BAR, in that order and no other (log entry 33). -/
def Device.cfgFields (d : Device) (dword : Nat) : List (Nat × Nat × Nat) :=
  if dword = 1 then [(19, 2, 2)]
  else if dword = 3 then [(16, 8, 0)]
  else if dword = 13 then [(0, 8, 4 * (Config.pmDword - 1))]
  else if dword = 15 then [(8, 8, 0)]
  else if dword + 1 = Config.pmDword then capHeader 0x01 Config.msixDword ++ [(25, 2, 0)]
  else if dword = Config.pmDword then [(0, 2, if d.bitOf (hstReg 0) 10 then 3 else 0), (3, 1, 1)]
  else if dword = Config.msixDword then
    capHeader 0x11 Config.pcieDword ++ [(16, 11, 2047), (30, 2, (if d.host.funcMask then 1 else 0) + (if d.host.msixEnable then 2 else 0))]
  else if dword = Config.msixDword + 1 then [(0, 32, 0x04010000)]
  else if dword = Config.msixDword + 2 then [(0, 32, 0x04018000)]
  else if dword = Config.pcieDword then capHeader 0x10 0
  else if dword = Config.pcieDword + 1 then [(0, 3, 2), (28, 1, 1)]
  else if dword = Config.pcieDword + 2 then (4, 1, 0) :: d.sizeCodes
  else if dword = Config.pcieDword + 3 then [(0, 4, 7), (4, 6, 16), (10, 2, 0)]
  else if dword = Config.pcieDword + 4 then [(16, 4, d.fieldOf (hstReg 0) 0 4 + 1), (20, 6, d.fieldOf (hstReg 0) 4 5)]
  else if dword = Config.pcieDword + 9 then [(11, 1, 0), (16, 2, 3)]
  else if dword = 64 then extHeader 0x01 (Config.rebarDword - 2)
  else if dword + 2 = Config.rebarDword then extHeader 0x15 0
  else if dword + 1 = Config.rebarDword then [(4, 28, 0xFFF * 2 ^ 10)]
  else if dword = Config.rebarDword then [(0, 3, 2), (5, 3, 1), (8, 6, d.host.bar2Log2 - 20)]
  else []

/-- A configuration register as read (R424, R426): the identifiers and class code, the BARs, and the fields of cfgFields; the rest is free. -/
def Device.cfgRead (d : Device) (dword : Nat) : BitVec 32 × Device :=
  let x := (Config.cfgValue dword d.freeCtr).toNat
  if dword = 0 then ((0xD505 : BitVec 16) ++ Config.vendorId, d)
  else if dword = 11 then (mget 0 d.host.cfg 11, d)
  else if dword = 2 then ((0x120000 : BitVec 24) ++ BitVec.ofNat 8 x, { d with freeCtr := d.freeCtr + 1 })
  else
    match d.bars.find? fun b => dword == b.1 || dword == b.1 + 1 with
    | some b => (BitVec.ofNat 32 (d.barRead b (dword != b.1)), d)
    | none => (BitVec.ofNat 32 (withFields x (d.cfgFields dword)), { d with freeCtr := d.freeCtr + 1 })

/-- CONFIG_REQUEST (R425, R502): Request Retry Status before ready, a completion after. -/
def Device.configRequest (r : ConfigReq) (d : Device) : Device :=
  if !d.linkUp then d
  else if !d.cfgOpen then d.emit .requestRetry
  else if r.write then (d.cfgWrite r.dword r.value).emit (.configCompletion none)
  else
    let x := d.cfgRead r.dword
    x.2.emit (.configCompletion (some x.1))

/-- CONFIG_REQUEST (R425). -/
def execConfigRequest (req : ConfigReq) (s : State) : Host.Outcome State Fault Refusal := s.run (Device.configRequest req)

/-! ### Memory through BAR2 -/

/-- Whether memory space is open to the host (R425, R438, R502). -/
def Device.hostOpen (d : Device) : Bool := d.linkUp && d.cfgOpen && !d.bitOf (hstReg 0) 10

/-- The device-local address of a BAR2 offset (R427): the bits of BASE below the BAR2 size are ignored. -/
def Device.bar2Addr (d : Device) (off : Nat) : Nat :=
  let n := 2 ^ d.host.bar2Log2
  d.fieldOf (hstReg 8) 30 18 * 2 ^ 30 / n * n + off

/-- A host read of device memory (R427 to R429): it completes when its lines have come. -/
def Device.readBar2 (d : Device) (off n : Nat) : Device :=
  let a := d.bar2Addr off
  if !d.legalRun a n then (d.hostAddrError a).emit .completerAbort
  else d.access 0 hostClient .hostRead a n false [] fun _ => false

/-- A host write of device memory (R427 to R429); with EP every codeword it touches is written in poisoned form. -/
def Device.writeBar2 (d : Device) (off : Nat) (bs : List Byte) (ep : Bool) : Device :=
  let a := d.bar2Addr off
  let d := if ep then (d.setBit (hstReg 0x10) 2).count (hstReg 0x28) 1 else d
  if !d.legalRun a bs.length then d.hostAddrError a
  else d.access 0 hostClient .hostWrite a bs.length true bs fun _ => ep

/-! ### Doorbells and MSI-X -/

/-- A write to BAR4 (R430): each doorbell it touches will increment once, after the posted writes received before. -/
def Device.doorbellWrite (off n : Nat) (d : Device) : Device :=
  if d.hostOpen && decide (0 < n ∧ off + n ≤ 0x100000) then
    { d with host := { d.host with
        ringing := d.host.ringing ++ (List.range ((off + n + 15) / 16 - off / 16)).map fun i => (off / 16 + i, d.accessNext) } }
  else d

/-- DOORBELL_WRITE (R430). -/
def execDoorbellWrite (off len : Nat) (s : State) : Host.Outcome State Fault Refusal := s.run (Device.doorbellWrite off len)

/-- Whether every posted write that the host port received before a doorbell write has been acknowledged (R430). -/
def Device.acked (d : Device) (r : Nat × Nat) : Bool := d.accesses.all fun x => x.use != .hostWrite || decide (r.2 ≤ x.id)

/-- DOORBELL_INCREMENT (R430): the doorbells touched increment, once the writes before are acknowledged. -/
def Device.doorbellIncrement (d : Device) : Device :=
  ({ d with host := { d.host with ringing := d.host.ringing.filter fun r => !d.acked r } } : Device).each (d.host.ringing.filter d.acked) fun r d =>
    d.ring r.1

/-- DOORBELL_INCREMENT (R430). -/
def execDoorbellIncrement (s : State) : Host.Outcome State Fault Refusal := s.run Device.doorbellIncrement

/-- The bytes of BAR4 as read (R430). -/
def Device.readBar4 (d : Device) (off n : Nat) : List Byte :=
  (List.range n).map fun i => (leBytes 16 (mget 0 d.host.doorbells ((off + i) / 16))).getD ((off + i) % 16) 0

/-- MSIX_UNMASK (R432): the Mask bit of a vector clears, and its pending message is sent. -/
def Device.unmask (v : Nat) (d : Device) : Device :=
  ({ d with host := { d.host with msix := mset msixReset d.host.msix v (d.msixEntry v &&& ~~~ msixReset) } } : Device).sendPending

/-- MSIX_UNMASK (R432). -/
def execMsixUnmask (vector : Fin 2048) (s : State) : Host.Outcome State Fault Refusal := s.run (Device.unmask vector)

/-! ### Function resets -/

/-- A mailbox command that a function reset interrupts completes with RESULT 6 ABORTED (R438). -/
def Device.abortMailbox (d : Device) : Device :=
  let busy := d.bitOf (hstReg 0x108) 0
  let op := d.mbx.op
  let d := d.each [0x108, 0x110, 0x118, 0x120, 0x128] fun o d => d.setReg (hstReg o) 0
  let d := { d with mbx := Mailbox.reset }
  if busy then ((d.setField (hstReg 0x108) 8 8 6).setField (hstReg 0x108) 16 8 op).event 0 else d

/-- The link goes down (R449). -/
def Device.dropLink (d : Device) : Device := (d.setField (hstReg 0) 0 10 0).setField (hstReg 0) 11 1 0

/-- The host-side state at its reset values (R438): engines, mailbox, doorbells, HST_WIN and the MSI-X table; the function is in D0. -/
def Device.resetHostSide (d : Device) : Device :=
  let d := d.each (List.range 8) fun e d =>
    d.each [0, 0x10, 0x18, 0x20, 0x28] (fun o d => d.setReg (hstReg (0x200 + 64 * e + o)) 0) |>.setReg (hstReg (0x208 + 64 * e)) 4
  let d := { d with host := { d.host with
    doorbells := [], ringing := [], msix := [], pending := [], msixEnable := false, funcMask := false, engines := []
    cfg := d.host.cfg.filter fun p => p.1 == 11 } }
  let d := { d with accesses := d.accesses.filter fun x =>
    match x.use with
    | .hostRead => false
    | .dmaOut _ _ => false
    | .dmaIn _ _ => false
    | _ => true }
  ((d.setReg (hstReg 8) 0).setField (hstReg 0) 10 1 0).abortMailbox

/-- ADDR of a HOST_RESET fault (R557). -/
def resetAddr : HostResetKind → Nat
  | .flr => 0
  | .hotReset => 1
  | .linkDown => 2
  | .perst => 2

/-- HOST_RESET (R438, R490, R557): a running take is aborted; a Function Level Reset keeps the link. -/
def Device.hostReset (k : HostResetKind) (d : Device) : Device :=
  let d := if k = .perst then { d with pins := { d.pins with perstN := false } } else d
  if !d.awake || (k != .perst && !d.linkUp) then d
  else
    let d := (d.fault 10 0 0 14 (resetAddr k) 0).resetHostSide
    if k = .flr then d else d.dropLink

/-- HOST_RESET (R438). -/
def execHostReset (kind : HostResetKind) (s : State) : Host.Outcome State Fault Refusal := s.always (Device.hostReset kind)

/-- PERST_RELEASE (R482): PERST_N rises; link training begins, and HOST_LINK_UP ends it. -/
def execPerstRelease (s : State) : Host.Outcome State Fault Refusal :=
  s.always fun d => { d with pins := { d.pins with perstN := true } }

/-! ### DMA engines -/

/-- RUN set (R434): the engine begins at HEAD. -/
def Device.dmaRun (e : Nat) (d : Device) : Device :=
  if d.bitOf (dmaReg e 0x28) 0 then d
  else
    let d := d.setBit (dmaReg e 0x28) 0
    if (d.engine e).flight.isEmpty then d.modEngine e fun x => { x with startAt := d.dmaHead e } else d

/-- DMA_RUN (R434). -/
def execDmaRun (e : Fin 8) (s : State) : Host.Outcome State Fault Refusal := s.run (Device.dmaRun e)

/-- DMA_CLEAR (R435): ERR resets. -/
def Device.dmaClear (e : Nat) (d : Device) : Device := d.setField (dmaReg e 0x28) 1 1 0

/-- DMA_CLEAR (R435). -/
def execDmaClear (e : Fin 8) (s : State) : Host.Outcome State Fault Refusal := s.run (Device.dmaClear e)

/-- A descriptor of a ring entry (R433), with its FLAGS and the bits that must be 0. -/
def parseDesc (b : List Byte) : DmaDesc × Bool :=
  ({ id := 0, host := leAt b 0 8, dev := leAt b 8 6, len := leAt b 16 4, flags := leAt b 20 2, vector := leAt b 22 2, db := leAt b 24 2,
     moved := 0, acked := 0, cause := 0, done := false },
   leAt b 14 2 == 0 && decide (leAt b 20 2 < 16) && leAt b 26 6 == 0)

/-- What is wrong with a descriptor (R435): 2 a field, 1 its device range; 0 nothing. -/
def Device.descError (d : Device) (x : DmaDesc) (reserved : Bool) : Nat :=
  if !reserved || x.len == 0 || decide (16777216 < x.len) || (bit x.flags 1 && (decide (x.vector < 24) || decide (2047 < x.vector))) then 2
  else if !d.legalRun x.dev x.len then 1
  else 0

/-- Whether an engine fetches a descriptor (R434). -/
def Device.fetching (d : Device) (e : Nat) : Bool :=
  d.bitOf (dmaReg e 0x28) 0 && !d.bitOf (dmaReg e 0x28) 1 && !(d.engine e).paused && (d.engine e).startAt != d.dmaTail e

/-- A descriptor checked and started (R434, R435); a bad one halts the engine once the ones before it are complete. -/
def Device.dmaStart (e : Nat) (d : Device) : Device :=
  let g := d.engine e
  if !d.fetching e || !d.hostReach then d
  else
    let p := parseDesc (d.hostGet ((d.reg (dmaReg e 0)).toNat + 32 * g.startAt) 32).1
    let x := p.1
    let err := d.descError x p.2
    if (err != 0 || bit x.flags 2) && !g.flight.isEmpty then d
    else if err ≠ 0 then (if err = 1 then d.addrError x.dev 0 else d).dmaHalt e err
    else
      let id := d.accessNext
      let out := bit x.flags 0
      let d := ({ d with accessNext := id + 1 } : Device).modEngine e fun g =>
        { g with startAt := (g.startAt + 1) % d.ringSize e, flight := g.flight ++ [{ x with id := id, moved := if out then x.len else 0 }] }
      if out then d.access 0 hostClient (.dmaOut e id) x.dev x.len false [] fun _ => false else d

/-- DMA_DESCRIPTOR_START (R434). -/
def execDmaDescriptorStart (e : Fin 8) (s : State) : Host.Outcome State Fault Refusal := s.onClock (Device.dmaStart e)

/-- DMA_DESCRIPTOR_COMPLETE (R434). -/
def execDmaDescriptorComplete (e : Fin 8) (s : State) : Host.Outcome State Fault Refusal := s.onClock (Device.dmaFinish e)

/-- Host data of up to 512 B delivered to the first descriptor that waits (R434, R435): sent to device memory, in poisoned form with
EP; a range that no longer answers is an address error and halts the engine. -/
def Device.dmaDeliver (e : Nat) (poisoned : Bool) (d : Device) : Device :=
  match (d.engine e).wanting with
  | none => d
  | some x =>
    let n := min 512 (x.len - x.moved)
    if !d.legalRun (x.dev + x.moved) n then (d.addrError (x.dev + x.moved) 0).dmaFail e x.id 1
    else
      let h := d.hostGet (x.host + x.moved) n
      let ep := poisoned || !h.2.isEmpty
      let d := if ep then (d.setBit (hstReg 0x10) 2).count (hstReg 0x28) 1 else d
      (d.modDesc e x.id fun y => { y with moved := y.moved + n }).access 0 hostClient (.dmaIn e x.id) (x.dev + x.moved) n true h.1 fun _ => ep

/-- A fetch of a descriptor fails (R435): the engine halts at it once the descriptors before it are complete. -/
def Device.fetchFail (e cause : Nat) (d : Device) : Device :=
  let id := d.accessNext
  let x := { (parseDesc []).1 with id := id }
  ({ d with accessNext := id + 1 }.modEngine e fun g => { g with flight := g.flight ++ [x] }).dmaFail e id cause

/-- The data of a calibration set did not come: nothing is written (R437, R512). -/
def Device.dropCal (d : Device) : Device :=
  let keep := match d.start.writing with
    | some (.cal 1 _) => none
    | w => w
  ({ d with start := { d.start with writing := keep, held := d.start.held.filter fun w => !w.isCal } } : Device).setField (svcReg 0xB000) 17 1 0

/-- Host data of a mailbox command fails (R437): one of SAVE's capture, RESUME, CAL_READ, CAL_WRITE or ATTEST that has not ended ends with
RESULT 7 (log entry 194). -/
def Device.mbxMissed (d : Device) : Device :=
  if !d.bitOf (hstReg 0x108) 0 then d
  else if d.mbx.op = 5 ∧ (d.take.starting || d.cont.waiting) then
    ({ d with cont := { d.cont with waiting := false } } : Device).endTake.mbxEnd 7
  else if d.mbx.result ≠ some 0 then d
  else if d.mbx.op = 4 ∧ d.mbxArg 0 = 1 then (d.setField (svcReg 0x9118) 1 1 0).mbxEnd 7
  else if d.mbx.op = 0x11 then d.dropCal.mbxEnd 7
  else if d.mbx.op = 0x10 ∨ d.mbx.op = 0x20 then d.mbxEnd 7
  else d

/-- A host completion fails (R435, R437): the descriptor that waits for host data, else the fetch of the next, else a mailbox command's data. -/
def Device.dmaMissed (e cause : Nat) (d : Device) : Device :=
  match (d.engine e).wanting with
  | some x => d.dmaFail e x.id cause
  | none => if d.fetching e then d.fetchFail e cause else d.mbxMissed

/-- HOST_COMPLETION (R434, R435). -/
def Device.hostCompletion (e : Nat) (st : HostCplStatus) (d : Device) : Device :=
  match st with
  | .ok => d.dmaDeliver e false
  | .okPoisoned => d.dmaDeliver e true
  | .ur => d.dmaMissed e 3
  | .ca => d.dmaMissed e 3

/-- HOST_COMPLETION (R435). -/
def execHostCompletion (e : Fin 8) (status : HostCplStatus) (s : State) : Host.Outcome State Fault Refusal :=
  s.run (Device.hostCompletion e status)

/-- COMPLETION_TIMEOUT (R435). -/
def execCompletionTimeout (e : Fin 8) (s : State) : Host.Outcome State Fault Refusal := s.run (Device.dmaMissed e 4)

end Sys2Proof.Machine
end

