-- ==== Sys2Proof/Machine/Lpd.lean ====
section
/-! DEFINITION. Capacity memory (R439 to R445): accesses at a channel, refresh and temperature. -/
namespace Sys2Proof.Machine

open Sys2Proof

/-- CAPACITY_ACCESS (R441, R443): data and check units read or written; an access beyond what is fitted is an address error (R427). -/
def Device.capacityAccess (write : Bool) (a n : Nat) (bs : List Byte) (d : Device) : Device :=
  match regionOf a with
  | .capacity ch v =>
    if !d.legalRun a n then d.hostAddrError a
    else
      let d := (d.wakeRun a n).openLine ch v n
      if write then d.writeMem a bs (fun _ => false) false
      else
        let r := d.readMem a n
        r.dev.emit (.capacityData r.bytes r.bad)
  | _ => d

/-- CAPACITY_ACCESS (R443). -/
def execCapacityAccess (write : Bool) (addr : BitVec 48) (len : Nat) (bytes : List Byte) (s : State) : Host.Outcome State Fault Refusal :=
  s.onClock (Device.capacityAccess write addr.toNat (if write then bytes.length else len) bytes)

/-- LPDDR_REFRESH (R439): a per-bank refresh in a channel in service; it closes the bank's row in both sub-channels. -/
def Device.lpdRefresh (ch bank : Nat) (d : Device) : Device :=
  if d.fieldOf (lpdReg (0x100 + 8 * ch)) 0 2 = 2 then
    { d with lpd := mmod LpdChan.reset d.lpd ch fun x => { x with openRows := mset 0 (mset 0 x.openRows bank 0) (16 + bank) 0 } }
  else d

/-- LPDDR_REFRESH (R439). -/
def execLpddrRefresh (ch : Fin 12) (bank : Fin 16) (s : State) : Host.Outcome State Fault Refusal := s.onClock (Device.lpdRefresh ch bank)

/-- LPDDR_TEMP_READOUT (R445, R453): a device's readout; TEMP is that of the hottest device, and a device that begins to report a rate above its
normal refresh range sets HOT, with vector 7. -/
def Device.lpdTemp (ch device temp : Nat) (fast : Bool) (d : Device) : Device :=
  let r := lpdReg (0x100 + 8 * ch)
  if d.fieldOf r 0 2 < 2 then d
  else
    let x := mget LpdChan.reset d.lpd ch
    let was := x.hot.contains device && d.bitOf r 4
    let temps := mset 0 x.temps device temp
    let hot := if fast then insertAsc device x.hot else x.hot.filter (· ≠ device)
    let d := ({ d with lpd := mset LpdChan.reset d.lpd ch { x with temps := temps, hot := hot } } : Device).setField r 8 8
      (maxOf (temps.map (·.2)))
    if fast && !was then (d.setBit r 4).event 7 else d

/-- LPDDR_TEMP_READOUT (R445). -/
def execLpddrTempReadout (ch : Fin 12) (temp : LpdReadout) (fast : Bool) (s : State) : Host.Outcome State Fault Refusal :=
  s.run (Device.lpdTemp ch temp.device temp.temp.toNat fast)

end Sys2Proof.Machine
end

