-- ==== Sys2Proof/Machine/Mgmt.lean ====
section
/-! DEFINITION. The management port (R446 to R448): MCTP control, PLDM types 0 and 2, sensors and the effecter. Command and completion
codes, and which bytes carry them, are those of DSP0236, DSP0240 and DSP0248 (PRESUMED; log entry 35). -/
namespace Sys2Proof.Machine

open Sys2Proof

/-- The state that SVC_STATUS and sensor 31 show (R447, R569): the first that applies of 4, 5, 3, 2, 1, 0. -/
def Device.serviceState (d : Device) : Nat :=
  if d.bitOf (svcReg 0xD000) 2 || d.bitOf (svcReg 0xB000) 5 then 4
  else if d.survival then 5
  else if d.take.state = 3 then 3
  else if d.take.state = 2 then 2
  else if d.bitOf (svcReg 0xB000) 3 then 1
  else 0

/-! ### Messages -/

/-- The 7-bit address of the SMBus target (R446, R510). -/
def Device.smbAddr (d : Device) : Nat := d.setting 0x00E 1 0x4E

/-- Bytes cut into the 64 B transmission units of the baseline (R446). -/
def mctpUnits (bs : List Byte) : List (List Byte) := (List.range ((bs.length + 63) / 64)).map fun i => (bs.drop (64 * i)).take 64

/-- The answer to a message that the target took: its completion code, and its bytes in transmission units (R446; log entry 192). -/
def Device.reply (d : Device) (code : Nat) (bs : List Byte) : Device := d.emit (.mctp d.smbAddr code (mctpUnits bs))

/-! ### MCTP control -/

/-- MCTP control is answered from phase 2 on (R446), while the west half is there (R383). -/
def Device.mctpControl (f : Device → Device) (d : Device) : Device :=
  if 2 ≤ d.start.phaseDone ∧ (d.half 0).lost = false then f d else d

/-- SET_ENDPOINT_ID (R446): 0x00 and 0xFF are no endpoint identifiers. -/
def Device.setEid (eid : Byte) : Device → Device :=
  Device.mctpControl fun d =>
    if eid = 0 ∨ eid = 0xFF then d.reply 2 [] else ({ d with mgmt := { d.mgmt with eid := some eid } } : Device).reply 0 [eid]

/-- SET_ENDPOINT_ID (R446). -/
def execSetEndpointId (eid : Byte) (s : State) : Host.Outcome State Fault Refusal := s.run (Device.setEid eid)

/-- GET_ENDPOINT_ID (R446). -/
def execGetEndpointId (s : State) : Host.Outcome State Fault Refusal :=
  s.run (Device.mctpControl fun d => d.reply 0 [d.mgmt.eid.getD Config.initialEid])

/-- GET_MCTP_VERSION_SUPPORT (R446): of the base protocol, control and PLDM; another type is not supported. -/
def execGetMctpVersionSupport (msgType : Byte) (s : State) : Host.Outcome State Fault Refusal :=
  s.run (Device.mctpControl fun d =>
    if msgType = 0xFF ∨ msgType = 0 ∨ msgType = 1 then d.reply 0 (Config.versionBytes msgType.toNat) else d.reply 0x80 [])

/-- GET_MESSAGE_TYPE_SUPPORT (R446): PLDM. -/
def execGetMessageTypeSupport (s : State) : Host.Outcome State Fault Refusal :=
  s.run (Device.mctpControl fun d => d.reply 0 [1, 1])

/-! ### PLDM type 0 -/

/-- A PLDM command (R446): ERROR_NOT_READY until phase 4 has ended, and nothing with the west half lost (R383); a failed start
answers, as its sensor 31 reads (R502). -/
def Device.pldm (f : Device → Device) (d : Device) : Device :=
  if d.start.phaseDone < 2 ∨ (d.half 0).lost = true then d
  else if d.start.phaseDone < 4 && !d.bitOf (svcReg 0xB000) 5 then d.reply 4 []
  else f d

/-- GET_TID (R446). -/
def execGetTid (s : State) : Host.Outcome State Fault Refusal := s.run (Device.pldm fun d => d.reply 0 [Config.terminusId])

/-- GET_PLDM_VERSION (R446): of types 0 and 2. -/
def execGetPldmVersion (pldmType : Byte) (s : State) : Host.Outcome State Fault Refusal :=
  s.run (Device.pldm fun d =>
    if pldmType = 0 ∨ pldmType = 2 then d.reply 0 (Config.versionBytes (256 + pldmType.toNat)) else d.reply 0x83 [])

/-- GET_PLDM_TYPES (R446): bits 0 and 2. -/
def execGetPldmTypes (s : State) : Host.Outcome State Fault Refusal :=
  s.run (Device.pldm fun d => d.reply 0 [5, 0, 0, 0, 0, 0, 0, 0])

/-- The commands of a PLDM type as a mask (R446). -/
def pldmMask (cs : List Nat) : List Byte := leBytes 32 (cs.foldl (fun a c => a + 2 ^ c) 0)

/-- GET_PLDM_COMMANDS (R446). -/
def execGetPldmCommands (pldmType : Byte) (s : State) : Host.Outcome State Fault Refusal :=
  s.run (Device.pldm fun d =>
    if pldmType = 0 then d.reply 0 (pldmMask [2, 3, 4, 5])
    else if pldmType = 2 then d.reply 0 (pldmMask [0x0B, 0x11, 0x21, 0x31, 0x32, 0x51])
    else d.reply 0x83 [])

/-! ### PLDM type 2 -/

/-- The IDs of the repository (R447), in ascending order; record n describes the n-th. -/
def pldmIds : List Nat := (List.range 31).map (· + 1) ++ [100]

/-- The kind of a record of the repository and the unit of its values (R447). -/
def pdrKind (i : Nat) : Config.PdrKind × Config.PdrUnit :=
  if i = 31 then (.stateSensor, .none)
  else if i = 100 then (.numericEffecter, .millilitrePerMinute)
  else (.numericSensor, if i = 1 then .watt else if i = 2 then .ampere else if i = 7 then .kilopascal else .celsius)

/-- The thresholds of a numeric sensor (R447), in its unit: the warning, throttle and shutdown levels of logic layers and then of DRAM layers
where it covers them (R463), the ends of the ranges of R470 for the inlet and the pressure drop; none for another sensor. -/
def Device.thresholds (d : Device) (i : Nat) : List Int × Device :=
  let levels := fun (dram : Bool) => ([d.warnLevel dram, throttleLevel dram, shutdownLevel dram]).map fun v => v.fdiv 8
  if i = 5 then ([15, 40], d)
  else if i = 7 then
    let r := d.pressureRange
    ([((r.1.1 / 10 : Nat) : Int), ((r.1.2 / 10 : Nat) : Int)], r.2)
  else ((if i = 3 ∨ (8 ≤ i ∧ i < 30) then levels false else []) ++ if i = 4 ∨ (10 ≤ i ∧ i < 30) then levels true else [], d)

/-- GET_PDR (R447): the record of a sensor or of the effecter, with its kind, unit and thresholds; its bytes are free. Record 0 is the first. -/
def execGetPdr (record : BitVec 32) (s : State) : Host.Outcome State Fault Refusal :=
  s.run (Device.pldm fun d =>
    let r := if record = 0 then 1 else record.toNat
    let i := pldmIds.getD (r - 1) 0
    let t := d.thresholds i
    if r ≤ pldmIds.length then t.2.reply 0 (Config.pdrRecord i (pdrKind i).1 (pdrKind i).2 t.1) else d.reply 0x82 [])

/-- A temperature in whole °C, rounded down. -/
def wholeC (v : Option Int) : Option Int := v.map fun x => x.fdiv 8

/-- A tower's hottest layer. -/
def Tower.hottestLayer (x : Tower) : Option Int := hottest ((List.range 15).map x.layerVal)

/-- A numeric sensor's value in the unit of R447, rounded down (log entry 36); none when nothing has been read. -/
def Device.sensorValue (d : Device) (i : Nat) : Option Int :=
  if i = 1 then some (d.take.lastInput / max 1 d.period : Nat)
  else if i = 2 then some (d.fieldOf (svcReg 0xA000) 16 16 / 10 : Nat)
  else if i = 3 then wholeC (hottest ((List.range 20).map fun t => (d.tower t).logicTemp))
  else if i = 4 then wholeC (hottest ((List.range 20).map fun t => (d.tower t).dramTemp))
  else if i = 5 then wholeC d.thm.tin
  else if i = 6 then wholeC d.thm.tout
  else if i = 7 then some (d.fieldOf (thmReg 8) 32 16 / 10 : Nat)
  else if i = 8 then wholeC (d.half 0).value
  else if i = 9 then wholeC (d.half 1).value
  else if i < 30 then wholeC (d.tower (i - 10)).hottestLayer
  else
    let l := (List.range 12).filter fun k => decide (2 ≤ d.fieldOf (lpdReg (0x100 + 8 * k)) 0 2)
    if l.isEmpty then none else some (maxOf (l.map fun k => d.fieldOf (lpdReg (0x100 + 8 * k)) 8 8) : Nat)

/-- GET_SENSOR_READING (R447): operational state (0 enabled, 2 unavailable) and the value. -/
def execGetSensorReading (sensor : BitVec 16) (s : State) : Host.Outcome State Fault Refusal :=
  s.run (Device.pldm fun d =>
    let i := sensor.toNat
    if 1 ≤ i ∧ i ≤ 30 then
      match d.sensorValue i with
      | some v => d.reply 0 ((0 : Byte) :: leBytes 4 (unsignedOf 32 v))
      | none => d.reply 0 ((2 : Byte) :: leBytes 4 0)
    else d.reply 0x80 [])

/-- GET_STATE_SENSOR_READINGS (R447): sensor 31. -/
def execGetStateSensorReadings (sensor : BitVec 16) (s : State) : Host.Outcome State Fault Refusal :=
  s.run (Device.pldm fun d =>
    if sensor = 31 then d.reply 0 [BitVec.ofNat 8 d.serviceState] else d.reply 0x80 [])

/-- A flow written to effecter 100 (R448): the reported flow, and GAF_FLOW.REPORTED; the 1 s of R335 starts anew. -/
def Device.writeFlow (v : Nat) (d : Device) : Device :=
  let d := { d with mgmt := { d.mgmt with effecter := some v } }
  (d.setField (gafReg 0x18) 5 1 0).setField (gafReg 0x50) 0 16 (min 0xFFFF v)

/-- SET_NUMERIC_EFFECTER_VALUE (R448). -/
def execSetNumericEffecterValue (effecter : BitVec 16) (value : BitVec 32) (s : State) : Host.Outcome State Fault Refusal :=
  s.run (Device.pldm fun d =>
    if effecter = 100 then (d.writeFlow value.toNat).reply 0 [] else d.reply 0x80 [])

/-- GET_NUMERIC_EFFECTER_VALUE (R446, R447): before a write it stands at the 2.0 L/min of R335. -/
def execGetNumericEffecterValue (effecter : BitVec 16) (s : State) : Host.Outcome State Fault Refusal :=
  s.run (Device.pldm fun d =>
    if effecter = 100 then d.reply 0 (leBytes 4 (d.mgmt.effecter.getD 2000)) else d.reply 0x80 [])

/-- The level of a temperature: 0 normal, 1 warning, 2 throttle, 3 shutdown. -/
def tempLevel (d : Device) (dram : Bool) (v : Option Int) : Nat :=
  match v with
  | none => 0
  | some x =>
    if shutdownLevel dram ≤ x then 3 else if throttleLevel dram ≤ x then 2 else if d.warnLevel dram ≤ x then 1 else 0

/-- The state of a sensor that events report (R447): a temperature's level by the levels of its layers; 1 for an inlet or a pressure drop outside
its range (R470) and for capacity memory that is hot (R445); and sensor 31. -/
def Device.sensorState (d : Device) (i : Nat) : Nat :=
  if i = 31 then d.serviceState
  else if i = 3 then tempLevel d false (hottest ((List.range 20).map fun t => (d.tower t).logicTemp))
  else if i = 4 then tempLevel d true (hottest ((List.range 20).map fun t => (d.tower t).dramTemp))
  else if i = 5 then (match d.thm.tin with
    | some v => if v < 120 ∨ 320 < v then 1 else 0
    | none => 0)
  else if i = 7 then (if d.bitOf (thmReg 0) 6 then 1 else 0)
  else if i = 30 then (if d.lpd.any fun p => !p.2.hot.isEmpty then 1 else 0)
  else if i = 8 then tempLevel d false (d.half 0).value
  else if i = 9 then tempLevel d false (d.half 1).value
  else if 10 ≤ i ∧ i < 30 then max (tempLevel d false (d.tower (i - 10)).logicTemp) (tempLevel d true (d.tower (i - 10)).dramTemp)
  else 0

/-- The state of a sensor that was last polled; 0 before. -/
def Device.polledState (d : Device) (i : Nat) : Nat := mget 0 d.mgmt.events i

/-- POLL_FOR_PLATFORM_EVENT_MESSAGE (R447): the next sensor whose state has changed since it was last polled, with the state before
and the new one; nothing when none has. -/
def Device.pollEvents (d : Device) : Device :=
  match pldmIds.find? fun i => d.sensorState i != d.polledState i with
  | none => d.reply 0 []
  | some i =>
    let n := d.sensorState i
    let o := d.polledState i
    ({ d with mgmt := { d.mgmt with events := mset 0 d.mgmt.events i n } } : Device).reply 0
      (leBytes 2 i ++ [BitVec.ofNat 8 o, BitVec.ofNat 8 n])

/-- POLL_FOR_PLATFORM_EVENT_MESSAGE (R447). -/
def execPollForPlatformEventMessage (s : State) : Host.Outcome State Fault Refusal := s.run (Device.pldm Device.pollEvents)

end Sys2Proof.Machine
end

