-- ==== Sys2Proof/Machine/Prefix.lean ====
section
/-! DEFINITION. The shared prefixes (R189 to R193): keys, the table of each half, and the actions of PREFIX_LOOKUP and
PREFIX_INSERT. -/
namespace Sys2Proof.Machine

open Sys2Proof

/-- The key of a request (R189): parent key, tokens, model tag. -/
def prefixKey (req : List Byte) : List Byte :=
  shake256 (sliceBytes req 0x10 16 ++ sliceBytes req 0x40 512 ++ sliceBytes req 0x08 8) 16

/-- The address of a key's bucket (R189). -/
def Device.bucketAddr (d : Device) (h : Nat) (key : List Byte) : Nat :=
  d.fieldOf (stoReg h 0x40008) 0 48 + 128 * (leAt key 0 3 % 0x100000)

/-- A prefix entry with the number of its way (R189). -/
structure PfxEntry where
  way : Nat
  ref : Nat
  core : Nat
  tok : Nat
  deriving DecidableEq, Repr

/-- The way of a bucket as an entry. -/
def pfxEntry (bucket : List Byte) (w : Nat) : PfxEntry :=
  { way := w, ref := leAt bucket (32 * w + 0x10) 4, core := field (leAt bucket (32 * w + 0x14) 2) 0 9,
    tok := leAt bucket (32 * w + 0x18) 8 }

/-- VALID of a way. -/
def pfxValid (bucket : List Byte) (w : Nat) : Bool := bit (leAt bucket (32 * w + 0x16) 2) 0

/-- The first VALID way with the key (R191). -/
def pfxFind (bucket key : List Byte) : Option PfxEntry :=
  ((List.range 4).find? fun w => pfxValid bucket w && sliceBytes bucket (32 * w) 16 == key).map (pfxEntry bucket)

/-- What an action answers: the device, STATUS, CORE and REF of the entry, REFCNT, and the bad word with its unit that stopped it. -/
structure PfxRes where
  dev : Device
  status : Nat
  core : Nat
  ref : Nat
  refcnt : Nat
  bad : Option (Nat × Nat)
  deriving DecidableEq, Repr

/-- An answer that names no entry: CORE and REF are 0 (log entry 184). -/
def pfxPlain (d : Device) (status : Nat) : PfxRes := { dev := d, status := status, core := 0, ref := 0, refcnt := 0, bad := none }

/-- The first of some bad addresses with its unit. -/
def badIn (unit : Nat) : List Nat → Option (Nat × Nat)
  | [] => none
  | a :: _ => some (unit, a)

/-- An answer that names an entry: REFCNT is read from the page when it is the issuing core's and not stale. -/
def Device.pfxNamed (d : Device) (k home status core ref : Nat) : PfxRes :=
  if core = home then
    let r := d.resolvePage k ref
    { dev := r.dev, status := status, core := core, ref := ref, refcnt := if r.stale then 0 else r.hdr.f 0xC 2,
      bad := badIn 4 r.bad }
  else { dev := d, status := status, core := core, ref := ref, refcnt := 0, bad := none }

/-- The address of the page that a reference names in a core's pool. -/
def Device.pageAddr (d : Device) (k ref : Nat) : Nat :=
  match (d.core k).pool with
  | some b => poolAddr b (field ref 0 24)
  | none => 0

/-- The reference count of a page written. -/
def Device.setRefcnt (d : Device) (k ref n : Nat) : Device :=
  d.unitWrite k (d.pageAddr k ref + 0xC) (leBytes 2 n)

/-- The prefix key of a page's header written. -/
def Device.setPageKey (d : Device) (k ref : Nat) (key : List Byte) : Device :=
  d.unitWrite k (d.pageAddr k ref + 0x20) key

/-- A read by the prefix engine of a half through its ring ports (R209, R220). Answers whether the run lies in memory that answers; elsewhere
it meets an error response, and the access is logged (R204). -/
def Device.pfxRead (d : Device) (h a n : Nat) : ReadRes × Bool :=
  if d.legalRun a n then
    (d.readLines a n (Device.ringTrip h prefixClient), true)
  else
    let r := d.draw
    let d := r.2.log (d.logFor a) 0x07 17 a 0 (r.1.toNat % 4)
    ({ dev := match regionOf a with
        | .store h' _ => d.setBit (stoReg h' 8) 5
        | _ => d
       bytes := [], bad := [] }, false)

/-- A write by the prefix engine within a bucket that it has read. -/
def Device.pfxWrite (d : Device) (h a : Nat) (bs : List Byte) : Device :=
  d.writeLines a bs (Device.ringTrip h prefixClient)

/-- The lookup of PROBE and ACQUIRE: the entry that hits, or the STATUS of a miss (R191, R192). -/
structure PfxHit where
  dev : Device
  hit : Option PfxEntry
  status : Nat
  bad : Option (Nat × Nat)
  deriving DecidableEq, Repr

/-- A lookup in the table of half `h`. A bucket or tokens that meet an error response make a miss (log entry 145); an entry with no tokens to
compare under FULLCMP is a miss as well, and no mismatch (log entry 184). -/
def Device.pfxLookup (d : Device) (h : Nat) (key req : List Byte) : PfxHit :=
  let b := (d.pfxRead h (d.bucketAddr h key) 128).1
  match pfxFind b.bytes key with
  | none => { dev := b.dev, hit := none, status := 0, bad := badIn 17 b.bad }
  | some e =>
    if !d.bitOf (stoReg h 0x40000) 1 then { dev := b.dev, hit := some e, status := 1, bad := badIn 17 b.bad }
    else if e.tok = 0 then { dev := b.dev, hit := none, status := 0, bad := badIn 17 b.bad }
    else
      let r := b.dev.pfxRead h e.tok 512
      let t := r.1
      match badIn 17 (b.bad ++ t.bad) with
      | some x => { dev := t.dev, hit := none, status := 0, bad := some x }
      | none =>
        if !r.2 then { dev := t.dev, hit := none, status := 0, bad := none }
        else if t.bytes = sliceBytes req 0x40 512 then { dev := t.dev, hit := some e, status := 1, bad := none }
        else { dev := t.dev.count (stoReg h 0x40010) 1, hit := none, status := 8, bad := none }

/-- PROBE and ACQUIRE (R191). -/
def Device.pfxProbe (d : Device) (k home : Nat) (key req : List Byte) (acquire : Bool) : PfxRes :=
  let l := d.pfxLookup (halfOf (towerOf k)) key req
  match l.bad, l.hit with
  | some b, _ => { pfxPlain l.dev l.status with bad := some b }
  | none, none => pfxPlain l.dev l.status
  | none, some e =>
    if acquire && e.core == home then
      let r := l.dev.resolvePage k e.ref
      let n := r.hdr.f 0xC 2
      match badIn 4 r.bad with
      | some b => { pfxPlain r.dev 0 with bad := some b }
      | none =>
        if r.stale then r.dev.pfxNamed k home 9 e.core e.ref
        else if n = 65535 then r.dev.pfxNamed k home 11 e.core e.ref
        else (r.dev.setRefcnt k e.ref (n + 1)).pfxNamed k home 1 e.core e.ref
    else l.dev.pfxNamed k home 1 e.core e.ref

/-- The bytes of a prefix entry. -/
def pfxBytes (key : List Byte) (ref core tok : Nat) : List Byte :=
  key ++ leBytes 4 ref ++ leBytes 2 core ++ leBytes 2 1 ++ leBytes 8 tok

/-- INSERT (R191): a stale REF, an existing entry and a full bucket leave the table as it is. -/
def Device.pfxInsert (d : Device) (k home : Nat) (key req : List Byte) : PfxRes :=
  let ref := leAt req 0x20 4
  let r := d.resolvePage k ref
  match badIn 4 r.bad with
  | some b => { pfxPlain r.dev 0 with bad := some b }
  | none =>
    if r.stale then pfxPlain r.dev 9
    else
      let h := halfOf (towerOf k)
      let a := d.bucketAddr h key
      let x := r.dev.pfxRead h a 128
      let b := x.1
      match badIn 17 b.bad, pfxFind b.bytes key, (List.range 4).find? fun w => x.2 && !pfxValid b.bytes w with
      | some x, _, _ => { pfxPlain b.dev 0 with bad := some x }
      | none, some e, _ => b.dev.pfxNamed k home 3 e.core e.ref
      | none, none, none => pfxPlain b.dev 4
      | none, none, some w =>
        let d := b.dev.pfxWrite h (a + 32 * w) (pfxBytes key ref home (leAt req 0x28 8))
        (d.setPageKey k ref key).pfxNamed k home 2 home ref

/-- REMOVE (R191). The key of a page is cleared only while the entry's reference is current (log entry 184). -/
def Device.pfxRemove (d : Device) (k home : Nat) (key : List Byte) : PfxRes :=
  let h := halfOf (towerOf k)
  let a := d.bucketAddr h key
  let b := (d.pfxRead h a 128).1
  match badIn 17 b.bad, pfxFind b.bytes key with
  | some x, _ => { pfxPlain b.dev 0 with bad := some x }
  | none, none => pfxPlain b.dev 6
  | none, some e =>
    let d := b.dev.pfxWrite h (a + 32 * e.way + 0x16) (leBytes 2 (withField (leAt b.bytes (32 * e.way + 0x16) 2) 0 1 0))
    let r := d.resolvePage k e.ref
    match badIn 4 (if e.core = home then r.bad else []) with
    | some x => { pfxPlain r.dev 0 with bad := some x }
    | none =>
      if e.core = home ∧ r.stale = false then
        (r.dev.setPageKey k e.ref (List.replicate 16 0)).pfxNamed k home 5 e.core e.ref
      else (if e.core = home then r.dev else d).pfxNamed k home 5 e.core e.ref

/-- RELEASE (R191): CORE names the issuing position (log entry 184). -/
def Device.pfxRelease (d : Device) (k home : Nat) (req : List Byte) : PfxRes :=
  let ref := leAt req 0x20 4
  let r := d.resolvePage k ref
  let n := r.hdr.f 0xC 2
  match badIn 4 r.bad with
  | some b => { pfxPlain r.dev 0 with bad := some b }
  | none =>
    if r.stale then { pfxPlain r.dev 9 with core := home, ref := ref }
    else if n = 0 then { pfxPlain r.dev 10 with core := home, ref := ref }
    else { pfxPlain (r.dev.setRefcnt k ref (n - 1)) 7 with core := home, ref := ref, refcnt := n - 1 }

/-- The actions of the two prefix cues (R191). -/
inductive PfxAct where
  | probe | acquire | insert | remove | release
  deriving DecidableEq, Repr

/-- The action that a cue operation (4 LOOKUP, 5 INSERT) and an ACTION value name; none for an unlisted one. -/
def pfxAct : Nat → Nat → Option PfxAct
  | 4, 0 => some .probe
  | 4, 1 => some .acquire
  | 5, 0 => some .insert
  | 5, 1 => some .remove
  | 5, 2 => some .release
  | _, _ => none

/-- An action carried out: DISABLED, BAD_ACTION, or its effect (R191). -/
def Device.pfxDo (d : Device) (k home : Nat) (act : Option PfxAct) (key req : List Byte) : PfxRes :=
  if act ≠ some .release ∧ d.bitOf (stoReg (halfOf (towerOf k)) 0x40000) 0 = false then pfxPlain d 13
  else
    match act with
    | none => pfxPlain d 12
    | some .probe => d.pfxProbe k home key req false
    | some .acquire => d.pfxProbe k home key req true
    | some .insert => d.pfxInsert k home key req
    | some .remove => d.pfxRemove k home key
    | some .release => d.pfxRelease k home req

/-- The result record (R190). -/
def pfxRecord (r : PfxRes) (key : List Byte) : List Byte :=
  leBytes 4 r.status ++ leBytes 4 r.core ++ leBytes 4 r.ref ++ leBytes 4 r.refcnt ++ key ++ List.replicate 32 0

/-- A prefix cue run by its unit: `op` is its operation, `sel` the ACTION values that the command performs (R189 to R193). CORE names the
core whose pool holds the page, in a rotated list too: the position that runs it (R191; log entry 143). The record of a RELEASE, which has no
key, holds zeros for it (log entry 184). -/
def Device.prefixStep (op : Nat) (sel : Option PfxAct → Bool) (k : Nat) (d : Device) : Device :=
  match (d.core k).headCue 4 [op] with
  | none => d
  | some q =>
    let t := opndOf (refAt q.refs 0)
    let o := opndOf (refAt q.refs 1)
    let r := d.readSpace k 4 t.space t.base 576
    let act := pfxAct op (leAt r.bytes 0 4)
    if !sel act then d
    else
      match r.bad with
      | a :: _ => r.dev.consume k 4 a
      | [] =>
        let key := if act = some .release then List.replicate 16 0 else prefixKey r.bytes
        let x := r.dev.pfxDo k k act key r.bytes
        match x.bad with
        | some b => x.dev.consume k b.1 b.2
        | none => (x.dev.writeSpace k 4 o.space o.base (pfxRecord x key)).markDone k 4

/-- PROBE (R191); a PREFIX_LOOKUP with an unlisted ACTION too. -/
def execProbe (c : Fin 480) (s : State) : Host.Outcome State Fault Refusal :=
  s.inTower (Device.whole (Device.prefixStep 4 (fun a => a == some .probe || a == none) c))
/-- ACQUIRE (R191). -/
def execAcquire (c : Fin 480) (s : State) : Host.Outcome State Fault Refusal :=
  s.inTower (Device.whole (Device.prefixStep 4 (fun a => a == some .acquire) c))
/-- INSERT (R191); a PREFIX_INSERT with an unlisted ACTION too. -/
def execInsert (c : Fin 480) (s : State) : Host.Outcome State Fault Refusal :=
  s.inTower (Device.whole (Device.prefixStep 5 (fun a => a == some .insert || a == none) c))
/-- REMOVE (R191). -/
def execRemove (c : Fin 480) (s : State) : Host.Outcome State Fault Refusal :=
  s.inTower (Device.whole (Device.prefixStep 5 (fun a => a == some .remove) c))
/-- RELEASE (R191). -/
def execRelease (c : Fin 480) (s : State) : Host.Outcome State Fault Refusal :=
  s.inTower (Device.whole (Device.prefixStep 5 (fun a => a == some .release) c))

end Sys2Proof.Machine
end

