-- ==== Sys2Proof/Machine/TestAccess.lean ====
section
/-! DEFINITION. Test access (R538 to R552): the chain of dies, the instructions of the TAP controllers, the parallel path and the
unlock token. -/
namespace Sys2Proof.Machine

open Sys2Proof

/-! ### The chain -/

/-- Whether a chain position is a base die (R539). -/
def isBase (i : Nat) : Bool := i == 0 || i == 151

/-- Whether a chain position is an array die (R539). -/
def isArrayDie (i : Nat) : Bool := (decide (i < 151) && i % 15 == 1) || (decide (151 < i) && (i - 151) % 15 == 1)

/-- The die below a die (R544). -/
def dieBelow (i : Nat) : Nat := if i = 151 then 0 else if isArrayDie i then (if i < 151 then 0 else 151) else i - 1

/-- Whether a function of an unlock scope is released (R548, R550): the lock fuse is whole, or a token has named it. -/
def Device.released (d : Device) (b : Nat) : Bool := !d.fuses.lock || (d.unlocked && bit d.tst.scope b)

/-- Test access changed. -/
def Device.modTest (d : Device) (f : Test → Test) : Device := { d with tst := f d.tst }

/-- The test port reaches the dies through the west base die: with the west half lost it does nothing (R383). -/
def Device.onTap (f : Device → Device) (d : Device) : Device := if (d.half 0).lost then d else f d

/-- The included dies, in ascending position (R539). -/
def Test.chain (t : Test) : List Nat := (List.range 302).filter t.has

/-- The bits of a value, lowest first. -/
def bitList (n v : Nat) : List Bool := (List.range n).map (bit v)

/-- The instruction that a code selects in a die (R540): a code that the table does not list for the die selects BYPASS. -/
def irSelects (die code : Nat) : Nat :=
  if code < 2 then (if isBase die then code else 0xFF)
  else if code = 2 ∨ code = 8 ∨ code = 9 ∨ code = 0x10 then code
  else if (code = 0x11 ∨ code = 0x12) ∧ die = 0 then code
  else 0xFF

/-- The instruction that stands in a die's register (R540); IDCODE after a reset of the TAP controllers. -/
def Test.irOf (t : Test) (i : Nat) : Nat := mget 2 t.ir i

/-- Whether a base die other than the one addressed keeps EXTEST or SAMPLE/PRELOAD (log entry 191). -/
def Test.keeps (t : Test) (i : Nat) : Bool := isBase i && decide (t.irOf i < 2)

/-- A scan of the instruction registers (R539, R540): each included die's has captured 0x01, and the included die with the highest position lies
nearest TDO; the code goes to one die and BYPASS to the others (log entry 191). -/
def Device.irScan (die code : Nat) (d : Device) : Device :=
  let load := fun (m : SMap Nat) (i : Nat) =>
    if i = die then mset 2 m i (irSelects die code) else if d.tst.keeps i then m else mset 2 m i 0xFF
  (d.modTest fun t => { t with ir := t.chain.foldl load t.ir }).emit (.tdo (d.tst.chain.reverse.flatMap fun _ => bitList 8 1))

/-- The cells of the last five lands of the west base die (R542), PERST_N, FLOW_OK, THERMTRIP_N, FAULT_N and READY: a data cell and an enable
cell each. An input has no driver, and an open-drain output drives only low. -/
def Device.pinCells (d : Device) : List Bool :=
  [d.pins.perstN, false, d.pins.flowOkIn, false, d.landLevel 2, !d.landLevel 2, d.landLevel 3, !d.landLevel 3, d.landLevel 4, true]

/-- Cells of a base die's boundary register (R542). -/
def boundarySize (east : Bool) : Nat := if east then 864 else 904

/-- Bits laid into a register of n cells. -/
def cells (n : Nat) (l : List Bool) : List Bool := (List.range n).map fun i => l.getD i false

/-- What the boundary register of a base die captures (R542): the cells of its ports' lands as given, then on the west those of the five pins. -/
def Device.capture (d : Device) (east : Bool) (ports : List Bool) : List Bool :=
  if east then cells 864 ports else cells 894 ports ++ d.pinCells

/-- What a die that the command does not address shifts out (R539): the bit of BYPASS, or the boundary register where it stands, whose port
lands the command does not give: they are free (log entry 8). -/
def Device.passes (d : Device) (i : Nat) : List Bool :=
  if d.tst.keeps i then d.capture (i == 151) (Config.scanOut i (d.tst.irOf i) [] d.tst.draws) else [false]

/-- A scan of the data registers (R539): the addressed die shifts out what it has captured, and every other included die its own, the die with
the highest position first. -/
def Device.drScan (die : Nat) (out : List Bool) (d : Device) : Device :=
  (d.modTest fun t => { t with draws := t.draws + 1 }).emit (.tdo (d.tst.chain.reverse.flatMap fun i => if i = die then out else d.passes i))

/-- A scan of the instruction registers and then of the data registers of an included die. -/
def Device.tapScan (die code : Nat) (out : List Bool) (d : Device) : Device := (d.irScan die code).drScan die out

/-- BYPASS (R540): a code that selects it; its 1-bit register captures 0. -/
def Device.bypass (die code : Nat) : Device → Device :=
  Device.onTap fun d => if d.tst.has die && irSelects die code == 0xFF then d.tapScan die code [false] else d

/-- BYPASS (R540). What is shifted in has no effect. -/
def execBypass (die : Fin 302) (scan : BypassScan) (s : State) : Host.Outcome State Fault Refusal := s.run (Device.bypass die scan.code.toNat)

/-- The identification of a die (R541). -/
def idcodeOf (i : Nat) : BitVec 32 :=
  let kind : BitVec 16 :=
    if i = 0 then 0xD500 else if i = 151 then 0xD501 else if isArrayDie i then 0xD510 else if isArrayDie (i - 1) then 0xD511 else 0xD520
  (1 : BitVec 4) ++ kind ++ Config.jep106 ++ (1 : BitVec 1)

/-- IDCODE (R540, R541). -/
def Device.idcode (die : Nat) : Device → Device :=
  Device.onTap fun d => if d.tst.has die then d.tapScan die 2 (bitList 32 (idcodeOf die).toNat) else d

/-- IDCODE (R541). -/
def execIdcode (die : Fin 302) (s : State) : Host.Outcome State Fault Refusal := s.run (Device.idcode die)

/-! ### Boundary scan -/

/-- SAMPLE/PRELOAD, and EXTEST (R542, R543): the lands are captured and shifted out, and the boundary register takes what is shifted in. -/
def Device.boundaryScan (code : Nat) (east : Bool) (ports preload : List Bool) : Device → Device :=
  Device.onTap fun d =>
    let i := basePos east
    if d.tst.has i then
      let d := d.irScan i code
      (d.drScan i (d.capture east ports)).modTest fun t => { t with boundary := mset [] t.boundary i (cells (boundarySize east) preload) }
    else d

/-- SAMPLE/PRELOAD (R542): the command gives the cells of the ports' lands. -/
def Device.samplePreload (east : Bool) (lands preload : List Bool) : Device → Device := Device.boundaryScan 1 east lands preload

/-- SAMPLE_PRELOAD (R542). -/
def execSamplePreload (eastDie : Bool) (lands preload : List Bool) (s : State) : Host.Outcome State Fault Refusal :=
  s.run (Device.samplePreload eastDie lands preload)

/-- EXTEST (R543): as SAMPLE/PRELOAD, and before phase 3 begins the boundary register drives the lands while the instruction stands. The
command gives no levels of the ports' lands: they are free (log entry 8). -/
def Device.extest (east : Bool) (preload : List Bool) (d : Device) : Device :=
  d.boundaryScan 0 east (Config.scanOut (basePos east) 0 preload d.tst.draws) preload

/-- EXTEST (R543). -/
def execExtest (eastDie : Bool) (preload : List Bool) (s : State) : Host.Outcome State Fault Refusal := s.run (Device.extest eastDie preload)

/-! ### Wrapper tests and IJTAG -/

/-- What a die's wrapper register or IEEE 1687 network shifts out: free (log entry 8). -/
def Device.scanned (d : Device) (die code : Nat) (bits : List Bool) : List Bool := Config.scanOut die code bits d.tst.draws

/-- A wrapper test (R540, R548, R549): BYPASS while it is not released. -/
def Device.wrapperTest (code die : Nat) (bits : List Bool) : Device → Device :=
  Device.onTap fun d =>
    if !d.tst.has die then d else d.tapScan die code (if d.released 1 then d.scanned die code bits else [false])

/-- EXTEST_DW (R540). -/
def execExtestDw (die : Fin 302) (bits : List Bool) (s : State) : Host.Outcome State Fault Refusal := s.run (Device.wrapperTest 0x08 die bits)
/-- INTEST_DW (R540). -/
def execIntestDw (die : Fin 302) (bits : List Bool) (s : State) : Host.Outcome State Fault Refusal := s.run (Device.wrapperTest 0x09 die bits)

/-- IJTAG (R540, R547): a shift holds the die's network in its cycle (log entry 193); while the parallel path holds it nothing changes in the
die, zeros are captured and CONFLICT is set. -/
def Device.ijtag (die : Nat) (bits : List Bool) : Device → Device :=
  Device.onTap fun d =>
    if !d.tst.has die then d
    else if !d.released 1 then d.tapScan die 0x10 [false]
    else if d.tst.parHolds = some die then (d.tapScan die 0x10 (List.replicate bits.length false)).setBit (tstReg 0) 5
    else (d.tapScan die 0x10 (d.scanned die 0x10 bits)).modTest fun t => { t with tapHolds := some (die, d.now) }

/-- IJTAG (R547). -/
def execIjtag (die : Fin 302) (bits : List Bool) (s : State) : Host.Outcome State Fault Refusal := s.run (Device.ijtag die bits)

/-! ### CONFIG -/

/-- One die of an include mask, in ascending position (R544, R545, R548): the dies included and failed so far, and the old chain. -/
def includeDie (old : Test) (towers : Bool) (mask present : BitVec 302) (a : List Nat × List Nat) (i : Nat) : List Nat × List Nat :=
  let want := mask.getLsbD i && (towers || isBase i) && (dieBelow i == 0 || a.1.contains (dieBelow i)) && !a.2.contains i
  if !want then a
  else if old.has i || present.getLsbD i then (a.1 ++ [i], a.2)
  else (a.1, insertAsc i a.2)

/-- CONFIG (R544, R545): the include mask applied, newly included dies checked for presence; the mask in force before is captured. -/
def Device.configChain (mask present : BitVec 302) : Device → Device :=
  Device.onTap fun d =>
    let old := d.tst
    let r := ((List.range 301).map (· + 1)).foldl (includeDie old (d.released 0) mask present) ([], old.failed)
    let d := (d.tapScan 0 0x11 ((List.range 302).map old.has)).modTest fun t => { t with included := r.1, failed := r.2 }
    if r.2 = old.failed then d else d.setBit (tstReg 0) 6

/-- CONFIG (R544). -/
def execConfig (mask present : BitVec 302) (s : State) : Host.Outcome State Fault Refusal := s.run (Device.configChain mask present)

/-! ### Unlocking -/

/-- SVDTST01. -/
def tagTest : List Byte := [0x53, 0x56, 0x44, 0x54, 0x53, 0x54, 0x30, 0x31]

/-- Whether a token is well formed (R549, R550). -/
def tokenFormat (t : List Byte) : Bool :=
  leAt t 0 4 == 0x544F4B4E && leAt t 4 2 == 0x0501 && decide (leAt t 6 2 < 8) && leAt t 0x14 44 == 0 && leAt t 0x42 62 == 0 &&
    decide (1 ≤ leAt t 0x40 2) && decide (leAt t 0x40 2 ≤ 1280)

/-- UNLOCK_RESULT of a token (R550): the first check that fails. -/
def Device.judgeToken (d : Device) (t : List Byte) : Nat :=
  if d.inTake || decide (d.start.phaseDone < 3) || (d.start.phaseDone == 3 && d.bitOf (svcReg 0xB000) 5) then 6
  else if !tokenFormat t then 2
  else if leAt t 8 8 ≠ d.fuses.identity.toNat then 3
  else if leAt t 0x10 4 < d.startNumber then 4
  else if !Config.falconVerify d.sec.serviceKey (sigMessage tagTest (t.take 0x40)) (sliceBytes t 0x80 (leAt t 0x40 2)) then 5
  else 1

/-- UNLOCK (R549 to R551): a token that passes releases the functions of its scope. What the token register shifts out is free (log entry
8). -/
def Device.unlock (token : List Byte) : Device → Device :=
  Device.onTap fun d =>
    let t := sliceBytes token 0 1408
    let r := d.judgeToken t
    let d := ((d.tapScan 0 0x12 (cells 11264 (d.scanned 0 0x12 []))).modTest fun x => { x with token := t }).setField (tstReg 0) 2 3 r
    if r = 1 then (d.setBit (tstReg 0) 1).modTest fun x => { x with scope := leAt t 6 2 } else d

/-- UNLOCK (R550). -/
def execUnlock (token : List Byte) (s : State) : Host.Outcome State Fault Refusal := s.run (Device.unlock token)

/-- TAP_RESET (R538, R545, R551): the TAP controllers reset, and the chain holds the west base die alone; failed dies stay excluded and
the part stays unlocked. -/
def Device.tapReset : Device → Device := Device.onTap fun d => d.modTest fun t => { t with included := [], ir := [] }

/-- TAP_RESET (R538). -/
def execTapReset (s : State) : Host.Outcome State Fault Refusal := s.run Device.tapReset

/-! ### The parallel path -/

/-- GO (R546, R547): a shift through the network of DIE begins and holds it; where an IJTAG shift holds it, the shift will capture zeros, and
CONFLICT is set. -/
def Device.parallelGo (die : Nat) (d : Device) : Device :=
  let d := d.setBit (tstReg 0x100) 10
  if d.tst.tapHolds = some (die, d.now) then d.setBit (tstReg 0) 5 else d.modTest fun t => { t with parHolds := some die }

/-- A write of TST_PAR_CTL (R546 to R548, R552): DIE and LEN_M1, and with GO a shift through the die's network when the path is
released and no shift runs. -/
def Device.parallelShift (ctl : Nat) (d : Device) : Device :=
  let r := tstReg 0x100
  if field ctl 11 5 ≠ 0 ∨ field ctl 22 42 ≠ 0 then d
  else
    let d := (d.setField r 0 9 (field ctl 0 9)).setField r 16 6 (field ctl 16 6)
    if bit ctl 9 && d.released 2 && !d.bitOf r 10 && decide (field ctl 0 9 < 302) then d.parallelGo (field ctl 0 9) else d

/-- PARALLEL_SHIFT (R546). -/
def execParallelShift (ctl : BitVec 64) (s : State) : Host.Outcome State Fault Refusal := s.run (Device.parallelShift ctl.toNat)

/-- PARALLEL_SHIFT_DONE (R546): the captured bits stand in TST_PAR_DATA, zeros where the TAP held the network (R547), and BUSY clears. -/
def Device.parallelDone (captured : Nat) (d : Device) : Device :=
  let r := tstReg 0x100
  if d.bitOf r 10 then
    let v := if d.tst.parHolds.isSome then captured % 2 ^ (d.fieldOf r 16 6 + 1) else 0
    ((d.setReg (tstReg 0x108) (BitVec.ofNat 64 v)).setField r 10 1 0).modTest fun t => { t with parHolds := none }
  else d

/-- PARALLEL_SHIFT_DONE (R546). -/
def execParallelShiftDone (captured : BitVec 64) (s : State) : Host.Outcome State Fault Refusal := s.run (Device.parallelDone captured.toNat)

end Sys2Proof.Machine
end

