-- ==== Sys2Proof/Machine/Registers.lean ====
section
/-! DEFINITION. Registers as they read (R563 to R575): the values of fields that show other state, and the value of any register of the
space. A register whose fields no view names reads as stored. -/
namespace Sys2Proof.Machine

open Sys2Proof

/-- A register as stored, with one field replaced. -/
def Device.shown (d : Device) (a lo n v : Nat) : Nat := withField (d.reg a).toNat lo n v

/-! ### Blocks of the part as a whole -/

/-- SVC_FUSE (R568). -/
def Device.fuseWord (d : Device) : Nat :=
  let v := d.fuses.variant
  v + variantCores v * 2 ^ 2 + variantLayers v * 2 ^ 7 + variantPorts v * 2 ^ 11 + (if d.fuses.lock then 2 ^ 27 else 0)

/-- SVC_CORES of word w (R570). -/
def Device.coresWord (d : Device) (w : Nat) : Nat :=
  leNat ((List.range 8).map fun i => if 8 * w + i < 20 then BitVec.ofNat 8 (d.coresOf (8 * w + i)) else 0)

/-- SVC_LUMAP of tower t, word w (R571). -/
def Device.lumapWord (d : Device) (t w : Nat) : Nat :=
  (List.range 12).foldl (fun a i => a + (if (d.tower t).lit then mget 31 (d.tower t).lumap (12 * w + i) else 31) * 2 ^ (5 * i)) 0

/-- A 64-bit word of the slate window (R524): 0 while it is being filled. -/
def Device.windowWord (d : Device) (o : Nat) : Nat := if d.start.windowBlock.isSome then 0 else leAt d.start.window o 8

/-- The registers of the SVC_ block that show other state. -/
def Device.svcView (d : Device) (o : Nat) : Nat :=
  if o = 0 then 0x10501D505 + d.fuses.variant * 2 ^ 36
  else if o = 0x8 then d.start.versions.getD 0 0 + d.start.versions.getD 1 0 * 2 ^ 32
  else if o = 0x10 then d.start.versions.getD 2 0
  else if o = 0x20 then d.fuseWord
  else if o = 0x40 then d.serviceState + d.litMask * 2 ^ 3
  else if 0x48 ≤ o ∧ o ≤ 0x58 then d.coresWord ((o - 0x48) / 8)
  else if 0x400 ≤ o ∧ o < 0x540 then d.lumapWord ((o - 0x400) / 16) ((o - 0x400) / 8 % 2)
  else if o = 0x8000 ∨ o = 0xA018 then 0
  else if o = 0x8008 then d.shown (svcReg o) 0 13 d.retire.entries.length
  else if o = 0xB000 then d.shown (svcReg o) 19 1 (if d.slateOpen then 1 else 0)
  else if o = 0xB008 then d.shown (svcReg o) 63 1 (if d.start.windowBlock.isSome then 1 else 0)
  else if 0xC000 ≤ o ∧ o < 0xD000 then d.windowWord (o - 0xC000)
  else if o = 0xD000 then d.shown (svcReg o) 0 2 d.take.state
  else if 0x10000 ≤ o then (d.retire.entries.getD ((o - 0x10000) / 8) 0).toNat
  else (d.reg (svcReg o)).toNat

/-- Whether a layer of a tower or a base die stands in a list of levels (R464, R475). -/
def Device.anyLayer (d : Device) (f : Tower → List Nat) (g : HalfState → Bool) : Bool :=
  ((List.range 20).any fun t => !(f (d.tower t)).isEmpty) || g (d.half 0) || g (d.half 1)

/-- A temperature in 0.125 °C as a 16-bit field. -/
def layerCode (v : Int) : Nat := if v = noReading then 0x8000 else unsignedOf 16 v

/-- Four 16-bit values in one word. -/
def word16 (f : Nat → Nat) (n : Nat) : Nat := (List.range n).foldl (fun a i => a + f i % 2 ^ 16 * 2 ^ (16 * i)) 0

/-- The bits of a list of indices below a bound. -/
def bitsFrom (l : List Nat) (lo n : Nat) : Nat := (List.range n).foldl (fun a i => if l.contains (lo + i) then a + 2 ^ i else a) 0

/-- The thermal registers of a tower (R476) at an offset of its 128 bytes. -/
def Device.towerThermal (d : Device) (t o : Nat) : Nat :=
  let x := d.tower t
  if o < 0x20 then word16 (fun i => layerCode (mget noReading x.layer (o / 2 + i))) (if o = 0x18 then 3 else 4)
  else if o = 0x20 then word16 (fun n => tempCode ((x.modelVal ((nodeLayers n).headD 0)).map Frac.round)) 4
  else if o = 0x28 then bitsFrom x.warn 0 15 + bitsFrom x.throttle 0 15 * 2 ^ 15 + bitsFrom x.middle 0 15 * 2 ^ 30
  else (d.reg (thmReg (0x1000 + 128 * t + o))).toNat

/-- The raw readings and suspect marks (R477). -/
def Device.sensorView (d : Device) (o : Nat) : Nat :=
  if o < 0x9400 then
    let x := d.tower ((o - 0x8000) / 256)
    let r := (o - 0x8000) % 256
    if r < 0xE0 then word16 (fun i => (mget 0x8000 x.sens (r / 2 + i)).toNat) 4
    else if r = 0xE0 then bitsFrom x.suspect 0 64
    else if r = 0xE8 then bitsFrom x.suspect 64 48
    else 0
  else if 0xA000 ≤ o ∧ o < 0xA100 then
    word16 (fun i =>
      let n := (o - 0xA000) / 2 + i
      (mget 0x8000 (d.half (n / 64)).sens n).toNat) 4
  else if o = 0xA100 then bitsFrom (d.half 0).suspect 0 64
  else if o = 0xA108 then bitsFrom (d.half 1).suspect 64 64
  else if o = 0xA200 ∨ o = 0xA208 then word16 (fun i => (mget 0x8000 d.thm.lid ((o - 0xA200) / 2 + i)).toNat) 4
  else if o = 0xA210 then
    d.thm.press.1.toNat + d.thm.press.2.toNat * 2 ^ 16 + bitsFrom d.thm.lidSuspect 0 8 * 2 ^ 32
  else 0

/-- The registers of the THM_ block that show other state (R475 to R477). -/
def Device.thmView (d : Device) (o : Nat) : Nat :=
  if o = 0 then
    withField (d.shown (thmReg 0) 1 1 (if d.anyLayer (·.throttle) (·.throttle) then 1 else 0)) 9 1 (if d.thm.flowOk then 1 else 0)
  else if 0x1000 ≤ o ∧ o < 0x1A00 then d.towerThermal ((o - 0x1000) / 128) ((o - 0x1000) % 128)
  else if 0x8000 ≤ o then d.sensorView o
  else (d.reg (thmReg o)).toNat

/-- The registers of the SEC_ block that show other state (R537). -/
def Device.secView (d : Device) (o : Nat) : Nat :=
  if o = 0 then d.shown (secReg 0) 4 7 d.measMask
  else if o = 8 then d.fuses.identity.toNat
  else if 0x10 ≤ o ∧ o < 0x30 then (d.fuses.keyDigest >>> (8 * (o - 0x10))).toNat % 2 ^ 64
  else if o = 0x40 then d.fuses.counter + d.rollbackTarget * 2 ^ 7
  else if o = 0x48 then 0
  else leAt (d.measBytes ((o - 0x100) / 64)) ((o - 0x100) % 64) 8

/-- A word of a log entry (R562). -/
def LogEntry.word (e : LogEntry) (w : Nat) : Nat :=
  if w = 0 then e.kind % 2 ^ 8 + e.cls % 2 ^ 8 * 2 ^ 8 + e.unit % 2 ^ 8 * 2 ^ 16 + (if e.kind = 0 then 0 else 2 ^ 24) + e.count % 2 ^ 32 * 2 ^ 32
  else if w = 1 then e.addr % 2 ^ 48 + e.seq % 2 ^ 16 * 2 ^ 48
  else if w = 2 then e.frame % 2 ^ 48 + e.syndrome % 2 ^ 16 * 2 ^ 48
  else e.detail % 2 ^ 64

/-- The registers of a log (R562), from LOG_STATUS on: the status, LOST, and the entries from 0x1000. -/
def Device.logView (d : Device) (w o : Nat) : Nat :=
  let l := d.logOf w
  if o = 0 then withField (d.shown (logStatusReg w) 0 9 l.entries.length) 32 16 l.seq
  else if o = 8 then (d.reg (logStatusReg w + 8)).toNat
  else (mget LogEntry.reset l.entries ((o - 0x1000) / 32)).word (o % 32 / 8)

/-- The registers of a STO_ block that show other state (R224, R226, R230, R231, R562). -/
def Device.stoView (d : Device) (h o : Nat) : Nat :=
  if o = 0 then
    withField (d.shown (stoReg h 0) 16 16 (((d.half h).tags.filter fun p => p.2.st != .free).length)) 32 7
      ((d.half h).mcasts.length)
  else if 0x10000 ≤ o ∧ o < 0x12000 then (d.mcastView h ((o - 0x10000) / 8)).toNat
  else if 0x20000 ≤ o ∧ o < 0x20100 ∧ o % 16 = 0 then (d.mergeView h ((o - 0x20000) / 16)).toNat
  else if 0x50000 ≤ o then d.logView (20 + h) (o - 0x50000)
  else (d.reg (stoReg h o)).toNat

/-- The registers of the TST_ block that show other state (R552). -/
def Device.tstView (d : Device) (o : Nat) : Nat :=
  if o = 0 then withField (d.shown (tstReg 0) 0 1 (if d.fuses.lock then 1 else 0)) 16 9 (1 + d.tst.included.length)
  else if 0x10 ≤ o ∧ o < 0x38 then bitsFrom d.tst.failed (8 * (o - 0x10)) 64
  else (d.reg (tstReg o)).toNat

/-! ### Blocks of a core position and of a tower -/

/-- COR_ARR_STATUS (R71). -/
def Core.arrStatus (c : Core) : Nat :=
  let b := fun i => (mget Bank.reset c.banks i).st
  let s := fun (x : Option Tile) => if x.isSome then 1 else 0
  c.level + c.phase * 2 ^ 4 + s c.set0 * 2 ^ 6 + s c.set1 * 2 ^ 7 + b 0 * 2 ^ 8 + b 1 * 2 ^ 10 + b 2 * 2 ^ 12 + b 3 * 2 ^ 14

/-- COR_CUE_STATUS (R103) over the stored EVT_SAT. -/
def Core.cueStatus (c : Core) (stored : Nat) : Nat :=
  c.cueState % 4 + (if c.next.isSome then 4 else 0) + (if c.rotated then 8 else 0) + c.home % 2 ^ 9 * 2 ^ 4 + c.loops.length % 8 * 2 ^ 13 +
    field stored 16 1 * 2 ^ 16 + c.pc % 2 ^ 12 * 2 ^ 32

/-- COR_KV_STATUS (R195). -/
def Core.kvStatus (c : Core) : Nat :=
  let free := match c.pool with
    | some p => poolFrames p - c.used.length - c.quar.length
    | none => 0
  c.used.length % 2 ^ 20 + free % 2 ^ 20 * 2 ^ 20 + c.quar.length % 2 ^ 20 * 2 ^ 40

/-- COR_KV_GRP of a group (R197). -/
def KvGroup.word (g : KvGroup) : Nat :=
  g.fill % 2 ^ 8 + g.pfmt % 4 * 2 ^ 8 + dimCode g.dim * 2 ^ 10 + g.kscale % 2 ^ 8 * 2 ^ 12 + g.vscale % 2 ^ 8 * 2 ^ 20

/-- SR of COR_DRAM_STATUS (R258). -/
def Site.srMask (s : Site) : Nat :=
  (List.range 8).foldl (fun a j => if (mget Channel.reset s.chans j).selfRefresh then a + 2 ^ j else a) 0

/-- COR_NB_STATUS (R284). -/
def Site.nbStatus (s : Site) : Nat :=
  ((List.range 8).foldl (fun a j => a + s.running j % 16 * 2 ^ (4 * j)) 0) + s.cmds.length % 32 * 2 ^ 32

/-- The registers of a COR_ block; those of the fused units of a position served as a slice only read 0 (R565). -/
def Device.corView (d : Device) (k o : Nat) : Nat :=
  let c := d.core k
  if o < 0x1000 ∧ d.hasArray k = false then 0
  else if o = 0x210 then c.arrStatus
  else if o = 0x300 then c.cueStatus (d.reg (corReg k o)).toNat
  else if 0x400 ≤ o ∧ o < 0x600 then (mget 0 c.evt ((o - 0x400) / 8)).toNat
  else if o = 0x708 then c.kvStatus
  else if o = 0x710 then c.cursor % 2 ^ 20
  else if 0x800 ≤ o ∧ o < 0xA00 then (mget KvGroup.reset c.groups ((o - 0x800) / 8)).word
  else if o = 0x1008 then
    withField (d.shown (corReg k o) 8 8 (d.site k).srMask) 16 1 (if (d.site k).srBase || (d.site k).parked then 1 else 0)
  else if o = 0x1100 then (d.site k).nbStatus
  else (d.reg (corReg k o)).toNat

/-- The refresh window of layer M(l + 1) as TWR_DRAM_REF shows it (R249, R255, R256, R261): M13 with no spare of the tower in use is not
refreshed, and under base-die control every layer refreshes at the 8 ms window. -/
def Device.windowShown (d : Device) (t l : Nat) : Nat :=
  let w := mget 0 (d.tower t).window l % 4
  let sites := (List.range 24).map fun c => 24 * t + c
  if w = 3 then 3
  else if l = 12 && sites.all fun k => (List.range 8).all fun j => (List.range 4).all fun s => !d.bitOf (corReg k (0x1040 + 8 * j)) (8 * s + 7) then 3
  else if sites.all fun k => (d.site k).srBase || (d.site k).parked then 2
  else w

/-- The registers of a TWR_ block that show other state (R261, R286, R562). -/
def Device.twrView (d : Device) (t o : Nat) : Nat :=
  if o = 0x301000 then (List.range 13).foldl (fun a l => a + d.windowShown t l * 2 ^ (2 * l)) 0
  else if o = 0x301100 then if d.nbFenceDone t then 2 else 0
  else if 0x304000 ≤ o then d.logView t (o - 0x304000)
  else (d.reg (twrReg t o)).toNat

/-! ### The whole space -/

/-- A word of the MSI-X table or of its pending-bit array (R432), by offset in the HST_ block. -/
def Device.msixWord (d : Device) (o : Nat) : Nat :=
  if o < 0x18000 then ((d.msixEntry ((o - 0x10000) / 16)) >>> (8 * (o % 16))).toNat % 2 ^ 64
  else bitsFrom d.host.pending (8 * (o - 0x18000)) 64

/-- Whether register accesses reach a half: the east over a service/tick module (R378, R502). -/
def Device.reaches (d : Device) (h : Nat) : Bool := !(d.half h).lost && (h == 0 || !d.tickModules.isEmpty)

/-- Whether registers of a block instance answer (R19, R378, R383, R565): those of a tower while it is up, those of a half while it is
there, and those of the east while a service/tick module serves (log entry 38). -/
def Device.answers (d : Device) (l : RegLoc) : Bool :=
  match l.blk with
  | .cor => d.up (towerOf l.inst) && d.reaches (halfOf (towerOf l.inst))
  | .twr => d.up l.inst && d.reaches (halfOf l.inst)
  | .sto => d.reaches l.inst
  | _ => true

/-- Whether an offset of a block holds a register: those of the tables of Regs, the MSI-X table (R432) and the sensor registers
(R477). -/
def regThere (l : RegLoc) : Bool :=
  (regDesc? l.blk l.off).isSome || (l.blk == .hst && decide (0x10000 ≤ l.off) && decide (l.off < 0x18100)) ||
    (l.blk == .thm && decide (0x8000 ≤ l.off) && decide (l.off < 0xA218))

/-- The register of an aligned place, as an 8-byte read returns it (R565, R566). -/
def Device.readReg (d : Device) (l : RegLoc) : Nat :=
  if !regThere l then 0
  else
    match l.blk with
    | .svc => d.svcView l.off
    | .gaf => if l.off = 0x18 then d.shown (gafReg 0x18) 0 1 (if d.inTake then 1 else 0) else (d.reg (gafReg l.off)).toNat
    | .thm => d.thmView l.off
    | .sec => d.secView l.off
    | .sto => d.stoView l.inst l.off
    | .brg => (d.reg (brgReg l.off)).toNat
    | .fab =>
      if 0x100000 ≤ l.off then (mget 0 d.fab.routes ((l.off - 0x100000) / 8)).toNat
      else if 0x400 ≤ l.off ∧ l.off < 0x440 then d.shown (fabReg l.off) 0 1 (if mget 0 d.fab.leaving ((l.off - 0x400) / 8) = 0 then 0 else 1)
      else (d.reg (fabReg l.off)).toNat
    | .hst => if 0x10000 ≤ l.off then d.msixWord l.off else (d.reg (hstReg l.off)).toNat
    | .lpd => (d.reg (lpdReg l.off)).toNat
    | .tst => d.tstView l.off
    | .cor => d.corView l.inst l.off
    | .twr => d.twrView l.inst l.off

/-- A read of 4 or 8 bytes of the register space (R566): `off` a multiple of the size. -/
def Device.regBytes (d : Device) (l : RegLoc) (n : Nat) : List Byte :=
  (leBytes 8 (d.readReg { l with off := 8 * (l.off / 8) })).drop (l.off % 8) |>.take n

end Sys2Proof.Machine
end

