-- ==== Sys2Proof/Machine/RegisterIO.lean ====
section
/-! DEFINITION. Writes of registers (R14 to R16, R565, R566, R573), what a write does beside storing its fields, and the commands of the
register space: host reads and writes (R426 to R430), retirement (R311), logs (R555), flip masks (R303, R304), the slate window
(R524), the mailbox (R436). -/
namespace Sys2Proof.Machine

open Sys2Proof

/-- The address of a register in the register space: the inverse of regLocate. -/
def regAddr (l : RegLoc) : Nat :=
  match l.blk with
  | .svc => svcReg l.off
  | .gaf => gafReg l.off
  | .thm => thmReg l.off
  | .sec => secReg l.off
  | .sto => stoReg l.inst l.off
  | .brg => brgReg l.off
  | .fab => fabReg l.off
  | .hst => hstReg l.off
  | .lpd => lpdReg l.off
  | .tst => tstReg l.off
  | .cor => corReg l.inst l.off
  | .twr => twrReg l.inst l.off

/-! ### Fields -/

/-- The fields of a register: word 3 of an STO_MCAST group ends at bit 47 (R230). -/
def regFields (l : RegLoc) (r : RegDesc) : List RField :=
  if l.blk = .sto ∧ r.off = 0x10000 ∧ l.off % 32 = 24 then [⟨0, 48, .rw⟩] else r.fields

/-- The bits that fields of a register hold; the rest is reserved (R16; log entry 11). -/
def namedBits (fs : List RField) : Nat := fs.foldl (fun a f => a + (2 ^ f.n - 1) * 2 ^ f.lo) 0

/-- Whether the `n` written bits from `lo` hold a field wholly (R566). -/
def holds (lo n fl fn : Nat) : Bool := decide (lo ≤ fl) && decide (fl + fn ≤ lo + n)

/-- A field after a write of `v` (R14): `keep` marks W1C bits that stay set, their condition in force (R573) or hardware having set them in
this cycle (R15). -/
def writeField (lo n v keep : Nat) (w : Nat) (f : RField) : Nat :=
  if !holds lo n f.lo f.n then w
  else
    match f.acc with
    | .rw => withField w f.lo f.n (field v f.lo f.n)
    | .w1c => withField w f.lo f.n (field w f.lo f.n &&& (2 ^ f.n - 1 - (field v f.lo f.n &&& (2 ^ f.n - 1 - field keep f.lo f.n))))
    | .ro => w
    | .wo => w

/-- The W1C bits of a register that mirror a condition in force (R573). -/
def Device.inForce (d : Device) (l : RegLoc) : Nat :=
  match l.blk with
  | .thm => if l.off = 0 && d.anyLayer (·.warn) (·.warn) then 1 else 0
  | .gaf => if l.off = 0x18 && d.heatRemoved.lt (.ofInt d.pkgW) then 2 ^ 4 else 0
  | .lpd => if decide (0x100 ≤ l.off) && !(mget LpdChan.reset d.lpd ((l.off - 0x100) / 8)).hot.isEmpty then 2 ^ 4 else 0
  | _ => 0

/-- Whether a write is ignored in the part's present state: settings of a take while it runs (R194, R198, R230, R231, R257, R365), and
the ring of an engine that runs (R451). -/
def Device.barred (d : Device) (l : RegLoc) : Bool :=
  let take := d.inTake || d.take.starting
  match l.blk with
  | .cor => take && (l.off == 0x700 || l.off == 0x1000)
  | .sto => take && decide (0x10000 ≤ l.off) && decide (l.off < 0x40010)
  | .svc => take && l.off == 0x9100
  | .hst =>
    decide (0x200 ≤ l.off) && decide (l.off < 0x400) && (l.off % 64 == 0 || l.off % 64 == 8) &&
      d.bitOf (hstReg (l.off - l.off % 64 + 0x28)) 0
  | _ => false

/-- Whether a register's write is its action alone: RUN of a DMA engine, and TST_PAR_CTL. -/
def actsAlone (l : RegLoc) : Bool :=
  match l.blk with
  | .hst => decide (0x200 ≤ l.off) && decide (l.off < 0x400) && l.off % 64 == 0x28
  | .tst => l.off == 0x100
  | _ => false

/-- The value that a write gives: bits of an STO_MCAST register at positions without an array keep their value (R214). -/
def Device.givenBits (d : Device) (l : RegLoc) (v : Nat) : Nat :=
  if l.blk = .sto ∧ 0x10000 ≤ l.off ∧ l.off < 0x12000 then
    let m := d.mcastMask l.inst ((l.off - 0x10000) / 8 % 4)
    (v &&& m) ||| ((d.reg (stoReg l.inst l.off)).toNat &&& (2 ^ 64 - 1 - m))
  else v

/-- A register after a write of its counter (R574): the increments of this cycle stand on top of the written value. -/
def Device.addCycle (d : Device) (a lo n : Nat) (fs : List RField) (w : Nat) : Nat :=
  if fs.contains ⟨0, 48, .rw⟩ && holds lo n 0 48 then withField w 0 48 (min (2 ^ 48 - 1) (field w 0 48 + mget 0 d.cycle.inc a)) else w

/-- The fields of a register stored by a write. -/
def Device.storeFields (d : Device) (l : RegLoc) (lo n v : Nat) (fs : List RField) : Device :=
  if actsAlone l then d
  else
    let g := d.givenBits l v
    let a := regAddr l
    let keep := d.inForce l ||| mget 0 d.cycle.set a
    d.setReg a (BitVec.ofNat 64 (d.addCycle a lo n fs (fs.foldl (writeField lo n g keep) (d.reg a).toNat)))

/-! ### Retirement -/

/-- Whether a retirement entry is legal on the part (R311). -/
def Device.entryLegal (d : Device) (e : Nat) : Bool :=
  let small := d.fuses.variant == 2
  field e 4 4 == 0 && field e 40 24 == 0 &&
    match field e 0 2 with
    | 1 =>
      match regionOf (field e 8 32 * 65536) with
      | .dram _ o => !small || decide (o < 0x80000000)
      | _ => false
    | 2 =>
      decide (field e 8 5 < 20) && decide (field e 13 5 < 24) && decide (field e 21 6 < (if small then 32 else 48)) && field e 27 13 == 0
    | 3 => decide (field e 9 9 < 272) && field e 18 22 == 0
    | _ => false

/-- Whether retiring a store slice would leave its half below 256 usable slices (R201, R311). -/
def Device.lastSlice (d : Device) (e : Nat) : Bool :=
  let b := d.badSlices (field e 8 1)
  field e 0 2 == 3 && decide (16 < b.length + if b.contains (field e 9 9) then 0 else 1)

/-- RESULT of an addition (R311; the order of the causes is log entry 37). -/
def Device.addResult (d : Device) (e : Nat) : Nat :=
  if !d.entryLegal e then 3
  else if d.retire.entries.any (sameEntry (BitVec.ofNat 64 e)) then 1
  else if 4096 ≤ d.retire.entries.length then 2
  else if d.lastSlice e then 4
  else 0

/-- A retirement entry written to SVC_RETIRE_ADD (R309 to R311): a page takes effect at once, a bank or a slice is pending. -/
def Device.retireAdd (e : Nat) (d : Device) : Device :=
  let r := d.addResult e
  let d := d.setField (svcReg 0x8008) 13 3 r
  if r ≠ 0 then d
  else
    let x : BitVec 64 := BitVec.ofNat 64 (withField (withField e 2 1 (if field e 0 2 = 1 then 0 else 1)) 3 1 0)
    { d with retire := { entries := d.retire.entries ++ [x] }, start := { d.start with swRetired := d.start.swRetired ++ [x] } }

/-- RETIRE_ADD (R311). -/
def execRetireAdd (entry : BitVec 64) (s : State) : Host.Outcome State Fault Refusal := s.run (Device.retireAdd entry.toNat)

/-! ### Logs, flip masks, the slate window -/

/-- A log emptied (R555): SEQ continues. -/
def Device.clearLog (w : Nat) (d : Device) : Device := d.setLog w { d.logOf w with entries := [] }

/-- Whether TARGET and SEL name a flip target of a block (R304, R422, R452); of a position served as a slice only, its DRAM channels
alone (R565). -/
def Device.flipTarget (d : Device) (l : RegLoc) (target sel : Nat) : Bool :=
  match l.blk with
  | .cor =>
    (target == 6 && decide (sel < 8)) ||
      (d.hasArray l.inst && ((([0, 1, 5] : List Nat).contains target && sel == 0) || (([2, 3, 4] : List Nat).contains target && decide (sel < 2))))
  | .sto => (target == 0 && decide (sel < 256)) || (target == 1 && decide (sel < 6))
  | .fab => target == 0 && decide (sel < 16)
  | .hst => target == 0 && sel == 0
  | _ => false

/-- Whether a register is a flip control register. -/
def isFlipCtl (l : RegLoc) : Bool :=
  match l.blk with
  | .cor => l.off == 0x1218
  | .sto => l.off == 0x118
  | .fab => l.off == 0x318
  | .hst => l.off == 0x418
  | _ => false

/-- ARM of a flip control register written, with TARGET and SEL stored (R303, R304). -/
def Device.armFlip (d : Device) (l : RegLoc) (arm : Bool) : Device :=
  let a := regAddr l
  if !arm then d.setField a 1 1 0
  else if d.flipTarget l (d.fieldOf a 3 4) (d.fieldOf a 7 8) then d.setField a 1 1 1
  else d

/-- BLOCK of SVC_SLATE_ADDR written (R524): a read of the flash into the window begins. -/
def Device.fillWindow (block : Nat) (d : Device) : Device :=
  { d.setField (svcReg 0xB008) 0 17 block with start := { d.start with windowBlock := some block } }

/-- SLATE_WINDOW_FILL (R524). -/
def execSlateWindowFill (block : BitVec 17) (s : State) : Host.Outcome State Fault Refusal := s.run (Device.fillWindow block.toNat)

/-- WINDOW_FILLED (R524): the window holds the block; what a block past the end of the flash holds is free (log entry 5). -/
def Device.windowFilled (d : Device) : Device :=
  match d.start.windowBlock with
  | none => d
  | some b =>
    if b < 2 ^ (leNat (d.flashRead 6 1) - 12) then
      { d with start := { d.start with window := d.flashRead (4096 * b) 4096, windowBlock := none } }
    else
      let x := d.drawBytes 4096
      { x.2 with start := { d.start with window := x.1, windowBlock := none } }

/-- WINDOW_FILLED (R524). -/
def execWindowFilled (s : State) : Host.Outcome State Fault Refusal := s.run Device.windowFilled

/-! ### The mailbox -/

/-- A command written to HST_MBX_CMD (R436, R437). -/
def Device.mailbox (op : Nat) (d : Device) : Device :=
  match op with
  | 0x01 => d.reelLoadCmd
  | 0x02 => d.takeStartCmd
  | 0x03 => d.takeStopCmd
  | 0x04 =>
    if d.mbxArg 0 = 0 then d.saveDrainCmd
    else if d.mbxArg 0 = 1 then d.saveCaptureCmd
    else Device.mbxWhen 0x04 (fun _ => true) (fun d => d.mbxEnd 3) d
  | 0x05 => d.resumeCmd
  | 0x06 => d.rejoinCmd
  | 0x07 => d.arrayResetCmd
  | 0x08 => d.rerouteCmd
  | 0x09 => d.stopCmd
  | 0x10 => d.calReadCmd
  | 0x11 => d.calWriteCmd
  | 0x20 => d.attestCmd
  | _ => Device.mbxBegin op (fun d => d.mbxEnd 2) d

/-! ### What a write does -/

/-- RUN and CLEAR of a DMA engine written (R434, R435, R451). -/
def Device.dmaCtl (e lo n v : Nat) (d : Device) : Device :=
  if !holds lo n 0 3 then d
  else
    let d := if bit v 2 then d.dmaClear e else d
    if bit v 0 then d.dmaRun e else d.setField (dmaReg e 0x28) 0 1 0

/-- The action of a write of a register of the HST_ block. -/
def Device.actHst (l : RegLoc) (lo n v : Nat) (d : Device) : Device :=
  if l.off = 0x100 then if holds lo n 0 8 then d.whole (Device.mailbox (field v 0 8)) else d
  else if actsAlone l then d.dmaCtl ((l.off - 0x200) / 64) lo n v
  else d

/-- The action of a write of a register of the SVC_ block. -/
def Device.actSvc (off lo n v : Nat) (d : Device) : Device :=
  if off = 0x8000 then if holds lo n 0 64 then d.retireAdd v else d
  else if off = 0xA018 then if holds lo n 0 16 then d.svcResetKey (field v 0 16) else d
  else if off = 0xB008 then if holds lo n 0 17 then d.fillWindow (field v 0 17) else d
  else d

/-- What a write does beside storing fields (R14, WO). -/
def Device.act (l : RegLoc) (lo n v : Nat) (d : Device) : Device :=
  if isFlipCtl l then if holds lo n 0 1 then d.armFlip l (bit v 0) else d
  else
    match l.blk with
    | .svc => d.actSvc l.off lo n v
    | .sec => if l.off = 0x48 && holds lo n 0 16 then d.rollbackAdvance (field v 0 16) else d
    | .sto => if l.off = 0x50000 && holds lo n 10 1 && bit v 10 then d.clearLog (20 + l.inst) else d
    | .twr =>
      if l.off = 0x304000 && holds lo n 10 1 && bit v 10 then d.clearLog l.inst
      else if l.off = 0x301100 && holds lo n 0 1 && bit v 0 then d.nbFence l.inst
      else d
    | .hst => d.actHst l lo n v
    | .tst => if l.off = 0x100 && holds lo n 0 32 then d.parallelShift v else d
    | .gaf => d
    | .thm => d
    | .brg => d
    | .fab => d
    | .lpd => d
    | .cor => d

/-- An entry of the MSI-X table written in part (R432): a pending vector that this unmasks is sent. -/
def Device.writeMsix (d : Device) (o lo n v : Nat) : Device :=
  let i := (o - 0x10000) / 16
  let e := withField (d.msixEntry i).toNat (8 * (o % 16) + lo) n (field v lo n)
  ({ d with host := { d.host with msix := mset msixReset d.host.msix i (BitVec.ofNat 128 e) } } : Device).sendPending

/-- A write of the `n` bits from `lo` of the register at an aligned place; `v` holds them in their place (R14 to R16, R565, R566). -/
def Device.regWrite (l : RegLoc) (lo n v : Nat) (d : Device) : Device :=
  if l.blk = .hst ∧ 0x10000 ≤ l.off ∧ l.off < 0x18000 then d.writeMsix l.off lo n v
  else
    match regDesc? l.blk l.off with
    | none => d
    | some r =>
      let fs := regFields l r
      if v &&& (2 ^ 64 - 1 - namedBits fs) ≠ 0 ∨ d.barred l = true then d
      else if l.blk = .cor ∧ l.off < 0x1000 ∧ d.hasArray l.inst = false then d
      else (d.storeFields l lo n v fs).act l lo n v

/-- An access to a register of a dark or fenced tower (R19, R565): the base die of its half enters it in the half's log and sets ADDR. -/
def Device.darkAccess (d : Device) (l : RegLoc) (a : Nat) : Device :=
  let enter := fun (h : Nat) => if d.reaches h then (d.log (20 + h) 0x07 14 a 0 0).setBit (stoReg h 8) 5 else d
  match l.blk with
  | .sto => d
  | .cor => enter (halfOf (towerOf l.inst))
  | _ => enter (halfOf l.inst)

/-- Device-local address of the register space (R563). -/
def regSpace : Nat := 0x0F0000000000

/-- A write of 4 or 8 bytes at an offset of the register space (R565, R566). -/
def Device.spaceWrite (off v : Nat) (wide : Bool) (d : Device) : Device :=
  let n := if wide then 8 else 4
  if off % n ≠ 0 then d.hostAddrError (regSpace + off)
  else
    match regLocate off with
    | none => d
    | some l =>
      if !regThere { l with off := 8 * (l.off / 8) } then d
      else if !d.answers l then d.darkAccess l (regSpace + off)
      else d.regWrite { l with off := 8 * (l.off / 8) } (8 * (off % 8)) (8 * n) (v % 2 ^ (8 * n) * 2 ^ (8 * (off % 8)))

/-- REGISTER_WRITE (R14). -/
def execRegisterWrite (off : BitVec 29) (value : BitVec 64) (wide : Bool) (s : State) : Host.Outcome State Fault Refusal :=
  s.run (Device.spaceWrite off.toNat value.toNat wide)

/-- LOG_CLEAR (R555): CLEAR of a log's status register. -/
def Device.logClear (w : Nat) (d : Device) : Device :=
  if w < 20 then if d.up w then d.clearLog w else d else if (d.half (w - 20)).lost then d else d.clearLog w

/-- The number of a log. -/
def logNum : LogId → Nat
  | .tower t => t
  | .half h => 20 + halfNum h

/-- LOG_CLEAR (R555). -/
def execLogClear (log : LogId) (s : State) : Host.Outcome State Fault Refusal := s.run (Device.logClear (logNum log))

/-- The flip control register of a block. -/
def flipLoc : FlipBlock → RegLoc
  | .core c => ⟨.cor, c, 0x1218⟩
  | .store h => ⟨.sto, halfNum h, 0x118⟩
  | .fabric => ⟨.fab, 0, 0x318⟩
  | .host => ⟨.hst, 0, 0x418⟩

/-- FLIP_ARM (R303, R304): TARGET and SEL are set, and the mask is armed when they name a target. -/
def Device.flipArm (blk : FlipBlock) (target sel : Nat) (d : Device) : Device :=
  let l := flipLoc blk
  if d.answers l then ((d.setField (regAddr l) 3 4 target).setField (regAddr l) 7 8 sel).armFlip l true else d

/-- FLIP_ARM (R303). -/
def execFlipArm (blk : FlipBlock) (target : BitVec 4) (sel : BitVec 8) (s : State) : Host.Outcome State Fault Refusal :=
  s.run (Device.flipArm blk target.toNat sel.toNat)

/-- FLIP_DISARM (R304). -/
def Device.flipDisarm (blk : FlipBlock) (d : Device) : Device :=
  let l := flipLoc blk
  if d.answers l then d.armFlip l false else d

/-- FLIP_DISARM (R304). -/
def execFlipDisarm (blk : FlipBlock) (s : State) : Host.Outcome State Fault Refusal := s.run (Device.flipDisarm blk)

/-! ### Host accesses -/

/-- Size of BAR0 (R426, R563). -/
def bar0Size : Nat := 0x20000000
/-- Size of BAR4 (R430). -/
def bar4Size : Nat := 0x100000

/-- A host read of the register space (R565, R566). -/
def Device.readBar0 (d : Device) (off n : Nat) : Device :=
  if (n ≠ 4 ∧ n ≠ 8) ∨ off % n ≠ 0 then (d.hostAddrError (regSpace + off)).emit .completerAbort
  else
    match regLocate off with
    | none => d.emit (.readCompletion (List.replicate n 0) [])
    | some l =>
      if !regThere { l with off := 8 * (l.off / 8) } then d.emit (.readCompletion (List.replicate n 0) [])
      else if !d.answers l then (d.darkAccess l (regSpace + off)).emit .completerAbort
      else d.emit (.readCompletion (d.regBytes l n) [])

/-- A memory request of the host reaches the part: the link is up and the west half is there (R383, R449). -/
def Device.hostThere (d : Device) : Bool := d.linkUp && !(d.half 0).lost

/-- HOST_READ (R427 to R430, R438, R566): a request that no BAR takes, or one outside D0 or before configuration is open, is
unsupported. -/
def Device.hostRead (bar off n : Nat) (d : Device) : Device :=
  if !d.hostThere then d
  else if !d.hostOpen then d.emit .unsupportedRequest
  else if bar = 0 ∧ off + n ≤ bar0Size then d.readBar0 off n
  else if bar = 2 ∧ off + n ≤ 2 ^ d.host.bar2Log2 then d.readBar2 off n
  else if bar = 4 ∧ off + n ≤ bar4Size then d.emit (.readCompletion (d.readBar4 off n) [])
  else d.emit .unsupportedRequest

/-- HOST_READ (R427). -/
def execHostRead (bar off len : Nat) (s : State) : Host.Outcome State Fault Refusal := s.run (Device.hostRead bar off len)

/-- A poisoned write of the host that reaches no memory: counted (R429). -/
def Device.poisonIn (d : Device) (ep : Bool) : Device := if ep then (d.setBit (hstReg 0x10) 2).count (hstReg 0x28) 1 else d

/-- A host write of the register space (R566); one received with EP is counted and changes no register (log entry 39). -/
def Device.writeBar0 (d : Device) (off : Nat) (bs : List Byte) (ep : Bool) : Device :=
  let n := bs.length
  if (n ≠ 4 ∧ n ≠ 8) ∨ off % n ≠ 0 then (d.poisonIn ep).hostAddrError (regSpace + off)
  else if ep then d.poisonIn true
  else d.spaceWrite off (leNat bs) (n == 8)

/-- HOST_WRITE (R427 to R430, R566). -/
def Device.hostWrite (bar off : Nat) (bs : List Byte) (ep : Bool) (d : Device) : Device :=
  if !d.hostThere || !d.hostOpen then d
  else if bar = 0 ∧ off + bs.length ≤ bar0Size then d.writeBar0 off bs ep
  else if bar = 2 ∧ off + bs.length ≤ 2 ^ d.host.bar2Log2 then d.writeBar2 off bs ep
  else if bar = 4 ∧ off + bs.length ≤ bar4Size then (d.poisonIn ep).doorbellWrite off bs.length
  else d

/-- HOST_WRITE (R428). -/
def execHostWrite (bar off : Nat) (bytes : List Byte) (ep : Bool) (s : State) : Host.Outcome State Fault Refusal :=
  s.run (Device.hostWrite bar off bytes ep)

end Sys2Proof.Machine
end

