-- ==== Sys2Proof/Machine/Dispatch.lean ====
section
/-! DEFINITION. The commands dispatched to their meanings: one arm for each constructor of Instr. -/
namespace Sys2Proof.Machine

open Sys2Proof

/-- The effect of a command on everything but the queue. -/
def exec (i : Instr) (s : State) : Host.Outcome State Fault Refusal :=
  match i with
  | .cueIssue c => Sys2Proof.Machine.execCueIssue c s
  | .wait c => Sys2Proof.Machine.execWait c s
  | .holdRelease c => Sys2Proof.Machine.execHoldRelease c s
  | .sigLocal c => Sys2Proof.Machine.execSigLocal c s
  | .sigRemote c => Sys2Proof.Machine.execSigRemote c s
  | .signalDelivery k => Sys2Proof.Machine.execSignalDelivery k s
  | .fence c => Sys2Proof.Machine.execFence c s
  | .loop c => Sys2Proof.Machine.execLoop c s
  | .jump c => Sys2Proof.Machine.execJump c s
  | .endFrame c => Sys2Proof.Machine.execEndFrame c s
  | .endFrameComplete c => Sys2Proof.Machine.execEndFrameComplete c s
  | .descWrite c => Sys2Proof.Machine.execDescWrite c s
  | .nop c => Sys2Proof.Machine.execNop c s
  | .matrix c => Sys2Proof.Machine.execMatrix c s
  | .tileUnload c => Sys2Proof.Machine.execTileUnload c s
  | .rampUpStep c => Sys2Proof.Machine.execRampUpStep c s
  | .drainEnd c => Sys2Proof.Machine.execDrainEnd c s
  | .rampDownStep c => Sys2Proof.Machine.execRampDownStep c s
  | .convert c => Sys2Proof.Machine.execConvert c s
  | .add c => Sys2Proof.Machine.execAdd c s
  | .sub c => Sys2Proof.Machine.execSub c s
  | .mul c => Sys2Proof.Machine.execMul c s
  | .fma c => Sys2Proof.Machine.execFma c s
  | .max c => Sys2Proof.Machine.execMax c s
  | .min c => Sys2Proof.Machine.execMin c s
  | .rsum c => Sys2Proof.Machine.execRsum c s
  | .rmax c => Sys2Proof.Machine.execRmax c s
  | .rsumsq c => Sys2Proof.Machine.execRsumsq c s
  | .quantMx c => Sys2Proof.Machine.execQuantMx c s
  | .treeSum c => Sys2Proof.Machine.execTreeSum c s
  | .exp2 c => Sys2Proof.Machine.execExp2 c s
  | .log2 c => Sys2Proof.Machine.execLog2 c s
  | .recip c => Sys2Proof.Machine.execRecip c s
  | .rsqrt c => Sys2Proof.Machine.execRsqrt c s
  | .silu c => Sys2Proof.Machine.execSilu c s
  | .gelu c => Sys2Proof.Machine.execGelu c s
  | .attend c => Sys2Proof.Machine.execAttend c s
  | .finish c => Sys2Proof.Machine.execFinish c s
  | .append c => Sys2Proof.Machine.execAppend c s
  | .evict c => Sys2Proof.Machine.execEvict c s
  | .probe c => Sys2Proof.Machine.execProbe c s
  | .acquire c => Sys2Proof.Machine.execAcquire c s
  | .insert c => Sys2Proof.Machine.execInsert c s
  | .remove c => Sys2Proof.Machine.execRemove c s
  | .release c => Sys2Proof.Machine.execRelease c s
  | .storeDmaRead c => Sys2Proof.Machine.execStoreDmaRead c s
  | .storeDmaWrite c => Sys2Proof.Machine.execStoreDmaWrite c s
  | .send c => Sys2Proof.Machine.execSend c s
  | .dramDmaRead c => Sys2Proof.Machine.execDramDmaRead c s
  | .dramDmaWrite c => Sys2Proof.Machine.execDramDmaWrite c s
  | .gather c => Sys2Proof.Machine.execGather c s
  | .copy c => Sys2Proof.Machine.execCopy c s
  | .fill c => Sys2Proof.Machine.execFill c s
  | .and c => Sys2Proof.Machine.execAnd c s
  | .or c => Sys2Proof.Machine.execOr c s
  | .xor c => Sys2Proof.Machine.execXor c s
  | .not c => Sys2Proof.Machine.execNot c s
  | .nbAdd c => Sys2Proof.Machine.execNbAdd c s
  | .nbSub c => Sys2Proof.Machine.execNbSub c s
  | .nbMul c => Sys2Proof.Machine.execNbMul c s
  | .nbFma c => Sys2Proof.Machine.execNbFma c s
  | .scale c => Sys2Proof.Machine.execScale c s
  | .resadd c => Sys2Proof.Machine.execResadd c s
  | .sumsq c => Sys2Proof.Machine.execSumsq c s
  | .normApply c => Sys2Proof.Machine.execNormApply c s
  | .actTable c => Sys2Proof.Machine.execActTable c s
  | .nbConvert c => Sys2Proof.Machine.execNbConvert c s
  | .quantFp8 c => Sys2Proof.Machine.execQuantFp8 c s
  | .adamw c => Sys2Proof.Machine.execAdamw c s
  | .nbStepStart site ch bank => Sys2Proof.Machine.execNbStepStart site ch bank s
  | .nbStepEnd site ch bank => Sys2Proof.Machine.execNbStepEnd site ch bank s
  | .nbFenceReq t => Sys2Proof.Machine.execNbFenceReq t s
  | .storeRead h tag => Sys2Proof.Machine.execStoreRead h tag s
  | .storeWrite h tag => Sys2Proof.Machine.execStoreWrite h tag s
  | .storeResponse h tag gen => Sys2Proof.Machine.execStoreResponse h tag gen s
  | .storeTagTimeout h tag => Sys2Proof.Machine.execStoreTagTimeout h tag s
  | .storeTagRelease h tag => Sys2Proof.Machine.execStoreTagRelease h tag s
  | .mcastCatchup h member => Sys2Proof.Machine.execMcastCatchup h member s
  | .mergeExpiry h slice => Sys2Proof.Machine.execMergeExpiry h slice s
  | .scrubAccess who => Sys2Proof.Machine.execScrubAccess who s
  | .dramRequest site ch req => Sys2Proof.Machine.execDramRequest site ch req s
  | .burstGrant site ch => Sys2Proof.Machine.execBurstGrant site ch s
  | .refreshDue site ch bank => Sys2Proof.Machine.execRefreshDue site ch bank s
  | .rowTimeout site ch bank => Sys2Proof.Machine.execRowTimeout site ch bank s
  | .selfRefreshIdle site ch => Sys2Proof.Machine.execSelfRefreshIdle site ch s
  | .bankCopy site ch bank => Sys2Proof.Machine.execBankCopy site ch bank s
  | .tick meas => Sys2Proof.Machine.execTick meas s
  | .samplingPoint => Sys2Proof.Machine.execSamplingPoint s
  | .gafferResults => Sys2Proof.Machine.execGafferResults s
  | .gafferOutcome => Sys2Proof.Machine.execGafferOutcome s
  | .guardBandStart eyes => Sys2Proof.Machine.execGuardBandStart eyes s
  | .guardForce => Sys2Proof.Machine.execGuardForce s
  | .clapper port msg early => Sys2Proof.Machine.execClapper port msg early s
  | .holdoverEntry => Sys2Proof.Machine.execHoldoverEntry s
  | .holdoverExpiry => Sys2Proof.Machine.execHoldoverExpiry s
  | .payloadLanded landing stamp bytes => Sys2Proof.Machine.execPayloadLanded landing stamp bytes s
  | .flowStale => Sys2Proof.Machine.execFlowStale s
  | .flowOkSample level => Sys2Proof.Machine.execFlowOkSample level s
  | .survivalExit => Sys2Proof.Machine.execSurvivalExit s
  | .contExchange fingerprint digest => Sys2Proof.Machine.execContExchange fingerprint digest s
  | .contOutcome n pass => Sys2Proof.Machine.execContOutcome n pass s
  | .contOutcomeMissing => Sys2Proof.Machine.execContOutcomeMissing s
  | .contSignatures n sigs => Sys2Proof.Machine.execContSignatures n sigs s
  | .contCompareLate => Sys2Proof.Machine.execContCompareLate s
  | .saveDrain => Sys2Proof.Machine.execSaveDrain s
  | .drainDone => Sys2Proof.Machine.execDrainDone s
  | .saveCapture => Sys2Proof.Machine.execSaveCapture s
  | .resume => Sys2Proof.Machine.execResume s
  | .reelLoad => Sys2Proof.Machine.execReelLoad s
  | .takeStart => Sys2Proof.Machine.execTakeStart s
  | .takeStop => Sys2Proof.Machine.execTakeStop s
  | .towerRejoin => Sys2Proof.Machine.execTowerRejoin s
  | .arrayReset => Sys2Proof.Machine.execArrayReset s
  | .reroute => Sys2Proof.Machine.execReroute s
  | .stop => Sys2Proof.Machine.execStop s
  | .calRead => Sys2Proof.Machine.execCalRead s
  | .calWrite => Sys2Proof.Machine.execCalWrite s
  | .attest => Sys2Proof.Machine.execAttest s
  | .bridgeFlit m toEast flit => Sys2Proof.Machine.execBridgeFlit m toEast flit s
  | .bridgeReplayTimeout m toEast => Sys2Proof.Machine.execBridgeReplayTimeout m toEast s
  | .bridgeRetrain m failTx failRx cleanLo cleanHi => Sys2Proof.Machine.execBridgeRetrain m failTx failRx cleanLo cleanHi s
  | .elasticLimit m => Sys2Proof.Machine.execElasticLimit m s
  | .halfLoss h => Sys2Proof.Machine.execHalfLoss h s
  | .towerLoss towers => Sys2Proof.Machine.execTowerLoss towers s
  | .fabFlit port flit => Sys2Proof.Machine.execFabFlit port flit s
  | .fabReplayTimeout port => Sys2Proof.Machine.execFabReplayTimeout port s
  | .data port pkt => Sys2Proof.Machine.execData port pkt s
  | .coll port pkt => Sys2Proof.Machine.execColl port pkt s
  | .ack port pkt => Sys2Proof.Machine.execAck port pkt s
  | .packetForward port pkt => Sys2Proof.Machine.execPacketForward port pkt s
  | .packetAged port pkt => Sys2Proof.Machine.execPacketAged port pkt s
  | .fabTagTimeout port tag => Sys2Proof.Machine.execFabTagTimeout port tag s
  | .fabTagRelease port tag => Sys2Proof.Machine.execFabTagRelease port tag s
  | .beacon port payload => Sys2Proof.Machine.execBeacon port payload s
  | .beaconSend port => Sys2Proof.Machine.execBeaconSend port s
  | .election => Sys2Proof.Machine.execElection s
  | .topo port pkt => Sys2Proof.Machine.execTopo port pkt s
  | .routeDelivery => Sys2Proof.Machine.execRouteDelivery s
  | .assign port pkt => Sys2Proof.Machine.execAssign port pkt s
  | .route port pkt => Sys2Proof.Machine.execRoute port pkt s
  | .commit port pkt => Sys2Proof.Machine.execCommit port pkt s
  | .partnerAbsent port => Sys2Proof.Machine.execPartnerAbsent port s
  | .partnerAppear port failing delay => Sys2Proof.Machine.execPartnerAppear port failing delay s
  | .laneFailure port lane => Sys2Proof.Machine.execLaneFailure port lane s
  | .portSilent port => Sys2Proof.Machine.execPortSilent port s
  | .delayEcho port delay => Sys2Proof.Machine.execDelayEcho port delay s
  | .combine engine => Sys2Proof.Machine.execCombine engine s
  | .configRequest req => Sys2Proof.Machine.execConfigRequest req s
  | .hostRead bar off len => Sys2Proof.Machine.execHostRead bar off len s
  | .hostWrite bar off bytes ep => Sys2Proof.Machine.execHostWrite bar off bytes ep s
  | .doorbellWrite off len => Sys2Proof.Machine.execDoorbellWrite off len s
  | .doorbellIncrement => Sys2Proof.Machine.execDoorbellIncrement s
  | .msixUnmask vector => Sys2Proof.Machine.execMsixUnmask vector s
  | .dmaRun e => Sys2Proof.Machine.execDmaRun e s
  | .dmaClear e => Sys2Proof.Machine.execDmaClear e s
  | .dmaDescriptorStart e => Sys2Proof.Machine.execDmaDescriptorStart e s
  | .dmaDescriptorComplete e => Sys2Proof.Machine.execDmaDescriptorComplete e s
  | .d3hotEntry => Sys2Proof.Machine.execD3hotEntry s
  | .d0Entry => Sys2Proof.Machine.execD0Entry s
  | .hostReset kind => Sys2Proof.Machine.execHostReset kind s
  | .perstRelease => Sys2Proof.Machine.execPerstRelease s
  | .capacityAccess write addr len bytes => Sys2Proof.Machine.execCapacityAccess write addr len bytes s
  | .lpddrRefresh ch bank => Sys2Proof.Machine.execLpddrRefresh ch bank s
  | .lpddrTempReadout ch temp fast => Sys2Proof.Machine.execLpddrTempReadout ch temp fast s
  | .setEndpointId eid => Sys2Proof.Machine.execSetEndpointId eid s
  | .getEndpointId => Sys2Proof.Machine.execGetEndpointId s
  | .getMctpVersionSupport msgType => Sys2Proof.Machine.execGetMctpVersionSupport msgType s
  | .getMessageTypeSupport => Sys2Proof.Machine.execGetMessageTypeSupport s
  | .getTid => Sys2Proof.Machine.execGetTid s
  | .getPldmVersion pldmType => Sys2Proof.Machine.execGetPldmVersion pldmType s
  | .getPldmTypes => Sys2Proof.Machine.execGetPldmTypes s
  | .getPldmCommands pldmType => Sys2Proof.Machine.execGetPldmCommands pldmType s
  | .getPdr record => Sys2Proof.Machine.execGetPdr record s
  | .getSensorReading sensor => Sys2Proof.Machine.execGetSensorReading sensor s
  | .getStateSensorReadings sensor => Sys2Proof.Machine.execGetStateSensorReadings sensor s
  | .setNumericEffecterValue effecter value => Sys2Proof.Machine.execSetNumericEffecterValue effecter value s
  | .getNumericEffecterValue effecter => Sys2Proof.Machine.execGetNumericEffecterValue effecter s
  | .pollForPlatformEventMessage => Sys2Proof.Machine.execPollForPlatformEventMessage s
  | .sensorConversion sample => Sys2Proof.Machine.execSensorConversion sample s
  | .towerModelStep t energy => Sys2Proof.Machine.execTowerModelStep t energy s
  | .throttleHoldFail layer => Sys2Proof.Machine.execThrottleHoldFail layer s
  | .wearSample t => Sys2Proof.Machine.execWearSample t s
  | .powerGood => Sys2Proof.Machine.execPowerGood s
  | .resetRelease => Sys2Proof.Machine.execResetRelease s
  | .coldReset => Sys2Proof.Machine.execColdReset s
  | .deviceReset => Sys2Proof.Machine.execDeviceReset s
  | .svcReset key => Sys2Proof.Machine.execSvcReset key s
  | .powerLoss => Sys2Proof.Machine.execPowerLoss s
  | .tapReset => Sys2Proof.Machine.execTapReset s
  | .phaseFailure t phase => Sys2Proof.Machine.execPhaseFailure t phase s
  | .cpmSample t margin => Sys2Proof.Machine.execCpmSample t margin s
  | .inputMonitorSample mv deciAmp => Sys2Proof.Machine.execInputMonitorSample mv deciAmp s
  | .startUpPhase report => Sys2Proof.Machine.execStartUpPhase report s
  | .slateWriteRetry => Sys2Proof.Machine.execSlateWriteRetry s
  | .deferredTowerLight t => Sys2Proof.Machine.execDeferredTowerLight t s
  | .abortComplete => Sys2Proof.Machine.execAbortComplete s
  | .rollbackAdvance key => Sys2Proof.Machine.execRollbackAdvance key s
  | .fuseStepBlown blown => Sys2Proof.Machine.execFuseStepBlown blown s
  | .retireAdd entry => Sys2Proof.Machine.execRetireAdd entry s
  | .logClear log => Sys2Proof.Machine.execLogClear log s
  | .flipArm blk target sel => Sys2Proof.Machine.execFlipArm blk target sel s
  | .flipDisarm blk => Sys2Proof.Machine.execFlipDisarm blk s
  | .slateWindowFill block => Sys2Proof.Machine.execSlateWindowFill block s
  | .parallelShift ctl => Sys2Proof.Machine.execParallelShift ctl s
  | .extest eastDie preload => Sys2Proof.Machine.execExtest eastDie preload s
  | .samplePreload eastDie lands preload => Sys2Proof.Machine.execSamplePreload eastDie lands preload s
  | .idcode die => Sys2Proof.Machine.execIdcode die s
  | .extestDw die bits => Sys2Proof.Machine.execExtestDw die bits s
  | .intestDw die bits => Sys2Proof.Machine.execIntestDw die bits s
  | .ijtag die bits => Sys2Proof.Machine.execIjtag die bits s
  | .config mask present => Sys2Proof.Machine.execConfig mask present s
  | .unlock token => Sys2Proof.Machine.execUnlock token s
  | .bypass die bit => Sys2Proof.Machine.execBypass die bit s
  | .registerWrite off value wide => Sys2Proof.Machine.execRegisterWrite off value wide s
  | .cueCompletion c unit => Sys2Proof.Machine.execCueCompletion c unit s
  | .nextListArrival c => Sys2Proof.Machine.execNextListArrival c s
  | .hostCompletion e status => Sys2Proof.Machine.execHostCompletion e status s
  | .completionTimeout e => Sys2Proof.Machine.execCompletionTimeout e s
  | .hostLinkUp rate width => Sys2Proof.Machine.execHostLinkUp rate width s
  | .powerReturn => Sys2Proof.Machine.execPowerReturn s
  | .resetNRelease => Sys2Proof.Machine.execResetNRelease s
  | .mailboxComplete => Sys2Proof.Machine.execMailboxComplete s
  | .rejoinEnd t r => Sys2Proof.Machine.execRejoinEnd t r s
  | .slateWriteEnd => Sys2Proof.Machine.execSlateWriteEnd s
  | .windowFilled => Sys2Proof.Machine.execWindowFilled s
  | .parallelShiftDone captured => Sys2Proof.Machine.execParallelShiftDone captured s
  | .baseDieFault h => Sys2Proof.Machine.execBaseDieFault h s

end Sys2Proof.Machine
end

