-- ==== Sys2Proof/Safety.lean ====
section
/-! DEFINITION. What a good state and a good step are, in the terms that statements use. -/
namespace Sys2Proof.Machine

open Sys2Proof

/-- A step that goes on. -/
def Goes (s : State) : Prop := ∃ s', step s = .next s'

/-- Every command that waits is well formed. -/
def State.queueOk (s : State) : Prop := ∀ c ∈ s.pending, c.wf = true

/-- The whole effect of a command: it answers a next state with the device `d`, its queue as it was. -/
def Does (i : Instr) (s : State) (d : Device) : Prop := exec i s = .next { dev := d, pending := s.pending }

/-- A command that comes where it is not due: it answers the same state. -/
def Idles (i : Instr) (s : State) : Prop := Does i s s.dev

/-- The device at the start of a step that is carried out whole or not at all: no access waits yet. -/
def Device.fresh (d : Device) : Device := { d with blocked := false }

/-- The device a command leaves that has to wait: as it was, but that the banks it asks for are noted. -/
def Device.held (d t : Device) : Device := { d with blocked := false, wanted := t.wanted }

/-- The whole effect of a command that is carried out whole or not at all: the device `t`, or, where an access of `t` has to wait
(log entry 146), the device as it was, with the banks it asks for noted. -/
def DoesWhole (i : Instr) (s : State) (t : Device) : Prop :=
  (t.blocked = false → Does i s t) ∧ (t.blocked = true → Does i s (s.dev.held t))

/-- The sparse maps of a device that fuses, registers, instances and ports are read from list their keys in rising order, and its
memories keep their canonical form. -/
def Device.formed (d : Device) : Bool :=
  KeysRise 0 d.fuses.steps && KeysRise 0 d.regs && KeysRise 0 d.cores && KeysRise 0 d.sites && KeysRise 0 d.towers && KeysRise 0 d.halves &&
    KeysRise 0 d.fab.ports && d.mem.wf && d.hostMem.wf && d.flash.wf

/-- The cue at the head of issue of a core whose engine may issue, in an intact codeword of its cue buffer. -/
def Device.issues (d : Device) (k : Nat) (q : BitVec 128) : Prop :=
  d.canIssue k = true ∧ (d.core k).list[(d.core k).pc]? = some { data := q, syn := 0 }

/-- No byte of the device's memories differs. -/
def SameMemory (d e : Device) : Prop := ∀ a, e.mem.byte a = d.mem.byte a

/-- No byte of device memory differs outside the codewords of `n` bytes from `a`. -/
def SameOutside (d e : Device) (a n : Nat) : Prop := ∀ x, x / 16 ∉ cwsOf a n → e.mem.byte x = d.mem.byte x

/-- No register differs but those listed. -/
def SameRegs (d e : Device) (but : List Nat) : Prop := ∀ a, a ∉ but → e.reg a = d.reg a

/-- The fuses `b` are those of `a`, but that fuses of rollback steps may have blown: none that was blown is whole (R529). -/
def FusesOnlyBlown (a b : Fuses) : Prop :=
  b = { a with steps := b.steps } ∧ ∀ i, mget 0 b.steps i &&& mget 0 a.steps i = mget 0 a.steps i

/-- A device as a reset of its cause leaves it: fuses, flash, the host's memory and the pins as they are, all else at reset, with the
cause in SVC_RESET_CAUSE. What was sent, what is kept for the next start (log entry 188), the count of cycles and the counter of free values
are the model's own. -/
def Device.blank (d : Device) : Device :=
  ({ Device.afterReset d.fuses d.flash d.hostMem with
      pins := d.pins, kept := d.kept, out := d.out, now := d.now, freeCtr := d.freeCtr } : Device).setField
    (svcReg 0xA010) 0 4 (d.fieldOf (svcReg 0xA010) 0 4)

/-- While the part is unpowered or held in reset it holds nothing but what a reset leaves (R479, R490), READY is low, and FAULT_N and
THERMTRIP_N are released (R492). -/
def Device.heldBlank (d : Device) : Prop :=
  d.awake = false → d = d.blank ∧ d.pins.ready = false ∧ d.pins.faultN = true ∧ d.pins.thermtripN = true

/-- What must run for a command to act: the clocks of the towers (R336), the arithmetic and network clocks (R466), the service plane of a part
that is powered and out of reset (R479, R492), or nothing: the pins act on every part. -/
inductive Clocking
  | tower
  | arithmetic
  | service
  | pins
  deriving DecidableEq, Repr

/-- What each command needs. -/
def clockOf : Instr → Clocking
  | .hostReset _ | .perstRelease | .powerGood | .resetRelease | .coldReset | .deviceReset | .powerLoss | .powerReturn
  | .resetNRelease =>
    .pins
  | .nbFenceReq _ | .flowStale | .flowOkSample _ | .survivalExit | .saveDrain | .drainDone | .saveCapture | .resume
  | .reelLoad | .takeStart | .takeStop | .towerRejoin | .arrayReset | .reroute | .stop | .calRead | .calWrite | .attest
  | .halfLoss _ | .towerLoss _ | .configRequest _ | .hostRead _ _ _ | .hostWrite _ _ _ _ | .doorbellWrite _ _
  | .doorbellIncrement | .msixUnmask _ | .dmaRun _ | .dmaClear _ | .d3hotEntry | .d0Entry | .lpddrTempReadout _ _ _
  | .setEndpointId _ | .getEndpointId | .getMctpVersionSupport _ | .getMessageTypeSupport | .getTid | .getPldmVersion _
  | .getPldmTypes | .getPldmCommands _ | .getPdr _ | .getSensorReading _ | .getStateSensorReadings _
  | .setNumericEffecterValue _ _ | .getNumericEffecterValue _ | .pollForPlatformEventMessage | .sensorConversion _
  | .towerModelStep _ _ | .throttleHoldFail _ | .wearSample _ | .svcReset _ | .tapReset | .phaseFailure _ _
  | .inputMonitorSample _ _ | .startUpPhase _ | .slateWriteRetry | .deferredTowerLight _ | .abortComplete
  | .rollbackAdvance _ | .fuseStepBlown _ | .retireAdd _ | .logClear _ | .flipArm _ _ _ | .flipDisarm _
  | .slateWindowFill _ | .parallelShift _ | .extest _ _ | .samplePreload _ _ _ | .idcode _ | .extestDw _ _ | .intestDw _ _
  | .ijtag _ _ | .config _ _ | .unlock _ | .bypass _ _ | .registerWrite _ _ _ | .hostCompletion _ _ | .completionTimeout _
  | .hostLinkUp _ _ | .mailboxComplete | .rejoinEnd _ _ | .slateWriteEnd | .windowFilled | .parallelShiftDone _
  | .baseDieFault _ =>
    .service
  | .storeRead _ _ | .storeWrite _ _ | .storeResponse _ _ _ | .storeTagTimeout _ _ | .storeTagRelease _ _
  | .mcastCatchup _ _ | .mergeExpiry _ _ | .scrubAccess _ | .tick _ | .samplingPoint | .gafferResults | .gafferOutcome
  | .guardBandStart _ | .guardForce | .clapper _ _ _ | .holdoverEntry | .holdoverExpiry | .payloadLanded _ _ _
  | .contExchange _ _ | .contOutcome _ _ | .contOutcomeMissing | .contSignatures _ _ | .contCompareLate
  | .bridgeFlit _ _ _ | .bridgeReplayTimeout _ _ | .bridgeRetrain _ _ _ _ _ | .elasticLimit _ | .fabFlit _ _
  | .fabReplayTimeout _ | .data _ _ | .coll _ _ | .ack _ _ | .packetForward _ _ | .packetAged _ _ | .fabTagTimeout _ _
  | .fabTagRelease _ _ | .beacon _ _ | .beaconSend _ | .election | .topo _ _ | .routeDelivery | .assign _ _ | .route _ _
  | .commit _ _ | .partnerAbsent _ | .partnerAppear _ _ _ | .laneFailure _ _ | .portSilent _ | .delayEcho _ _ | .combine _
  | .dmaDescriptorStart _ | .dmaDescriptorComplete _ | .capacityAccess _ _ _ _ | .lpddrRefresh _ _ | .nextListArrival _ =>
    .arithmetic
  | .cueIssue _ | .wait _ | .holdRelease _ | .sigLocal _ | .sigRemote _ | .signalDelivery _ | .fence _ | .loop _ | .jump _
  | .endFrame _ | .endFrameComplete _ | .descWrite _ | .nop _ | .matrix _ | .tileUnload _ | .rampUpStep _ | .drainEnd _
  | .rampDownStep _ | .convert _ | .add _ | .sub _ | .mul _ | .fma _ | .max _ | .min _ | .rsum _ | .rmax _ | .rsumsq _
  | .quantMx _ | .treeSum _ | .exp2 _ | .log2 _ | .recip _ | .rsqrt _ | .silu _ | .gelu _ | .attend _ | .finish _
  | .append _ | .evict _ | .probe _ | .acquire _ | .insert _ | .remove _ | .release _ | .storeDmaRead _ | .storeDmaWrite _
  | .send _ | .dramDmaRead _ | .dramDmaWrite _ | .gather _ | .copy _ | .fill _ | .and _ | .or _ | .xor _ | .not _
  | .nbAdd _ | .nbSub _ | .nbMul _ | .nbFma _ | .scale _ | .resadd _ | .sumsq _ | .normApply _ | .actTable _
  | .nbConvert _ | .quantFp8 _ | .adamw _ | .nbStepStart _ _ _ | .nbStepEnd _ _ _ | .dramRequest _ _ _ | .burstGrant _ _
  | .refreshDue _ _ _ | .rowTimeout _ _ _ | .selfRefreshIdle _ _ | .bankCopy _ _ _ | .cpmSample _ _ | .cueCompletion _ _ =>
    .tower

/-- Whether it runs. -/
def Clocking.runs (d : Device) : Clocking → Bool
  | .tower => d.towersRun
  | .arithmetic => d.clocked
  | .service => d.awake
  | .pins => true

/-- The kinds of storage that a command may write: device memory, the host's and the flash; the cores; the DRAM sites; the registers. -/
structure Reach where
  memory : Bool
  cores : Bool
  sites : Bool
  regs : Bool
  deriving DecidableEq, Repr

/-- What each command may write; what it may not write it leaves as it was. -/
def reachOf : Instr → Reach
  | .nbFenceReq _ | .gafferResults | .guardForce | .contOutcome _ _ | .doorbellWrite _ _ | .doorbellIncrement
  | .msixUnmask _ | .perstRelease | .lpddrRefresh _ _ | .setEndpointId _ | .getEndpointId | .getMctpVersionSupport _
  | .getMessageTypeSupport | .getTid | .getPldmVersion _ | .getPldmTypes | .getPldmCommands _ | .getPdr _
  | .getSensorReading _ | .getStateSensorReadings _ | .getNumericEffecterValue _ | .pollForPlatformEventMessage
  | .powerGood | .resetRelease | .svcReset _ | .tapReset | .logClear _ | .extest _ _ | .samplePreload _ _ _ | .idcode _
  | .extestDw _ _ | .intestDw _ _ | .bypass _ _ | .powerReturn | .resetNRelease | .windowFilled =>
    { memory := false, cores := false, sites := false, regs := false }
  | .mcastCatchup _ _ | .gafferOutcome | .clapper _ _ _ | .holdoverEntry | .payloadLanded _ _ _ | .flowStale
  | .contOutcomeMissing | .contCompareLate | .saveDrain | .takeStop | .towerRejoin | .reroute | .bridgeReplayTimeout _ _
  | .fabFlit _ _ | .fabReplayTimeout _ | .packetAged _ _ | .beacon _ _ | .beaconSend _ | .election | .topo _ _
  | .routeDelivery | .assign _ _ | .route _ _ | .commit _ _ | .partnerAbsent _ | .partnerAppear _ _ _ | .delayEcho _ _
  | .configRequest _ | .dmaRun _ | .dmaClear _ | .d3hotEntry | .d0Entry | .lpddrTempReadout _ _ _
  | .setNumericEffecterValue _ _ | .towerModelStep _ _ | .wearSample _ | .phaseFailure _ _ | .cpmSample _ _
  | .inputMonitorSample _ _ | .deferredTowerLight _ | .rollbackAdvance _ | .fuseStepBlown _ | .retireAdd _
  | .flipArm _ _ _ | .flipDisarm _ | .slateWindowFill _ | .parallelShift _ | .ijtag _ _ | .config _ _ | .unlock _
  | .hostLinkUp _ _ | .mailboxComplete | .parallelShiftDone _ =>
    { memory := false, cores := false, sites := false, regs := true }
  | .refreshDue _ _ _ | .rowTimeout _ _ _ =>
    { memory := false, cores := false, sites := true, regs := false }
  | .nbStepStart _ _ _ | .storeTagRelease _ _ | .dramRequest _ _ _ | .selfRefreshIdle _ _ | .survivalExit | .rejoinEnd _ _ =>
    { memory := false, cores := false, sites := true, regs := true }
  | .holdRelease _ =>
    { memory := false, cores := true, sites := false, regs := false }
  | .cueIssue _ | .wait _ | .sigLocal _ | .sigRemote _ | .signalDelivery _ | .fence _ | .loop _ | .jump _ | .endFrame _
  | .endFrameComplete _ | .descWrite _ | .nop _ | .matrix _ | .tileUnload _ | .rampUpStep _ | .drainEnd _
  | .rampDownStep _ | .holdoverExpiry | .contSignatures _ _ | .arrayReset | .fabTagTimeout _ _ | .laneFailure _ _
  | .portSilent _ | .hostReset _ | .throttleHoldFail _ | .cueCompletion _ _ =>
    { memory := false, cores := true, sites := false, regs := true }
  | .storeDmaRead _ | .storeDmaWrite _ | .dramDmaRead _ | .dramDmaWrite _ | .guardBandStart _ | .flowOkSample _
  | .towerLoss _ =>
    { memory := false, cores := true, sites := true, regs := true }
  | .saveCapture | .calRead | .calWrite | .attest | .dmaDescriptorComplete _ | .slateWriteRetry | .slateWriteEnd =>
    { memory := true, cores := false, sites := false, regs := true }
  | .storeRead _ _ | .storeWrite _ _ | .mergeExpiry _ _ | .scrubAccess _ | .bankCopy _ _ _ | .drainDone | .stop
  | .data _ _ | .ack _ _ | .packetForward _ _ | .fabTagRelease _ _ | .hostRead _ _ _ | .dmaDescriptorStart _
  | .capacityAccess _ _ _ _ =>
    { memory := true, cores := false, sites := true, regs := true }
  | .completionTimeout _ =>
    { memory := true, cores := true, sites := false, regs := true }
  | .convert _ | .add _ | .sub _ | .mul _ | .fma _ | .max _ | .min _ | .rsum _ | .rmax _ | .rsumsq _ | .quantMx _
  | .treeSum _ | .exp2 _ | .log2 _ | .recip _ | .rsqrt _ | .silu _ | .gelu _ | .attend _ | .finish _ | .append _
  | .evict _ | .probe _ | .acquire _ | .insert _ | .remove _ | .release _ | .send _ | .gather _ | .copy _ | .fill _
  | .and _ | .or _ | .xor _ | .not _ | .nbAdd _ | .nbSub _ | .nbMul _ | .nbFma _ | .scale _ | .resadd _ | .sumsq _
  | .normApply _ | .actTable _ | .nbConvert _ | .quantFp8 _ | .adamw _ | .nbStepEnd _ _ _ | .storeResponse _ _ _
  | .storeTagTimeout _ _ | .burstGrant _ _ | .tick _ | .samplingPoint | .contExchange _ _ | .resume | .reelLoad
  | .takeStart | .bridgeFlit _ _ _ | .bridgeRetrain _ _ _ _ _ | .elasticLimit _ | .halfLoss _ | .coll _ _ | .combine _
  | .hostWrite _ _ _ _ | .sensorConversion _ | .coldReset | .deviceReset | .powerLoss | .startUpPhase _ | .abortComplete
  | .registerWrite _ _ _ | .nextListArrival _ | .hostCompletion _ _ | .baseDieFault _ =>
    { memory := true, cores := true, sites := true, regs := true }

/-- A state differs from another in no storage that the command may not write. -/
def WithinReach (i : Instr) (d e : Device) : Prop :=
  ((reachOf i).memory = false → e.mem = d.mem ∧ e.hostMem = d.hostMem ∧ e.flash = d.flash) ∧
  ((reachOf i).cores = false → e.cores = d.cores) ∧
  ((reachOf i).sites = false → e.sites = d.sites) ∧
  ((reachOf i).regs = false → e.regs = d.regs)

end Sys2Proof.Machine
end

