-- ==== Sys2Proof/Certificates/Slice0/Obligations.lean ====
section
/-! DEFINITION. The statements for the provers, family by family of the opcode table. -/

section

open Sys2Proof Sys2Proof.Machine

/-- For every state whose queue is c followed by rest, the step is exec of c on that state with the queue rest. With no command
waiting, the step answers the same state one arithmetic cycle later, and what happened in the past cycle is forgotten. The tick on an
empty queue is the model's choice (log entry 6). (spec/00_scope.md, spec/04_cores_cues_and_reels.md) -/
def Obligations.StepTakesFrontOrLetsTimePass : Prop :=
  (∀ (s : State) (c : Instr) (rest : List Instr), s.pending = c :: rest → step s = exec c { s with pending := rest }) ∧
  (∀ s : State, s.pending = [] → step s = .next { s with dev := { s.dev with now := s.dev.now + 1, cycle := Cycle.reset } })

/-- Every command answers a next state with the same queue, in every state: none stops, none is refused. It changes nothing where its
operands name nothing of the part (log entry 170), and where what it needs does not run: the clocks of the towers, the arithmetic and
network clocks, or a powered part out of reset, as clockOf says for each command. (R336, R466, R479, R492) -/
def Obligations.EveryCommandAnswersANextState : Prop :=
  ∀ (i : Instr) (s : State),
    (∃ d, exec i s = .next { dev := d, pending := s.pending }) ∧
    (i.wf = false → Idles i s) ∧ ((clockOf i).runs s.dev = false → Idles i s)

/-- With the tower clocks running, an intact synchronisation cue q at the head of issue of core c, its predicate true and its unused
header fields zero: WAIT and FENCE increment the counter that q names, and pass when the awaited counter is at least the value,
or the masked units are empty, and else hold issue at their index with STATE 2 (log entry 50); SIG_LOCAL adds its increment and passes; SIG_REMOTE to a core with an array
adds its signal to those under way and passes at once (log entry 51); LOOP opens a level; JUMP moves issue by its signed distance; END_FRAME waits, one
past its index (log entry 129); DESC_WRITE rewrites the entry it names from an intact record of the scratch and passes; NOP passes. The same holds for the
row CUE_ISSUE and for the cue's own row. With the tower clocks running, an intact cue q of unit u (1 to 7) at the head of issue and its
predicate true: with 16 cues in the queue issue is held; else, with the descriptors it names intact and no check of issue
failing, q joins the queue with its descriptors, its parameter block and its issue order, issue passes on, and the count of
issued cues advances. (R73, R79, R80, R81, R82, R84, R85, R92, R110, R75, R91) -/
def Obligations.CuesIssueAndQueue : Prop :=
  (∀ (s : State) (c : Fin 480) (q : BitVec 128), s.dev.towersRun = true → s.dev.issues c q →
      predTrue (s.dev.core c) q = true → hdrCodes q = [] →
      let d := s.dev
      let x := d.core c
      let e := d.cueEvent c q
      (cf q 0 8 = 0 → ∀ i ∈ [Instr.cueIssue c, .wait c],
        Does i s (e.modCore c fun y =>
          if cf q 46 32 ≤ (mget 0 y.evt (cf q 40 6)).toNat then y.goto (y.pc + 1) else { y with held := some q, cueState := 2 })) ∧
      (cf q 0 8 = 1 → cf q 46 8 ≠ 0 → ∀ i ∈ [Instr.cueIssue c, .sigLocal c],
        Does i s ((d.evtAdd c (cf q 40 6) (cf q 46 8)).passSync c q)) ∧
      (cf q 0 8 = 2 → cf q 40 9 < 480 → d.hasArray (cf q 40 9) = true → cf q 55 8 ≠ 0 →
        ∀ i ∈ [Instr.cueIssue c, .sigRemote c],
        Does i s ((d.modTake fun t => { t with signals := t.signals ++ [Signal.mk c (cf q 40 9) (cf q 49 6) (cf q 55 8)
          (cf q 63 7) x.issued false] }).passSync c q)) ∧
      (cf q 0 8 = 3 → ∀ i ∈ [Instr.cueIssue c, .fence c],
        Does i s (e.modCore c fun y =>
          if y.unitsDone (cf q 40 7) then y.goto (y.pc + 1) else { y with held := some q, cueState := 2 })) ∧
      (cf q 0 8 = 4 → x.loops.length < 4 → ∀ i ∈ [Instr.cueIssue c, .loop c],
        Does i s (e.modCore c fun y => { y with
          pc := y.pc + 1, cueState := 1, loops := y.loops ++ [LoopLevel.mk (y.pc + 1) (cf q 56 12) (cf q 40 16 + 1) 0] })) ∧
      (cf q 0 8 = 5 → ∀ i ∈ [Instr.cueIssue c, .jump c],
        Does i s (e.modCore c fun y => { y with
          pc := ((y.pc : Int) + signedOf 13 (cf q 40 13)).toNat, cueState := 1 })) ∧
      (cf q 0 8 = 6 → ∀ i ∈ [Instr.cueIssue c, .endFrame c],
        Does i s (d.modCore c fun y => { y with ending := true, cueState := 1, pc := y.pc + 1 })) ∧
      (cf q 0 8 = 7 → cf q 40 10 ≠ 766 → cf q 40 10 ≠ 767 → (d.readCore c 0 .scratch (32 * cf q 50 17) 32).bad = [] →
        ∀ i ∈ [Instr.cueIssue c, .descWrite c],
        let r := d.readCore c 0 .scratch (32 * cf q 50 17) 32
        Does i s ((r.dev.tableWrite c (cf q 40 10) r.bytes).passSync c q)) ∧
      (cf q 0 8 = 8 → ∀ i ∈ [Instr.cueIssue c, .nop c], Does i s (d.passSync c q))) ∧
  (∀ (s : State) (c : Fin 480) (q : BitVec 128), s.dev.towersRun = true → s.dev.issues c q →
      predTrue (s.dev.core c) q = true → cf q 4 4 ≠ 0 →
      let d := s.dev
      let x := d.core c
      let u := cf q 4 4
      let e := d.noteRefs c q
      let p := e.nbParam c q
      (16 ≤ (x.queue u).length → Does (.cueIssue c) s (d.modCore c Core.hold)) ∧
      ((x.queue u).length < 16 → (∀ w ∈ x.refWords (cueRefs q), w.2.bad = false) → (e.issueChk c q).codes = [] →
        p.bad = [] → (u = 7 → nbParamBad (cf q 40 5) p.bytes = false) →
        Does (.cueIssue c) s (p.dev.modCore c fun y =>
          { (y.setQueue u (y.queue u ++ [QCue.mk q y.pc y.home y.issued (e.issueChk c q).refs p.bytes
              false false none 0 e.now])).goto (y.pc + 1) with issued := y.issued + 1 })))

/-- With the tower clocks running and an intact cue other than END_FRAME at the head of issue whose predicate is false, CUE_ISSUE moves
issue past it (past the whole body for a LOOP) and changes nothing else. (R83) -/
def Obligations.FalsePredicateSkips : Prop :=
  ∀ (s : State) (c : Fin 480) (q : BitVec 128), s.dev.towersRun = true → s.dev.issues c q → predTrue (s.dev.core c) q = false →
    Does (.cueIssue c) s (s.dev.modCore c fun y => y.goto (y.pc + 1 + if cf q 0 8 = 4 then cf q 56 12 else 0))

/-- With the tower clocks running and an executing unit's intact cue q at the head of issue, its predicate true, its queue not full and
the descriptors it names intact: when the checks of issue give at least one code, q does not issue and the cue error with the lowest code is
taken. In a formed state the core's STATE is then 3, and with no error recorded COR_CUE_ERR holds the code, the index of q and the
list's home index with VALID set. Units 1 to 6; the near-bank unit has its own checks of the parameter block. (R91, R135, R137) -/
def Obligations.IssueChecksStopTheList : Prop :=
  ∀ (s : State) (c : Fin 480) (q : BitVec 128) (e : Nat), s.dev.towersRun = true → s.dev.issues c q →
    predTrue (s.dev.core c) q = true → cf q 4 4 ≠ 0 → cf q 4 4 ≠ 7 → ((s.dev.core c).queue (cf q 4 4)).length < 16 →
    let d := s.dev.noteRefs c q
    let x := s.dev.core c
    (∀ w ∈ x.refWords (cueRefs q), w.2.bad = false) → e ∈ (d.issueChk c q).codes → (∀ f ∈ (d.issueChk c q).codes, e ≤ f) →
    let t := d.cueError c e x.pc x.home (cf q 4 4)
    Does (.cueIssue c) s t ∧
      (s.dev.formed = true → (t.core c).cueState = 3 ∧
        (s.dev.bitOf (corReg c 0x308) 0 = false →
          t.reg (corReg c 0x308) = BitVec.ofNat 64 (1 + e * 2 + x.pc * 2 ^ 9 + x.home * 2 ^ 21)))

/-- With the tower clocks running: a WAIT or FENCE q that has issued and holds the core passes by HOLD_RELEASE once it is satisfied (the
counter at least the value; the masked queues empty), and otherwise, or with none held, nothing changes. The n-th signal under
way, once its sender has no earlier cue in a unit of the mask, leaves the list of signals and the counter it names advances at
the core that runs its target home's list, when that core is in the sender's half; to the other half it starts to cross the
bridge (R375; that the row starts the crossing only, and changes nothing while it crosses, is log entry 74); before, while it
crosses, and for no such signal, nothing changes. With END_FRAME waiting, every unit queue of the core empty and
no signal of the core under way: with both accumulator sets empty the core has ended its frame, which is done when it is the last;
with a tile in a set it is the cue error 0x0A; else nothing changes. A finished cue at the head of the queue of unit u leaves it and
the counter it names increments, a load into bank b first completing at its cores; an unfinished one stays, and an empty queue.
(R79, R81, R80, R102, R85, R55, R76, R375) -/
def Obligations.HoldsSignalsAndEndsOfCues : Prop :=
  (∀ (s : State) (c : Fin 480), s.dev.towersRun = true →
      let x := s.dev.core c
      (∀ q, x.held = some q →
        let ok := if cf q 0 4 = 0 then decide (cf q 46 32 ≤ (mget 0 x.evt (cf q 40 6)).toNat) else x.unitsDone (cf q 40 7)
        (ok = true → Does (.holdRelease c) s (s.dev.modCore c fun y => y.goto (y.pc + 1))) ∧
        (ok = false → Idles (.holdRelease c) s)) ∧
      (x.held = none → Idles (.holdRelease c) s)) ∧
  (∀ (s : State) (n : Nat) (g : Signal), s.dev.towersRun = true → s.dev.take.signals[n]? = some g →
      let d := s.dev
      let far := halfOf (towerOf g.sender) ≠ halfOf (towerOf (d.runsOn g.home))
      (d.sigReady g = true → ¬ far →
        Does (.signalDelivery n) s ((d.modTake fun t => { t with signals := t.signals.eraseIdx n }).evtAdd (d.runsOn g.home) g.cnt g.inc)) ∧
      (d.sigReady g = true → far → g.crossing = false →
        Does (.signalDelivery n) s
          ((d.modTake fun t => { t with signals := t.signals.set n { g with crossing := true } }).sendService
            (halfOf (towerOf g.sender) == 0) [g.entry])) ∧
      (d.sigReady g = false → Idles (.signalDelivery n) s) ∧ (far → g.crossing = true → Idles (.signalDelivery n) s)) ∧
  (∀ (s : State) (n : Nat), s.dev.towersRun = true → s.dev.take.signals[n]? = none → Idles (.signalDelivery n) s) ∧
  (∀ (s : State) (c : Fin 480), s.dev.towersRun = true →
      let d := s.dev
      let x := d.core c
      (x.ending = true → (∀ u < 7, x.queue (u + 1) = []) → (∀ g ∈ d.take.signals, g.sender ≠ c) →
        (x.set0 = none → x.set1 = none →
          Does (.endFrameComplete c) s (d.modCore c fun y => { y with ending := false, ended := true, cueState := 0 }).checkFrameDone) ∧
        (x.set0.isSome = true ∨ x.set1.isSome = true →
          Does (.endFrameComplete c) s ((d.cueError c 0x0A (x.pc - 1) x.home 0).modCore c fun y => { y with ending := false }))) ∧
      (x.ending = false ∨ (∃ u < 7, x.queue (u + 1) ≠ []) ∨ (∃ g ∈ d.take.signals, g.sender = c) →
        Idles (.endFrameComplete c) s)) ∧
  (∀ (s : State) (c : Fin 480) (u : ExecUnit) (q : QCue) (r : List QCue), s.dev.towersRun = true →
      (s.dev.core c).queue (unitNum u) = q :: r →
      (q.done = true → readBank q = none →
        Does (.cueCompletion c u) s ((s.dev.modCore c fun y => y.setQueue (unitNum u) r).cueEvent c q.cue)) ∧
      (q.done = true → ∀ b, readBank q = some b →
        Does (.cueCompletion c u) s
          (((s.dev.each (loadCores c q) fun m d => d.modCore m fun y => y.loadDone s.dev.now b (c.val, unitNum u, q.order)).modCore c fun y =>
            y.setQueue (unitNum u) r).cueEvent c q.cue)) ∧
      (q.done = false → Idles (.cueCompletion c u) s)) ∧
  (∀ (s : State) (c : Fin 480) (u : ExecUnit), s.dev.towersRun = true → (s.dev.core c).queue (unitNum u) = [] → Idles (.cueCompletion c u) s)

/-- After an increment of n, at least 1, counter e of core k holds the smaller of its old value plus n and 4,294,967,295, every
other counter of the core is unchanged, and EVT_SAT of the core reads 1 when the sum would pass that value. (R78) -/
def Obligations.EventCountersStick : Prop :=
  ∀ (d : Device) (k e n : Nat), d.formed = true → 1 ≤ n →
    (mget 0 ((d.evtAdd k e n).core k).evt e).toNat = min (2 ^ 32 - 1) ((mget 0 (d.core k).evt e).toNat + n) ∧
    (∀ f, f ≠ e → mget 0 ((d.evtAdd k e n).core k).evt f = mget 0 (d.core k).evt f) ∧
    (2 ^ 32 - 1 < (mget 0 (d.core k).evt e).toNat + n → (d.evtAdd k e n).bitOf (corReg k 0x300) 16 = true)

/-- With the tower clocks running: RAMP_UP_STEP during a ramp counts 8 null cycles and raises the level, or ends the ramp at level 8;
DRAIN_END in the feed phase counts 12 null cycles and starts the ramp down at level 7, unless a started cue works;
RAMP_DOWN_STEP during a ramp down counts 8 null cycles and lowers the level, the array being idle at 0, where an ARRAY_RESET that waits
for the tower's arrays goes on; in other phases the three change nothing. With the tower clocks running and q the cue the array works on:
with a check of the array failing, q, not started, is a cue error with the lowest code; else, its banks LOADED, its first set free and no
ATTEND first, q claims both banks and starts: at level 8 in the feed phase it feeds when the drain of the cue before has not passed,
the cycles between counting as null, and otherwise it begins a ramp when the ramp ends no earlier than its sets are free; until then it waits. A started q feeds in the feed
phase and waits in the others. With the tower clocks running and set n first in the order of leaving, holding a tile of a listed shape:
its cells are converted, each with the index of its element in the tile as the element number of a stochastic rounding (log entry 130),
SAT and OUT_OVF are set for what the conversion met, the tile joins the output stream, its set is free,
and its cue is finished when the tile is the last; with no set leaving nothing changes. (R68, R72, R53, R55, R65, R67, R69, R46,
R47, R66, R577, R382) -/
def Obligations.ArrayRampsFeedsAndUnloads : Prop :=
  (∀ (s : State) (c : Fin 480), s.dev.towersRun = true →
      let d := s.dev
      let x := d.core c
      (x.phase = 1 → x.level < 8 → Does (.rampUpStep c) s ((d.arrCount c 0 8 0).modCore c fun y =>
        { y with level := y.level + 1, clock := { y.clock with step := d.now } })) ∧
      (x.phase = 1 → 8 ≤ x.level → Does (.rampUpStep c) s ((d.arrCount c 0 8 0).modCore c fun y => { y with phase := 2 })) ∧
      (x.phase ≠ 1 → Idles (.rampUpStep c) s) ∧
      (x.phase = 2 → (∀ q, x.arrayCue = some q → q.started = false) →
        Does (.drainEnd c) s ((d.arrCount c 0 12 0).modCore c fun y =>
          { y with phase := 3, level := 7, clock := { y.clock with step := d.now } })) ∧
      (∀ q, x.arrayCue = some q → q.started = true → Idles (.drainEnd c) s) ∧
      (x.phase ≠ 2 → Idles (.drainEnd c) s) ∧
      (x.phase = 3 →
        Does (.rampDownStep c) s (((d.arrCount c 0 8 0).modCore c fun y =>
          { y with level := y.level - 1, phase := if y.level = 1 then 0 else 3, clock := { y.clock with step := d.now } }).resetArrays
            (towerOf c))) ∧
      (x.phase ≠ 3 → Idles (.rampDownStep c) s)) ∧
  (∀ (s : State) (c : Fin 480) (q : QCue), s.dev.towersRun = true → (s.dev.core c).arrayCue = some q →
      let d := s.dev
      let x := d.core c
      let m := matrixOf q.cue
      let free := (x.bank m.abank).st = 2 ∧ (x.bank m.bbank).st = 2 ∧ (m.opens = true → x.accSet m.s0 = none) ∧
        d.attendFirst c q.order = false
      let claimed := d.modCore c fun y => y.claimBanks q
      let open8 := x.level = 8 ∧ x.phase = 2
      let t := d.chainAt c q
      (q.started = true → x.phase = 2 → q.tilesFed = 0 → Does (.matrix c) s (d.beginFeed c q (m.feedAt x.clock (max d.now x.clock.next)))) ∧
      (q.started = true → x.phase = 2 → q.tilesFed ≠ 0 → Does (.matrix c) s (d.feedTiles c q 64 q.tilesFed)) ∧
      (q.started = true → x.phase ≠ 2 → Idles (.matrix c) s) ∧
      (q.started = false → matrixUnitCodes x m = [] →
        (free → open8 → t ≤ x.clock.next + 11 →
          Does (.matrix c) s ((claimed.arrCount c 0 (t - x.clock.next) 0).beginFeed c { q with started := true } t)) ∧
        (free → open8 → x.clock.next + 11 < t → Idles (.matrix c) s) ∧
        (free → ¬ open8 → d.rampOk c m = true → Does (.matrix c) s (claimed.beginRamp c)) ∧
        (free → ¬ open8 → d.rampOk c m = false → Idles (.matrix c) s) ∧
        (¬ free → Idles (.matrix c) s)) ∧
      (q.started = false → ∀ e, minCode (matrixUnitCodes x m) = some e → Does (.matrix c) s (d.cueError c e q.index q.home 1))) ∧
  (∀ (s : State) (c : Fin 480), s.dev.towersRun = true →
      (∀ (n : Nat) (rest : List Nat) (t : Tile) (rn cn : Nat),
        (s.dev.core c).unloads = n :: rest → (s.dev.core c).accSet n = some t → shapeDims t.shape = some (rn, cn) →
        let outs := (t.cells.zip (List.range t.cells.length)).map fun p =>
          cellOut (t.afmt == 9) t.outFmt (s.dev.rnd t.home t.outSr t.stream p.2) p.1
        Does (.tileUnload c) s
          (((s.dev.accFlag c flagSat (outs.any fun o => o.2.1)).accFlag c flagOutOvf (outs.any fun o => o.2.2)).modCore c fun y =>
            { (y.putSet n none).setQueue 1
                ((y.queue 1).map fun z => if z.order = t.cueOrder ∧ t.last then { z with done := true } else z) with
              unloads := rest
              stream := y.stream ++ [StreamTile.mk t.outFmt cn rn (outs.map fun o => o.1)] })) ∧
      ((s.dev.core c).unloads = [] → Idles (.tileUnload c) s))

/-- When the lanes of A and B that tile t needs hold no bad codeword, feeding it leaves in its accumulator set the old cells
(fresh ones for a cue that opens) with the products accumulated in ascending K, with the cue's shape and formats, marked as leaving
when the cue closes; the core's other set is as the reads left it. (R42, R43, R53, R65) -/
def Obligations.FeedingATileAccumulates : Prop :=
  ∀ (d : Device) (k : Nat) (q : QCue) (t rn cn depth : Nat),
    let m := matrixOf q.cue
    let a := d.readLanes k m.abank m.af (m.k0 + m.kn) m.k0 m.kn 0 rn
    let b := a.1.readLanes k m.bbank m.bf (m.k0 + m.kn) m.k0 m.kn (t * cn) cn
    let old := match (b.1.core k).accSet (m.setOf t) with
      | some x => if m.opens then freshCells m a.2.1 b.2.1 else x.cells
      | none => freshCells m a.2.1 b.2.1
    let r := tileFeed (m.af == 9) depth old a.2.1 b.2.1
    d.formed = true → shapeDims m.shape = some (rn, cn) → pairDepth m.af m.bf = some depth → a.2.2 = [] → b.2.2 = [] →
    ∃ tile, ((d.feedTile k q t).core k).accSet (m.setOf t) = some tile ∧ tile.cells = r.1 ∧ tile.leaving = m.closes ∧
      tile.shape = m.shape ∧ tile.afmt = m.af ∧ tile.bfmt = m.bf ∧
      ((d.feedTile k q t).core k).accSet (m.setOf (t + 1)) = (b.1.core k).accSet (m.setOf (t + 1))

/-- A K-step gives a cell the same accumulator, the same SAT, the same NaN mark and the same flags for every order of its
products. (R42, R43, R44) -/
def Obligations.ProductOrderInAStepDoesNotMatter : Prop :=
  ∀ (int8 : Bool) (x : Cell × FeedFlags) (ps qs : List (FV × FV)), ps.Perm qs → cellStep int8 x ps = cellStep int8 x qs

/-- Whatever is fed, a cell whose NaN mark is set stays as it is, and a cell that has saturated keeps its accumulator unless a
special operand marks it NaN. (R43, R45) -/
def Obligations.SaturatedCellsHold : Prop :=
  ∀ (int8 : Bool) (depth : Nat) (c : Cell) (f : FeedFlags) (a b : List FV),
    (c.nan = true → (cellFeed int8 depth (c, f) a b).1 = c) ∧
    (c.sat = true → (cellFeed int8 depth (c, f) a b).1.acc = c.acc ∧ (cellFeed int8 depth (c, f) a b).1.sat = true)

/-- With the tower clocks running and an unfinished cue of operation op at the head of the vector queue whose sources lie in memory and
hold no bad codeword, and no scale that CONVERT does not cover: the results of op over the elements read are written to the
destination, CONV_SAT and CONV_NAN are set for what the narrowing met, and the cue is finished. Holds for CONVERT, ADD, SUB,
MUL, FMA, MAX, MIN, RSUM, RMAX, RSUMSQ and TREE_SUM; for QUANT_MX the block codes and the block scales are written. With an
unfinished cue of operation op there that names the output stream: with no tile it waits and nothing changes; with a tile t of
legal format and shape, for CONVERT with scales that it covers, and its other operands intact, it takes the tile, and its results over the tile's
elements are written in the same way, for every vector operation. The whole cue is one command (log entry 60); where an access to memory has to wait, nothing changes (log
entry 146). (R36,
R139, R140, R141, R142, R143, R144, R145, spec/06_vector_and_function_units.md, R77, R125, R577) -/
def Obligations.VectorCuesWriteTheirResults : Prop :=
  ∀ (s : State) (c : Fin 480) (q : QCue) (i : Instr) (op : Nat),
    (i, op) ∈ [(Instr.convert c, 0), (.add c, 1), (.sub c, 2), (.mul c, 3), (.fma c, 4), (.max c, 5), (.min c, 6), (.rsum c, 7),
      (.rmax c, 8), (.rsumsq c, 9), (.quantMx c, 10), (.treeSum c, 11)] →
    s.dev.towersRun = true → ((s.dev.core c).queue 2).head? = some q → q.done = false → cf q.cue 0 4 = op →
    let first := s.dev.fresh
    let rnd := fun (d : Device) => d.rnd q.home (cf q.cue 114 1 == 1) (cf q.cue 115 8)
    let blocks := fun (d : Device) (oa od : Opnd) (es : List Elem) =>
      quantBlocks od.fmt (rnd d) ((broadcast od.lins.length es).map fun e => f32 (toLane oa.fmt e)) od.lins
    let put := fun (d : Device) (oa ob od : Opnd) (as bs os : List Elem) =>
      if op = 10 then
        (((d.writeTensor c 2 od ((blocks d oa od as).flatMap fun x => x.codes)).writeScales c 2 od
          ((blocks d oa od as).map fun x => x.scale)).convFlags c ((blocks d oa od as).any fun x => x.sat)
            ((blocks d oa od as).any fun x => x.nan)).markDone c 2
      else
        let r := vecResults op (cf q.cue 113 1 == 1) (rnd d) oa as ob.fmt bs od.fmt os od.lins
        ((d.writeTensor c 2 od r.codes).convFlags c r.sat r.nan).markDone c 2
    (cf q.cue 112 1 = 0 →
      let oa := opndOf (refAt q.refs 0)
      let ob := opndOf (refAt q.refs 1)
      let od := opndOf (refAt q.refs (1 + if vecUsesB op then 1 else 0))
      let a := first.readTensor c 2 oa
      let b := if vecUsesB op then a.dev.readTensor c 2 ob else TensorRes.mk a.dev [] []
      let o := if op = 4 then b.dev.readTensor c 2 od else TensorRes.mk b.dev [] []
      a.bad = [] → b.bad = [] → o.bad = [] → (op = 0 → widenOk oa.fmt od.fmt a.elems = true) →
      DoesWhole i s (put o.dev oa ob od a.elems b.elems o.elems)) ∧
    (cf q.cue 112 1 = 1 → (s.dev.core c).stream = [] → Does i s s.dev.fresh) ∧
    (cf q.cue 112 1 = 1 → ∀ t r, (s.dev.core c).stream = t :: r →
      let oa := tileOpnd t
      let ob := opndOf (refAt q.refs 0)
      let od := opndOf (refAt q.refs (if vecUsesB op then 1 else 0))
      let b := if vecUsesB op then first.readTensor c 2 ob else TensorRes.mk first [] []
      let o := if op = 4 then b.dev.readTensor c 2 od else TensorRes.mk b.dev [] []
      vecFmt t.fmt = true → vecShape op oa od = true → (op = 0 → widenOk oa.fmt od.fmt (tileElems t) = true) → b.bad = [] → o.bad = [] →
      DoesWhole i s (put (o.dev.modCore c Core.dropTile) oa ob od (tileElems t) b.elems o.elems))

/-- With the tower clocks running and an unfinished cue of operation op at the head of the function queue: when its source lies in memory
and holds no bad codeword, the function of each widened element, narrowed to the format of the destination, is written, the
conversion flags are set and the cue is finished; on the output stream it waits and changes nothing while there is no tile, and
takes a tile of legal format and shape in the same way. Holds for EXP2, LOG2, RECIP, RSQRT, SILU and GELU. The whole cue is one command (log entry 60); where an
access to memory has to wait, nothing changes (log entry 146). (R126, R146, R149) -/
def Obligations.FunctionCuesComplete : Prop :=
  ∀ (s : State) (c : Fin 480) (q : QCue) (i : Instr) (op : Nat) (fn : Nat → Nat),
    (i, op, fn) ∈ [(Instr.exp2 c, 0, exp2Fn), (.log2 c, 1, log2Fn), (.recip c, 2, recipFn), (.rsqrt c, 3, rsqrtFn),
      (.silu c, 4, siluFn), (.gelu c, 5, geluFn)] →
    s.dev.towersRun = true → ((s.dev.core c).queue 3).head? = some q → q.done = false → cf q.cue 0 4 = op →
    let res := fun (d : Device) (fmt : Nat) (es : List Elem) (od : Opnd) =>
      resultsOf (((broadcast od.lins.length es).zip od.lins).map fun p =>
        narrowF32 od.fmt false (d.rnd q.home (cf q.cue 90 1 == 1) (cf q.cue 91 8) p.2) (fn (toLane fmt p.1)))
    let put := fun (d : Device) (od : Opnd) (r : Results) => ((d.writeTensor c 3 od r.codes).convFlags c r.sat r.nan).markDone c 3
    let a := s.dev.fresh.readTensor c 3 (opndOf (refAt q.refs 0))
    (cf q.cue 88 1 = 0 → a.bad = [] →
      DoesWhole i s (put a.dev (opndOf (refAt q.refs 1)) (res a.dev (opndOf (refAt q.refs 0)).fmt a.elems (opndOf (refAt q.refs 1))))) ∧
    (cf q.cue 88 1 = 1 → (s.dev.core c).stream = [] → Does i s s.dev.fresh) ∧
    (cf q.cue 88 1 = 1 → ∀ t r, (s.dev.core c).stream = t :: r → t.fmt ≤ 1 → shapeOk (tileOpnd t) (opndOf (refAt q.refs 0)) = true →
      let d := s.dev.fresh.modCore c Core.dropTile
      DoesWhole i s (put d (opndOf (refAt q.refs 0)) (res d t.fmt (tileElems t) (opndOf (refAt q.refs 0)))))

/-- With the tower clocks running and an unfinished ATTEND at the head of the attention queue: while it has a block and the array is not
free, or feeds past its drain, it waits, the cycle of its first request being kept; else, with the record, the queries and the page list intact, a legal
record, no bad word and no error in any block, the record is written with the folded rows and the advanced KPOS, the flags and
the array cycles are noted, the scores of the pages used are updated, and the cue is finished. With another unfinished cue there:
FINISH with a legal, intact record writes each output times the reciprocal of its row's sum to the destination, 0 for a row with
sum 0, and sets NAN, EMPTY and the conversion flags; APPEND that its group and its pool allow and whose rows are intact places
its rows in the staging group; EVICT with intact headers frees the pages that evictPages chooses. Each of the four finishes its cue. The whole cue is one command (log entry 46); where an access to memory has to
wait, nothing changes (log entry 146), but that the cycle of an ATTEND's first request is kept. (R155, R156, R157, R160, R161, R165, R168, R187, R164, R169, R170, R179) -/
def Obligations.AttentionUnitRunsItsCues : Prop :=
  (∀ (s : State) (c : Fin 480) (q : QCue), s.dev.towersRun = true → ((s.dev.core c).queue 4).head? = some q → q.done = false →
      cf q.cue 0 4 = 0 →
      let d := s.dev.fresh
      let os := opndOf (refAt q.refs (if cf q.cue 114 1 = 1 then 2 else 1))
      let hd := d.readCore c 4 .scratch os.base 0x240
      let rows := leAt hd.bytes 0 4
      let dim := leAt hd.bytes 4 4
      let l := hd.dev.attLoad c q rows dim
      let i := attInputs c q hd.bytes rows dim l
      let r := attBlocks q i l (attStart (cf q.cue 112 1 == 1) rows dim l.body)
      let e := r.dev.attFlags c r
      let u := (e.attWrite q i hd.bytes l (attTokens d c q l) r).attScores c r.masses
      let waits := d.attHasBlock c q = true ∧ ((d.core c).arrayFree q.order = false ∨ d.pastDrain c = true)
      let t := u.dev.markDone c 4
      (waits → Does (.attend c) s (d.attWaits c)) ∧
      (¬ waits → hd.bad = [] →
        recordCodes rows dim os (opndOf (refAt q.refs 0)) = [] → l.bad = [] → r.bad = [] → r.err = none → u.bad = [] →
        (t.blocked = false → Does (.attend c) s t) ∧ (t.blocked = true → Does (.attend c) s ((s.dev.held t).attWaits c)))) ∧
  (∀ (s : State) (c : Fin 480) (q : QCue), s.dev.towersRun = true → ((s.dev.core c).queue 4).head? = some q → q.done = false →
      let d := s.dev.fresh
      (cf q.cue 0 4 = 1 →
        let os := opndOf (refAt q.refs 0)
        let od := opndOf (refAt q.refs 1)
        let hd := d.readCore c 4 .scratch os.base 0x10
        let rows := leAt hd.bytes 0 4
        let dim := leAt hd.bytes 4 4
        let b := hd.dev.readCore c 4 .scratch (os.base + 0x440) (0x200 + 4 * rows * dim)
        let sum := fun x => leAt b.bytes (4 * x) 4
        let vals := (List.range rows).flatMap fun x => (List.range dim).map fun y =>
          if sum x = 0 then 0 else fmul (leAt b.bytes (0x200 + 4 * (x * dim + y)) 4) (recipFn (sum x))
        let res := resultsOf ((vals.zip od.lins).map fun p =>
          narrowF32 od.fmt false (b.dev.rnd q.home (cf q.cue 89 1 == 1) (cf q.cue 90 8) p.2) p.1)
        hd.bad = [] → recordCodes rows dim os od = [] → b.bad = [] →
        DoesWhole (.finish c) s (((((b.dev.writeTensor c 4 od res.codes).convFlags c res.sat res.nan).attFlag c 0 (vals.any isNan)).attFlag
          c 1 ((List.range rows).any fun x => sum x == 0)).markDone c 4)) ∧
      (cf q.cue 0 4 = 2 →
        let ok := opndOf (refAt q.refs 0)
        let ov := opndOf (refAt q.refs 1)
        let gi := cf q.cue 88 6
        let room := d.roomFor c (if d.kvGroups c ≤ gi then 0 else (((d.core c).group gi).fill + ok.count / max 1 ok.ext0) / 128)
        let rk := room.1.dev.readTensor c 4 ok
        let rv := rk.dev.readTensor c 4 ov
        let input := (((chunksOf (max 1 ok.ext0) (rk.elems.map (Elem.val ok.fmt))).zip
          (chunksOf (max 1 ok.ext0) (rv.elems.map (Elem.val ov.fmt)))).zip (ok.rows.map fun x => x.2)).map fun p => (p.1.1, p.1.2, p.2)
        let r := Device.placeRows c gi (cf q.cue 94 2) ok.ext0 q.home (d.rnd q.home (cf q.cue 96 1 == 1) (cf q.cue 97 8)) input
          (AppendRes.mk rv.dev false false [])
        d.appendCodes c q = [] → room.1.bad = [] → room.2 = true → rk.bad = [] → rv.bad = [] → r.bad = [] →
        DoesWhole (.append c) s ((r.dev.convFlags c r.sat r.nan).markDone c 4)) ∧
      (cf q.cue 0 4 = 3 → (d.evictPages c (cf q.cue 40 16) false).bad = [] →
        DoesWhole (.evict c) s ((d.evictPages c (cf q.cue 40 16) false).dev.markDone c 4)))

/-- With the tower clocks running and an unfinished prefix cue at the head of the attention queue whose request is intact: the action that
the request names is carried out on the table of the core's half, with no bad word met, the result record is written to the
destination and the cue is finished. Holds for PROBE and ACQUIRE (PREFIX_LOOKUP, an unlisted ACTION with PROBE) and for INSERT,
REMOVE and RELEASE (PREFIX_INSERT, an unlisted ACTION with INSERT). The whole cue is one command (log entry 143); where an access to
memory has to wait, nothing changes (log entry 146).
(R189, R190, R191) -/
def Obligations.PrefixCuesAnswer : Prop :=
  ∀ (s : State) (c : Fin 480) (q : QCue) (i : Instr) (op : Nat) (act : Option PfxAct),
    (i, op, act) ∈ [(Instr.probe c, 4, some PfxAct.probe), (.probe c, 4, none), (.acquire c, 4, some PfxAct.acquire),
      (.insert c, 5, some PfxAct.insert), (.insert c, 5, none), (.remove c, 5, some PfxAct.remove),
      (.release c, 5, some PfxAct.release)] →
    s.dev.towersRun = true → ((s.dev.core c).queue 4).head? = some q → q.done = false → cf q.cue 0 4 = op →
    let t := opndOf (refAt q.refs 0)
    let o := opndOf (refAt q.refs 1)
    let r := s.dev.fresh.readSpace c 4 t.space t.base 576
    let key := if act = some .release then List.replicate 16 0 else prefixKey r.bytes
    let x := r.dev.pfxDo c c act key r.bytes
    pfxAct op (leAt r.bytes 0 4) = act → r.bad = [] → x.bad = none →
    DoesWhole i s ((x.dev.writeSpace c 4 o.space o.base (pfxRecord x key)).markDone c 4)

/-- For the issuing core k of half h, with ON the table's ENABLE bit, FULL its FULLCMP bit, b the bucket of the key as read, t the tokens of the
entry e that b holds for the key, and p the page that the request's REF names, none of them with a bad word: DISABLED (13) for
every action but RELEASE while ON is 0, and BAD_ACTION (12) for an unlisted one. PROBE and ACQUIRE answer MISS (0) with no entry, and
with one whose TOKREF is 0 under FULL (R192; that the answer is MISS is log entry 184); MISMATCH (8), counted, with other tokens under FULL; else HIT
(1), but that ACQUIRE of an entry of the issuing core answers STALE (9) for a stale page and REF_FULL (11) at 65,535, and else adds 1 to the page's count.
INSERT answers STALE for a stale REF, EXISTS (3) with an entry, FULL (4) with no way free, and INSERTED (2). REMOVE answers NOT_FOUND (6)
with no entry and REMOVED (5) with one. RELEASE answers STALE for a stale REF, REF_ZERO (10) at count 0, and RELEASED (7) with the count less 1.
For DISABLED, BAD_ACTION, MISS, FULL, NOT_FOUND, REF_ZERO and a stale INSERT the device is as the reads left it. (R191, R192) -/
def Obligations.PrefixStatusesFollowTheTable : Prop :=
  ∀ (d : Device) (k home : Nat) (act : Option PfxAct) (key req : List Byte),
    let h := halfOf (towerOf k)
    let on := d.bitOf (stoReg h 0x40000) 0
    let full := d.bitOf (stoReg h 0x40000) 1
    let go := fun (a : PfxAct) => d.pfxDo k home (some a) key req
    let b := (d.pfxRead h (d.bucketAddr h key) 128).1
    let p := d.resolvePage k (leAt req 0x20 4)
    (on = false → act ≠ some .release → d.pfxDo k home act key req = pfxPlain d 13) ∧
    (on = true → d.pfxDo k home none key req = pfxPlain d 12) ∧
    (on = true → b.bad = [] →
      (∀ a ∈ [PfxAct.probe, .acquire],
        (pfxFind b.bytes key = none → go a = pfxPlain b.dev 0) ∧
        (∀ e, pfxFind b.bytes key = some e → full = true →
          let t := b.dev.pfxRead h e.tok 512
          (e.tok = 0 → go a = pfxPlain b.dev 0) ∧
          (e.tok ≠ 0 → t.2 = true → t.1.bad = [] → t.1.bytes ≠ sliceBytes req 0x40 512 →
            go a = pfxPlain (t.1.dev.count (stoReg h 0x40010) 1) 8))) ∧
      (∀ e, pfxFind b.bytes key = some e →
        let t := b.dev.pfxRead h e.tok 512
        (full = true → e.tok ≠ 0 ∧ t.2 = true ∧ t.1.bad = [] ∧ t.1.bytes = sliceBytes req 0x40 512) →
        let l := if full then t.1.dev else b.dev
        let r := l.resolvePage k e.ref
        ((go .probe).status = 1 ∧ (go .probe).core = e.core ∧ (go .probe).ref = e.ref) ∧
        (e.core ≠ home → (go .acquire).status = 1) ∧
        (e.core = home → r.bad = [] →
          (r.stale = true → (go .acquire).status = 9) ∧
          (r.stale = false → r.hdr.f 0xC 2 = 65535 → (go .acquire).status = 11) ∧
          (r.stale = false → r.hdr.f 0xC 2 ≠ 65535 →
            go .acquire = (r.dev.setRefcnt k e.ref (r.hdr.f 0xC 2 + 1)).pfxNamed k home 1 e.core e.ref))) ∧
      (pfxFind b.bytes key = none → go .remove = pfxPlain b.dev 6) ∧
      (∀ e, pfxFind b.bytes key = some e →
        let w := b.dev.pfxWrite h (d.bucketAddr h key + 32 * e.way + 0x16) (leBytes 2 (withField (leAt b.bytes (32 * e.way + 0x16) 2) 0 1 0))
        (e.core = home → (w.resolvePage k e.ref).bad = []) → (go .remove).status = 5)) ∧
    (on = true → p.bad = [] → p.stale = true → go .insert = pfxPlain p.dev 9) ∧
    (on = true → p.bad = [] → p.stale = false →
      let x := p.dev.pfxRead h (d.bucketAddr h key) 128
      x.1.bad = [] →
        (∀ e, pfxFind x.1.bytes key = some e → (go .insert).status = 3 ∧ (go .insert).core = e.core ∧ (go .insert).ref = e.ref) ∧
        (pfxFind x.1.bytes key = none → x.2 = true →
          ((∀ w < 4, pfxValid x.1.bytes w = true) → go .insert = pfxPlain x.1.dev 4) ∧
          (∀ w < 4, pfxValid x.1.bytes w = false → (∀ v < w, pfxValid x.1.bytes v = true) → (go .insert).status = 2))) ∧
    (p.bad = [] →
      (p.stale = true → (go .release).status = 9) ∧
      (p.stale = false → p.hdr.f 0xC 2 = 0 → (go .release).status = 10 ∧ (go .release).dev = p.dev) ∧
      (p.stale = false → ∀ n, p.hdr.f 0xC 2 = n + 1 → (go .release).status = 7 ∧ (go .release).refcnt = n))

/-- With the tower clocks running and an unfinished cue of the unit at the head of its queue: a started cue goes on issuing; a READ that
is not started and no multicast, and that no check of the unit refuses, takes its destination and starts when its bank can accept the load, and
waits when it cannot; a multicast READ starts with its members; a WRITE starts; a GATHER whose indices are intact and in range
starts with the rows it names. Holds for STORE_DMA_READ, DRAM_DMA_READ, STORE_DMA_WRITE, DRAM_DMA_WRITE and GATHER. With the
arithmetic clock running and a multicast of the half that lacks pieces at the member, none of them under way, its cue running and its core
not aborting: when the member can take the load, the
first missing piece is requested again under a tag of the core's port (log entry 68) and leaves the list, and waits when no tag is free or the
member cannot take it. With no such multicast nothing changes. (R55, R130, R131, R132, R214, R216, R215) -/
def Obligations.DmaCuesTakeDestinationsAndGoOn : Prop :=
  (∀ (s : State) (c : Fin 480) (q : QCue) (u : Nat), s.dev.towersRun = true → ((s.dev.core c).queue u).head? = some q →
      q.done = false →
      let d := s.dev
      let w := d.readWork c q
      (∀ i, (i, u) ∈ [(Instr.storeDmaRead c, 5), (.dramDmaRead c, 6)] → cf q.cue 0 4 = 0 →
        (q.started = true → Does i s (d.dmaPump c u)) ∧
        (q.started = false → loadCodes q.cue (opndOf (refAt q.refs 0)) = [] →
          (w.members ≠ [] → Does i s (d.mcastBegin c q w)) ∧
          (w.members = [] → (d.core c).admission w.toPlace (c.val, u, q.order) (cf q.cue 105 1 == 1) = none → Idles i s) ∧
          (w.members = [] → ∀ x, (d.core c).admission w.toPlace (c.val, u, q.order) (cf q.cue 105 1 == 1) = some x →
            Does i s ((d.setCore c x).dmaBegin c u w)))) ∧
      (∀ i, (i, u) ∈ [(Instr.storeDmaWrite c, 5), (.dramDmaWrite c, 6)] → cf q.cue 0 4 = 1 →
        (q.started = true → Does i s (d.dmaPump c u)) ∧ (q.started = false → Does i s (d.dmaBegin c u (writeWork q)))) ∧
      (u = 6 → cf q.cue 0 4 = 2 →
        let r := d.readTensor c 6 (opndOf (refAt q.refs 1))
        let o := opndOf (refAt q.refs 0)
        let is := r.elems.map fun e => signedOf 32 e.code
        (q.started = true → Does (.gather c) s (d.dmaPump c 6)) ∧
        (q.started = false → r.bad = [] → (∀ i ∈ is, 0 ≤ i ∧ i < (tableRows o : Int)) →
          Does (.gather c) s (r.dev.dmaBegin c 6
            (DmaWork.mk .device .scratch (gatherPieces o (opndOf (refAt q.refs 2)) is) [] 0 []))))) ∧
  (∀ (s : State) (h : Half) (n : Fin 240), s.dev.clocked = true →
      let d := s.dev
      let m := 240 * halfNum h + n
      let lags := fun (x : Mcast) => !(mget [] x.missed m).isEmpty && !x.catching.contains m && !d.dmaStopped x.core
      ((d.half (halfNum h)).mcasts.find? lags = none → Idles (.mcastCatchup h n) s) ∧
      (∀ (x : Mcast) (w : DmaWork) (q : QCue) (p : Piece) (rest : List Piece),
        (d.half (halfNum h)).mcasts.find? lags = some x → mget [] x.missed m = p :: rest →
        (d.core x.core).headWork 5 = some w → ((d.core x.core).queue 5).head? = some q →
        let takes := x.accepted.contains m || ((d.core m).admission w.toPlace (x.core, 5, q.order) (cf q.cue 105 1 == 1)).isSome
        let req := d.coreTxn x.core (readTag p.src p.len (.catchup x.core m p))
        (takes = true → ∀ e, req = some e → Does (.mcastCatchup h n) s
          (e.mcastMod x.core fun y => { y with catching := insertAsc m y.catching, missed := mset [] y.missed m rest })) ∧
        (takes = true → req = none → Idles (.mcastCatchup h n) s) ∧
        (takes = false → Idles (.mcastCatchup h n) s)))

/-- With the arithmetic clock running and a tag of a half, for STORE_READ of a read and STORE_WRITE of a write: requested, at an address that may
be reached, and with its request next at its memory, a read leaves the tag served with the 64 bytes of its line and the
addresses of their bad codewords, a write stores the bytes it carries, poisoning the codewords it names, and leaves it served; in every other case nothing
changes. A response of another generation than the tag's is dropped and counted in STO_STALE, the status bit set and logged; one
of the tag's generation, when next at its port, frees a core's or ring port's served tag, answers its owner and lets the ports go on, and
sends a bridge port's answer over the bridge; before its turn, and for a tag that waits for none (log entry 76), nothing changes. A read of a core's own passes its path here, a shared
one where it lands (R368). A tag under way that times out is counted, noted and logged, a bridge port
answers its requester with an error, the tag is out of use and its requester gets the consequence of R213; a poison write that
times out is a base die fault of the half. A tag out of use comes back free with its generation. A free tag does neither. The oldest entry of a
merge buffer leaves it and is stored by read-modify-write; an empty buffer stays empty. (R199, R207, R217, R218, R211, R212, R213,
R225, R299, R368) -/
def Obligations.StoreServesTagsAndMergeBuffers : Prop :=
  (∀ (s : State) (h : Half) (j : BitVec 15), s.dev.clocked = true →
      let d := s.dev
      let n := halfNum h
      let t := d.tag n j.toNat
      let out := d.requestOut n j.toNat
      (t.st = .requested → d.legal t.addr = true → ∀ e, out = some e →
        let f := e.openCapacity t.addr t.len
        let r := f.readMem (t.addr / 64 * 64) 64
        (t.write = false → Does (.storeRead h j) s (r.dev.served n j.toNat { t with resp := r.bytes, respPoison := r.bad })) ∧
        (t.write = true → Does (.storeWrite h j) s
          ((f.storeTag t (e.fromHost t)).served n j.toNat { t with resp := [], respPoison := [] }))) ∧
      (t.st ≠ .requested ∨ d.legal t.addr = false ∨ out = none → Idles (.storeRead h j) s ∧ Idles (.storeWrite h j) s) ∧
      (t.write = true → Idles (.storeRead h j) s) ∧ (t.write = false → Idles (.storeWrite h j) s)) ∧
  (∀ (s : State) (h : Half) (j : BitVec 15) (g : BitVec 4), s.dev.clocked = true →
      let d := s.dev
      let n := halfNum h
      let t := d.tag n j.toNat
      (g ≠ t.gen → Does (.storeResponse h j g) s
        (((d.count (stoReg n 0x20) 1).setBit (stoReg n 8) 3).log (20 + n) 0x04 11 0 0
          (j.toNat + 2 ^ 15 * n + t.gen.toNat * 2 ^ 16 + g.toNat * 2 ^ 20))) ∧
      (g = t.gen → t.st = .served → ∀ e, d.responseOut n j.toNat = some e →
        ((∀ m r g, t.owner ≠ .bridge m r g) → (t.write = true ∨ 23040 ≤ j.toNat ∨ t.shared = true) →
          Does (.storeResponse h j g) s (((e.freeTag n j.toNat).txnAnswer t).payOwed n j.toNat)) ∧
        ((∀ m r g, t.owner ≠ .bridge m r g) → t.write = false → j.toNat < 23040 → t.shared = false →
          let x := e.passPath (240 * n + j.toNat / 96) t.addr t.len (t.respPoison.map (· / 16))
          Does (.storeResponse h j g) s
            (((x.1.freeTag n j.toNat).txnAnswer { t with respPoison := x.2.map (16 * ·) }).payOwed n j.toNat)) ∧
        (∀ m r g, t.owner = .bridge m r g →
          Does (.storeResponse h j g) s (e.bridgeAnswer n j.toNat m (if t.write then 2 else 0)))) ∧
      (g = t.gen → t.st ≠ .served ∨ d.responseOut n j.toNat = none → Idles (.storeResponse h j g) s)) ∧
  (∀ (s : State) (h : Half) (j : BitVec 15), s.dev.clocked = true →
      let d := s.dev
      let n := halfNum h
      let t := d.tag n j.toNat
      let noted := ((d.count (stoReg n 0x28) 1).setBit (stoReg n 8) 4).log (20 + n) 0x06 11 (t.addr / 64 * 64) 0
        (j.toNat + 2 ^ 15 * n + (if t.write then 2 ^ 16 else 0))
      let out := fun (e : Device) =>
        ((e.leave n j.toNat).setTag n j.toNat { Tag.reset with gen := t.gen, st := .timedOut, owner := t.bridgeOwner }).timedOut n j.toNat t
      (t.st = .requested ∨ t.st = .served ∨ t.st = .bridging →
        (t.bane = false → (∀ m r g, t.owner ≠ .bridge m r g) → Does (.storeTagTimeout h j) s (out noted)) ∧
        (t.bane = false → ∀ m r g, t.owner = .bridge m r g → Does (.storeTagTimeout h j) s (out (noted.bridgeAnswer n j.toNat m 1))) ∧
        (t.bane = true → t.write = true → (∀ m r g, t.owner ≠ .bridge m r g) → ((out noted).tag n j.toNat).st = .timedOut →
          Does (.storeTagTimeout h j) s (Device.loseHalf 2 n (out noted)))) ∧
      (t.st = .timedOut → Does (.storeTagRelease h j) s ((d.freeTag n j.toNat).payOwed n j.toNat)) ∧
      (t.st = .free → Idles (.storeTagTimeout h j) s ∧ Idles (.storeTagRelease h j) s)) ∧
  (∀ (s : State) (h : Half) (n : Fin 256), s.dev.clocked = true →
      let d := s.dev
      (∀ e r, d.mergeBuf (halfNum h) n = e :: r →
        Does (.mergeExpiry h n) s
          ((d.setMerge (halfNum h) n ((e :: r).filter fun x => x.cw != e.cw)).storeCw e.cw e.bytes false e.host)) ∧
      (d.mergeBuf (halfNum h) n = [] → Idles (.mergeExpiry h n) s))

/-- With the arithmetic clock running and its scrubber enabled: the next line of a DRAM channel in service that has nothing else to grant and
whose bank no near-bank step holds, of a store slice of a half that is there and where no access waits, or of a capacity channel in
service is scrubbed, the count of lines advances, and the pass is judged; a DRAM channel first writes back what its last scrub corrected, and
skips the lines of a retired page (R249).
With the scrubber off, nothing changes. (R295, R301, R302, R443) -/
def Obligations.ScrubbersReadLineByLine : Prop :=
  ∀ (s : State), s.dev.clocked = true →
    let d := s.dev
    (∀ (k : Fin 480) (ch : Fin 8), d.bitOf (twrReg (towerOf k) 0x301220) 0 = true → d.chanUp k ch = true →
      d.grant k ch = .none → d.bankHeld k ch (dramPlace (d.nextScrub k ch)).bank = false →
      let w := d.scrubWrite k ch
      let a := sliceBase k + w.nextScrub k ch
      let e := (if w.inRetiredPage a then w else (w.burstMade k ch (addrPlace a) false).scrubLine a).modChan k ch fun x => { x with scrubLine := x.scrubLine + 1 }
      let n := passesOf ((List.range 192).map fun i => ((e.chan (24 * towerOf k + i / 8) (i % 8)).scrubLine, e.chanLines))
      let r := e.scrubPass (twrReg (towerOf k) 0x301220) (e.tower (towerOf k)).scrubPass (e.tower (towerOf k)).passes n
      Does (.scrubAccess (.dram k ch)) s
        (if r.2 then r.1.modTower (towerOf k) fun x => { x with scrubPass := e.now, passes := n } else r.1)) ∧
    (∀ (h : Half) (n : Fin 256), d.bitOf (stoReg (halfNum h) 0x40) 0 = true → (d.half (halfNum h)).lost = false →
      d.sliceQuiet (halfNum h) n = true →
      let l := mget 0 (d.half (halfNum h)).scrub n
      let a := sliceLine (halfNum h) n (l % 196608)
      let e := d.each [a / 16, a / 16 + 1, a / 16 + 2, a / 16 + 3] fun c d => d.completeMerge (halfNum h) n c
      Does (.scrubAccess (.store h n)) s
        (((e.scrubLine a).modHalf (halfNum h) fun x => { x with scrub := mset 0 x.scrub n (l + 1) }).halfPass (halfNum h))) ∧
    (∀ (ch : Fin 12), d.bitOf (stoReg (ch / 6) 0x40) 0 = true → d.fieldOf (lpdReg (0x100 + 8 * ch)) 0 2 = 2 →
      (d.half (ch / 6)).lost = false →
      let l := (mget LpdChan.reset d.lpd ch).scrubLine
      let v := l % (d.lpdSize ch / 64) * 64
      let e := (d.openLine ch v 64).scrubLine (0x080000000000 + ch * 0x1000000000 + v)
      Does (.scrubAccess (.lpd ch)) s
        ({ e with lpd := mmod LpdChan.reset e.lpd ch fun x => { x with scrubLine := l + 1 } }.halfPass (ch / 6))) ∧
    (∀ (k : Fin 480) (ch : Fin 8), d.bitOf (twrReg (towerOf k) 0x301220) 0 = false → Idles (.scrubAccess (.dram k ch)) s) ∧
    (∀ (h : Half) (n : Fin 256), d.bitOf (stoReg (halfNum h) 0x40) 0 = false → Idles (.scrubAccess (.store h n)) s) ∧
    (∀ (ch : Fin 12), d.bitOf (stoReg (ch / 6) 0x40) 0 = false → Idles (.scrubAccess (.lpd ch)) s)

/-- After a codeword outside tower DRAM is scrubbed: a CORRECTED word reads clean with the corrected data, an UNCORRECTABLE
word reads as the poisoned form of the data received, a clean or poisoned word is unchanged, and no other codeword of device
memory differs. In tower DRAM the scrub itself changes no codeword: the correction waits in the channel for its write-back.
(R290, R295, R301) -/
def Obligations.ScrubbingCorrectsACodeword : Prop :=
  ∀ (d : Device) (cw : Nat), d.formed = true →
    let x := d.mem.cw cw
    let e := d.scrubCw cw
    ((∀ k o, regionOf (16 * cw) ≠ .dram k o) →
      (∀ b, x.cls = .corrected b → (e.mem.cw cw).cls = .clean ∧ (e.mem.cw cw).data = x.data) ∧
      (x.cls = .uncorrectable → (e.mem.cw cw).cls = .poison none ∧ (e.mem.cw cw).data = x.data) ∧
      (x.cls = .clean ∨ (∃ b, x.cls = .poison b) → e.mem = d.mem) ∧
      (∀ n, n ≠ cw → e.mem.cw n = d.mem.cw n)) ∧
    ((∃ k o, regionOf (16 * cw) = .dram k o) → e.mem = d.mem)

/-- With the tower clocks running: a well-formed request of the channel to memory that is there joins its queue, by its route (log entry 156), while there is room and no request of
its width waits at its source, and else waits at its source; a service-plane request to memory that is not there is an address error, another is
dropped, and a request of another channel changes nothing. A channel in service grants a refresh or an access in the order of
R241; with neither it writes back what its scrub corrected. A refresh that falls due in a bank of a channel in service with a refresh window closes the row and adds one
to the debt of the bank it serves, at most 4; a row timeout closes the row. A channel with empty queues and nothing at its
source enters self-refresh outside a take with its rows closed and no debt, a capacity channel in service with no access for it too; in a take neither does. A bank
whose entry awaits its copy is copied to the lowest free spare outside a take and remapped, its entry taking effect and a record being kept for the next start
(log entry 188). (R238, R239,
R241, R242, R240, R246, R248, R250, R251, R255, R439, R236) -/
def Obligations.DramControllersServeAndRefresh : Prop :=
  (∀ (s : State) (k : Fin 480) (ch : Fin 8), s.dev.towersRun = true →
      let d := s.dev
      (∀ r : DramReq, r.wf = true →
        let there := d.legal r.addr.toNat
        let waits := (d.chan k ch).atSource.any fun q => q.req.small == (routedReq r).small
        let later := d.modChan k ch fun c => { c with atSource := c.atSource ++ [QReq.mk (routedReq r) .none d.now] }
        (reqBelongs k ch r = false → Idles (.dramRequest k ch r) s) ∧
        (reqBelongs k ch r = true → there = true → waits = false →
          (∀ e, d.pushReq k ch (routedReq r) .none = some e → Does (.dramRequest k ch r) s e) ∧
          (d.pushReq k ch (routedReq r) .none = none → Does (.dramRequest k ch r) s later)) ∧
        (reqBelongs k ch r = true → there = true → waits = true → Does (.dramRequest k ch r) s later) ∧
        (reqBelongs k ch r = true → there = false →
          (r.src = 26 → Does (.dramRequest k ch r) s (d.addrError r.addr.toNat 2)) ∧
          (r.src ≠ 26 → Idles (.dramRequest k ch r) s))) ∧
      (d.chanUp k ch = true →
        (∀ b f, d.grant k ch = .refresh b f → Does (.burstGrant k ch) s (d.refreshBank k ch b f)) ∧
        (∀ w, d.grant k ch = .access w → Does (.burstGrant k ch) s (d.grantAccess k ch w)) ∧
        (d.grant k ch = .none → Does (.burstGrant k ch) s (d.scrubWrite k ch))) ∧
      (d.chanUp k ch = false → Idles (.burstGrant k ch) s)) ∧
  (∀ (s : State) (k : Fin 480) (ch : Fin 8), s.dev.towersRun = true →
      let d := s.dev
      (∀ b : Fin 52, d.chanUp k ch = true → d.bankWindow k ch b ≠ 3 →
        Does (.refreshDue k ch b) s (d.modChan k ch fun c => c.modBank (d.servesBank k ch b) fun x =>
          { x with openRow := none, debt := min 4 (x.debt + 1) })) ∧
      (∀ b : Fin 48, Does (.rowTimeout k ch b) s (d.modChan k ch fun c => c.modBank b fun x => { x with openRow := none })) ∧
      (d.inTake = false → (d.chan k ch).native = [] → (d.chan k ch).narrow = [] → (d.chan k ch).atSource = [] →
        Does (.selfRefreshIdle (.column k) (ch.castLE (by decide))) s (d.modChan k ch fun c => { c with selfRefresh := true, banks := [] })) ∧
      (∀ n : Fin 12, d.inTake = false → d.fieldOf (lpdReg (0x100 + 8 * n)) 0 2 = 2 → (∀ x ∈ d.accesses, x.needsLpd n = false) →
        Does (.selfRefreshIdle .capacity n) s (d.setField (lpdReg (0x100 + 8 * n)) 0 2 3)) ∧
      (∀ (w : IdleSite) (n : Fin 12), d.inTake = true ∨ (w ≠ .capacity ∧ 8 ≤ n.val) → Idles (.selfRefreshIdle w n) s) ∧
      (∀ (b : Fin 48) (n : Nat) (e0 : BitVec 64), d.inTake = false →
        let due := fun (e : BitVec 64) => field e.toNat 0 3 == 6 && field e.toNat 8 32 == bankTarget k ch b
        d.retire.entries.find? due = some e0 → d.freeSpare k ch = some n →
        let e := ((d.each (d.copyWords k ch b) fun c d => d.copyCw c).copyFlip k ch b).copyBursts k ch b
        Does (.bankCopy k ch b) s { (e.remap k ch b n).note 2 2 (bankTarget k ch b + n * 2 ^ 19) with
          retire := Retire.mk (e.retire.entries.map fun x => if due x then x &&& ~~~ (4 : BitVec 64) else x) }))

/-- With the tower clocks running and an unfinished near-bank cue of operation op at the head of its queue: not yet started and with a legal
mask, it is accepted by the site it names (with its activation table for ACT_TABLE, read once: log entry 73) and started; with an illegal mask it is the
cue error 0x12; started, the result of each step that runs in one of its masked banks is computed once. Holds for all eighteen
operations. With the tower clocks running: a bank whose next command has steps left, in a channel in service with fewer than 8 banks in a
step and no abort, the first of the channel's banks that wait, starts the step after the refresh it owes; a step that ends is
done, its command finishes when every bank is done, the refresh of the boundary comes when another step is next, then the accesses
queued before, then the next step may start, unless an access of a unit asks for the bank; a fence of a tower that is up covers the commands issued and not complete. (R134, R264, R265, R268, R276,
R277, R280, R282, R286) -/
def Obligations.NearBankCommandsRunTheirSteps : Prop :=
  (∀ (s : State) (c : Fin 480) (q : QCue) (i : Instr) (op : Nat),
      (i, op) ∈ [(Instr.fill c, 0x01), (.and c, 0x02), (.or c, 0x03), (.xor c, 0x04), (.not c, 0x05), (.nbAdd c, 0x06), (.nbSub c, 0x07),
        (.nbMul c, 0x08), (.nbFma c, 0x09), (.scale c, 0x0A), (.resadd c, 0x0B), (.sumsq c, 0x0C), (.normApply c, 0x0D),
        (.actTable c, 0x0E), (.nbConvert c, 0x0F), (.quantFp8 c, 0x10), (.adamw c, 0x11), (.copy c, 0x00)] →
      s.dev.towersRun = true → ((s.dev.core c).queue 7).head? = some q → q.done = false → nbOp q.cue = op →
      let d := s.dev
      let site := 24 * towerOf c + nbPos q.cue
      let t := if op = 0x0E then d.readCore c 7 .scratch (nbWord q.param 0) 2048 else ReadRes.mk d [] []
      (q.started = false → d.nbMaskBad q.cue = false →
        Does i s ((t.dev.headMod c 7 fun x => { x with started := true }).modSite site fun y =>
          { y with cmds := y.cmds ++ [NbCmd.mk c q t.bytes t.bad []] })) ∧
      (q.started = false → d.nbMaskBad q.cue = true → Does i s (d.cueError c 0x12 q.index q.home 7)) ∧
      (q.started = true → ∀ m, (d.site site).cmds.find? (fun m => m.core == (c : Nat) && m.cue.order == q.order) = some m →
        Does i s (d.each (nbBanks q.cue) fun b d => d.nbCompute site b m))) ∧
  (∀ (s : State), s.dev.towersRun = true →
      let d := s.dev
      (∀ (k : Fin 480) (ch : Fin 8) (b : Fin 48) (m : NbCmd), (d.site k).nextCmd (48 * ch + b) = some m → d.chanUp k ch = true →
        d.take.aborting = false → (m.bank (48 * ch + b)).inStep = false → (d.site k).running ch < 8 →
        (d.site k).startsFirst ch b = true → Does (.nbStepStart k ch b) s ((d.nbRefresh k ch b).stepOpen k (48 * ch + b) m)) ∧
      (∀ (k : Fin 480) (ch : Fin 8) (b : Fin 48), (d.site k).nextCmd (48 * ch + b) = none → Idles (.nbStepStart k ch b) s) ∧
      (∀ (k : Fin 480) (ch : Fin 8) (b : Fin 48) (m : NbCmd),
        (d.site k).cmds.find? (fun m => (m.bank (48 * ch + b)).inStep) = some m →
        let e := (d.stepDone k (48 * ch + b) m).nbFinish k m
        let f := if ((e.site k).nextCmd (48 * ch + b)).isSome then e.nbRefresh k ch b else e
        let ws := (f.chan k ch).waitingAll
        let g := f.serveBank k ch b (ws.map fun w => w.q) ws.length
        (g.wanted.contains (k.val, ch.val, b.val) = false → Does (.nbStepEnd k ch b) s (Device.stepStart k ch b g)) ∧
        (g.wanted.contains (k.val, ch.val, b.val) = true →
          Does (.nbStepEnd k ch b) s { g with wanted := g.wanted.filter (· ≠ (k.val, ch.val, b.val)) }))) ∧
  (∀ (s : State), s.dev.awake = true →
      let d := s.dev
      (∀ t : Fin 20, d.up t = true → Does (.nbFenceReq t) s (d.modTower t fun x => { x with fence := d.nbIssued t })))

/-- With the arithmetic clock running. TICK counts a tick in GAF_TICK, after sending the tick marks, and runs the tick of energies, take and clapper. SAMPLING_POINT
records flows and sets budgets, and in a running take with an entry for the next frame samples it, where it has not to wait for an access (log entry 146). GAFFER_RESULTS sends the decision to the east half once,
GAFFER_OUTCOME then makes it held by both, the east half told its length (log entry 176), and votes at once (log entry 151); with no decision neither changes anything. A clapper message next in its port's
CTRL buffer leaves it and is used: of an older epoch, or on a port that carries none, it changes nothing more; with another period it sets the status bit
alone. Holdover begins after 4 ticks without a usable message; in a take its expiry is a partner-lost fault; before their time
neither changes anything. Continuity rows whose message is next in the mirror port's buffer, or with no mirror port, take it:
outside a take with continuity enabled the exchange is held and judged; in continuity the partner's outcome is held, and a
signature message is held and compared; a message that is not next changes nothing. A decision without the partner's outcome, or
with signatures not compared, is late. A landed payload is counted once: bytes of a stamp that has a slot are added to it; a new stamp takes a free slot in its place; with all 8
slots taken, a stamp above the lowest evicts it and GAF_LAND_EVICT counts, and any other counts in GAF_LAND_LATE. A sum of 2^32 or more is a
free value (log entry 5). (R316, R317, R328, R330, R338, R377, R318, R319, R322, R325, R353, R356) -/
def Obligations.TicksClapperContinuityAndLandings : Prop :=
  (∀ (s : State), s.dev.clocked = true →
      let d := s.dev
      (∀ m : TickMeas,
        Does (.tick m) s (((d.tickMarks.setField (gafReg 0x20) 0 48
          (min (2 ^ 48 - 1) (d.tickMarks.fieldOf (gafReg 0x20) 0 48 + 1))).tickEnergy m).tickTake).tickClapper) ∧
      (let e := d.fresh.recordFlow.setBudgets;
        (e.take.reel = none ∨ (e.take.state ≠ 2 ∧ e.take.starting = false) ∨ e.take.stopping = true → DoesWhole .samplingPoint s e) ∧
        (∀ r j, e.take.reel = some r → (e.take.state = 2 ∨ e.take.starting = true) → e.take.stopping = false →
          r.entryIndex e.nextFrame = some j → DoesWhole .samplingPoint s (e.sample r e.nextFrame j))) ∧
      (∀ o, d.take.decision = some o → d.take.eastResults = false →
        Does .gafferResults s (((d.modTake fun t => { t with eastResults := true }).emit (.serviceStream true (d.outcomeMessage o))).sendOutcome o)) ∧
      (∀ o, d.take.decision = some o → d.take.eastResults = true →
        let e := d.modTake fun t => { t with east := { t.east with next := t.west.next } }
        (d.take.eastOutcome = false → Does .gafferOutcome s
          ((e.modTake fun t => { t with eastOutcome := true }).vote (o.reason == 0 && !d.take.overcurrent && !d.cont.late))) ∧
        (d.take.eastOutcome = true → Does .gafferOutcome s e)) ∧
      (d.take.decision = none → Idles .gafferResults s ∧ Idles .gafferOutcome s)) ∧
  (∀ (s : State), s.dev.clocked = true →
      let d := s.dev
      (∀ (p : Fin 16) (m : ClapperMsg) (x : Int),
        let next := d.rxNext p 4 fun k => k.kind.toNat == 0x12 && clapperOf k.payload == m
        let e := d.takeHead p 4
        (next = false → Idles (.clapper p m x) s) ∧
        (next = true → Does (.clapper p m x) s (e.useClapper p m x)) ∧
        (next = true → m.epoch.toNat < e.fab.epochSeen ∨ e.carries p = false → Does (.clapper p m x) s e) ∧
        (next = true → e.fab.epochSeen ≤ m.epoch.toNat → e.carries p = true → m.periodUs.toNat ≠ e.period →
          Does (.clapper p m x) s (e.setBit (gafReg 0x18) 10))) ∧
      (d.bitOf (gafReg 0x18) 1 = false → d.bitOf (gafReg 0x18) 3 = false → 4 ≤ d.clap.missed →
        Does .holdoverEntry s (((d.setBit (gafReg 0x18) 7).setBit (gafReg 0x18) 3).setField (gafReg 0x18) 2 1 0)) ∧
      (d.clap.missed < 4 → Idles .holdoverEntry s) ∧
      (d.bitOf (gafReg 0x18) 3 = true → d.take.state = 2 → 69 ≤ d.clap.missed →
        Does .holdoverExpiry s (d.fault 9 0 0 20 d.masterAddr 0)) ∧
      (d.clap.missed < 69 → Idles .holdoverExpiry s)) ∧
  (∀ (s : State), s.dev.clocked = true →
      let d := s.dev
      let next := fun (p : Nat) (msg : List Byte) => d.rxNext p 0 fun k => k.kind.toNat == 0x20 && k.payload.take msg.length == msg
      let got := fun (msg : List Byte) (e : Device) =>
        (d.mirrorPort = none ∧ e = d) ∨ ∃ p, d.mirrorPort = some p ∧ next p msg = true ∧ e = d.takeHead p 0
      let lost := fun (msg : List Byte) => ∃ p, d.mirrorPort = some p ∧ next p msg = false
      (∀ fp dg,
        (∀ e, got (helloMessage fp dg) e → e.bitOf (svcReg 0x9100) 0 = true → e.inTake = false →
          Does (.contExchange fp dg) s ({ e with cont := { e.cont with hello := some (fp, dg) } } : Device).judgeHello) ∧
        (lost (helloMessage fp dg) → Idles (.contExchange fp dg) s)) ∧
      (∀ (n : BitVec 48) b,
        (∀ e, got (contOutcomeMessage n.toNat b) e → e.inContinuity = true →
          Does (.contOutcome n b) s { e with cont := { e.cont with partnerOutcome := some (n.toNat, b) } }) ∧
        (lost (contOutcomeMessage n.toNat b) → Idles (.contOutcome n b) s)) ∧
      (∀ (n : BitVec 48) l,
        let msg := signatureMessage n.toNat ((List.range 480).map fun h => (h, mget 0 l h))
        (∀ e, got msg e → e.contOn = true →
          Does (.contSignatures n l) s
            (({ e with cont := { e.cont with theirs := e.cont.theirs ++ [(n.toNat, l)] } } : Device).compareFrame n.toNat)) ∧
        (lost msg → Idles (.contSignatures n l) s)) ∧
      (∀ o, d.inContinuity = true → d.take.decision = some o →
        let late := ({ d with cont := { d.cont with late := true } } : Device).vote false
        (d.partnerSays = none → Does .contOutcomeMissing s late) ∧
        (∀ p ∈ d.cont.mine, p.1 + 2 ≤ d.nextFrame → Does .contCompareLate s late)) ∧
      (d.inContinuity = false ∨ d.take.decision = none → Idles .contOutcomeMissing s ∧ Idles .contCompareLate s)) ∧
  (∀ (s : State) (c : Fin 512) (st : BitVec 48) (n : Nat), s.dev.clocked = true →
      let d := s.dev
      let due := d.take.landed.contains (c.val, st.toNat, n)
      let slots := mget [] d.take.landing c
      let e := d.modTake fun t => { t with landed := t.landed.erase (c.val, st.toNat, n) }
      let put := fun (d : Device) (l : List (Nat × Nat)) => d.modTake fun t => { t with landing := mset [] t.landing c l }
      let add := fun (l : List (Nat × Nat)) => (l.takeWhile fun x => decide (x.1 < st.toNat)) ++ [(st.toNat, n)] ++
        l.dropWhile fun x => decide (x.1 < st.toNat)
      (due = false → Idles (.payloadLanded c st n) s) ∧
      (due = true →
        (∀ x, slots.find? (fun x => x.1 == st.toNat) = some x →
          Does (.payloadLanded c st n) s (put (e.landSum (x.2 + n)).2
            (slots.map fun y => if y.1 = st.toNat then (y.1, (e.landSum (x.2 + n)).1) else y))) ∧
        (slots.find? (fun x => x.1 == st.toNat) = none → slots.length < 8 → Does (.payloadLanded c st n) s (put e (add slots))) ∧
        (∀ low r, slots = low :: r → 8 ≤ slots.length → slots.find? (fun x => x.1 == st.toNat) = none →
          (low.1 < st.toNat → Does (.payloadLanded c st n) s (put (e.count (gafReg 0x78) 1) (add r))) ∧
          (st.toNat ≤ low.1 → Does (.payloadLanded c st n) s (e.count (gafReg 0x70) 1)))))

/-- The decision for a frame is HOLD when GAF_CTL holds; else CLAPPER when the part is neither master, locked nor in holdover; else
LIST with the lowest home index that lacks its list; else GATE with the lowest unsatisfied gate; else ENERGY with the lowest tower
above its budget; else PACKAGE for the overcurrent mark or the whole-part check; else GUARD; and a released frame has every check
holding. (R328, R488) -/
def Obligations.ReleaseChecksInOrder : Prop :=
  ∀ (d : Device) (n : Nat) (decl : List Nat) (gates : List (List Byte)) (es : List CoreEntry) (rot : List Nat),
    let o := d.outcomeOf n decl gates es rot
    (d.bitOf (gafReg 0x10) 0 = true → o.reason = 1) ∧
    (d.bitOf (gafReg 0x10) 0 = false → d.bitOf (gafReg 0x18) 1 = false → d.bitOf (gafReg 0x18) 2 = false →
      d.bitOf (gafReg 0x18) 3 = false → o.reason = 2) ∧
    (d.bitOf (gafReg 0x10) 0 = false → (d.bitOf (gafReg 0x18) 1 || d.bitOf (gafReg 0x18) 2 || d.bitOf (gafReg 0x18) 3) = true →
      let hot := fun t => (d.budget t).1 < decl.getD t 0 + d.excess t
      (∀ h, d.lackingList n es rot = some h → o.reason = 3 ∧ o.core = h) ∧
      (d.lackingList n es rot = none →
        (∀ i g, gates[i]? = some g → d.gateOk g n = false → (∀ j g', j < i → gates[j]? = some g' → d.gateOk g' n = true) →
          o.reason = 4 ∧ o.gate = i) ∧
        ((∀ g ∈ gates, d.gateOk g n = true) →
          (∀ t < 20, hot t → (∀ t' < t, ¬ hot t') → o.reason = 5 ∧ o.tower = t) ∧
          ((∀ t < 20, ¬ hot t) →
            (d.take.overcurrent = true ∨ d.packageOk decl = false → o.reason = 6) ∧
            (d.take.overcurrent = false → d.packageOk decl = true →
              (d.take.guardForced = true ∨ 64 ≤ d.take.guardRun → o.reason = 7) ∧
              (d.take.guardForced = false → d.take.guardRun < 64 → o.reason = 0)))))) ∧
    (o.reason = 0 →
      d.bitOf (gafReg 0x10) 0 = false ∧ d.lackingList n es rot = none ∧ (∀ g ∈ gates, d.gateOk g n = true) ∧
      (∀ t < 20, decl.getD t 0 + d.excess t ≤ (d.budget t).1) ∧ d.take.overcurrent = false ∧ d.packageOk decl = true ∧
      d.take.guardForced = false ∧ d.take.guardRun < 64)

/-- The budget of a tower is 0 with limit code 3 while it is forced to 0; else it is the floor of the least of its cap, supply and
thermal limits, and the code names, 0 to 2, a limit that is the least. It is then at most the cap limit. (R332, R333) -/
def Obligations.BudgetIsTheLowestLimit : Prop :=
  ∀ (d : Device) (t : Nat),
    let limits := [Frac.ofInt (d.capLimit t), d.supplyLimit t, d.thermalLimit t]
    (d.budgetForced t = true → d.budget t = (0, 3)) ∧
    (d.budgetForced t = false →
      (∃ (i : Nat) (x : Frac), limits[i]? = some x ∧ (∀ y ∈ limits, x.le y = true) ∧ d.budget t = (x.floor.toNat, i)) ∧
      (d.budget t).1 ≤ d.capLimit t ∧ (d.budget t).2 ≤ 2)

/-- With the arithmetic clock running: with no tower busy, the measured towers up and each re-check leaving a margin of 2 taps or more, a guard band
counts none busy, clears the run of skips and moves the delay lines of the measured groups; GUARD_FORCE forces the next frame
dark from 64 skips on and not before; the list of the coming frame, in a take without a decision, arrives at its core from an intact index
entry, as an empty list (log entry 139) or into the cue buffer, and a bad word of the frame table or the index is a base die fault (log entry
94); where an access has to wait nothing changes (log entry 146). With the part awake: without a flow reading for 1 s the flow is taken as 2,000 mL/min. The towers of
a mask that are up are fenced, the take faults with CLOCK naming them, and their rejoin starts where it may; with none up
nothing changes. A half lost, or with a base die fault, is fatal; a lost half changes no more (log entry 17). A rejoin under way
that ends well returns the tower, tuned, with its DRAM; one that fails counts an attempt (log entry 111), and the third leaves the tower dark; with none under way nothing changes. The end of an
abort unloads the reel and leaves no take; with no abort under way nothing changes. (R89, R327, R335, R339, R371, R380, R381, R383, R384, R103, R556, R558) -/
def Obligations.GuardBandsAndLosses : Prop :=
  (∀ (s : State), s.dev.clocked = true →
      let d := s.dev
      (∀ eyes, (∀ t < 20, d.towerBusy t = false) → (∀ e ∈ eyes, d.up e.tower.val = true) →
        (∀ e ∈ eyes, 2 ≤ (recheck (mget 0 (d.tower e.tower).taps e.group) e).2) →
        Does (.guardBandStart eyes) s
          (((((d.count (gafReg 0x58) 0).modTake fun t => { t with guardRun := 0 }).each ((eyes.map fun e => e.tower.val).eraseDups)
            fun t d => d.setField (twrReg t 0x302000) 12 7 127).each eyes Device.recheckEye).loseTowers [])) ∧
      (64 ≤ d.take.guardRun → Does .guardForce s (d.modTake fun t => { t with guardForced := true })) ∧
      (d.take.guardRun < 64 → Idles .guardForce s) ∧
      (∀ (c : Fin 480) r j, (d.take.state = 2 ∨ d.take.starting = true) → d.take.decision = none → d.hasArray c = true →
        d.take.reel = some r → r.entryIndex d.comingFrame = some j →
        let t := d.fresh.serviceRead (r.base + r.frameTable + 128 * j) 8
        let x := t.dev.serviceRead (r.base + leAt t.bytes 0 8 + 48 * (c / 6)) 48
        let es := coreEntries x.bytes
        (t.bad ≠ [] → DoesWhole (.nextListArrival c) s t.dev.badService) ∧
        (t.bad = [] → x.bad ≠ [] → DoesWhole (.nextListArrival c) s x.dev.badService) ∧
        (t.bad = [] → x.bad = [] →
          ∀ e, es[homeAt (d.fresh.ringRotates r (c / 6) es) d.comingFrame c % 6]? = some e →
          (e.empty = true → DoesWhole (.nextListArrival c) s (x.dev.modCore c fun y => { y with next := some [] })) ∧
          (e.empty = false → DoesWhole (.nextListArrival c) s
            (x.dev.fillBuffer c (r.base + e.list) (x.dev.serviceRead (r.base + e.list) (16 * e.len)))))) ∧
      (∀ c : Fin 480, (∀ o, d.take.decision = some o → Does (.nextListArrival c) s d.fresh))) ∧
  (∀ (s : State), s.dev.awake = true →
      let d := s.dev
      Does .flowStale s ((d.setBit (gafReg 0x18) 5).setField (gafReg 0x50) 0 16 2000) ∧
      (∀ (m : BitVec 20) t r, (bitsOf 20 m.toNat).filter d.up = t :: r →
        Does (.towerLoss m) s (((d.each (t :: r) Device.fence).fault 2 t 0 0 0
          ((t :: r).foldl (fun a x => a + 2 ^ x) 0)).each (t :: r) Device.autoRejoin)) ∧
      (∀ m : BitVec 20, (bitsOf 20 m.toNat).filter d.up = [] → Idles (.towerLoss m) s) ∧
      (∀ h : Half, (d.half (halfNum h)).lost = false →
        Does (.halfLoss h) s (Device.loseHalf 1 (halfNum h) d) ∧ Does (.baseDieFault h) s (Device.loseHalf 2 (halfNum h) d) ∧
        (d.formed = true → (Device.loseHalf 1 (halfNum h) d).bitOf (svcReg 0xD000) 2 = true ∧
          (Device.loseHalf 2 (halfNum h) d).bitOf (svcReg 0xD000) 2 = true)) ∧
      (∀ h : Half, (d.half (halfNum h)).lost = true → Idles (.halfLoss h) s ∧ Idles (.baseDieFault h) s) ∧
      (∀ (t : Fin 20) (eyes : List EyeMeas), (d.tower t).rejoining = true →
        let a := d.modTower t fun x => { x with rejoining := false }
        let e := (a.modTower t fun x => { x with fenced := false }).setField (twrReg t 0x302000) 21 1 0
        let n := min 3 (a.fieldOf (twrReg t 0x302008) 1 2 + 1)
        let f := a.setField (twrReg t 0x302008) 1 2 n
        Does (.rejoinEnd t ⟨true, eyes⟩) s
          (((Device.tuneTower t eyes (e.each (List.range 24) fun c d => d.modSite (24 * t + c) fun x => { x with srBase := false })).startModel t
            ).mbxEndOf 6 0) ∧
        (n = 3 → Does (.rejoinEnd t ⟨false, eyes⟩) s (((f.darken t).setField (twrReg t 0x302000) 21 1 0).mbxEndOf 6 0)) ∧
        (n ≠ 3 → Does (.rejoinEnd t ⟨false, eyes⟩) s
          ((if f.bitOf (hstReg 0x108) 0 && f.mbx.op == 6 then f else f.autoRejoin t).mbxEndOf 6 0))) ∧
      (∀ (t : Fin 20) (r : RejoinReport), (d.tower t).rejoining = false → Idles (.rejoinEnd t r) s) ∧
      (d.take.state = 3 → d.take.aborting = true → Does .abortComplete s d.abortEnd ∧ d.abortEnd.take.state = 0 ∧
        d.abortEnd.take.reel = none ∧ d.abortEnd.take.aborting = false) ∧
      (d.take.state ≠ 3 → Idles .abortComplete s))

/-- Outside a take, and where a fatal condition came in the same cycle, a fault changes nothing. Else, in a take that runs, or has
been accepted and waits for its start (log entry 92), a fault leaves the take in state 3 with the abort begun and no decision. The
first fault of a cycle in a running take or an abort stands in SVC_FAULT with VALID set when no record is held, and with one held SVC_FAULT keeps it and
SVC_FAULT_MORE counts (log entry 166). Of two faults of one cycle the record is that of the lower cause number, and SVC_FAULT_MORE
counts the other. (R384, R556, R557, R561) -/
def Obligations.FaultsAbortTheTakeOnce : Prop :=
  ∀ (d : Device) (cause tower home unit addr towers : Nat), d.formed = true →
    let e := d.fault cause tower home unit addr towers
    let fits := cause < 2 ^ 8 ∧ tower < 2 ^ 5 ∧ home < 2 ^ 9 ∧ unit < 2 ^ 5
    let stands := (e.reg (svcReg 0xD008)).toNat = 1 + cause * 2 + tower * 2 ^ 9 + home * 2 ^ 14 + unit * 2 ^ 23
    let keeps := e.reg (svcReg 0xD008) = d.reg (svcReg 0xD008)
    let counts := e.fieldOf (svcReg 0xD028) 0 48 = min (2 ^ 48 - 1) (d.fieldOf (svcReg 0xD028) 0 48 + 1)
    (d.cycle.fatal = false →
      (d.engaged = true → d.take.state ≠ 3 →
        e.take.state = 3 ∧ e.take.aborting = true ∧ e.take.decision = none ∧ e.take.frameRuns = false) ∧
      (d.take.state = 2 ∨ d.take.state = 3 →
        (d.cycle.fault = none → d.bitOf (svcReg 0xD008) 0 = false → fits → stands) ∧
        (d.cycle.fault = none → d.bitOf (svcReg 0xD008) 0 = true → keeps ∧ counts) ∧
        (∀ n, d.cycle.fault = some n → n.recorded = true →
          (n.cause < cause → keeps ∧ counts) ∧ (cause < n.cause → fits → stands ∧ counts)))) ∧
    (d.engaged = false ∨ d.cycle.fatal = true → e = d)

/-- With the part awake and BUSY set, every mailbox command sets the overrun bit of HST_ERR_STATUS and changes nothing else.
With BUSY clear, BUSY is set and the command recorded; out of the state that the command needs, RESULT is 4. Else REEL_LOAD makes
the bank copies due, unloads, and checks the image: an error gives RESULT 5 with its offset, a good one is taken up and, with bit 0
of ARG1 set, its take started; TAKE_START makes the copies due and starts; TAKE_STOP sets the take stopping and votes against a frame voted for, or gives 6 in an abort;
TOWER_REJOIN gives 3 above tower 19, 4 for one not fenced, or begins; ARRAY_RESET gives 3 above 19, 4 for a tower not up, or drops the cues of
its arrays and waits for them to reach level 0, when it resets them; REROUTE begins discovery again; a drain clears the save status; a capture gives 4 with a bank held or nothing drained, 3 where
the image does not fit, 7 without a host, or writes the image; STOP copies, sleeps, idles the fabric and holds the ledger's write; the calibration is
read or written, or gives 3, 4 or 7 in that order of tests; ATTEST gives 3 for too small a buffer, 4 without a key, 7 without
a host, or writes its signed report. RESUME clears the doorbell counts; it gives 7 without a host, a rejected image sets
RESUME_RESULT and gives 4; an accepted one is restored with HOLD set, and its take starts, or in continuity waits for the partner. With
BUSY set and a result known, RESULT, LAST and ARG3 are written, BUSY clears and vector 0 is raised; else nothing changes. The whole of REEL_LOAD, TAKE_START or RESUME is one command, which changes nothing where an access to memory has to
wait (log entry 146); RESUME judges its image in the order of log entry 107. A save's drain
with the fabric's buffers and every ring queue empty completes the merges, sets DRAINED and gives 0; else nothing changes.
(R98, R359, R381, R382, R413, R436, R437, R513, R521, R536, R558, R361) -/
def Obligations.MailboxRunsOneCommandToItsResult : Prop :=
  (∀ (s : State), s.dev.awake = true →
      let d := s.dev
      let b := fun (x : Device) (op : Nat) => { x.setField (hstReg 0x108) 0 1 1 with mbx := Mailbox.mk op none none }
      let idle := Device.idleTake
      let starts := fun (x : Device) => x.idleTake && x.take.state == 1 && !x.survival && !x.unlocked
      let ok := fun (x : Device) (op : Nat) (c : Device → Bool) => (b x op).serving && !(b x op).bitOf (svcReg 0xB000) 18 && c (b x op)
      (d.bitOf (hstReg 0x108) 0 = true → (∀ i ∈ [Instr.takeStop, .towerRejoin, .arrayReset, .reroute, .saveDrain,
        .saveCapture, .stop, .calRead, .calWrite, .attest], Does i s (d.setBit (hstReg 0x10) 3)) ∧
        ∀ i ∈ [Instr.reelLoad, .takeStart, .resume], DoesWhole i s (d.fresh.setBit (hstReg 0x10) 3)) ∧
      (d.bitOf (hstReg 0x108) 0 = false →
        (∀ p ∈ [(Instr.takeStop, 3, fun x => x.take.state == 2 || x.take.state == 3), (.towerRejoin, 6, idle), (.arrayReset, 7, idle),
          (.reroute, 8, idle), (.saveDrain, 4, Device.heldTake),
          (.saveCapture, 4, fun x => x.heldTake && !x.bitOf (hstReg 0x3E8) 0), (.stop, 9, idle), (.calWrite, 0x11, idle)],
          ok d p.2.1 p.2.2 = false → Does p.1 s ((b d p.2.1).mbxEnd 4)) ∧
        (∀ p ∈ [(Instr.reelLoad, 1, fun x => idle x && !(bit (x.mbxArg 1) 0 && (x.survival || x.unlocked))), (.takeStart, 2, starts),
          (.resume, 5, starts)],
          ok d.fresh p.2.1 p.2.2 = false → DoesWhole p.1 s ((b d.fresh p.2.1).mbxEnd 4)) ∧
        (ok d.fresh 1 (fun x => idle x && !(bit (x.mbxArg 1) 0 && (x.survival || x.unlocked))) = true →
          let r := (b d.fresh 1).copyBanks.joinMap.unloadReel.checkReel ((b d.fresh 1).mbxArg 0)
          DoesWhole .reelLoad s
            (match r.reel with
            | .error o => { r.dev with mbx := { r.dev.mbx with result := some 5, arg3 := some (BitVec.ofNat 64 o) } }
            | .ok x => if bit ((b d.fresh 1).mbxArg 1) 0 then (r.dev.takeReel x).acceptStart else (r.dev.takeReel x).mbxEnd 0)) ∧
        (ok d.fresh 2 starts = true → DoesWhole .takeStart s (b d.fresh 2).copyBanks.acceptStart) ∧
        (ok d 3 (fun _ => true) = true → d.take.state = 2 →
          Does .takeStop s ((if (b d 3).take.eastOutcome then (b d 3).vote false else b d 3).modTake fun t =>
            { t with stopping := true, decision := none })) ∧
        (ok d 3 (fun _ => true) = true → d.take.state = 3 → Does .takeStop s ((b d 3).mbxEnd 6)) ∧
        (ok d 6 idle = true →
          let t := (b d 6).mbxArg 0
          (19 < t → Does .towerRejoin s ((b d 6).mbxEnd 3)) ∧
          (t ≤ 19 → ((b d 6).tower t).fenced = true → Does .towerRejoin s ((b d 6).modTower t fun x => { x with rejoining := true })) ∧
          (t ≤ 19 → ((b d 6).tower t).fenced = false → Does .towerRejoin s ((b d 6).mbxEnd 4))) ∧
        (ok d 7 idle = true →
          let t := (b d 7).mbxArg 0
          (19 < t → Does .arrayReset s ((b d 7).mbxEnd 3)) ∧
          (t ≤ 19 → (b d 7).up t = false → Does .arrayReset s ((b d 7).mbxEnd 4)) ∧
          (t ≤ 19 → (b d 7).up t = true → Does .arrayReset s
            ((((b d 7).each (List.range 24) fun c d => d.dropArrayCues (24 * t + c)).modTower t fun x => { x with resetting := true }).resetArrays
              t))) ∧
        (ok d 8 idle = true → Does .reroute s ((({ b d 8 with fab := { (b d 8).fab with
            ports := (b d 8).fab.ports.map fun p => (p.1, { p.2 with beacon := none }) } } : Device).setField (fabReg 0) 1 1 0).rediscover.mbxEnd 0)) ∧
        (ok d 4 Device.heldTake = true → Does .saveDrain s ((b d 4).setField (svcReg 0x9118) 0 5 0)) ∧
        (ok d 4 Device.heldTake = true → (b d 4).bitOf (hstReg 0x3E8) 0 = false →
          let held := (b d 4).arrays.any fun k => (List.range 4).any fun n => (mget Bank.reset ((b d 4).core k).banks n).st != 0
          (held = true → Does .saveCapture s (((b d 4).setField (svcReg 0x9118) 2 3 1).mbxEnd 4)) ∧
          (held = false → (b d 4).bitOf (svcReg 0x9118) 0 = false →
            Does .saveCapture s (((b d 4).setField (svcReg 0x9118) 2 3 2).mbxEnd 4)) ∧
          (held = false → (b d 4).bitOf (svcReg 0x9118) 0 = true → ∀ r, d.take.reel = some r →
            ((b d 4).mbxArg 2 < (b d 4).imageBytes → Does .saveCapture s ((b d 4).mbxEnd 3)) ∧
            ((b d 4).imageBytes ≤ (b d 4).mbxArg 2 → (b d 4).hostReach = false → Does .saveCapture s ((b d 4).mbxEnd 7)) ∧
            ((b d 4).imageBytes ≤ (b d 4).mbxArg 2 → (b d 4).hostReach = true → Does .saveCapture s
              (((((b d 4).writeImage r ((b d 4).mbxArg 1)).setField (svcReg 0x9118) 2 3 0).setBit (svcReg 0x9118) 1).mbxEnd 0)))) ∧
        (ok d 9 idle = true → Does .stop s
          (let e := (b d 9).copyBanks.sleepMemories.fabIdle
           (({ e with start := { e.start with
              held := .ledger (e.ledgerBytes (e.start.ledgerSeq + 1)) :: e.start.held, stopWait := 5 } } : Device).setBit
             (svcReg 0xB000) 16).tryHeld.finishStop)) ∧
        ((b d 0x10).mbxArg 1 < calSize → Does .calRead s ((b d 0x10).mbxEnd 3)) ∧
        (calSize ≤ (b d 0x10).mbxArg 1 →
          (d.start.cal = [] → Does .calRead s ((b d 0x10).mbxEnd 4)) ∧
          (d.start.cal ≠ [] → (b d 0x10).hostReach = false → Does .calRead s ((b d 0x10).mbxEnd 7)) ∧
          (d.start.cal ≠ [] → (b d 0x10).hostReach = true →
            Does .calRead s (((b d 0x10).hostPut ((b d 0x10).mbxArg 0) (sliceBytes d.start.cal 0 calSize) fun _ => false).mbxEnd 0))) ∧
        (ok d 0x11 idle = true →
          let x := b d 0x11
          let c := (x.hostGet (x.mbxArg 0) calSize).1
          (x.mbxArg 1 ≠ calSize → Does .calWrite s (x.mbxEnd 3)) ∧
          (x.mbxArg 1 = calSize → x.hostReach = false → Does .calWrite s (x.mbxEnd 7)) ∧
          (x.mbxArg 1 = calSize → x.hostReach = true →
            let e : Device := { x with start := { x.start with held := x.start.held.filter fun w => !w.isCal } }
            Does .calWrite s (if !calAccepts c then x.mbxEnd 3 else if x.calBegun then x.mbxEnd 4
              else ((e.setBit (svcReg 0xB000) 17).offerWrite (.cal 1 (e.calToWrite c))).mbxEnd 0))) ∧
        ((b d 0x20).mbxArg 1 < 6784 → Does .attest s ((b d 0x20).mbxEnd 3)) ∧
        (6784 ≤ (b d 0x20).mbxArg 1 →
          let k := (b d 0x20).deriveKey
          let none := k.bitOf (secReg 0) 1 || k.bitOf (secReg 0) 2
          (none = true → Does .attest s (k.mbxEnd 4)) ∧
          (none = false → k.hostReach = false → Does .attest s (k.mbxEnd 7)) ∧
          (none = false → k.hostReach = true →
            let e := { k with sec := { k.sec with reports := k.sec.reports + 1 } }
            let sig := (Config.falconSign e.sec.idPrivate (sigMessage tagAttest e.reportBody) e.freeCtr).take 1280
            let f := { e with freeCtr := e.freeCtr + 1 }
            Does .attest s ((f.hostPut (f.mbxArg 0) (e.reportBody ++ leBytes 2 sig.length ++ List.replicate 14 0 ++
              sliceBytes sig 0 1280 ++ f.idBlock) fun _ => false).mbxEnd 0))))) ∧
  (∀ (s : State), s.dev.awake = true → s.dev.bitOf (hstReg 0x108) 0 = false →
      let b0 := { s.dev.fresh.setField (hstReg 0x108) 0 1 1 with mbx := Mailbox.mk 5 none none }
      b0.serving = true → b0.bitOf (svcReg 0xB000) 18 = false → b0.idleTake = true → b0.take.state = 1 → b0.survival = false →
      b0.unlocked = false →
      let b : Device := { b0 with host := { b0.host with doorbells := [] } }
      (b.hostReach = false → DoesWhole .resume s (b.mbxEnd 7)) ∧
      (b.hostReach = true →
      let host := b.mbxArg 0
      let hd := (b.hostGet host 256).1
      let dir := (b.hostGet (host + leAt hd 0x60 8) (32 * leAt hd 0x58 4)).1
      let r := b.judgeImage host (b.mbxArg 1) hd dir
      let e := b.setField (svcReg 0x9118) 5 3 r
      (r ≠ 0 → DoesWhole .resume s (e.mbxEnd 4)) ∧
      (r = 0 →
        let sec := fun (kind k : Nat) => host + ((findSection dir kind k).getD (0, 0)).2
        let f := e.prepareTake (leAt hd 0x50 6) (b.mbxArg 1) false
        let g := f.restoreState (f.hostGet (sec 1 0) ((findSection dir 1 0).getD (0, 0)).1).1
        let h := (g.each g.arrays fun k d =>
          (d.restoreMem (sec 4 k) k .scratch 0x400000).restoreMem (sec 5 k) k .staging 0x40000).setBit (gafReg 0x10) 0
        (h.bitOf (svcReg 0x9100) 0 = false → DoesWhole .resume s (h.modTake fun t => { t with starting := true })) ∧
        (h.bitOf (svcReg 0x9100) 0 = true → DoesWhole .resume s
          ((({ h with cont := { h.cont with waiting := true } } : Device).sendCont (helloMessage h.fprint h.settingsDigest)).judgeHello))))) ∧
  (∀ (s : State), s.dev.awake = true →
      let d := s.dev
      let busy := d.bitOf (hstReg 0x108) 0
      let empty := (d.fab.ports.all fun p => p.2.drained) && d.fab.ring.isEmpty && d.ringQuiet
      (busy = true → ∀ r, d.mbx.result = some r →
        let e := ((d.setField (hstReg 0x108) 0 1 0).setField (hstReg 0x108) 8 8 r).setField (hstReg 0x108) 16 8 d.mbx.op
        let f := match d.mbx.arg3 with
          | some v => e.setReg (hstReg 0x128) v
          | none => e
        Does .mailboxComplete s (({ f with mbx := { f.mbx with result := none } } : Device).event 0)) ∧
      (busy = false ∨ d.mbx.result = none → Idles .mailboxComplete s) ∧
      (busy = true → d.mbx.op = 4 → d.mbx.result = none → empty = true →
        Does .drainDone s ((d.flushMerges.setBit (svcReg 0x9118) 0).mbxEnd 0)) ∧
      (busy = false ∨ d.mbx.op ≠ 4 ∨ d.mbx.result ≠ none ∨ empty = false → Idles .drainDone s))

/-- With the part awake: the end of a block write leaves its bytes in the flash, and its next stage is held first in line with its
PENDING bit set, or that bit clears when no held write has the same bit; then the first held write may begin and a waiting STOP
ends; with none running nothing changes. A retry begins the first held write when the window is open and none runs, and counts
one of a waiting STOP's tries (log entry 109). The well-formed report of the phase that is due sets PHASE and does the phase's work, and that phase is
done; any other report changes nothing. A tower held dark for heat is lit outside a take once the map phase is done and its layers
are cool, and all its cores loaded; any other is left. A rollback advance with another key, or while an advance runs, changes nothing; in a take or before
ready it sets ADV_RESULT 2; with no step to blow, 1; else the step after the counter begins. The fuses reported blown join the
step; a step with two blown fuses is done and the next begins or the advance ends with 0; after three attempts it ends with 3;
with no advance running nothing changes. (R513, R514, R516, R498, R507, R529, R530) -/
def Obligations.SlateStartUpAndRollback : Prop :=
  (∀ (s : State), s.dev.awake = true →
      let d := s.dev
      (∀ w, d.start.writing = some w →
        let r := d.commitWrite w
        let e := { r.1 with start := { r.1.start with writing := none } }
        (∀ n, r.2 = some n → Does .slateWriteEnd s
          (({ e with start := { e.start with held := n :: e.start.held } } : Device).setBit (svcReg 0xB000) n.bit).tryHeld.finishStop) ∧
        (r.2 = none → e.start.held.any (fun h => h.bit == w.bit) = false →
          Does .slateWriteEnd s (e.setField (svcReg 0xB000) w.bit 1 0).tryHeld.finishStop) ∧
        (r.2 = none → e.start.held.any (fun h => h.bit == w.bit) = true → Does .slateWriteEnd s e.tryHeld.finishStop)) ∧
      (d.start.writing = none → Idles .slateWriteEnd s) ∧
      (let tried := fun (e : Device) => ({ e with start := { e.start with stopWait := e.start.stopWait - 1 } } : Device).finishStop;
        (∀ w r, d.start.held = w :: r → d.slateOpen = true → d.start.writing = none →
          Does .slateWriteRetry s (tried (({ d with start := { d.start with held := r } } : Device).beginWrite w))) ∧
        (d.slateOpen = false ∨ d.start.held = [] ∨ d.start.writing ≠ none → Does .slateWriteRetry s (tried d)))) ∧
  (∀ (s : State), s.dev.awake = true →
      let d := s.dev
      (∀ r : PhaseReport, r.wf = true →
        (d.phaseDue r.phase = true →
          let e := (d.setField (svcReg 0xB000) 0 3 r.phase).phaseWork r
          Does (.startUpPhase r) s { e with start := { e.start with phaseDone := r.phase } }) ∧
        (d.phaseDue r.phase = false → Idles (.startUpPhase r) s)) ∧
      (∀ t : Fin 20,
        let due := d.start.heldDark.contains t.val = true ∧ (d.tower t).lit = false ∧ d.inTake = false ∧ 6 ≤ d.start.phaseDone ∧
          d.coolTower t = true ∧ d.bitOf (svcReg 0xB000) 5 = false
        (due → Does (.deferredTowerLight t) s ((((d.lightTower t).tuneTower t []).modTower t fun x =>
          { x with loaded := List.range 26 }).each (List.range 24) fun c d => d.each (List.range 8) fun ch d => d.remapBanks [] (24 * t + c) ch)) ∧
        (¬ due → Idles (.deferredTowerLight t) s))) ∧
  (∀ (s : State), s.dev.awake = true →
      let d := s.dev
      (∀ k : BitVec 16, k ≠ 0x5EC1 ∨ d.advBusy = true → Idles (.rollbackAdvance k) s) ∧
      (d.advBusy = false → (d.inTake = true ∨ d.bitOf (svcReg 0xB000) 3 = false) →
        Does (.rollbackAdvance 0x5EC1) s (d.setField (secReg 0) 12 2 2)) ∧
      (d.advBusy = false → d.inTake = false → d.bitOf (svcReg 0xB000) 3 = true →
        (d.rollbackTarget ≤ d.fuses.counter → Does (.rollbackAdvance 0x5EC1) s (d.setField (secReg 0) 12 2 1)) ∧
        (d.fuses.counter < d.rollbackTarget → Does (.rollbackAdvance 0x5EC1) s { d.setBit (secReg 0) 11 with
          sec := { d.sec with advTarget := d.rollbackTarget, advStep := d.fuses.counter + 1, attempts := 0 } })) ∧
      (∀ b : BitVec 3, d.advBusy = true →
        let n := d.sec.advStep
        let e := { d with fuses := { d.fuses with steps := mset 0 d.fuses.steps n (mget 0 d.fuses.steps n ||| b) } }
        (e.fuses.stepBlown n = true → d.sec.advTarget ≤ n →
          Does (.fuseStepBlown b) s ((e.setField (secReg 0) 11 1 0).setField (secReg 0) 12 2 0)) ∧
        (e.fuses.stepBlown n = true → n < d.sec.advTarget →
          Does (.fuseStepBlown b) s { e with sec := { e.sec with advStep := n + 1, attempts := 0 } }) ∧
        (e.fuses.stepBlown n = false → d.sec.attempts < 2 →
          Does (.fuseStepBlown b) s { e with sec := { e.sec with attempts := e.sec.attempts + 1 } }) ∧
        (e.fuses.stepBlown n = false → 2 ≤ d.sec.attempts →
          Does (.fuseStepBlown b) s ((e.setField (secReg 0) 11 1 0).setField (secReg 0) 12 2 3))) ∧
      (∀ b : BitVec 3, d.advBusy = false → Idles (.fuseStepBlown b) s))

/-- After bytes are programmed at an address, each flash byte there is the AND of its old value and the byte given, and every
byte outside them is unchanged; after an erase every byte of the range reads 0xFF and no other differs. That the flash is all ones to begin with is log entry 29. (R522) -/
def Obligations.FlashBitsFallOnlyUntilErased : Prop :=
  ∀ (d : Device) (a n : Nat) (bs : List Byte), d.formed = true →
    (∀ i (h : i < bs.length), (d.flashProgram a bs).flashRead (a + i) 1 = [bs[i] &&& (d.flashRead (a + i) 1).headD 0]) ∧
    (∀ x, (x < a ∨ a + bs.length ≤ x) → (d.flashProgram a bs).flashRead x 1 = d.flashRead x 1) ∧
    (∀ x, a ≤ x → x < a + n → (d.flashErase a n).flashRead x 1 = [0xFF]) ∧
    (∀ x, (x < a ∨ a + n ≤ x) → (d.flashErase a n).flashRead x 1 = d.flashRead x 1)

/-- In every state: PWRGD_IN and RESET_N rise and VIN_CORE returns, each scheduling the internal release when all three are good
and the part is in reset (log entry 114); one that is up already changes nothing; a release that is due and still may come ends the reset; PWRGD_IN
falling is a cold reset, RESET_N falling a device reset of a powered part, a loss of VIN_CORE leaves the part unpowered; SVC_RESET
with its key schedules a device reset on an awake part and any other key nothing. With the part awake: a phase not yet failed is
taken out of service, counted and recorded for the next start where no record names it (log entry 188), and one that served marks the part
degraded and the tower capped, or, leaving 16, sets the fault bit; a
failed one changes nothing. A critical-path sample of a tower that is up, its clocks running, sets its margin; below RAISE it asks for a higher VCODE,
above LOWER for a lower one, and above RAISE counts as good, the other runs ending; of another tower it changes nothing. An input
sample sets VOLT to the mean of its two voltages (log entry 173) and CURR to the sum of its currents, adds their energy up, keeps the peak and
counts samples above VIN_A, the twentieth in a row being an overcurrent.
(R482, R484, R490, R485, R486, R487, R488, R489) -/
def Obligations.PowerResetsAndRegulators : Prop :=
  (∀ (s : State),
      let d := s.dev
      let due := fun (p : Pins) => { p with releaseDue := p.powered && p.pwrgd && p.resetN && p.inReset }
      (d.pins.pwrgd = false → Does .powerGood s { d with pins := due { d.pins with pwrgd := true } }) ∧
      (d.pins.resetN = false → Does .resetNRelease s { d with pins := due { d.pins with resetN := true } }) ∧
      (d.pins.powered = false → Does .powerReturn s { d with pins := due { d.pins with powered := true } }) ∧
      (d.pins.pwrgd = true → Idles .powerGood s) ∧ (d.pins.resetN = true → Idles .resetNRelease s) ∧
      (d.pins.powered = true → Idles .powerReturn s) ∧
      (d.pins.releaseDue = true → d.pins.mayRelease = true →
        Does .resetRelease s { d with pins := { d.pins with releaseDue := false, inReset := false } }) ∧
      (d.pins.releaseDue = false ∨ d.pins.mayRelease = false → Idles .resetRelease s) ∧
      Does .coldReset s (Device.resetTo 0 { d with pins := { d.pins with pwrgd := false } }) ∧
      Does .powerLoss s (Device.resetTo 0 { d with pins := { d.pins with powered := false } }) ∧
      (d.pins.resetDue = true → Does .deviceReset s (Device.resetTo (d.causeOf 2) d).scheduleRelease) ∧
      (d.pins.resetDue = false → d.pins.pwrgd = true → d.pins.powered = true →
        Does .deviceReset s (Device.resetTo (d.causeOf 1) { d with pins := { d.pins with resetN := false } })) ∧
      (d.pins.resetDue = false → (d.pins.pwrgd = false ∨ d.pins.powered = false) →
        Does .deviceReset s { d with pins := { d.pins with resetN := false, releaseDue := false } }) ∧
      (d.awake = true → Does (.svcReset 0xD505) s { d with pins := { d.pins with resetDue := true } }) ∧
      (d.awake = true → ∀ k : BitVec 16, k ≠ 0xD505 → Idles (.svcReset k) s)) ∧
  (∀ (s : State), s.dev.awake = true →
      let d := s.dev
      (∀ (t : Fin 20) (p : Fin 18), (d.tower t).badPhases.contains p.val = true → Idles (.phaseFailure t p) s) ∧
      (∀ (t : Fin 20) (p : Fin 18), (d.tower t).badPhases.contains p.val = false →
        let e := d.modTower t fun x => { x with badPhases := insertAsc p x.badPhases }
        let use := (e.tower t).inService
        let r := twrReg t 0x303000
        let c := (e.setField r 8 5 use.length).setField r 13 2 (use.filter fun q => decide (16 ≤ q)).length
        let f := if c.recorded 9 (phaseTarget t p) then c else c.note 9 2 (phaseTarget t p)
        let served := (d.tower t).inService.contains p.val
        (served = false → Does (.phaseFailure t p) s f) ∧
        (served = true → use.length = 16 → Does (.phaseFailure t p) s
          ((f.setBit (svcReg 0xA008) 1).log (20 + halfOf t) 0x09 19 0 0 (phaseTarget t p + 9 * 2 ^ 56))) ∧
        (served = true → use.length ≠ 16 → Does (.phaseFailure t p) s
          ((({ f with start := { f.start with capped := true } } : Device).setBit (svcReg 0xA008) 2).degraded (20 + halfOf t) 19 (3 + t * 2 ^ 8)))) ∧
      (∀ (t : Fin 20) (m : BitVec 8), d.towersRun = true → d.up t = false → Idles (.cpmSample t m) s) ∧
      (∀ (t : Fin 20) (m : BitVec 8), d.towersRun = true → d.up t = true →
        let e := d.setField (twrReg t 0x303000) 16 8 m.toNat
        let low := fun (d : Device) => d.modTower t fun x => { x with lowRun := 0 }
        let high := fun (d : Device) => d.modTower t fun x => { x with highRun := 0 }
        let poor := fun (d : Device) => d.modTower t fun x => { x with okRun := 0 }
        (m.toNat < d.cpmRaise t → Does (.cpmSample t m) s (e.marginLow t)) ∧
        (m.toNat = d.cpmRaise t → d.cpmLower t < m.toNat → Does (.cpmSample t m) s (poor ((low e).marginHigh t))) ∧
        (m.toNat = d.cpmRaise t → m.toNat ≤ d.cpmLower t → Does (.cpmSample t m) s (poor (high (low e)))) ∧
        (d.cpmRaise t < m.toNat → d.cpmLower t < m.toNat → Does (.cpmSample t m) s (((low e).marginHigh t).marginOk t)) ∧
        (d.cpmRaise t < m.toNat → m.toNat ≤ d.cpmLower t → Does (.cpmSample t m) s ((high (low e)).marginOk t))) ∧
      (∀ mv a : BitVec 16 × BitVec 16,
        let amps := min 0xFFFF (a.1.toNat + a.2.toNat)
        let e := (d.setField (svcReg 0xA000) 0 16 ((mv.1.toNat + mv.2.toNat) / 2)).setField (svcReg 0xA000) 16 16 amps
        let n := if 10 * e.vinA < amps then min 21 (d.take.overSamples + 1) else 0
        let f := e.modTake fun t =>
          { t with
            inputSum := t.inputSum + mv.1.toNat * a.1.toNat + mv.2.toNat * a.2.toNat, peak := max t.peak amps, overSamples := n
            overcurrent := t.overcurrent || (decide (20 < n) && e.frameFollows) }
        Does (.inputMonitorSample mv a) s (if n = 20 then f.overcurrent else f)))

/-- After a reset of a cause, every register of the part holds its reset value but SVC_RESET_CAUSE, which holds the cause; the
host's memory is as before, and so are the fuses, but for those of a rollback step that the reset cuts short, none of which
heals; those of every other step are as before, and so is what the next start takes over (log entry 188); device memory, the cores and the take are as reset leaves them; and with no slate write running the flash is as before.
(R490, R492, R530, R575) -/
def Obligations.ResetKeepsFusesFlashAndHostMemory : Prop :=
  ∀ (d : Device) (cause : Nat), cause < 16 →
    let e := Device.resetTo cause d
    (∀ a, a ≠ svcReg 0xA010 → e.reg a = resetValue a) ∧ e.fieldOf (svcReg 0xA010) 0 4 = cause ∧
      (d.advBusy = false → e.fuses = d.fuses) ∧ ({ e.fuses with steps := d.fuses.steps } : Fuses) = d.fuses ∧
      (∀ i, i ≠ d.sec.advStep → mget 0 e.fuses.steps i = mget 0 d.fuses.steps i) ∧ e.kept = d.kept ∧
      (∀ b, (mget 0 d.fuses.steps d.sec.advStep).getLsbD b = true → (mget 0 e.fuses.steps d.sec.advStep).getLsbD b = true) ∧
      e.hostMem = d.hostMem ∧ e.mem = Memory.empty ∧ e.cores = [] ∧ e.take = Take.reset ∧ e.awake = false ∧
      (d.start.writing = none → e.flash = d.flash)

/-- With the part awake, a conversion: the readings are stored, the sensors of every tower and base die are checked
and their values, marks and refresh windows set, the manifolds are checked, then a value at a shutdown level trips the part, a
rising outlet stops the coolant, and a throttle that fails to hold sets HOLD_FAIL and, unless the part tripped, is a fault of a
take. With the part awake: a layer or base die still in throttle sets HOLD_FAIL and in a take is a fault, of tower 0 for a base die (log entry 101), any other
changes nothing; a high FLOW_OK clears the count of low samples, a third low sample in a row deasserts it and stops the coolant;
survival ends when FLOW_OK is asserted, every sensor is cool and the clocks run, and else goes on; the model of a tower that is up
with all its nodes known steps by R456 with the energy counted since the step before (log entry 171), and a dark tower's holds; a wear sample of a known layer begins, extends or turns the swing,
a turn being 5 °C or more, and the swing that a turn closes is counted; else it leaves the swing.
(R454, R466, R468, R472, R336, R456, R465, R467, R473) -/
def Obligations.SensorsCoolantAndModel : Prop :=
  (∀ (s : State) (m : SensorSample), s.dev.awake = true →
      let e := ((s.dev.takeReadings m).each (List.range 20) Device.convertTower).each [0, 1] Device.convertBase
      let f := (e.each [0, 1] Device.checkManifold).setCoolant.coolantRanges
      let g := match f.tripHalf with
        | some h => f.trip h
        | none => f
      let x := if g.outletRise then g.coolantStop f.tripHalf.isSome else g
      let y := x.each x.holdFails fun t d => d.holdFail t f.tripHalf.isNone
      Does (.sensorConversion m) s (y.each ([0, 1].filter y.baseHoldFail) fun _ d => d.holdFail 0 f.tripHalf.isNone)) ∧
  (∀ (s : State), s.dev.awake = true →
      let d := s.dev
      (∀ l < 300, (d.tower (l / 15)).throttle.contains (l % 15) = true →
        Does (.throttleHoldFail l) s (if (d.setBit (thmReg 0) 11).inTake then (d.setBit (thmReg 0) 11).fault 3 (l / 15) 0 18 0 0
          else d.setBit (thmReg 0) 11)) ∧
      (∀ l < 300, (d.tower (l / 15)).throttle.contains (l % 15) = false → Idles (.throttleHoldFail l) s) ∧
      (∀ h < 2, (d.half h).throttle = true →
        Does (.throttleHoldFail (300 + h)) s (if (d.setBit (thmReg 0) 11).inTake then (d.setBit (thmReg 0) 11).fault 3 0 0 18 0 0
          else d.setBit (thmReg 0) 11)) ∧
      (∀ h < 2, (d.half h).throttle = false → Idles (.throttleHoldFail (300 + h)) s) ∧
      (∀ l, 302 ≤ l → Idles (.throttleHoldFail l) s) ∧
      Does (.flowOkSample true) s { d with
        pins := { d.pins with flowOkIn := true }, thm := { d.thm with lowSamples := 0, flowOk := true } } ∧
      (d.thm.lowSamples < 2 → Does (.flowOkSample false) s { d with
        pins := { d.pins with flowOkIn := false }, thm := { d.thm with lowSamples := d.thm.lowSamples + 1 } }) ∧
      (2 ≤ d.thm.lowSamples → d.thm.flowOk = true → Does (.flowOkSample false) s
        (Device.coolantStop false { d with
          pins := { d.pins with flowOkIn := false }, thm := { d.thm with lowSamples := 3, flowOk := false } })) ∧
      (2 ≤ d.thm.lowSamples → d.thm.flowOk = false → Does (.flowOkSample false) s { d with
        pins := { d.pins with flowOkIn := false }, thm := { d.thm with lowSamples := 3, flowOk := false } }) ∧
      (d.survival = true → d.thm.flowOk = true → d.allCool = true → d.thm.stopped = false →
        Does .survivalExit s
          (((d.setField (gafReg 0x18) 9 1 0).each (List.range 480) fun k d =>
            if d.up (towerOf k) then d.modSite k fun x => { x with srBase := false } else d).each (List.range 16) fun p d =>
            if d.fieldOf (fabReg (0x100 + 16 * p)) 0 3 = 5 ∧ (d.port p).present then d.setField (fabReg (0x100 + 16 * p)) 0 3 2
            else d)) ∧
      (d.survival = false ∨ d.thm.flowOk = false ∨ d.allCool = false ∨ d.thm.stopped = true → Idles .survivalExit s) ∧
      (∀ (t : Fin 20) (n : Nat) (i o : Int), d.up t = true → d.thm.tin = some i → d.thm.tout = some o →
        (∀ k < 4, (d.tower t).node k ≠ noNode) →
        let a := d.addEnergy t n
        let b := a.modTower t fun x => { x with atStep := a.reg (gafReg (0x1000 + 32 * t)) }
        let ti := fdiv (f32OfInt i) (f32OfInt 8)
        let r := modelStep (b.thermalParam t) (a.reg (gafReg (0x1000 + 32 * t)) - (a.tower t).atStep).toNat (flowFactor b.usedFlow)
          (fadd ti (fdiv (fsub (fdiv (f32OfInt o) (f32OfInt 8)) ti) (f32OfInt 2))) (fun k => ((b.tower t).node k).toNat)
        Does (.towerModelStep t n) s (b.modTower t fun x => x.setNodes fun k => BitVec.ofNat 32 (r.getD k 0))) ∧
      (∀ (t : Fin 20) (n : Nat), d.up t = false →
        let a := d.addEnergy t n
        Does (.towerModelStep t n) s (a.modTower t fun x => { x with atStep := a.reg (gafReg (0x1000 + 32 * t)) })) ∧
      (∀ t : Fin 20, (d.tower t).layerVal 0 = none → Idles (.wearSample t) s) ∧
      (∀ (t : Fin 20) (x : Int), (d.tower t).layerVal 0 = some x →
        let put := fun (w : Int × Int × Int) => d.modTower t fun y => { y with wear := some w }
        ((d.tower t).wear = none → Does (.wearSample t) s (put (x, x, 0))) ∧
        (∀ a b, (d.tower t).wear = some (a, b, 0) →
          (40 ≤ (x - a).natAbs → Does (.wearSample t) s (put (a, x, if a < x then 1 else -1))) ∧
          ((x - a).natAbs < 40 → Does (.wearSample t) s (put (a, b, 0)))) ∧
        (∀ a b dir, (d.tower t).wear = some (a, b, dir) → dir ≠ 0 →
          (0 < dir * (x - b) → Does (.wearSample t) s (put (a, x, dir))) ∧
          (¬ 0 < dir * (x - b) → 40 ≤ (b - x).natAbs →
            Does (.wearSample t) s (Device.countSwing t (b - a).natAbs (put (b, x, -dir)))) ∧
          (¬ 0 < dir * (x - b) → (b - x).natAbs < 40 → Does (.wearSample t) s (put (a, b, dir))))))

/-- With a value v, which is never the mark of no reading, layer l of tower t takes v, its warning mark is set exactly when v
reaches the warning level (less the hysteresis when the mark was set), its throttle mark exactly so for the throttle level, and
the marks of every other layer of the tower stay as they were. (R463, R464, R465) -/
def Obligations.LayerMarksHaveHysteresis : Prop :=
  ∀ (d : Device) (t l : Nat) (v : Int), d.formed = true → t < 20 → (d.tower t).value l = some v → v ≠ noReading →
    let x := d.tower t
    let e := (d.setLayer t l).tower t
    let dram := decide (2 ≤ l)
    mget noReading e.layer l = v ∧
    (l ∈ e.warn ↔ (if l ∈ x.warn then d.warnLevel dram - hysteresis dram ≤ v else d.warnLevel dram ≤ v)) ∧
    (l ∈ e.throttle ↔ (if l ∈ x.throttle then throttleLevel dram - hysteresis dram ≤ v else throttleLevel dram ≤ v)) ∧
    (∀ m, m ≠ l → (m ∈ e.warn ↔ m ∈ x.warn) ∧ (m ∈ e.throttle ↔ m ∈ x.throttle))

/-- With the arithmetic clocks running. A flit at a module that is down, over a lost half or in retraining changes nothing. Else a damaged flit counts
and owes a NAK; an intact one acknowledges the other direction, answers a NAK with a replay, and is taken when its number is the
expected one, dropped when it lies behind, and owes a NAK when it lies ahead; and a flit that owes a NAK or carried something is
answered by an empty flit where its receiving sent none (log entry 148). A replay with flits kept on a live module counts; the 33rd within 1 ms
begins retraining, else every kept flit goes out again, marked as sent again (log entry 164); other replays change nothing. A retrain of a module with width records its
repairs and counts the lanes; with more than 4 taken it narrows to a clean half, or goes down without one; then the
module resumes. A lost elastic buffer takes its module's width: a store or transit module is a fault, the last tick module loses
the east half, another one degrades, and the primary one moves the service; with no width neither changes anything.
(R374, R375, R376, R369, R373, R378, R379) -/
def Obligations.BridgeLinksCarryReplayAndRepair : Prop :=
  (∀ (s : State) (m : Fin 28) (east : Bool) (f : List Byte), s.dev.clocked = true →
      let d := s.dev
      let live := d.bridgeDead m = false ∧ (d.module m).retraining = false
      let owe := fun (seq : Nat) (d : Device) => d.modModule m fun x => x.setLink east ((x.link east).owes 1024 seq)
      let a := d.modModule m fun x => x.setLink (!east) ((x.link !east).acked 1024 (field (leAt f 0 4) 10 10))
      let b := if bit (leAt f 0 4) 28 then a.replayBridge m !east else a
      let want := ((b.module m).link east).expect
      let answered := fun (e : Device) =>
        if ((e.module m).link !east).nextSeq = ((d.module m).link !east).nextSeq ∧
            (((e.module m).link east).nak || flitBusy f) = true then
          e.sendBridge m (!east) false [] []
        else e
      (¬ live → Idles (.bridgeFlit m east f) s) ∧
      (live → bridgeIntact f = false →
        Does (.bridgeFlit m east f) s (answered (owe ((d.module m).link east).expect (d.count (brgReg 0x200) 1)))) ∧
      (live → bridgeIntact f = true →
        (field (leAt f 0 4) 0 10 = want → Does (.bridgeFlit m east f) s (answered (b.bridgeTake m east f))) ∧
        (field (leAt f 0 4) 0 10 ≠ want → seqLe 1024 (field (leAt f 0 4) 0 10) want = true →
          Does (.bridgeFlit m east f) s (answered b)) ∧
        (field (leAt f 0 4) 0 10 ≠ want → seqLe 1024 (field (leAt f 0 4) 0 10) want = false →
          Does (.bridgeFlit m east f) s (answered (owe (field (leAt f 0 4) 0 10) b))))) ∧
  (∀ (s : State) (m : Fin 28), s.dev.clocked = true →
      let d := s.dev
      let r := brgReg (0x100 + 8 * m)
      (∀ east,
        let l := (d.module m).link east
        let live := l.kept ≠ [] ∧ d.bridgeDead m = false ∧ (d.module m).retraining = false
        let e := (d.count (brgReg 0x208) 1).modModule m fun x => x.setLink east { l with
          replayAt := d.now :: l.replayAt.filter fun t => decide (d.now < t + 850000) }
        let n := ((e.module m).eastward.recent d.now).length + ((e.module m).westward.recent d.now).length
        (live → n ≤ 32 → Does (.bridgeReplayTimeout m east) s
          (e.emitKept m east)) ∧
        (live → 32 < n → Does (.bridgeReplayTimeout m east) s (e.modModule m fun x => { x with retraining := true })) ∧
        (¬ live → Idles (.bridgeReplayTimeout m east) s)) ∧
      (∀ tx rx lo hi, d.modWidth m ≠ 0 →
        let a := d.fieldOf r 4 3 + tx.length
        let b := d.fieldOf r 7 3 + rx.length
        let e := (((d.repairLanes m 0 (d.fieldOf r 4 3) tx).repairLanes m 1 (d.fieldOf r 7 3) rx).setField r 4 3
          (min 4 a)).setField r 7 3 (min 4 b)
        let n := e.setField r 2 2 (if lo then 1 else 2)
        (a ≤ 4 → b ≤ 4 → Does (.bridgeRetrain m tx rx lo hi) s (e.resumeModule m)) ∧
        (4 < a ∨ 4 < b → lo = false → hi = false → Does (.bridgeRetrain m tx rx lo hi) s ((e.moduleDown m).resumeModule m)) ∧
        (4 < a ∨ 4 < b → (lo || hi) = true → Does (.bridgeRetrain m tx rx lo hi) s
          (Device.resumeModule m (if e.modWidth m = 3 then (n.setBit r 10).degraded n.mainLog 12 (1 + m * 2 ^ 8) else n)))) ∧
      (let e := (d.setField r 2 2 0).countModules;
        (d.modWidth m ≠ 0 → d.modRole m = 0 → Does (.elasticLimit m) s e) ∧
        (d.modWidth m ≠ 0 → (d.modRole m = 1 ∨ d.modRole m = 2) → Does (.elasticLimit m) s (e.fault 8 0 0 12 m 0)) ∧
        (d.modWidth m ≠ 0 → d.modRole m = 3 →
          (e.tickModules = [] → Does (.elasticLimit m) s (e.loseHalf 1 1)) ∧
          (e.tickModules ≠ [] → d.bitOf r 11 = false → Does (.elasticLimit m) s (e.degraded e.mainLog 12 2)) ∧
          (e.tickModules ≠ [] → d.bitOf r 11 = true →
            let p := (e.choosePrimary.setBit (brgReg 0) 19).moveService
            Does (.elasticLimit m) s (p.degraded p.mainLog 12 2)))) ∧
      (d.modWidth m = 0 → Idles (.elasticLimit m) s ∧ ∀ tx rx lo hi, Idles (.bridgeRetrain m tx rx lo hi) s))

/-- With the tower clocks running and a SEND q at the head of the store-DMA queue of core c: the first time, its destination rows are cut
at 4 KiB boundaries; each time, its packets enter the fabric in order until one has no tag or an access of it has to wait, and the cue
is finished once none is left. With no SEND at the head nothing changes. With the arithmetic clocks running and no combination of engine e leaving: the job that became whole
first is begun, its record and its contributions are read over the ring; a bad codeword of them, but of a gathered contribution, is
consumed; else the outputs of their combination begin to leave in order, and the engine is busy until the last has, the
step as a whole waiting where an access of it waits (log entry 146). With no whole job, a combination still leaving, and while a take
is being aborted, nothing changes, but that no access waits. (R402, R405, R415, R416, R417) -/
def Obligations.SendAndCombineMoveTheirData : Prop :=
  (∀ (s : State) (c : Fin 480), s.dev.towersRun = true →
      let d := s.dev
      (∀ q, (d.core c).headCue 5 [2] = some q →
        let e := if q.started then d
          else d.headMod c 5 fun q => { q with
            started := true
            work := some { fromPlace := .device, toPlace := .device, todo := sendPieces (opndOf (refAt q.refs 1)), held := [],
                           flight := 0, members := [] } }
        Does (.send c) s ((Device.sendPump c q (fun k d => d.ringPacket (halfOf (towerOf c)) k)
          ((((e.core c).headWork 5).map (·.todo.length)).getD 0) e).dmaSettle c 5)) ∧
      ((d.core c).headCue 5 [2] = none → Idles (.send c) s)) ∧
  (∀ (s : State) (e : Fin 8), s.dev.clocked = true →
      let d := s.dev.fresh
      (∀ c, d.take.state ≠ 3 → d.collBusy e = false → d.readyJob e = some c →
        let b := d.setJobs e ((d.jobs e).map fun x => if x = c then { x with begun := true } else x)
        let h := e.val / 4
        let r := b.ringRead e c.job 0x140
        let j := jobRec r.bytes
        let x := r.dev.ringRead e (c.job + 0x400) (j.ranks * j.len)
        let bad := x.bad.map fun a => (a - (c.job + 0x400)) / 16
        let o := x.dev.combined j ((List.range j.ranks).map fun i => sliceBytes x.bytes (i * j.len) j.len)
        let ks := j.outs.flatMap fun out => o.1.outPackets j c.stamp out o.2 (if j.op = 3 then bad else [])
        (∀ a l, r.bad ++ (if j.op = 3 then [] else x.bad) = a :: l → DoesWhole (.combine e) s (x.dev.consumeColl h a)) ∧
        (r.bad ++ (if j.op = 3 then [] else x.bad) = [] →
          DoesWhole (.combine e) s
            ((({ o.1 with fab := { o.1.fab with leaving := mset 0 o.1.fab.leaving e (ks.length + 1) } } : Device).sendOutput e ks
              ).outputLeft e))) ∧
      (d.readyJob e = none ∨ d.take.state = 3 ∨ d.collBusy e = true → Does (.combine e) s d))

/-- With the arithmetic clocks running. A DATA packet for the part that is next in its buffer on a port up for data leaves the buffer, a broadcast goes
on at the other broadcast ports, and its range, where it may be written, is written over the ring, and is else counted, logged and
acknowledged with status 1; any other changes nothing. A COLL packet for the part, next in its buffer on such a port, leaves it
and is judged by the collective engine, as a whole or not at all (log entry 146); any other leaves the part as it was, but that no
access waits. An ACK for the part, next in its buffer on such a port, is taken entry by entry, and packets that waited for a tag go out;
any other changes nothing. A requested tag that times out counts, is logged and is a partner-lost fault; a timed-out
tag that is released keeps only its generation, and packets that waited go out; in any other state of the tag neither
changes anything. (R403, R404, R415, R405) -/
def Obligations.PacketsForThePartAndTheirTags : Prop :=
  (∀ (s : State) (p : Fin 16) (k : Packet), s.dev.clocked = true → k.wf = true →
      let d := s.dev
      let mine := fun (d : Device) (kinds : List Nat) (all : Bool) =>
        d.dataPort p && kinds.contains k.kind.toNat && (if all then d.isMine k else k.dest.toNat == d.fabAddr) && d.rxFirst p k
      (mine d [1] true = true →
        let e := d.takeRx p k
        let f := if k.dest.toNat = 0xFFFF then e.castOn p k else e
        (f.landable k = true → Does (.data p k) s (f.ringWrite (p / 8) (fabricClient p) (.payload (some p.val) k) k)) ∧
        (f.landable k = false → Does (.data p k) s ((f.refuseAt (portLog p) k).ackTo k 1))) ∧
      (mine d [1] true = false → Idles (.data p k) s) ∧
      (mine d.fresh [2] false = true → DoesWhole (.coll p k) s
        ((d.fresh.takeRx p k).collect { half := p / 8, client := fabricClient p, port := some p.val, log := portLog p } k)) ∧
      (mine d.fresh [2] false = false → Does (.coll p k) s d.fresh) ∧
      (mine d [0x10] false = true →
        let e := (d.takeRx p k).each (List.range (k.payload.length / 4)) fun i d =>
          d.ackEntry p k.src.toNat (leAt k.payload (4 * i) 4)
        Does (.ack p k) s (e.pumpRing e.fab.ring.length)) ∧
      (mine d [0x10] false = false → Idles (.ack p k) s)) ∧
  (∀ (s : State) (p : Fin 16), s.dev.clocked = true →
      let d := s.dev
      (∀ t : BitVec 12,
        let x := d.fabTag p t.toNat
        (x.st = .requested → Does (.fabTagTimeout p t) s
          ((((((d.setFabTag p t.toNat { x with st := .timedOut }).count (fabReg 0x48) 1).setBit (fabReg 0x20) 1).log (portLog p) 0x06 13
            (x.addr.toNat / 64 * 64) 0 (4096 * p + t.toNat + 2 ^ 16 + x.dest.toNat * 2 ^ 32))).fault 9 0 0 13 x.dest.toNat 0)) ∧
        (x.st ≠ .requested → Idles (.fabTagTimeout p t) s) ∧
        (x.st = .timedOut → Does (.fabTagRelease p t) s
          ((d.setFabTag p t.toNat { FabTag.reset with gen := x.gen }).pumpRing d.fab.ring.length)) ∧
        (x.st ≠ .timedOut → Idles (.fabTagRelease p t) s)))

/-- With the arithmetic clocks running. A DATA broadcast is forwarded as DATA is taken. A DATA, COLL or ACK packet for another part, next in
its buffer on a port up for data, leaves the buffer: a broadcast goes out on the other broadcast ports; another at 16 hops is dropped,
counted and logged; with fewer it goes out with HOPS + 1 on the route that stood when it arrived (log entry 187), and with none is
refused; any other packet changes
nothing. A packet of another source that has aged in a transmit or receive buffer is dropped, counted and logged; any other changes
nothing. On a port that is up a damaged flit counts and owes a NAK; an intact one acknowledges the flits sent and
answers a NAK with a replay, and is taken with its credits when its number is the expected one, dropped when it lies
behind, and owes a NAK when it lies ahead; then what waits goes out, and a flit that carried something is answered by an IDLE flit
where none went out (log entry 148). FAB_REPLAY_TIMEOUT counts and sends every kept flit again, with its time made anew; with none kept, or on a port
that is not up, flits and timeouts change nothing. (R403, R406, R412, R391, R392, R393, R394, R395) -/
def Obligations.FabricFlitsAndPacketsForOthers : Prop :=
  (∀ (s : State) (p : Fin 16) (k : Packet), s.dev.clocked = true → k.wf = true →
      let d := s.dev
      let t := d.takeRx p k
      let e := { t with fab := { t.fab with flight := t.fab.flight.erase (p.val, k) } }
      let tagged : Bool := k.kind.toNat == 1 || k.kind.toNat == 2
      let cast : Bool := k.kind.toNat == 1 && k.dest.toNat == 0xFFFF
      let other : Bool := d.dataPort p && (tagged || k.kind.toNat == 0x10) && k.dest.toNat != d.fabAddr && d.rxFirst p k
      let aged := fun (e : Device) => ((e.count (fabReg 0x58) 1).setBit (fabReg 0x20) 3).logPacket (portLog p) k 1
      (cast = true → exec (.packetForward p k) s = exec (.data p k) s) ∧
      (cast = false → other = true →
        (k.dest.toNat = 0xFFFF → Does (.packetForward p k) s (e.castOn p k)) ∧
        (k.dest.toNat ≠ 0xFFFF → 16 ≤ k.hops.toNat →
          Does (.packetForward p k) s (((e.count (fabReg 0x60) 1).setBit (fabReg 0x20) 4).logPacket (portLog p) k 2)) ∧
        (k.dest.toNat ≠ 0xFFFF → k.hops.toNat < 16 →
          (∀ q, d.forwardPort p k = some q → Does (.packetForward p k) s (e.txPacket q { k with hops := k.hops + 1 })) ∧
          (d.forwardPort p k = none → tagged = true → Does (.packetForward p k) s ((e.refused (portLog p) k).ackTo k 1)) ∧
          (d.forwardPort p k = none → tagged = false → Does (.packetForward p k) s (e.refused (portLog p) k)))) ∧
      (cast = false → other = false → Idles (.packetForward p k) s) ∧
      (k.src.toNat ≠ d.fabAddr → (d.port p).tx.contains k = true →
        Does (.packetAged p k) s (aged (d.modPort p fun x => { x with tx := x.tx.erase k }))) ∧
      (k.src.toNat ≠ d.fabAddr → (d.port p).tx.contains k = false →
        ((mget [] (d.port p).rx (pktBuf k)).contains k = true → Does (.packetAged p k) s (aged t)) ∧
        ((mget [] (d.port p).rx (pktBuf k)).contains k = false → Idles (.packetAged p k) s)) ∧
      (k.src.toNat = d.fabAddr → Idles (.packetAged p k) s)) ∧
  (∀ (s : State) (p : Fin 16), s.dev.clocked = true →
      let d := s.dev
      let owe := fun (d : Device) => d.modPort p fun x => { x with link := { x.link with nak := true } }
      (∀ f : List Byte, d.portUp p = true →
        let hd := leAt f 0 12
        let a := d.modPort p fun x =>
          { x with link := { x.link with kept := x.link.kept.filter fun q => decide (2048 ≤ (field hd 12 12 + 4096 - q.1) % 4096) } }
        let b := if bit hd 24 then a.replayFab p else a
        let want := (b.port p).link.expect
        let t := ((b.modPort p fun x => { x with link := { x.link with expect := (want + 1) % 4096, nak := false } }).fabTake p f
          ).fabCredits p hd
        let sent := fun (e : Device) =>
          let e := (e.pumpPort p (e.port p).tx.length).settlePort p
          if (e.port p).link.nextSeq = (d.port p).link.nextSeq ∧ field hd 25 2 ≠ 0 ∧ (e.port p).link.kept.length < 2048 then
            e.sendFlit p 0 31 [] none
          else e
        (fabIntact f = false → Does (.fabFlit p f) s (sent (owe (d.count (fabReg 0x68) 1)))) ∧
        (fabIntact f = true → field hd 0 12 = want → Does (.fabFlit p f) s (sent t)) ∧
        (fabIntact f = true → field hd 0 12 ≠ want →
          ((want + 4096 - field hd 0 12) % 4096 < 2048 → Does (.fabFlit p f) s (sent b)) ∧
          (2048 ≤ (want + 4096 - field hd 0 12) % 4096 → Does (.fabFlit p f) s (sent (owe b))))) ∧
      (∀ f : List Byte, d.portUp p = false → Idles (.fabFlit p f) s) ∧
      ((d.port p).link.kept ≠ [] → d.portUp p = true →
        Does (.fabReplayTimeout p) s
          ((d.count (fabReg 0x70) 1).each (d.port p).link.kept fun f d => d.emit (.fabFlit p (d.resent p f.1 f.2)))) ∧
      ((d.port p).link.kept = [] ∨ d.portUp p = false → Idles (.fabReplayTimeout p) s))

/-- For two lists of 2^n FP32 codes each, the tree sum of the one followed by the other is the FP32 sum of the two tree sums;
the tree sum of one code is that code. In both a result of exactly zero is +0. (R49, R416) -/
def Obligations.TreeReductionOrder : Prop :=
  ∀ (n : Nat) (a b : List Nat), a.length = 2 ^ n → b.length = 2 ^ n →
    treeReduce (a ++ b) = plusZero (fadd (treeReduce a) (treeReduce b)) ∧ (∀ x, treeReduce [x] = plusZero x)

/-- With the arithmetic clocks running. A beacon next in the CTRL buffer of a port that is up leaves it, and its identity is the partner's: the own marks the port LOOP, another's
is held, and outside a take, on a port of the fabric, the candidate is found again; any other beacon changes nothing. BEACON_SEND
sends the part's beacon on a port that is up, else nothing. ELECTION (log entry 87), outside a take, makes an eligible part coordinator when
its identity is the candidate that every neighbour shows, and floods its question; else it changes nothing. A packet of
discovery next in its buffer leaves it; outside a take and from where it may come topology is kept, answered and passed on, ASSIGN, ROUTE
and COMMIT are passed on, what carries the own identity is staged, and a COMMIT of the staged epoch puts it in force; a packet
that is not next changes nothing. ROUTE_DELIVERY of the coordinator, outside a take, stages its own table, floods the others' and the commit, and takes its own
up; else it changes nothing. A port in training without a partner becomes absent; a partner on a listening or training port
(log entry 155) whose role is used trains it on its failing lanes outside survival, and its link, discovery and beacon begin anew; a port that is silent goes down, in a
take as a lost partner when it is of the frozen set; a first failing data lane is spliced to LS and recorded; with no LS left an
X8 port narrows to its clean half, and a port with none goes down; the echo sets the link delay. A port in another state is left as it
is. (R397, R408, R409, R413, R419, R395, R396, R398, R399) -/
def Obligations.DiscoveryAndPorts : Prop :=
  (∀ (s : State) (p : Fin 16), s.dev.clocked = true →
      let d := s.dev
      (∀ b,
        let due := d.portUp p && d.rxNext p 4 fun k => k.kind.toNat == 0x11 && k.payload == b
        let a := d.takeHead p 4
        let a := a.setReg (fabReg (0x108 + 16 * p)) (BitVec.ofNat 64 (leAt b 0 8))
        (due = true → leAt b 0 8 = a.fab.identity.toNat →
          Does (.beacon p b) s ((a.setField (portReg p) 0 3 6).modPort p fun x => { x with beacon := none })) ∧
        (due = true → leAt b 0 8 ≠ a.fab.identity.toNat →
          let e := a.modPort p fun x => { x with beacon := some b }
          ((e.isFrozen || e.portRole p == 3) = true → Does (.beacon p b) s e) ∧
          ((e.isFrozen || e.portRole p == 3) = false → Does (.beacon p b) s e.findCandidate)) ∧
        (due = false → Idles (.beacon p b) s)) ∧
      (d.portUp p = true → Does (.beaconSend p) s (d.txPacket p (d.ctrlPacket 0x11 0xFFFF (d.beaconBytes p)))) ∧
      (d.portUp p = false → Idles (.beaconSend p) s) ∧
      (let shown := d.joinPorts.all fun q => (((d.port q).beacon).map fun b => leAt b 0x28 8 == d.fab.identity.toNat).getD false
       let wins := d.fab.electing && !d.isFrozen && d.eligible && d.fab.cand == d.fab.identity && shown
       let n := (maxOf (d.fab.epochSeen :: d.beacons.map fun b => leAt b.2 0x30 4) + 1) % 2 ^ 32
       let a : Device := { d with fab := { d.fab with electing := false, stagedEpoch := n, epochSeen := n, topo := [d.topoAnswer] } }
       let b := (a.setField (fabReg 0) 1 2 1).setReg (fabReg 0x10) d.fab.identity
       let c := ((b.setField (gafReg 0x18) 1 2 3).setField (gafReg 0x18) 3 1 0).setReg (gafReg 0x60) d.fab.identity
       let e := c.setField (gafReg 0x68) 0 37 n;
       (wins = true → Does .election s (e.flood none (e.ctrlPacket 0x13 0xFFFF []))) ∧ (wins = false → Idles .election s)) ∧
      (∀ k : Packet, k.wf = true →
        let got := fun (kind : Nat) => d.portUp p && k.kind.toNat == kind && d.rxFirst p k
        let up := d.fromParent p
        let e := (d.takeRx p k).passOn p k
        let first := leAt k.payload 8 2
        let c : Device := { e with fab := { e.fab with electing := false } }
        (got 0x14 = true → up = true → Does (.assign p k) s (if leAt k.payload 0 8 = e.fab.identity.toNat then { e with fab := { e.fab with
          stagedAddr := some (BitVec.ofNat 16 (leAt k.payload 8 2)), staged := [], stagedEpoch := leAt k.payload 12 4 } } else e)) ∧
        (got 0x15 = true → up = true → Does (.route p k) s (if leAt k.payload 0 8 = e.fab.identity.toNat then { e with fab := { e.fab with
          staged := (List.range (min 52 (leAt k.payload 10 2))).foldl (fun m i =>
            if first + i ≤ 0xFFFF then mset 0 m (first + i) (BitVec.ofNat 32 (leAt k.payload (16 + 4 * i) 4)) else m) e.fab.staged } }
          else e)) ∧
        (got 0x16 = true → up = true → Does (.commit p k) s (if e.fab.stagedEpoch = leAt k.payload 0 4 ∧ e.fab.stagedAddr.isSome = true then
          (if c.bitOf (gafReg 0x18) 1 then c.setField (gafReg 0x18) 1 2 0 else c).takeUp (leAt k.payload 0 4) (leAt k.payload 4 2)
          else e)) ∧
        (got 0x14 = false → Idles (.assign p k) s) ∧ (got 0x14 = true → up = false → Does (.assign p k) s (d.takeRx p k)) ∧ 
        (got 0x15 = false → Idles (.route p k) s) ∧ (got 0x15 = true → up = false → Does (.route p k) s (d.takeRx p k)) ∧
        (got 0x16 = false → Idles (.commit p k) s) ∧ (got 0x16 = true → up = false → Does (.commit p k) s (d.takeRx p k))) ∧
      (∀ k : Packet, k.wf = true →
        let got := d.portUp p && k.kind.toNat == 0x13 && d.rxFirst p k
        let due := got && d.joins p && !d.isFrozen
        let e := d.takeRx p k
        let go := { k with hops := k.hops + 1 }
        let answered := e.txPacket p (e.ctrlPacket 0x13 0xFFFE e.topoAnswer)
        (got = false → Idles (.topo p k) s) ∧ (got = true → due = false → Does (.topo p k) s e) ∧
        (due = true → k.dest.toNat = 0xFFFE → e.bitOf (fabReg 0) 1 = true → Does (.topo p k) s { e with fab := { e.fab with
          topo := (e.fab.topo.filter fun t => leAt t 0 8 != leAt k.payload 0 8) ++ [k.payload] } }) ∧
        (due = true → k.dest.toNat = 0xFFFE → e.bitOf (fabReg 0) 1 = false →
          (∀ q, e.fab.parent = some q → Does (.topo p k) s (if 16 ≤ k.hops.toNat then e else e.txPacket q go)) ∧
          (e.fab.parent = none → Does (.topo p k) s e)) ∧
        (due = true → k.dest.toNat ≠ 0xFFFE →
          (e.fab.parent = some p.val → e.bitOf (fabReg 0) 1 = false →
            Does (.topo p k) s (if 16 ≤ k.hops.toNat then answered else answered.flood (some p) go)) ∧
          (e.fab.parent ≠ some p.val ∨ e.bitOf (fabReg 0) 1 = true → Does (.topo p k) s e))) ∧
      (let due := d.bitOf (fabReg 0) 1 && !d.fab.electing && !d.isFrozen && !d.fab.topo.isEmpty
       let ps := topoParts d.fab.topo
       let ls := (List.range ps.length).map (topoLinks ps)
       let at' := partAddrs ps
       let me := (findIdx (fun p => p.ident == d.fab.identity.toNat) ps).getD 0
       let n := d.fab.stagedEpoch
       let e := d.each (List.range ps.length) fun i d =>
         let id := ((ps[i]?).map (·.ident)).getD 0
         let t := tableOf ls at' (distances (hopLinks ls) me) i
         let d := if i = me then d.stageOwn (at'.getD i 0) t else d
         let d := d.flood none (d.ctrlPacket 0x14 0xFFFF (assignPayload id (at'.getD i 0) n))
         d.each (routeRuns (t.filter fun x => x.2 != 0)) fun r d => d.flood none (d.ctrlPacket 0x15 0xFFFF (routePayload id r));
       (due = true → Does .routeDelivery s
         ((e.flood none (e.ctrlPacket 0x16 0xFFFF (leBytes 4 n ++ leBytes 2 ps.length))).takeUp n ps.length)) ∧
       (due = false → Idles .routeDelivery s))) ∧
  (∀ (s : State) (p : Fin 16), s.dev.clocked = true →
      let d := s.dev
      let r := portReg p
      (d.portState p = 2 → Does (.partnerAbsent p) s ((d.setField r 0 3 1).modPort p fun x => { x with present := false })) ∧
      (d.portState p ≠ 2 → Idles (.partnerAbsent p) s) ∧
      (∀ (bad : List Sys2Proof.Lane) (delay : BitVec 16),
        let due := (d.portState p = 1 ∨ d.portState p = 2) ∧ d.portRole p ≠ 0 ∧ d.survival = false
        let t := d.trainPort 2 p (bad.map (·.val)) delay.toNat
        let e := (t.modPort p fun x =>
          { x with link := Link.reset, spent := [], held := [], owed := [], part := [], rx := [] }).rediscover.beaconOut p
        (due → Does (.partnerAppear p bad delay) s (e.pumpPort p (e.port p).tx.length)) ∧
        (¬ due → Idles (.partnerAppear p bad delay) s)) ∧
      (d.portUp p = true →
        let e := ((d.setField r 0 3 5).setBit (fabReg 0x20) 6).modPort p fun x => { x with beacon := none }
        Does (.portSilent p) s (if e.isFrozen then (if e.fab.frozen.contains p.val then e.fault 9 0 0 13 (d.portAddr p) 0 else e)
          else e.rediscover)) ∧
      (d.portUp p = false → Idles (.portSilent p) s ∧ (∀ x, Idles (.delayEcho p x) s) ∧ ∀ l, Idles (.laneFailure p l) s) ∧
      (∀ x : BitVec 16, d.portUp p = true → Does (.delayEcho p x) s (d.setField r 16 16 x.toNat)) ∧
      (∀ l : Sys2Proof.Lane, d.portUp p = true → (d.port p).badLanes.contains l.val = true → Idles (.laneFailure p l) s) ∧
      (∀ l : Sys2Proof.Lane, d.portUp p = true → (d.port p).badLanes.contains l.val = false →
        let e := d.modPort p fun x => { x with badLanes := insertAsc l.val x.badLanes }
        let use := e.lanesInUse p
        let idle : Bool := (l.val != 8 && !use.contains l.val) || (l.val == 8 && !d.bitOf r 5)
        let free : Bool := l.val != 8 && !d.bitOf r 5 && !(e.port p).badLanes.contains 8
        (idle = true → Does (.laneFailure p l) s e) ∧
        (idle = false → free = true → Does (.laneFailure p l) s
          (((e.setField r 5 1 1).setField r 6 3 l.val).foundRepair 2 (portLog p) 13 7 (p + l.val * 2 ^ 4))) ∧
        (idle = false → free = false → Does (.laneFailure p l) s
          (if e.portState p = 3 then
            (if e.cleanLanes p [0, 1, 2, 3] then e.narrow p 0
            else if e.cleanLanes p [4, 5, 6, 7] then e.narrow p 1 else e.portDown p)
          else if e.cleanLanes p use then e else e.portDown p))))

/-- With the part awake: a link down, PERST_N high and phase 2 begun, a legal rate and width bring the link up; else HOST_LINK_UP
changes nothing. A configuration request on a link that is up is answered with Request Retry Status until start-up has reached
ready or failed, and completes then; on a link that is down it changes nothing. D3hot on a link that is up pauses the engines, D0
resumes them and sends what is pending; where the part is in that state already neither changes anything. With the part awake
and the link up: a function reset is a fault with cause HOST_RESET and the address of its kind and resets the host
side; all but a Function Level Reset drop the link (log entry 116); with the link down only PERST_N does so. With the part not awake PERST_N falls
and nothing else changes. PERST_RELEASE raises PERST_N in every state. (R425, R438, R502, R490, R557) -/
def Obligations.HostLinkResetsAndPowerStates : Prop :=
  (∀ (s : State), s.dev.awake = true →
      let d := s.dev
      let paused := fun (b : Bool) (e : Device) => { e with host := { e.host with
        engines := (List.range 8).foldl (fun m i => mmod DmaEngine.reset m i fun x => { x with paused := b }) d.host.engines } }
      (∀ (r : BitVec 4) (w : BitVec 5),
        let due := d.linkUp = false ∧ d.pins.perstN = true ∧ 2 ≤ d.start.phaseDone ∧ r.toNat ≤ 6 ∧ w.toNat ∈ [1, 2, 4, 8, 16]
        (due → Does (.hostLinkUp r w) s ((((d.setField (hstReg 0) 0 4 r.toNat).setField (hstReg 0) 4 5 w.toNat).setField (hstReg 0) 9 1
          (if 5 ≤ r.toNat then 1 else 0)).setBit (hstReg 0) 11)) ∧
        (¬ due → Idles (.hostLinkUp r w) s)) ∧
      (∀ q, d.linkUp = false → Idles (.configRequest q) s) ∧
      (∀ q, d.linkUp = true → d.cfgOpen = false → Does (.configRequest q) s (d.emit .requestRetry)) ∧
      (∀ q, d.linkUp = true → d.cfgOpen = true →
        (q.write = true → Does (.configRequest q) s ((d.cfgWrite q.dword q.value).emit (.configCompletion none))) ∧
        (q.write = false →
          Does (.configRequest q) s ((d.cfgRead q.dword).2.emit (.configCompletion (some (d.cfgRead q.dword).1))))) ∧
      (d.linkUp = true → d.bitOf (hstReg 0) 10 = false → Does .d3hotEntry s (paused true (d.setBit (hstReg 0) 10))) ∧
      (d.linkUp = false ∨ d.bitOf (hstReg 0) 10 = true → Idles .d3hotEntry s) ∧
      (d.bitOf (hstReg 0) 10 = true → Does .d0Entry s (paused false (d.setField (hstReg 0) 10 1 0)).sendPending) ∧
      (d.bitOf (hstReg 0) 10 = false → Idles .d0Entry s)) ∧
  (∀ (s : State),
      let d := s.dev
      (d.awake = true → d.linkUp = true →
        Does (.hostReset .flr) s (d.fault 10 0 0 14 0 0).resetHostSide ∧
        Does (.hostReset .hotReset) s (d.fault 10 0 0 14 1 0).resetHostSide.dropLink ∧
        Does (.hostReset .linkDown) s (d.fault 10 0 0 14 2 0).resetHostSide.dropLink) ∧
      (d.awake = true → Does (.hostReset .perst) s
        ((({ d with pins := { d.pins with perstN := false } } : Device).fault 10 0 0 14 2 0).resetHostSide.dropLink)) ∧
      (d.awake = false ∨ d.linkUp = false → ∀ k, k ≠ .perst → Idles (.hostReset k) s) ∧
      (d.awake = false → Does (.hostReset .perst) s { d with pins := { d.pins with perstN := false } }) ∧
      Does .perstRelease s { d with pins := { d.pins with perstN := true } })

/-- With the part awake, its west half there and memory space open to the host: a read or write through BAR2 of legal memory
becomes an access through the host's ring client, a write in poisoned form with EP, which counts; one that meets an address error
logs it, and a read completes with Completer Abort. A read of BAR4 returns the doorbell counts and a write there rings the doorbells of
its bytes. A read of BAR0 of a wrong size or alignment is an address error with Completer Abort; of a register of the map that answers
it completes with its bytes, of one that does not with Completer Abort, and elsewhere with zeros; a write of a wrong size or alignment
is an address error, one with EP counts and is dropped (log entry 39), and any other acts on the register. A read outside every BAR is unsupported,
and a write there changes nothing; without memory space reads are unsupported and writes change nothing; with no link no
request changes anything. With the part awake: a write to BAR4 on an open host port marks each doorbell that its bytes touch
once (log entry 41), else nothing; the increment takes effect for every one marked whose earlier accesses are done, which then is not marked;
unmasking a vector clears its Mask bit and sends the pending vectors that may send. (R427, R428, R429, R566, R430, R432) -/
def Obligations.HostAccessesDoorbellsAndVectors : Prop :=
  (∀ (s : State) (bar off n : Nat) (bs : List Byte) (ep : Bool), s.dev.awake = true →
      let d := s.dev
      let a := d.bar2Addr off
      let e := if ep then (d.setBit (hstReg 0x10) 2).count (hstReg 0x28) 1 else d
      let size := fun (b : Nat) => if b = 0 then 0x20000000 else if b = 2 then 2 ^ d.host.bar2Log2 else if b = 4 then 0x100000 else 0
      let skew := fun (n : Nat) => (n ≠ 4 ∧ n ≠ 8) ∨ off % n ≠ 0
      (d.hostThere = false → Idles (.hostRead bar off n) s ∧ Idles (.hostWrite bar off bs ep) s) ∧
      (d.hostThere = true → d.hostOpen = false →
        Does (.hostRead bar off n) s (d.emit .unsupportedRequest) ∧ Idles (.hostWrite bar off bs ep) s) ∧
      (d.hostThere = true → d.hostOpen = true →
        (off + n ≤ size 2 →
          (d.legalRun a n = true → Does (.hostRead 2 off n) s (d.access 0 hostClient .hostRead a n false [] fun _ => false)) ∧
          (d.legalRun a n = false → Does (.hostRead 2 off n) s ((d.hostAddrError a).emit .completerAbort))) ∧
        (off + bs.length ≤ size 2 →
          (e.legalRun a bs.length = true →
            Does (.hostWrite 2 off bs ep) s (e.access 0 hostClient .hostWrite a bs.length true bs fun _ => ep)) ∧
          (e.legalRun a bs.length = false → Does (.hostWrite 2 off bs ep) s (e.hostAddrError a))) ∧
        (off + n ≤ size 4 → Does (.hostRead 4 off n) s (d.emit (.readCompletion (d.readBar4 off n) []))) ∧
        (off + bs.length ≤ size 4 → Does (.hostWrite 4 off bs ep) s ((d.poisonIn ep).doorbellWrite off bs.length)) ∧
        (off + n ≤ size 0 →
          (skew n → Does (.hostRead 0 off n) s ((d.hostAddrError (0x0F0000000000 + off)).emit .completerAbort)) ∧
          (¬ skew n → regLocate off = none → Does (.hostRead 0 off n) s (d.emit (.readCompletion (List.replicate n 0) []))) ∧
          (∀ l, ¬ skew n → regLocate off = some l → regThere { l with off := 8 * (l.off / 8) } = false →
            Does (.hostRead 0 off n) s (d.emit (.readCompletion (List.replicate n 0) []))) ∧
          (∀ l, ¬ skew n → regLocate off = some l → regThere { l with off := 8 * (l.off / 8) } = true →
            (d.answers l = true → Does (.hostRead 0 off n) s (d.emit (.readCompletion (d.regBytes l n) []))) ∧
            (d.answers l = false →
              Does (.hostRead 0 off n) s ((d.darkAccess l (0x0F0000000000 + off)).emit .completerAbort)))) ∧
        (off + bs.length ≤ size 0 →
          (skew bs.length → Does (.hostWrite 0 off bs ep) s ((d.poisonIn ep).hostAddrError (0x0F0000000000 + off))) ∧
          (¬ skew bs.length → ep = true → Does (.hostWrite 0 off bs ep) s (d.poisonIn true)) ∧
          (¬ skew bs.length → ep = false → Does (.hostWrite 0 off bs ep) s (d.spaceWrite off (leNat bs) (bs.length == 8)))) ∧
        (size bar < off + n → Does (.hostRead bar off n) s (d.emit .unsupportedRequest)) ∧
        (size bar < off + bs.length → Idles (.hostWrite bar off bs ep) s))) ∧
  (∀ (s : State), s.dev.awake = true →
      let d := s.dev
      (∀ off n, 0 < n → off + n ≤ 0x100000 → d.hostOpen = true →
        Does (.doorbellWrite off n) s { d with host := { d.host with
          ringing := d.host.ringing ++ (List.range ((off + n + 15) / 16 - off / 16)).map fun i => (off / 16 + i, d.accessNext) } }) ∧
      (∀ off n, (n = 0 ∨ 0x100000 < off + n ∨ d.hostOpen = false) → Idles (.doorbellWrite off n) s) ∧
      Does .doorbellIncrement s (({ d with host := { d.host with
        ringing := d.host.ringing.filter fun r => !d.acked r } } : Device).each (d.host.ringing.filter d.acked) fun r d => d.ring r.1) ∧
      (∀ v : Fin 2048, Does (.msixUnmask v) s
        ({ d with host := { d.host with
          msix := mset msixReset d.host.msix v (d.msixEntry v &&& ~~~ msixReset) } } : Device).sendPending))

/-- An event of vector v (0 to 7) sets its status bit. When it is enabled and may send, its message of the MSI-X table goes out
and nothing else changes; when it is enabled and may not send, it is pending afterwards, no message goes out, and raising a pending
vector once more changes nothing at all; when it is not enabled only the status bit changes. (R432, R572) -/
def Obligations.VectorsSendOrPend : Prop :=
  ∀ (d : Device) (v : Nat), v < 8 →
    let e := d.setBit (svcReg 0x100) v
    (e.bitOf (svcReg 0x108) v = true → e.vectorOpen v = true → d.event v = e.emit (e.msiOut v)) ∧
    (e.bitOf (svcReg 0x108) v = true → e.vectorOpen v = false →
      v ∈ (d.event v).host.pending ∧ (d.event v).out = d.out ∧ (d.event v).raiseVector v = d.event v) ∧
    (e.bitOf (svcReg 0x108) v = false → d.event v = e)

/-- RUN, CLEAR and the host's completions need the part awake, descriptors the arithmetic clocks (log entry 117). RUN of an engine not running sets it running, at HEAD with nothing in flight; CLEAR resets ERR. A running
engine without an error, not paused, with a host it reaches and a ring that is not empty reads the next descriptor: one that is bad, or
has the order flag, waits for those in flight; a bad one halts the engine with its cause; a good one starts, a device-to-host
one as an access through the host's ring client; else nothing starts. The oldest descriptor completes when it is done: HEAD and its
write-back advance, its doorbell rings and its vector is raised; one that failed halts the engine; an unfinished one waits. Host
data goes to the first descriptor that wants it as an access, poisoned data in poisoned form, and an address error fails it with cause
1; UR and CA fail it with 3 and a timeout with 4, and the engine completes what stands before it. With none that wants data, such a
failure is that of the descriptor being fetched, or, with none to fetch, of the data of a mailbox command (log entry 194); and data changes
nothing. (R433, R434, R435) -/
def Obligations.DmaEnginesRunTheirRings : Prop :=
  ∀ (s : State) (e : Fin 8), s.dev.awake = true →
    let d := s.dev
    let g := d.engine e
    let run := d.setBit (dmaReg e 0x28) 0
    (d.bitOf (dmaReg e 0x28) 0 = false → (run.engine e).flight = [] →
      Does (.dmaRun e) s (run.modEngine e fun x => { x with startAt := run.dmaHead e })) ∧
    (d.bitOf (dmaReg e 0x28) 0 = false → (run.engine e).flight ≠ [] → Does (.dmaRun e) s run) ∧
    (d.bitOf (dmaReg e 0x28) 0 = true → Idles (.dmaRun e) s) ∧
    Does (.dmaClear e) s (d.setField (dmaReg e 0x28) 1 1 0) ∧
    (d.clocked = true →
     let may := d.bitOf (dmaReg e 0x28) 0 && !d.bitOf (dmaReg e 0x28) 1 && !g.paused && d.hostReach && g.startAt != d.dmaTail e
     let p := parseDesc (d.hostGet ((d.reg (dmaReg e 0)).toNat + 32 * g.startAt) 32).1
     let err := d.descError p.1 p.2
     let out := bit p.1.flags 0
     let waits := (err != 0 || bit p.1.flags 2) && !g.flight.isEmpty
     let t := ({ d with accessNext := d.accessNext + 1 } : Device).modEngine e fun g =>
       { g with startAt := (g.startAt + 1) % d.ringSize e,
                flight := g.flight ++ [{ p.1 with id := d.accessNext, moved := if out then p.1.len else 0 }] };
     (may = false ∨ waits = true → Idles (.dmaDescriptorStart e) s) ∧
     (may = true → waits = false → err = 1 → Does (.dmaDescriptorStart e) s ((d.addrError p.1.dev 0).dmaHalt e 1)) ∧
     (may = true → waits = false → err ≠ 0 → err ≠ 1 → Does (.dmaDescriptorStart e) s (d.dmaHalt e err)) ∧
     (may = true → waits = false → err = 0 → out = false → Does (.dmaDescriptorStart e) s t) ∧
     (may = true → waits = false → err = 0 → out = true → Does (.dmaDescriptorStart e) s
       (t.access 0 hostClient (.dmaOut e d.accessNext) p.1.dev p.1.len false [] fun _ => false))) ∧
    (d.clocked = true → g.flight = [] → Idles (.dmaDescriptorComplete e) s) ∧
    (∀ x r, d.clocked = true → g.flight = x :: r →
      (x.cause ≠ 0 → Does (.dmaDescriptorComplete e) s (d.dmaHalt e x.cause)) ∧
      (x.cause = 0 → x.done = false → Idles (.dmaDescriptorComplete e) s) ∧
      (x.cause = 0 → x.done = true → Does (.dmaDescriptorComplete e) s
        (let h := (d.dmaHead e + 1) % d.ringSize e
         let a := (d.modEngine e fun y => { y with flight := r }).setField (dmaReg e 0x10) 0 16 h
         let b := if (a.reg (dmaReg e 0x20)).toNat = 0 then a else a.hostPut (a.reg (dmaReg e 0x20)).toNat (leBytes 8 h) fun _ => false
         let c := if bit x.flags 3 then b.ring x.db else b
         if bit x.flags 1 then c.raiseVector x.vector else c))) ∧
    (g.wanting = none →
      let fetching := d.bitOf (dmaReg e 0x28) 0 && !d.bitOf (dmaReg e 0x28) 1 && !g.paused && g.startAt != d.dmaTail e
      let missed := fun (c : Nat) => if fetching then d.fetchFail e c else d.mbxMissed
      Does (.completionTimeout e) s (missed 4) ∧ Does (.hostCompletion e .ur) s (missed 3) ∧ Does (.hostCompletion e .ca) s (missed 3) ∧
      Idles (.hostCompletion e .ok) s ∧ Idles (.hostCompletion e .okPoisoned) s) ∧
    (∀ x, g.wanting = some x →
      let fails := fun (c : Nat) (d : Device) => (d.modDesc e x.id fun y => if y.cause = 0 then { y with cause := c } else y).each
        (List.range (d.engine e).flight.length) fun _ d => d.dmaFinish e
      let n := min 512 (x.len - x.moved)
      let h := d.hostGet (x.host + x.moved) n
      let put := fun (ep : Bool) =>
        let b := if ep then (d.setBit (hstReg 0x10) 2).count (hstReg 0x28) 1 else d
        (b.modDesc e x.id fun y => { y with moved := y.moved + n }).access 0 hostClient (.dmaIn e x.id) (x.dev + x.moved) n true h.1
          fun _ => ep
      Does (.completionTimeout e) s (fails 4 d) ∧ Does (.hostCompletion e .ur) s (fails 3 d) ∧
      Does (.hostCompletion e .ca) s (fails 3 d) ∧
      (d.legalRun (x.dev + x.moved) n = false → ∀ st ∈ [HostCplStatus.ok, .okPoisoned],
        Does (.hostCompletion e st) s (fails 1 (d.addrError (x.dev + x.moved) 0))) ∧
      (d.legalRun (x.dev + x.moved) n = true →
        Does (.hostCompletion e .ok) s (put (!h.2.isEmpty)) ∧ Does (.hostCompletion e .okPoisoned) s (put true)))

/-- With the arithmetic clocks running and an address in a capacity-memory channel: an access to bytes that are fitted opens the rows of its
data and check units and reads or writes them; beyond what is fitted it is an address error; at another address it changes nothing.
A refresh of a channel in service closes the rows of its bank in both sub-channels. With the part awake, a readout of a device of a
fitted channel makes TEMP the highest of its devices' last readouts; a rate above the normal range sets HOT, with vector 7 unless that
device was above it before and HOT still stands (log entry 168). Of another channel neither changes anything. The rows are log entry 118.
(R441, R442, R443, R445) -/
def Obligations.CapacityMemoryServes : Prop :=
  ∀ (s : State),
    let d := s.dev
    (∀ (w : Bool) (a : BitVec 48) (len : Nat) (bs : List Byte), d.clocked = true →
      let n := if w then bs.length else len
      (∀ ch v, regionOf a.toNat = .capacity ch v →
        let e := (d.wakeRun a.toNat n).openLine ch v n
        (d.legalRun a.toNat n = true → w = true → Does (.capacityAccess w a len bs) s (e.writeMem a.toNat bs (fun _ => false) false)) ∧
        (d.legalRun a.toNat n = true → w = false → Does (.capacityAccess w a len bs) s
          ((e.readMem a.toNat n).dev.emit (.capacityData (e.readMem a.toNat n).bytes (e.readMem a.toNat n).bad))) ∧
        (d.legalRun a.toNat n = false → Does (.capacityAccess w a len bs) s (d.hostAddrError a.toNat))) ∧
      ((∀ ch v, regionOf a.toNat ≠ .capacity ch v) → Idles (.capacityAccess w a len bs) s)) ∧
    (∀ (ch : Fin 12) (b : Fin 16), d.clocked = true →
      (d.fieldOf (lpdReg (0x100 + 8 * ch)) 0 2 = 2 → Does (.lpddrRefresh ch b) s { d with
        lpd := mmod LpdChan.reset d.lpd ch fun x => { x with openRows := mset 0 (mset 0 x.openRows b 0) (16 + b) 0 } }) ∧
      (d.fieldOf (lpdReg (0x100 + 8 * ch)) 0 2 ≠ 2 → Idles (.lpddrRefresh ch b) s)) ∧
    (∀ (ch : Fin 12) (t : LpdReadout) (fast : Bool), d.awake = true →
      let r := lpdReg (0x100 + 8 * ch)
      let x := mget LpdChan.reset d.lpd ch
      let temps := mset 0 x.temps t.device t.temp.toNat
      let y := { x with temps := temps, hot := if fast then insertAsc t.device x.hot else x.hot.filter (· ≠ t.device) }
      let f := ({ d with lpd := mset LpdChan.reset d.lpd ch y } : Device).setField r 8 8 (maxOf (temps.map (·.2)))
      let stood := x.hot.contains t.device = true ∧ d.bitOf r 4 = true
      (2 ≤ d.fieldOf r 0 2 → fast = true → ¬ stood → Does (.lpddrTempReadout ch t fast) s ((f.setBit r 4).event 7)) ∧
      (2 ≤ d.fieldOf r 0 2 → (fast = false ∨ stood) → Does (.lpddrTempReadout ch t fast) s f) ∧
      (d.fieldOf r 0 2 < 2 → Idles (.lpddrTempReadout ch t fast) s))

/-- With the part awake, its west half there and phase 2 reached the MCTP control commands answer, the endpoint identifier being held;
with phase 4 reached, or a failed start, the PLDM commands answer: identity, version, types, commands, records, sensor
readings, the state sensor, the events (log entry 119) and the effecter, whose written value is the reported flow (2,000 before any, log
entry 93); an operand that names nothing is
answered with its error code. Between phases 2 and 4 every PLDM command answers not ready; before phase 2, and with the west half
lost, no command changes anything. The codes are those of the management standards (log entry 35); an answer goes out over the transport
as log entry 192 says. (R446, R447, R448) -/
def Obligations.ManagementCommandsAnswer : Prop :=
  ∀ (s : State), s.dev.awake = true →
    let d := s.dev
    let tells := fun (i : Instr) (code : Nat) (bs : List Byte) => Does i s (d.reply code bs)
    let mctp : List Instr := [.getEndpointId, .getMessageTypeSupport]
    let pldm : List Instr := [.getTid, .getPldmTypes, .pollForPlatformEventMessage]
    let there := 2 ≤ d.start.phaseDone ∧ (d.half 0).lost = false
    let open' := 4 ≤ d.start.phaseDone ∨ d.bitOf (svcReg 0xB000) 5 = true
    (there →
      (∀ x : Byte, x ≠ 0 → x ≠ 0xFF →
        Does (.setEndpointId x) s (({ d with mgmt := { d.mgmt with eid := some x } } : Device).reply 0 [x])) ∧
      (∀ x : Byte, x = 0 ∨ x = 0xFF → tells (.setEndpointId x) 2 []) ∧
      tells .getEndpointId 0 [d.mgmt.eid.getD Config.initialEid] ∧
      (∀ x : Byte, x ∈ [(0xFF : Byte), 0, 1] → tells (.getMctpVersionSupport x) 0 (Config.versionBytes x.toNat)) ∧
      (∀ x : Byte, x ∉ [(0xFF : Byte), 0, 1] → tells (.getMctpVersionSupport x) 0x80 []) ∧
      tells .getMessageTypeSupport 0 [1, 1]) ∧
    (there → open' →
      tells .getTid 0 [Config.terminusId] ∧
      (∀ x : Byte, x ∈ [(0 : Byte), 2] → tells (.getPldmVersion x) 0 (Config.versionBytes (256 + x.toNat))) ∧
      (∀ x : Byte, x ∉ [(0 : Byte), 2] → tells (.getPldmVersion x) 0x83 [] ∧ tells (.getPldmCommands x) 0x83 []) ∧
      tells .getPldmTypes 0 [5, 0, 0, 0, 0, 0, 0, 0] ∧
      tells (.getPldmCommands 0) 0 (pldmMask [2, 3, 4, 5]) ∧
      tells (.getPldmCommands 2) 0 (pldmMask [0x0B, 0x11, 0x21, 0x31, 0x32, 0x51]) ∧
      (∀ n : BitVec 32, n.toNat ≤ 32 →
        let i := if n.toNat = 0 then 1 else if n.toNat = 32 then 100 else n.toNat
        let x := d.thresholds i
        Does (.getPdr n) s (x.2.reply 0 (Config.pdrRecord i (pdrKind i).1 (pdrKind i).2 x.1))) ∧
      (∀ n : BitVec 32, 32 < n.toNat → tells (.getPdr n) 0x82 []) ∧
      (∀ i : BitVec 16, 1 ≤ i.toNat → i.toNat ≤ 30 →
        (∀ v, d.sensorValue i.toNat = some v → tells (.getSensorReading i) 0 ((0 : Byte) :: leBytes 4 (unsignedOf 32 v))) ∧
        (d.sensorValue i.toNat = none → tells (.getSensorReading i) 0 ((2 : Byte) :: leBytes 4 0))) ∧
      (∀ i : BitVec 16, i.toNat = 0 ∨ 30 < i.toNat → tells (.getSensorReading i) 0x80 []) ∧
      tells (.getStateSensorReadings 31) 0 [BitVec.ofNat 8 d.serviceState] ∧
      (∀ i : BitVec 16, i ≠ 31 → tells (.getStateSensorReadings i) 0x80 []) ∧
      (∀ i, pldmIds.find? (fun i => d.sensorState i != d.polledState i) = some i → Does .pollForPlatformEventMessage s
        (({ d with mgmt := { d.mgmt with events := mset 0 d.mgmt.events i (d.sensorState i) } } : Device).reply 0
          (leBytes 2 i ++ [BitVec.ofNat 8 (d.polledState i), BitVec.ofNat 8 (d.sensorState i)]))) ∧
      (pldmIds.find? (fun i => d.sensorState i != d.polledState i) = none → tells .pollForPlatformEventMessage 0 []) ∧
      (∀ v : BitVec 32, Does (.setNumericEffecterValue 100 v) s
        (((({ d with mgmt := { d.mgmt with effecter := some v.toNat } } : Device).setField (gafReg 0x18) 5 1 0).setField (gafReg 0x50) 0 16
          (min 0xFFFF v.toNat)).reply 0 [])) ∧
      tells (.getNumericEffecterValue 100) 0 (leBytes 4 (d.mgmt.effecter.getD 2000)) ∧
      (∀ i : BitVec 16, i ≠ 100 → tells (.getNumericEffecterValue i) 0x80 [] ∧ ∀ v, tells (.setNumericEffecterValue i v) 0x80 [])) ∧
    (there → ¬ open' →
      (∀ i ∈ pldm, tells i 4 []) ∧ (∀ x, tells (.getPldmVersion x) 4 [] ∧ tells (.getPldmCommands x) 4 []) ∧ (∀ n, tells (.getPdr n) 4 []) ∧
      (∀ i, tells (.getSensorReading i) 4 [] ∧ tells (.getStateSensorReadings i) 4 [] ∧ tells (.getNumericEffecterValue i) 4 []) ∧
      (∀ i v, tells (.setNumericEffecterValue i v) 4 [])) ∧
    (¬ there →
      (∀ i ∈ mctp ++ pldm, Idles i s) ∧
      (∀ x, Idles (.setEndpointId x) s ∧ Idles (.getMctpVersionSupport x) s ∧ Idles (.getPldmVersion x) s ∧ Idles (.getPldmCommands x) s) ∧
      (∀ n, Idles (.getPdr n) s) ∧
      (∀ i, Idles (.getSensorReading i) s ∧ Idles (.getStateSensorReadings i) s ∧ Idles (.getNumericEffecterValue i) s) ∧
      (∀ i v, Idles (.setNumericEffecterValue i v) s))

/-- With the part awake, its west half there and die i in the chain, IDCODE scans the instruction in and then shifts out of that die 32 bits,
lowest first, of a word whose bits [31:28] are 1, whose bits [27:12] are the kind of the die at that position, whose bits [11:1] are the
JEP106 code (a constant of the configuration) and whose bit 0 is 1. A die outside the chain changes nothing (log entry 120). (R541) -/
def Obligations.IdcodeNamesTheDie : Prop :=
  ∀ (s : State) (i : Fin 302), s.dev.awake = true → (s.dev.half 0).lost = false →
    (s.dev.tst.has i = true → ∃ x : BitVec 32,
      Does (.idcode i) s (s.dev.tapScan i 2 ((List.range 32).map fun n => x.getLsbD n)) ∧
      x.extractLsb' 28 4 = 1 ∧ x.extractLsb' 1 11 = Config.jep106 ∧ x.getLsbD 0 = true ∧
      x.extractLsb' 12 16 = (if i.val = 0 then 0xD500 else if i.val = 151 then 0xD501
        else if (i.val - (if i.val < 151 then 1 else 152)) % 15 = 0 then 0xD510
        else if (i.val - (if i.val < 151 then 1 else 152)) % 15 = 1 then 0xD511 else 0xD520)) ∧
    (s.dev.tst.has i = false → Idles (.idcode i) s)

/-- With the part awake and its west half there: a code that a die of the chain does not list selects BYPASS, which shifts out 0; SAMPLE_PRELOAD
and EXTEST of a base die of the chain capture its lands, the ports' lands free under EXTEST (log entry 8), and load its boundary register; the
wrapper tests and IJTAG act as BYPASS unless released; released they shift out free bits, and IJTAG holds the die's network in its cycle (log
entry 193), but for the die that the parallel path holds, which shifts out zeros and sets CONFLICT; of a die outside the chain they change
nothing. CONFIG shifts out the mask in force, and includes only dies that it names, unreleased only the east base die; UNLOCK sets
its result and releases on 1; TAP_RESET leaves the west base die alone. With the west half lost none of them changes anything. With the part
awake a parallel shift with reserved bits set changes nothing, else sets its fields, and when it starts, released with no shift running,
takes the die, or sets CONFLICT where the TAP holds it; its end gives the captured bits, zeros where it did not get the die,
and with none running changes nothing. Every shift passes the whole chain (log entries 120, 191).
(R538, R539, R540, R542, R543, R544, R546, R547, R548, R550) -/
def Obligations.TestAccessActsOnItsDies : Prop :=
  ∀ (s : State), s.dev.awake = true →
    let d := s.dev
    let there := (d.half 0).lost = false
    (∀ (i : Fin 302) (x : BypassScan), there → d.tst.has i = true → irSelects i x.code.toNat = 0xFF →
      Does (.bypass i x) s (d.tapScan i x.code.toNat [false])) ∧
    (∀ (i : Fin 302) (x : BypassScan), d.tst.has i = false ∨ irSelects i x.code.toNat ≠ 0xFF → Idles (.bypass i x) s) ∧
    (∀ (east : Bool) (l p : List Bool), there → d.tst.has (basePos east) = true →
      let loaded := fun (code : Nat) (l : List Bool) =>
        let e := d.irScan (basePos east) code
        (e.drScan (basePos east) (e.capture east l)).modTest fun t => { t with
          boundary := mset [] t.boundary (basePos east) (cells (boundarySize east) p) }
      Does (.samplePreload east l p) s (loaded 1 l) ∧ ∃ x, Does (.extest east p) s (loaded 0 x)) ∧
    (∀ (east : Bool) (l p : List Bool), d.tst.has (basePos east) = false → Idles (.samplePreload east l p) s ∧ Idles (.extest east p) s) ∧
    (∀ (i : Fin 302) (bits : List Bool), d.tst.has i = false →
      Idles (.extestDw i bits) s ∧ Idles (.intestDw i bits) s ∧ Idles (.ijtag i bits) s) ∧
    (∀ (i : Fin 302) (bits : List Bool), there → d.tst.has i = true → d.released 1 = false →
      Does (.extestDw i bits) s (d.tapScan i 0x08 [false]) ∧ Does (.intestDw i bits) s (d.tapScan i 0x09 [false]) ∧
      Does (.ijtag i bits) s (d.tapScan i 0x10 [false])) ∧
    (∀ (i : Fin 302) (bits : List Bool), there → d.tst.has i = true → d.released 1 = true →
      (∃ x, Does (.extestDw i bits) s (d.tapScan i 0x08 x)) ∧ (∃ x, Does (.intestDw i bits) s (d.tapScan i 0x09 x)) ∧
      (d.tst.parHolds = some i.val →
        Does (.ijtag i bits) s ((d.tapScan i 0x10 (List.replicate bits.length false)).setBit (tstReg 0) 5)) ∧
      (d.tst.parHolds ≠ some i.val → ∃ x, Does (.ijtag i bits) s
        ((d.tapScan i 0x10 x).modTest fun t => { t with tapHolds := some (i.val, d.now) }))) ∧
    (∀ m p : BitVec 302, there → ∃ e : Device, Does (.config m p) s e ∧ e.out = (d.tapScan 0 0x11 ((List.range 302).map d.tst.has)).out ∧
      (∀ i ∈ e.tst.included, m.getLsbD i = true) ∧ (d.released 0 = false → ∀ i ∈ e.tst.included, i = 151)) ∧
    (∀ tok : List Byte, there → ∃ x : List Bool,
      let r := d.judgeToken (sliceBytes tok 0 1408)
      let e := ((d.tapScan 0 0x12 (cells 11264 x)).modTest fun x => { x with token := sliceBytes tok 0 1408 }).setField (tstReg 0) 2 3 r
      Does (.unlock tok) s (if r = 1 then (e.setBit (tstReg 0) 1).modTest fun x =>
        { x with scope := leAt (sliceBytes tok 0 1408) 6 2 } else e)) ∧
    (there → Does .tapReset s { d with tst := { d.tst with included := [], ir := [] } }) ∧
    (¬ there → Idles .tapReset s ∧ (∀ m p, Idles (.config m p) s) ∧ (∀ tok, Idles (.unlock tok) s) ∧
      (∀ i, Idles (.idcode i) s ∧ ∀ x, Idles (.bypass i x) s) ∧
      (∀ i bits, Idles (.extestDw i bits) s ∧ Idles (.intestDw i bits) s ∧ Idles (.ijtag i bits) s) ∧
      ∀ east l p, Idles (.samplePreload east l p) s ∧ Idles (.extest east p) s) ∧
    (∀ ctl : BitVec 64,
      let die := field ctl.toNat 0 9
      let e := (d.setField (tstReg 0x100) 0 9 die).setField (tstReg 0x100) 16 6 (field ctl.toNat 16 6)
      let g := e.setBit (tstReg 0x100) 10
      (field ctl.toNat 11 5 ≠ 0 ∨ field ctl.toNat 22 42 ≠ 0 → Idles (.parallelShift ctl) s) ∧
      (field ctl.toNat 11 5 = 0 → field ctl.toNat 22 42 = 0 → Does (.parallelShift ctl) s
        (if bit ctl.toNat 9 = true ∧ e.released 2 = true ∧ e.bitOf (tstReg 0x100) 10 = false ∧ die < 302 then
          (if d.tst.tapHolds = some (die, d.now) then g.setBit (tstReg 0) 5 else g.modTest fun t => { t with parHolds := some die })
        else e))) ∧
    (∀ x : BitVec 64,
      let v := if d.tst.parHolds.isSome then x.toNat % 2 ^ (d.fieldOf (tstReg 0x100) 16 6 + 1) else 0
      (d.bitOf (tstReg 0x100) 10 = true → Does (.parallelShiftDone x) s
        (((d.setReg (tstReg 0x108) (BitVec.ofNat 64 v)).setField (tstReg 0x100) 10 1 0).modTest fun t => { t with parHolds := none })) ∧
      (d.bitOf (tstReg 0x100) 10 = false → Idles (.parallelShiftDone x) s))

/-- With the part awake, a write of 4 or 8 aligned bytes to a register of a block that answers changes nothing when any bit
among those written that belongs to no field of the register is 1: such bits count as reserved (log entry 11). (R16) -/
def Obligations.ReservedBitsVoidARegisterWrite : Prop :=
  ∀ (s : State) (off : BitVec 29) (v : BitVec 64) (wide : Bool) (l : RegLoc) (r : RegDesc), s.dev.awake = true →
    let n := if wide then 8 else 4
    let at0 : RegLoc := { l with off := 8 * (l.off / 8) }
    let w := v.toNat % 2 ^ (8 * n) * 2 ^ (8 * (off.toNat % 8))
    off.toNat % n = 0 → regLocate off.toNat = some l → s.dev.answers l = true → regDesc? l.blk at0.off = some r →
    ¬ (l.blk = .hst ∧ 0x10000 ≤ at0.off ∧ at0.off < 0x18000) →
    (∃ b, w.testBit b = true ∧ ∀ f ∈ regFields at0 r, b < f.lo ∨ f.lo + f.n ≤ b) →
    Idles (.registerWrite off v wide) s

/-- Written with v over the n bits from lo, a field that the write does not hold wholly keeps its value, as does an RO and a WO
field; an RW field takes its bits of v; a bit of a W1C field stays set exactly when it was set and either v holds 0 there or its
condition is still in force; and no other bit of the word changes. (R14, R566, R573) -/
def Obligations.FieldsTakeTheirAccess : Prop :=
  ∀ (lo n v keep w : Nat) (f : RField), w < 2 ^ 64 → 0 < f.n → f.lo + f.n ≤ 64 →
    let x := writeField lo n v keep w f
    (holds lo n f.lo f.n = false → x = w) ∧
    (f.acc = .ro ∨ f.acc = .wo → x = w) ∧
    (holds lo n f.lo f.n = true → f.acc = .rw → field x f.lo f.n = field v f.lo f.n) ∧
    (holds lo n f.lo f.n = true → f.acc = .w1c → ∀ b < f.n,
      x.testBit (f.lo + b) = (w.testBit (f.lo + b) && (!v.testBit (f.lo + b) || keep.testBit (f.lo + b)))) ∧
    (∀ b, b < f.lo ∨ f.lo + f.n ≤ b → x.testBit b = w.testBit b)

/-- With the part awake: an aligned write in a block that answers, to a register that may be written, with no reserved bit set,
stores its fields and has the register's effect; with a reserved bit set (log entry 11), or barred (log entry 21), or at an unassigned offset it changes nothing; in
a block that does not answer it is a dark access; a wrong alignment is an address error. RETIRE_ADD sets RESULT and on 0 adds the
entry. LOG_CLEAR of a log whose tower is up or whose half is there leaves no entry, and changes nothing else or elsewhere. Where the
block answers, FLIP_ARM stores TARGET and SEL and arms on a legal target (log entry 19) and FLIP_DISARM clears ARMED; elsewhere neither changes anything. A
block number starts a fill of the slate window, which ends with the block's bytes, or beyond the flash with free ones (log entry 40); with no
fill running its end changes nothing. (R14, R303, R311, R524, R555, R565, R566) -/
def Obligations.RegisterCommandsAct : Prop :=
  ∀ (s : State), s.dev.awake = true →
    let d := s.dev
    (∀ (off : BitVec 29) (v : BitVec 64) (wide : Bool),
      let n := if wide then 8 else 4
      (off.toNat % n ≠ 0 → Does (.registerWrite off v wide) s (d.hostAddrError (0x0F0000000000 + off.toNat))) ∧
      (off.toNat % n = 0 → regLocate off.toNat = none → Idles (.registerWrite off v wide) s) ∧
      (∀ l, off.toNat % n = 0 → regLocate off.toNat = some l →
        let k : RegLoc := { l with off := 8 * (l.off / 8) }
        let lo := 8 * (off.toNat % 8)
        let x := v.toNat % 2 ^ (8 * n) * 2 ^ lo
        (regThere k = false → Idles (.registerWrite off v wide) s) ∧
        (regThere k = true → d.answers l = false →
          Does (.registerWrite off v wide) s (d.darkAccess l (0x0F0000000000 + off.toNat))) ∧
        (regThere k = true → d.answers l = true → (k.blk = .hst ∧ 0x10000 ≤ k.off ∧ k.off < 0x18000) →
          Does (.registerWrite off v wide) s (d.writeMsix k.off lo (8 * n) x)) ∧
        (regThere k = true → d.answers l = true → ¬ (k.blk = .hst ∧ 0x10000 ≤ k.off ∧ k.off < 0x18000) →
          (regDesc? k.blk k.off = none → Idles (.registerWrite off v wide) s) ∧
          (∀ r, regDesc? k.blk k.off = some r →
            let fs := regFields k r
            let refused : Bool := x &&& (2 ^ 64 - 1 - namedBits fs) != 0 || d.barred k ||
              (k.blk == .cor && decide (k.off < 0x1000) && !d.hasArray k.inst)
            (refused = true → Idles (.registerWrite off v wide) s) ∧
            (refused = false →
              Does (.registerWrite off v wide) s ((d.storeFields k lo (8 * n) x fs).act k lo (8 * n) x)))))) ∧
    (∀ e : BitVec 64,
      let r := d.addResult e.toNat
      let x : BitVec 64 := BitVec.ofNat 64 (withField (withField e.toNat 2 1 (if field e.toNat 0 2 = 1 then 0 else 1)) 3 1 0)
      let f := d.setField (svcReg 0x8008) 13 3 r
      Does (.retireAdd e) s (if r = 0 then { f with
        retire := { entries := f.retire.entries ++ [x] }, start := { f.start with swRetired := f.start.swRetired ++ [x] } } else f)) ∧
    (∀ t : Fin 20, d.up t = true → Does (.logClear (.tower t)) s (d.setLog t { d.logOf t with entries := [] })) ∧
    (∀ t : Fin 20, d.up t = false → Idles (.logClear (.tower t)) s) ∧
    (∀ h : Half, (d.half (halfNum h)).lost = false →
      Does (.logClear (.half h)) s (d.setLog (20 + halfNum h) { d.logOf (20 + halfNum h) with entries := [] })) ∧
    (∀ h : Half, (d.half (halfNum h)).lost = true → Idles (.logClear (.half h)) s) ∧
    (∀ (b : FlipBlock) (t : BitVec 4) (x : BitVec 8),
      let a := regAddr (flipLoc b)
      let e := (d.setField a 3 4 t.toNat).setField a 7 8 x.toNat
      let ok := e.flipTarget (flipLoc b) (e.fieldOf a 3 4) (e.fieldOf a 7 8)
      (d.answers (flipLoc b) = true →
        (ok = true → Does (.flipArm b t x) s (e.setField a 1 1 1)) ∧ (ok = false → Does (.flipArm b t x) s e) ∧
        Does (.flipDisarm b) s (d.setField a 1 1 0)) ∧
      (d.answers (flipLoc b) = false → Idles (.flipArm b t x) s ∧ Idles (.flipDisarm b) s)) ∧
    (∀ k : BitVec 17, Does (.slateWindowFill k) s
      { d.setField (svcReg 0xB008) 0 17 k.toNat with start := { d.start with windowBlock := some k.toNat } }) ∧
    (∀ k, d.start.windowBlock = some k → k < 2 ^ (leNat (d.flashRead 6 1) - 12) →
      Does .windowFilled s { d with start := { d.start with window := d.flashRead (4096 * k) 4096, windowBlock := none } }) ∧
    (∀ k, d.start.windowBlock = some k → 2 ^ (leNat (d.flashRead 6 1) - 12) ≤ k →
      let x := d.drawBytes 4096
      Does .windowFilled s { x.2 with start := { d.start with window := x.1, windowBlock := none } }) ∧
    (d.start.windowBlock = none → Idles .windowFilled s)

/-- For every state whose maps list their keys in rising order and whose memories keep their canonical form, the state that any
step answers does too: equal contents stay equal data, and a read finds what the last write stored. (R293, R297, R563) -/
def Obligations.MapsAndMemoriesStayFormed : Prop :=
  ∀ s s' : State, s.dev.formed = true → step s = .next s' → s'.dev.formed = true

/-- From a formed state, no step, a reset and a loss of power included, changes any fuse but those of the rollback steps, and a
fuse of a step that is blown before the step is blown after it. (R529, R530, R490) -/
def Obligations.FusesOnlyBlow : Prop :=
  ∀ s s' : State, s.dev.formed = true → step s = .next s' → FusesOnlyBlown s.dev.fuses s'.dev.fuses

/-- The invariant: while the part is unpowered or held in reset, all its state but fuses, flash, the host's memory, its pins and
the cause of the reset is at its reset value, READY is low, and FAULT_N and THERMTRIP_N are released. Every step from a state
with it answers a state with it. What was sent, the count of cycles and the counter of free values are the model's own and stay
out of it (log entries 4 to 6). (R479, R484, R490, R492) -/
def Obligations.HeldPartIsBlank : Prop :=
  ∀ s s' : State, s.dev.heldBlank → step s = .next s' → s'.dev.heldBlank

/-- State.reset has formed maps and memories, is blank where it would be held, holds no command, and every register in it reads
its reset value; device memory and the host's memory read 0. That unlisted bytes read 0 is the model's choice, whose log entries
are 9 and 29. (R490, R575) -/
def Obligations.ResetMeetsTheInvariants : Prop :=
  State.reset.dev.formed = true ∧ State.reset.dev.heldBlank ∧ State.reset.pending = [] ∧
    (∀ a, State.reset.dev.reg a = resetValue a) ∧
    (∀ a, State.reset.dev.mem.byte a = 0 ∧ State.reset.dev.hostMem.byte a = 0)

/-- In a state where the part is unpowered or held in reset, every command but POWER_GOOD, RESET_RELEASE,
COLD_RESET, DEVICE_RESET, POWER_LOSS, POWER_RETURN, RESET_N_RELEASE, PERST_RELEASE and HOST_RESET changes nothing; HOST_RESET
changes nothing but the level of PERST_N, and that only in its PERST form. (R479, R492) -/
def Obligations.HeldPartIsInert : Prop :=
  ∀ (i : Instr) (s : State), s.dev.awake = false →
    ((∀ k, i ≠ .hostReset k) →
      i ∉ [Instr.powerGood, .resetRelease, .coldReset, .deviceReset, .powerLoss, .powerReturn, .resetNRelease, .perstRelease] →
      Idles i s) ∧
    Does (.hostReset .perst) s { s.dev with pins := { s.dev.pins with perstN := false } } ∧
    (∀ k, k ≠ .perst → Idles (.hostReset k) s)

/-- A command that may not store to memory leaves every byte and check bit of device memory, of the host's memory and of the
flash as it was; one that may not write a core, a DRAM site or a register leaves all of them as they were. reachOf names for
every command of the table what it may write. The queue is as it was. (spec/00_scope.md, spec/04_cores_cues_and_reels.md,
spec/23_faults_takes_and_wear.md) -/
def Obligations.CommandsStayWithinReach : Prop :=
  ∀ (i : Instr) (s s' : State), exec i s = .next s' → WithinReach i s.dev s'.dev ∧ s'.pending = s.pending

/-- A word of 16 bytes is stored with a 144-bit mask flipped in it. With no bit flipped it reads CLEAN, or POISON when it was
stored in poisoned form; with one bit flipped it reads CORRECTED at that bit, or POISON at that bit, with its data restored; an
ordinary word with two bits flipped anywhere, or with two to eight bits flipped within one aligned byte, check bytes among them,
reads UNCORRECTABLE. (R291) -/
def Obligations.GuaranteedClassesOfCodewords : Prop :=
  ∀ (m : Memory) (cw : Nat) (x : List Byte), m.wf = true → x.length = 16 →
    let r := fun (poison : Bool) (k : BitVec 144) => (m.putCw cw x poison (some k)).cw cw
    ((r false 0).cls = .clean ∧ (r false 0).data = x ∧ (r true 0).cls = .poison none ∧ (r true 0).data = x) ∧
    (∀ b < 144, (r false (1#144 <<< b)).cls = .corrected b ∧ (r false (1#144 <<< b)).data = x ∧
      (r true (1#144 <<< b)).cls = .poison (some b) ∧ (r true (1#144 <<< b)).data = x) ∧
    (∀ a < 144, ∀ b < 144, a ≠ b → (r false (1#144 <<< a ^^^ 1#144 <<< b)).cls = .uncorrectable) ∧
    (∀ j < 18, ∀ v : Byte, 2 ≤ popcount8 v → (r false (v.setWidth 144 <<< (8 * j))).cls = .uncorrectable)

/-- Storing to one codeword leaves every other codeword of device memory as it was; where no flip mask fires and no connection of its
channel is dead, the codeword then reads as the bytes given laid over the old data as read and corrected, and it is bad exactly when
it was stored in poisoned form or, for a store of part of it, the old word was. A run of bytes written outside the stores of the
base dies changes no byte outside its codewords. (R287, R289, R297) -/
def Obligations.StoresChangeTheirCodewordsAlone : Prop :=
  ∀ (d : Device), d.formed = true →
    (∀ cw part poison host,
      let e := d.storeCw cw part poison host
      let old := d.mem.cw cw
      (∀ n, n ≠ cw → e.mem.cw n = d.mem.cw n) ∧
      ((d.wireMask cw).1 = none →
        (((if wholePart part then d else d.noteWord (16 * cw) old (unitFor (16 * cw))).dropBack cw).flipFor (16 * cw) host).1 = none →
        (∀ i < 16, (e.mem.cw cw).data[i]? = some (match part.getD i none with
          | some b => b
          | none => old.data.getD i 0)) ∧
        (e.mem.cw cw).bad = (poison || (!wholePart part && old.bad)))) ∧
    (∀ a bs bad host, (∀ c ∈ cwsOf a bs.length, ∀ h o, regionOf (16 * c) ≠ .store h o) →
      SameOutside d (d.writeMem a bs bad host) a bs.length)

/-- An event of a kind other than 0 written to a log changes one entry, which then holds its KIND, UNIT, ADDR, SYNDROME, DETAIL
and FRAME, and the next SEQ. Where the log has an entry of the same KIND, UNIT and ADDR, such an entry is the one changed, and its COUNT is
one more, at most 2^32 - 1; else it was a free place, with COUNT now 1, where there is one; else it gives up the place of an entry of class 0 or
1, with COUNT now 1: one of class 0 where there is one, and of its class the one whose SEQ is oldest. An event is dropped only when every place
holds an entry of classes 2 to 4. (R554, R555) -/
def Obligations.LogEntriesTakeTheirPlaces : Prop :=
  ∀ (l : Log) (kind unit addr syn detail frame : Nat), KeysRise 0 l.entries = true → kind ≠ 0 →
    let at_ := fun (x : Log) i => mget LogEntry.reset x.entries i
    let same := fun (e : LogEntry) => e.kind = kind ∧ e.unit = unit ∧ e.addr = addr
    (l.write kind unit addr syn detail frame = none → ∀ i < 256, (at_ l i).kind ≠ 0 ∧ 2 ≤ (at_ l i).cls) ∧
    (∀ m, l.write kind unit addr syn detail frame = some m → ∃ p,
      (∀ i, i ≠ p → at_ m i = at_ l i) ∧ same (at_ m p) ∧ (at_ m p).cls = kindClass kind ∧ (at_ m p).syndrome = syn ∧
      (at_ m p).detail = detail ∧ (at_ m p).frame = frame ∧ (at_ m p).seq = (l.seq + 1) % 65536 ∧ m.seq = (l.seq + 1) % 65536 ∧
      ((∃ i, same (at_ l i)) → same (at_ l p) ∧ (at_ m p).count = min (2 ^ 32 - 1) ((at_ l p).count + 1)) ∧
      ((∀ i, ¬ same (at_ l i)) → (at_ m p).count = 1 ∧
        ((∃ i < 256, (at_ l i).kind = 0) → (at_ l p).kind = 0) ∧
        ((∀ i < 256, (at_ l i).kind ≠ 0) → (at_ l p).cls < 2 ∧
          ∀ x ∈ l.entries, (at_ l p).cls ≤ x.2.cls ∧ (x.2.cls = (at_ l p).cls → l.age x.2 ≤ l.age (at_ l p)))))

end
end

