-- ==== Sys2Proof/Laws/Maps.lean ====
section
/-! SUPPORT. The laws of the sparse maps: a read after a write, and the canonical form, which every write keeps. -/
namespace Sys2Proof.Machine

open Sys2Proof

variable {α : Type}

theorem KeysRise.cons_iff (lo k : Nat) (v : α) (r : SMap α) :
    KeysRise lo ((k, v) :: r) = true ↔ lo ≤ k ∧ KeysRise (k + 1) r = true := by
  simp [KeysRise]

/-- A weaker bound. -/
theorem KeysRise.mono {lo lo' : Nat} (h : lo' ≤ lo) {m : SMap α} (hm : KeysRise lo m = true) : KeysRise lo' m = true := by
  cases m with
  | nil => rfl
  | cons p r =>
    obtain ⟨k, v⟩ := p
    rw [KeysRise.cons_iff] at hm ⊢
    exact ⟨by omega, hm.2⟩

/-- A key below every listed one stands for the default. -/
theorem mget_below (d : α) {lo : Nat} {m : SMap α} (hm : KeysRise lo m = true) {i : Nat} (hi : i < lo) : mget d m i = d := by
  induction m generalizing lo with
  | nil => rfl
  | cons p r ih =>
    obtain ⟨k, v⟩ := p
    rw [KeysRise.cons_iff] at hm
    rw [mget, if_neg (by omega)]
    exact ih hm.2 (by omega)

variable [DecidableEq α]

/-- Keys still rise after a write. -/
theorem KeysRise.mset (d : α) {lo : Nat} {m : SMap α} (hm : KeysRise lo m = true) {i : Nat} (hi : lo ≤ i) (v : α) :
    KeysRise lo (mset d m i v) = true := by
  induction m generalizing lo with
  | nil => by_cases h : v = d <;> simp [Machine.mset, h, KeysRise, hi]
  | cons p r ih =>
    obtain ⟨k, w⟩ := p
    have hc := (KeysRise.cons_iff lo k w r).1 hm
    unfold Machine.mset
    split
    · split
      · exact hm
      · simp only [KeysRise.cons_iff]; exact ⟨hi, by omega, hc.2⟩
    · split
      · subst i; split
        · exact KeysRise.mono (by omega) hc.2
        · rw [KeysRise.cons_iff]; exact hc
      · rw [KeysRise.cons_iff]; exact ⟨hc.1, ih hc.2 (by omega)⟩

/-- A read of another key than the one written, under any default. -/
theorem mget_mset_apart (d e : α) (m : SMap α) {i j : Nat} (h : j ≠ i) (v : α) : mget e (mset d m i v) j = mget e m j := by
  induction m with
  | nil => by_cases hv : v = d <;> simp [mset, mget, hv, h]
  | cons p r ih =>
    obtain ⟨k, w⟩ := p
    unfold mset
    split
    · split
      · rfl
      · rw [mget, if_neg h]
    · split
      · subst i; split
        · rw [mget, if_neg h]
        · rw [mget, mget, if_neg h, if_neg h]
      · rw [mget, mget, ih]

/-- A read of another key than the one written. -/
theorem mget_mset_other (d : α) (m : SMap α) {i j : Nat} (h : j ≠ i) (v : α) : mget d (mset d m i v) j = mget d m j :=
  mget_mset_apart d d m h v

/-- A read of the key just written, in a map whose keys rise. -/
theorem mget_mset_same (d : α) {lo : Nat} {m : SMap α} (hm : KeysRise lo m = true) (i : Nat) (v : α) :
    mget d (mset d m i v) i = v := by
  induction m generalizing lo with
  | nil => by_cases hv : v = d <;> simp [mset, mget, hv]
  | cons p r ih =>
    obtain ⟨k, w⟩ := p
    have hc := (KeysRise.cons_iff lo k w r).1 hm
    unfold mset
    split
    · split
      · rename_i hlt hv; rw [mget, if_neg (by omega), hv]; exact mget_below d hc.2 (by omega)
      · rw [mget, if_pos rfl]
    · split
      · subst i; split
        · rename_i hv; rw [hv]; exact mget_below d hc.2 (by omega)
        · rw [mget, if_pos rfl]
      · rename_i h; rw [mget, if_neg h]; exact ih hc.2

/-- A read of the key just written with a value other than the default. -/
theorem mget_mset_new (d : α) (m : SMap α) (i : Nat) {v : α} (hv : v ≠ d) : mget d (mset d m i v) i = v := by
  induction m with
  | nil => simp [mset, mget, hv]
  | cons p r ih =>
    obtain ⟨k, w⟩ := p
    unfold mset
    split
    · rw [mget, if_pos rfl]
    · split
      · rw [mget, if_pos rfl]
      · rename_i h; rw [mget, if_neg h]; exact ih

/-- The canonical form has rising keys. -/
theorem MapOk.rise {d : α} {lo : Nat} {m : SMap α} (hm : MapOk d lo m = true) : KeysRise lo m = true := by
  induction m generalizing lo with
  | nil => rfl
  | cons p r ih =>
    obtain ⟨k, v⟩ := p
    simp only [MapOk, Bool.and_eq_true, decide_eq_true_eq] at hm
    rw [KeysRise.cons_iff]; exact ⟨hm.1.1, ih hm.2⟩

theorem MapOk.mono {d : α} {lo lo' : Nat} (h : lo' ≤ lo) {m : SMap α} (hm : MapOk d lo m = true) : MapOk d lo' m = true := by
  cases m with
  | nil => rfl
  | cons p r =>
    obtain ⟨k, v⟩ := p
    simp only [MapOk, Bool.and_eq_true, decide_eq_true_eq] at hm ⊢
    exact ⟨⟨by omega, hm.1.2⟩, hm.2⟩

/-- Every write keeps the canonical form: writing the default removes the entry. -/
theorem MapOk.mset {d : α} {lo : Nat} {m : SMap α} (hm : MapOk d lo m = true) {i : Nat} (hi : lo ≤ i) (v : α) :
    MapOk d lo (mset d m i v) = true := by
  induction m generalizing lo with
  | nil => by_cases h : v = d <;> simp [Machine.mset, h, MapOk, hi]
  | cons p r ih =>
    obtain ⟨k, w⟩ := p
    have hc : (lo ≤ k ∧ w ≠ d) ∧ MapOk d (k + 1) r = true := by
      simpa only [MapOk, Bool.and_eq_true, decide_eq_true_eq] using hm
    unfold Machine.mset
    split
    · split
      · exact hm
      · rename_i hlt hv
        simp only [MapOk, Bool.and_eq_true, decide_eq_true_eq]; exact ⟨⟨hi, hv⟩, ⟨by omega, hc.1.2⟩, hc.2⟩
    · split
      · subst i; split
        · exact MapOk.mono (by omega) hc.2
        · rename_i hv
          simp only [MapOk, Bool.and_eq_true, decide_eq_true_eq]; exact ⟨⟨hi, hv⟩, hc.2⟩
      · simp only [MapOk, Bool.and_eq_true, decide_eq_true_eq]; exact ⟨hc.1, ih hc.2 (by omega)⟩

end Sys2Proof.Machine
end

