-- ==== Sys2Proof/Laws/Memory.lean ====
section
/-! SUPPORT. Every memory operation keeps the canonical form of Memory.wf; a byte reads as it was written. -/
namespace Sys2Proof.Machine

open Sys2Proof

theorem Memory.wf_iff (m : Memory) :
    m.wf = true ↔ MapOk (0 : Byte) 0 m.bytes = true ∧ MapOk (0 : BitVec 16) 0 m.syn = true := by
  simp [Memory.wf]

theorem Memory.wf_empty : Memory.empty.wf = true := rfl

theorem Memory.wf_setByte {m : Memory} (h : m.wf = true) (a : Nat) (b : Byte) : (m.setByte a b).wf = true := by
  rw [Memory.wf_iff] at h ⊢
  exact ⟨MapOk.mset h.1 (Nat.zero_le a) b, h.2⟩

theorem Memory.wf_setSyn {m : Memory} (h : m.wf = true) (cw : Nat) (x : BitVec 16) : (m.setSyn cw x).wf = true := by
  rw [Memory.wf_iff] at h ⊢
  exact ⟨h.1, MapOk.mset h.2 (Nat.zero_le cw) x⟩

theorem Memory.wf_put {m : Memory} (h : m.wf = true) (a : Nat) (bs : List Byte) : (m.put a bs).wf = true := by
  induction bs generalizing m a with
  | nil => exact h
  | cons b r ih => exact ih (Memory.wf_setByte h a b) (a + 1)

theorem Memory.wf_putCw {m : Memory} (h : m.wf = true) (cw : Nat) (d : List Byte) (p : Bool) (k : Option (BitVec 144)) :
    (m.putCw cw d p k).wf = true := by
  cases k <;> exact Memory.wf_setSyn (Memory.wf_put h _ _) _ _

theorem Memory.wf_writeCw {m : Memory} (h : m.wf = true) (cw : Nat) (n : List (Option Byte)) (p : Bool) (k : Option (BitVec 144)) :
    (m.writeCw cw n p k).wf = true := by
  unfold Memory.writeCw
  split <;> exact Memory.wf_putCw h _ _ _ _

theorem Memory.wf_write {m : Memory} (h : m.wf = true) (a : Nat) (bs : List Byte) (bad : Nat → Bool) (k : Option (BitVec 144)) :
    (m.write a bs bad k).wf = true := by
  unfold Memory.write
  generalize cwsOf a bs.length = l
  induction l generalizing m k with
  | nil => exact h
  | cons c r ih => exact ih (Memory.wf_writeCw h c (cwPart a bs c) (bad c) k) none

theorem Memory.byte_setByte_same {m : Memory} (h : m.wf = true) (a : Nat) (b : Byte) : (m.setByte a b).byte a = b :=
  mget_mset_same _ (MapOk.rise ((Memory.wf_iff m).1 h).1) a b

theorem Memory.byte_setByte_other (m : Memory) {a c : Nat} (h : c ≠ a) (b : Byte) : (m.setByte a b).byte c = m.byte c :=
  mget_mset_other _ _ h b

/-- A run of bytes written leaves every byte outside it alone. -/
theorem Memory.byte_put_outside (m : Memory) (a : Nat) (bs : List Byte) {c : Nat} (h : c < a ∨ a + bs.length ≤ c) :
    (m.put a bs).byte c = m.byte c := by
  induction bs generalizing m a with
  | nil => rfl
  | cons b r ih =>
    have hl : (b :: r).length = r.length + 1 := rfl
    rw [show (m.put a (b :: r)) = (m.setByte a b).put (a + 1) r from rfl, ih _ _ (by omega),
      Memory.byte_setByte_other _ (by omega)]

end Sys2Proof.Machine
end

