-- ==== Sys2Proof/Laws/Word.lean ====
section
/-! SUPPORT. The laws of fields of a number: a field read after it is set, and the fields beside it. -/
namespace Sys2Proof

theorem field_eq (w lo n : Nat) : field w lo n = w / 2 ^ lo % 2 ^ n := by simp [field, Nat.shiftRight_eq_div_pow]

theorem field_lt (w lo n : Nat) : field w lo n < 2 ^ n := by
  rw [field_eq]; exact Nat.mod_lt _ (by positivity)

/-- A number as what lies above a field, the field, and what lies below it. -/
theorem split_field (w lo n : Nat) : w = w / 2 ^ (lo + n) * 2 ^ (lo + n) + field w lo n * 2 ^ lo + w % 2 ^ lo := by
  have h1 := Nat.div_add_mod w (2 ^ lo)
  have h2 := Nat.div_add_mod (w / 2 ^ lo) (2 ^ n)
  rw [Nat.div_div_eq_div_mul, ← pow_add] at h2
  rw [field_eq]
  calc w = 2 ^ lo * (w / 2 ^ lo) + w % 2 ^ lo := h1.symm
    _ = 2 ^ lo * (2 ^ n * (w / 2 ^ (lo + n)) + w / 2 ^ lo % 2 ^ n) + w % 2 ^ lo := by rw [h2]
    _ = _ := by rw [pow_add]; ring

/-- A number with a field set, from its parts. -/
theorem withField_eq (w lo n v : Nat) :
    withField w lo n v = w / 2 ^ (lo + n) * 2 ^ (lo + n) + v % 2 ^ n * 2 ^ lo + w % 2 ^ lo := by
  have h := split_field w lo n
  unfold withField
  omega

theorem parts_div (a f b lo n : Nat) (hf : f < 2 ^ n) (hb : b < 2 ^ lo) :
    (a * 2 ^ (lo + n) + f * 2 ^ lo + b) / 2 ^ lo % 2 ^ n = f := by
  have : (a * 2 ^ (lo + n) + f * 2 ^ lo + b) / 2 ^ lo = a * 2 ^ n + f := by
    rw [show a * 2 ^ (lo + n) + f * 2 ^ lo + b = b + (a * 2 ^ n + f) * 2 ^ lo by rw [pow_add]; ring,
      Nat.add_mul_div_right _ _ (by positivity), Nat.div_eq_of_lt hb, Nat.zero_add]
  rw [this, Nat.mul_add_mod_of_lt' hf]
where
  Nat.mul_add_mod_of_lt' {a f m : Nat} (hf : f < m) : (a * m + f) % m = f := by
    rw [Nat.add_comm, Nat.add_mul_mod_self_right, Nat.mod_eq_of_lt hf]

/-- The field just set. -/
theorem field_withField (w lo n v : Nat) : field (withField w lo n v) lo n = v % 2 ^ n := by
  rw [withField_eq, field_eq]
  exact parts_div _ _ _ _ _ (Nat.mod_lt _ (by positivity)) (Nat.mod_lt _ (by positivity))

/-- A field that lies wholly above the one set. -/
theorem field_withField_above (w lo n v lo' n' : Nat) (h : lo + n ≤ lo') : field (withField w lo n v) lo' n' = field w lo' n' := by
  have key : withField w lo n v / 2 ^ (lo + n) = w / 2 ^ (lo + n) := by
    rw [withField_eq]
    have hb : v % 2 ^ n * 2 ^ lo + w % 2 ^ lo < 2 ^ (lo + n) := by
      have h1 : v % 2 ^ n + 1 ≤ 2 ^ n := Nat.mod_lt _ (by positivity)
      have h2 : w % 2 ^ lo < 2 ^ lo := Nat.mod_lt _ (by positivity)
      have h3 : (v % 2 ^ n + 1) * 2 ^ lo ≤ 2 ^ n * 2 ^ lo := Nat.mul_le_mul_right _ h1
      rw [pow_add, Nat.mul_comm (2 ^ lo)]
      nlinarith
    rw [Nat.add_assoc, Nat.add_comm, Nat.add_mul_div_right _ _ (by positivity), Nat.div_eq_of_lt hb, Nat.zero_add]
  obtain ⟨k, rfl⟩ := Nat.exists_eq_add_of_le h
  rw [field_eq, field_eq, pow_add 2 (lo + n) k, ← Nat.div_div_eq_div_mul, ← Nat.div_div_eq_div_mul, key]

/-- A field that lies wholly below the one set. -/
theorem field_withField_below (w lo n v lo' n' : Nat) (h : lo' + n' ≤ lo) : field (withField w lo n v) lo' n' = field w lo' n' := by
  have key : withField w lo n v % 2 ^ lo = w % 2 ^ lo := by
    rw [withField_eq, pow_add, show w / (2 ^ lo * 2 ^ n) * (2 ^ lo * 2 ^ n) + v % 2 ^ n * 2 ^ lo + w % 2 ^ lo
      = w % 2 ^ lo + 2 ^ lo * (w / (2 ^ lo * 2 ^ n) * 2 ^ n + v % 2 ^ n) by ring, Nat.add_mul_mod_self_left, Nat.mod_mod]
  have cut : ∀ x, field x lo' n' = field (x % 2 ^ lo) lo' n' := by
    intro x
    obtain ⟨k, rfl⟩ := Nat.exists_eq_add_of_le h
    rw [field_eq, field_eq, pow_add, pow_add, Nat.mul_assoc, Nat.mod_mul_right_div_self, Nat.mod_mul_right_mod]
  rw [cut, key, ← cut]

/-- A number of 64 bits stays one when a field in them is set. -/
theorem withField_lt (w lo n v : Nat) (hw : w < 2 ^ 64) (h : lo + n ≤ 64) : withField w lo n v < 2 ^ 64 := by
  have hb : v % 2 ^ n * 2 ^ lo + w % 2 ^ lo < 2 ^ (lo + n) := by
    have h1 : v % 2 ^ n + 1 ≤ 2 ^ n := Nat.mod_lt _ (by positivity)
    have h2 : w % 2 ^ lo < 2 ^ lo := Nat.mod_lt _ (by positivity)
    have h3 : (v % 2 ^ n + 1) * 2 ^ lo ≤ 2 ^ n * 2 ^ lo := Nat.mul_le_mul_right _ h1
    rw [pow_add, Nat.mul_comm (2 ^ lo)]
    nlinarith
  obtain ⟨k, hk⟩ := Nat.exists_eq_add_of_le h
  rw [withField_eq]
  have hd : w / 2 ^ (lo + n) < 2 ^ k := by
    rw [Nat.div_lt_iff_lt_mul (by positivity), ← pow_add, Nat.add_comm k, ← hk]; exact hw
  rw [hk, pow_add 2 (lo + n) k]
  generalize 2 ^ (lo + n) = M at *
  have h1 := Nat.mul_le_mul_right M (Nat.succ_le_of_lt hd)
  rw [Nat.succ_mul, Nat.mul_comm (2 ^ k)] at h1
  omega

end Sys2Proof
end

