-- ==== Sys2Proof/Laws/Regs.lean ====
section
/-! SUPPORT. The laws of the register map and of the maps of instances: what a read gives after a write. -/
namespace Sys2Proof.Machine

open Sys2Proof

/-! ### Registers -/

theorem Device.reg_setReg_other (d : Device) {a b : Nat} (h : b ≠ a) (v : W64) : (d.setReg a v).reg b = d.reg b := by
  unfold Device.reg Device.setReg
  exact mget_mset_apart _ _ _ h v

theorem Device.reg_setReg_same (d : Device) (hd : KeysRise 0 d.regs = true) (a : Nat) (v : W64) : (d.setReg a v).reg a = v :=
  mget_mset_same _ hd a v

theorem Device.reg_setField_other (d : Device) {a b : Nat} (h : b ≠ a) (lo n v : Nat) : (d.setField a lo n v).reg b = d.reg b :=
  d.reg_setReg_other h _

theorem Device.reg_setBit_other (d : Device) {a b : Nat} (h : b ≠ a) (i : Nat) : (d.setBit a i).reg b = d.reg b :=
  d.reg_setReg_other h _

theorem Device.reg_count_other (d : Device) {a b : Nat} (h : b ≠ a) (n : Nat) : (d.count a n).reg b = d.reg b :=
  d.reg_setReg_other h _

/-- Keys of the register map still rise after a write. -/
theorem Device.regs_setReg (d : Device) (hd : KeysRise 0 d.regs = true) (a : Nat) (v : W64) : KeysRise 0 (d.setReg a v).regs = true :=
  KeysRise.mset _ hd (Nat.zero_le a) v

theorem Device.toNat_setField (d : Device) (hd : KeysRise 0 d.regs = true) (a lo n v : Nat) (h : lo + n ≤ 64) :
    ((d.setField a lo n v).reg a).toNat = withField (d.reg a).toNat lo n v := by
  unfold Device.setField
  rw [d.reg_setReg_same hd, BitVec.toNat_ofNat, Nat.mod_eq_of_lt (withField_lt _ _ _ _ (d.reg a).isLt h)]

/-- A field just set. -/
theorem Device.fieldOf_setField (d : Device) (hd : KeysRise 0 d.regs = true) (a lo n v : Nat) (h : lo + n ≤ 64) :
    (d.setField a lo n v).fieldOf a lo n = v % 2 ^ n := by
  unfold Device.fieldOf
  rw [d.toNat_setField hd _ _ _ _ h, field_withField]

/-- Another field of the register set. -/
theorem Device.fieldOf_setField_apart (d : Device) (hd : KeysRise 0 d.regs = true) (a lo n v lo' n' : Nat) (h : lo + n ≤ 64)
    (hs : lo + n ≤ lo' ∨ lo' + n' ≤ lo) : (d.setField a lo n v).fieldOf a lo' n' = d.fieldOf a lo' n' := by
  unfold Device.fieldOf
  rw [d.toNat_setField hd _ _ _ _ h]
  rcases hs with hs | hs
  · exact field_withField_above _ _ _ _ _ _ hs
  · exact field_withField_below _ _ _ _ _ _ hs

/-- A field of another register. -/
theorem Device.fieldOf_setField_other (d : Device) {a b : Nat} (h : b ≠ a) (lo n v lo' n' : Nat) :
    (d.setField a lo n v).fieldOf b lo' n' = d.fieldOf b lo' n' := by
  unfold Device.fieldOf; rw [d.reg_setField_other h]

@[simp] theorem Device.fieldOf_noteBit (d : Device) (a i b lo n : Nat) : (d.noteBit a i).fieldOf b lo n = d.fieldOf b lo n := rfl
@[simp] theorem Device.fieldOf_noteCount (d : Device) (a k b lo n : Nat) : (d.noteCount a k).fieldOf b lo n = d.fieldOf b lo n := rfl

theorem Device.bitOf_eq (d : Device) (a i : Nat) : d.bitOf a i = (d.fieldOf a i 1 == 1) := by
  simp [Device.bitOf, Device.fieldOf, bit, field]

/-- A bit just set. -/
theorem Device.bitOf_setBit (d : Device) (hd : KeysRise 0 d.regs = true) (a i : Nat) (h : i < 64) : (d.setBit a i).bitOf a i = true := by
  rw [Device.bitOf_eq, Device.setBit, Device.fieldOf_noteBit, d.fieldOf_setField hd _ _ _ _ (by omega)]; rfl

/-- A counter of R574 just advanced. -/
theorem Device.fieldOf_count (d : Device) (hd : KeysRise 0 d.regs = true) (a n : Nat) :
    (d.count a n).fieldOf a 0 48 = min (2 ^ 48 - 1) (d.fieldOf a 0 48 + n) := by
  rw [Device.count, Device.fieldOf_noteCount, d.fieldOf_setField hd _ _ _ _ (by omega)]
  exact Nat.mod_eq_of_lt (by omega)

/-! ### Instances -/

theorem Device.core_setCore_other (d : Device) {k j : Nat} (h : j ≠ k) (c : Core) : (d.setCore k c).core j = d.core j :=
  mget_mset_other _ _ h c

theorem Device.core_setCore_same (d : Device) (hd : KeysRise 0 d.cores = true) (k : Nat) (c : Core) : (d.setCore k c).core k = c :=
  mget_mset_same _ hd k c

theorem Device.core_modCore_same (d : Device) (hd : KeysRise 0 d.cores = true) (k : Nat) (f : Core → Core) :
    (d.modCore k f).core k = f (d.core k) := mget_mset_same _ hd k _

theorem Device.core_modCore_other (d : Device) {k j : Nat} (h : j ≠ k) (f : Core → Core) : (d.modCore k f).core j = d.core j :=
  mget_mset_other _ _ h _

theorem Device.site_modSite_same (d : Device) (hd : KeysRise 0 d.sites = true) (k : Nat) (f : Site → Site) :
    (d.modSite k f).site k = f (d.site k) := mget_mset_same _ hd k _

theorem Device.site_modSite_other (d : Device) {k j : Nat} (h : j ≠ k) (f : Site → Site) : (d.modSite k f).site j = d.site j :=
  mget_mset_other _ _ h _

theorem Device.tower_modTower_same (d : Device) (hd : KeysRise 0 d.towers = true) (t : Nat) (f : Tower → Tower) :
    (d.modTower t f).tower t = f (d.tower t) := mget_mset_same _ hd t _

theorem Device.tower_modTower_other (d : Device) {t j : Nat} (h : j ≠ t) (f : Tower → Tower) : (d.modTower t f).tower j = d.tower j :=
  mget_mset_other _ _ h _

theorem Device.half_modHalf_same (d : Device) (hd : KeysRise 0 d.halves = true) (h : Nat) (f : HalfState → HalfState) :
    (d.modHalf h f).half h = f (d.half h) := mget_mset_same _ hd h _

theorem Device.half_modHalf_other (d : Device) {h j : Nat} (hj : j ≠ h) (f : HalfState → HalfState) : (d.modHalf h f).half j = d.half j :=
  mget_mset_other _ _ hj _

theorem Device.port_modPort_same (d : Device) (hd : KeysRise 0 d.fab.ports = true) (p : Nat) (f : Port → Port) :
    (d.modPort p f).port p = f (d.port p) := mget_mset_same _ hd p _

theorem Device.port_modPort_other (d : Device) {p j : Nat} (h : j ≠ p) (f : Port → Port) : (d.modPort p f).port j = d.port j :=
  mget_mset_other _ _ h _

/-! ### Meanings -/

theorem State.run_awake (f : Device → Device) (s : State) (h : s.dev.awake = true) :
    s.run f = .next { dev := f s.dev, pending := s.pending } := by
  simp [State.run, State.always, h]

theorem State.run_inert (f : Device → Device) (s : State) (h : s.dev.awake = false) : s.run f = .next s := by
  simp [State.run, State.always, h]

theorem State.run_pending {f : Device → Device} {s t : State} (h : s.run f = .next t) : t.pending = s.pending := by
  simp only [State.run, State.always, Host.Outcome.next.injEq] at h
  rw [← h]

theorem State.always_pending {f : Device → Device} {s t : State} (h : s.always f = .next t) : t.pending = s.pending := by
  simp only [State.always, Host.Outcome.next.injEq] at h
  rw [← h]

theorem State.onClock_run (f : Device → Device) (s : State) (h : s.dev.clocked = true) : s.onClock f = s.run f := by
  have ha : s.dev.awake = true := by simp only [Device.clocked, Bool.and_eq_true] at h; exact h.1
  unfold State.onClock State.run State.always; simp [h, ha]

theorem State.inTower_run (f : Device → Device) (s : State) (h : s.dev.towersRun = true) : s.inTower f = s.run f := by
  have ha : s.dev.awake = true := by simp only [Device.towersRun, Device.clocked, Bool.and_eq_true] at h; exact h.1.1
  unfold State.inTower State.run State.always; simp [h, ha]

theorem Device.onlyIf_ok {b : Bool} (f : Device → Device) (d : Device) (h : b = true) : Device.onlyIf b f d = f d := by
  simp [Device.onlyIf, h]

end Sys2Proof.Machine
end

