-- ==== Sys2Proof/Laws/KeepsBase.lean ====
section
/-! SUPPORT. What no operation of the part's logic breaks: the maps and the memories stay formed, the fuses only blow, and power and reset
stay as they are. One lemma per operation, for chains of operations from one device. -/
namespace Sys2Proof.Machine

open Sys2Proof

/-- Device.formed, by its parts. -/
structure Formed (d : Device) : Prop where
  steps : KeysRise 0 d.fuses.steps = true
  regs : KeysRise 0 d.regs = true
  cores : KeysRise 0 d.cores = true
  sites : KeysRise 0 d.sites = true
  towers : KeysRise 0 d.towers = true
  halves : KeysRise 0 d.halves = true
  ports : KeysRise 0 d.fab.ports = true
  mem : d.mem.wf = true
  hostMem : d.hostMem.wf = true
  flash : d.flash.wf = true

theorem formed_iff (d : Device) : d.formed = true ↔ Formed d := by
  constructor
  · intro h
    simp only [Device.formed, Bool.and_eq_true] at h
    obtain ⟨⟨⟨⟨⟨⟨⟨⟨⟨a, b⟩, c⟩, e⟩, f⟩, g⟩, i⟩, j⟩, k⟩, l⟩ := h
    exact ⟨a, b, c, e, f, g, i, j, k, l⟩
  · intro k
    simp [Device.formed, k.steps, k.regs, k.cores, k.sites, k.towers, k.halves, k.ports, k.mem, k.hostMem, k.flash]

/-- No fuse but those of the rollback steps differs, and each that was blown is blown. -/
structure FusesFrom (a b : Fuses) : Prop where
  same : b = { a with steps := b.steps }
  blown : ∀ i, mget 0 b.steps i &&& mget 0 a.steps i = mget 0 a.steps i

theorem FusesFrom.refl (a : Fuses) : FusesFrom a a := ⟨rfl, fun _ => BitVec.and_self⟩

theorem FusesFrom.trans {a b c : Fuses} (h : FusesFrom a b) (k : FusesFrom b c) : FusesFrom a c := by
  refine ⟨?_, fun i => ?_⟩
  · rw [k.same, h.same]
  · rw [← h.blown i, ← BitVec.and_assoc, k.blown i]

/-- What an operation of the part's logic keeps. The four marks say whether it may touch a memory, a core, a column site and a
register; what it may not touch is as it was. -/
structure Keeps (m c s r : Bool) (d e : Device) : Prop where
  formed : Formed d → Formed e
  fuses : Formed d → FusesFrom d.fuses e.fuses
  powered : e.pins.powered = d.pins.powered
  inReset : e.pins.inReset = d.pins.inReset
  memory : m = false → e.mem = d.mem ∧ e.hostMem = d.hostMem ∧ e.flash = d.flash
  cores : c = false → e.cores = d.cores
  sites : s = false → e.sites = d.sites
  regs : r = false → e.regs = d.regs

section

variable {m c s r : Bool} {d0 : Device}

theorem Keeps.refl (d : Device) : Keeps m c s r d d :=
  ⟨id, fun _ => .refl _, rfl, rfl, fun _ => ⟨rfl, rfl, rfl⟩, fun _ => rfl, fun _ => rfl, fun _ => rfl⟩

theorem Keeps.trans {a b e : Device} (h : Keeps m c s r a b) (k : Keeps m c s r b e) : Keeps m c s r a e :=
  ⟨fun x => k.formed (h.formed x), fun x => (h.fuses x).trans (k.fuses (h.formed x)), k.powered.trans h.powered,
    k.inReset.trans h.inReset,
    fun x => ⟨(k.memory x).1.trans (h.memory x).1, (k.memory x).2.1.trans (h.memory x).2.1, (k.memory x).2.2.trans (h.memory x).2.2⟩,
    fun x => (k.cores x).trans (h.cores x), fun x => (k.sites x).trans (h.sites x), fun x => (k.regs x).trans (h.regs x)⟩

/-- A change of fields that no mark and no invariant speaks of. -/
theorem keeps_upd {d : Device} (now take clap cont mods fab host mbx lpd mgmt thm pins start sec tst retire kept out freeCtr accesses accessNext blocked wanted cycle)
    (towers : SMap Tower) (halves : SMap HalfState)
    (h : Keeps m c s r d0 d) (hp : pins.powered = d.pins.powered) (hr : pins.inReset = d.pins.inReset)
    (hf : KeysRise 0 d.fab.ports = true → KeysRise 0 fab.ports = true) (ht : KeysRise 0 d.towers = true → KeysRise 0 towers = true)
    (hh : KeysRise 0 d.halves = true → KeysRise 0 halves = true) :
    Keeps m c s r d0 (Device.mk d.fuses now d.regs d.mem d.hostMem d.flash d.cores d.sites towers halves take clap cont mods fab host mbx
      lpd mgmt thm pins start sec tst retire kept out freeCtr accesses accessNext blocked wanted cycle) :=
  h.trans ⟨fun k => ⟨k.steps, k.regs, k.cores, k.sites, ht k.towers, hh k.halves, hf k.ports, k.mem, k.hostMem, k.flash⟩, fun _ => .refl _, hp, hr, fun _ => ⟨rfl, rfl, rfl⟩,
    fun _ => rfl, fun _ => rfl, fun _ => rfl⟩

theorem keeps_regs {d : Device} (x : SMap W64) (h : Keeps m c s true d0 d) (hx : KeysRise 0 d.regs = true → KeysRise 0 x = true) :
    Keeps m c s true d0 { d with regs := x } :=
  h.trans ⟨fun k => ⟨k.steps, hx k.regs, k.cores, k.sites, k.towers, k.halves, k.ports, k.mem, k.hostMem, k.flash⟩, fun _ => .refl _, rfl, rfl, fun _ => ⟨rfl, rfl, rfl⟩, fun _ => rfl, fun _ => rfl, nofun⟩

theorem keeps_cores {d : Device} (x : SMap Core) (h : Keeps m true s r d0 d) (hx : KeysRise 0 d.cores = true → KeysRise 0 x = true) :
    Keeps m true s r d0 { d with cores := x } :=
  h.trans ⟨fun k => ⟨k.steps, k.regs, hx k.cores, k.sites, k.towers, k.halves, k.ports, k.mem, k.hostMem, k.flash⟩, fun _ => .refl _, rfl, rfl, fun _ => ⟨rfl, rfl, rfl⟩, nofun, fun _ => rfl, fun _ => rfl⟩

theorem keeps_sites {d : Device} (x : SMap Site) (h : Keeps m c true r d0 d) (hx : KeysRise 0 d.sites = true → KeysRise 0 x = true) :
    Keeps m c true r d0 { d with sites := x } :=
  h.trans ⟨fun k => ⟨k.steps, k.regs, k.cores, hx k.sites, k.towers, k.halves, k.ports, k.mem, k.hostMem, k.flash⟩, fun _ => .refl _, rfl, rfl, fun _ => ⟨rfl, rfl, rfl⟩, fun _ => rfl, nofun, fun _ => rfl⟩

theorem keeps_mem {d : Device} (x : Memory) (h : Keeps true c s r d0 d) (hm : d.mem.wf = true → x.wf = true) :
    Keeps true c s r d0 { d with mem := x } :=
  h.trans ⟨fun k => ⟨k.steps, k.regs, k.cores, k.sites, k.towers, k.halves, k.ports, hm k.mem, k.hostMem, k.flash⟩, fun _ => .refl _, rfl, rfl, nofun, fun _ => rfl, fun _ => rfl, fun _ => rfl⟩

theorem keeps_hostMem {d : Device} (x : Memory) (h : Keeps true c s r d0 d) (hm : d.hostMem.wf = true → x.wf = true) :
    Keeps true c s r d0 { d with hostMem := x } :=
  h.trans ⟨fun k => ⟨k.steps, k.regs, k.cores, k.sites, k.towers, k.halves, k.ports, k.mem, hm k.hostMem, k.flash⟩, fun _ => .refl _, rfl, rfl, nofun, fun _ => rfl, fun _ => rfl, fun _ => rfl⟩

theorem keeps_flash {d : Device} (x : Memory) (h : Keeps true c s r d0 d) (hm : d.flash.wf = true → x.wf = true) :
    Keeps true c s r d0 { d with flash := x } :=
  h.trans ⟨fun k => ⟨k.steps, k.regs, k.cores, k.sites, k.towers, k.halves, k.ports, k.mem, k.hostMem, hm k.flash⟩, fun _ => .refl _, rfl, rfl, nofun, fun _ => rfl, fun _ => rfl, fun _ => rfl⟩

theorem keeps_ite {a b : Device} {p : Prop} [Decidable p] (ha : Keeps m c s r d0 a) (hb : Keeps m c s r d0 b) : Keeps m c s r d0 (if p then a else b) := by
  split <;> assumption

theorem keeps_foldl {α : Type} (f : Device → α → Device) (l : List α) (d : Device) (h : Keeps m c s r d0 d)
    (hf : ∀ a x, Keeps m c s r d0 a → Keeps m c s r d0 (f a x)) : Keeps m c s r d0 (l.foldl f d) := by
  induction l generalizing d with
  | nil => exact h
  | cons x r ih => exact ih _ (hf _ _ h)

theorem keeps_foldl_fst {α β : Type} (f : Device × β → α → Device × β) (l : List α) (p : Device × β) (h : Keeps m c s r d0 p.1)
    (hf : ∀ a x, Keeps m c s r d0 a.1 → Keeps m c s r d0 (f a x).1) : Keeps m c s r d0 (l.foldl f p).1 := by
  induction l generalizing p with
  | nil => exact h
  | cons x r ih => exact ih _ (hf _ _ h)

theorem keeps_foldl_snd {α β : Type} (f : β × Device → α → β × Device) (l : List α) (p : β × Device) (h : Keeps m c s r d0 p.2)
    (hf : ∀ a x, Keeps m c s r d0 a.2 → Keeps m c s r d0 (f a x).2) : Keeps m c s r d0 (l.foldl f p).2 := by
  induction l generalizing p with
  | nil => exact h
  | cons x r ih => exact ih _ (hf _ _ h)

theorem keeps_fold {α β : Type} (g : β → Device) (f : β → α → β) (l : List α) (b : β) (h : Keeps m c s r d0 (g b))
    (hf : ∀ a x, Keeps m c s r d0 (g a) → Keeps m c s r d0 (g (f a x))) : Keeps m c s r d0 (g (l.foldl f b)) := by
  induction l generalizing b with
  | nil => exact h
  | cons x r ih => exact ih _ (hf _ _ h)

theorem MapOk.filter {α : Type} [DecidableEq α] {d : α} {lo : Nat} {m : SMap α} (hm : MapOk d lo m = true) (p : Nat × α → Bool) :
    MapOk d lo (m.filter p) = true := by
  induction m generalizing lo with
  | nil => rfl
  | cons a r ih =>
    obtain ⟨k, v⟩ := a
    simp only [MapOk, Bool.and_eq_true, decide_eq_true_eq] at hm
    rw [List.filter_cons]
    split
    · simp only [MapOk, Bool.and_eq_true, decide_eq_true_eq]; exact ⟨hm.1, ih hm.2⟩
    · exact MapOk.mono (by omega) (ih hm.2)

theorem Memory.wf_filter {x : Memory} (h : x.wf = true) (p : Nat × Byte → Bool) (q : Nat × BitVec 16 → Bool) :
    ({ bytes := x.bytes.filter p, syn := x.syn.filter q } : Memory).wf = true := by
  rw [Memory.wf_iff] at h ⊢
  exact ⟨MapOk.filter h.1 _, MapOk.filter h.2 _⟩

theorem KeysRise.map_snd {α : Type} {lo : Nat} {m : SMap α} (hm : KeysRise lo m = true) (f : Nat × α → α) :
    KeysRise lo (m.map fun p => (p.1, f p)) = true := by
  induction m generalizing lo with
  | nil => rfl
  | cons a r ih =>
    obtain ⟨k, v⟩ := a
    rw [KeysRise.cons_iff] at hm
    rw [List.map_cons, KeysRise.cons_iff]
    exact ⟨hm.1, ih hm.2⟩

theorem keeps_pick {β : Type} (g : β → Device) {a b : β} {p : Prop} [Decidable p] (ha : Keeps m c s r d0 (g a)) (hb : Keeps m c s r d0 (g b)) :
    Keeps m c s r d0 (g (if p then a else b)) := by
  split <;> assumption

theorem keeps_getD {t : Bool} {o : Option Device} {a : Device} (ho : ∀ r, o = some r → Keeps m c s t d0 r) (ha : Keeps m c s t d0 a) :
    Keeps m c s t d0 (o.getD a) := by
  cases o with
  | none => exact ha
  | some r => exact ho r rfl

/-- Bytes and syndromes of device memory struck from its lists. -/
theorem keeps_struck {d : Device} (p : Nat × Byte → Bool) (q : Nat × BitVec 16 → Bool) (x : Retire) (h : Keeps true c s r d0 d) :
    Keeps true c s r d0 (Device.mk d.fuses d.now d.regs { bytes := d.mem.bytes.filter p, syn := d.mem.syn.filter q } d.hostMem d.flash d.cores d.sites d.towers d.halves d.take d.clap d.cont d.mods d.fab d.host d.mbx d.lpd d.mgmt d.thm d.pins d.start d.sec d.tst x d.kept d.out d.freeCtr d.accesses d.accessNext d.blocked d.wanted d.cycle) :=
  h.trans ⟨fun k => ⟨k.steps, k.regs, k.cores, k.sites, k.towers, k.halves, k.ports, Memory.wf_filter k.mem _ _, k.hostMem, k.flash⟩, fun _ => .refl _, rfl, rfl, nofun, fun _ => rfl, fun _ => rfl, fun _ => rfl⟩

end

section

variable {m c s r : Bool} {d0 : Device}

/-- A change of fields that leaves the pins' power and reset, and the maps of towers, halves and ports, as they were. -/
theorem keeps_fields {d : Device} {now take clap cont mods fab host mbx lpd mgmt thm pins start sec tst retire kept out freeCtr accesses accessNext blocked wanted cycle}
    {towers : SMap Tower} {halves : SMap HalfState} (h : Keeps m c s r d0 d) (hp : pins.powered = d.pins.powered := by rfl)
    (hr : pins.inReset = d.pins.inReset := by rfl) (hf : fab.ports = d.fab.ports := by rfl) (ht : towers = d.towers := by rfl)
    (hh : halves = d.halves := by rfl) :
    Keeps m c s r d0 (Device.mk d.fuses now d.regs d.mem d.hostMem d.flash d.cores d.sites towers halves take clap cont mods fab host mbx
      lpd mgmt thm pins start sec tst retire kept out freeCtr accesses accessNext blocked wanted cycle) :=
  keeps_upd _ _ _ _ _ _ _ _ _ _ _ _ _ _ _ _ _ _ _ _ _ _ _ _ _ _ h hp hr (hf ▸ id) (ht ▸ id) (hh ▸ id)

end

end Sys2Proof.Machine
end

