-- ==== Sys2Proof/Laws/KeepsCore.lean ====
section
/-! SUPPORT. What no operation breaks: the operations of registers, logs and faults, channels and networks, the cue engine and the units of a core. -/
namespace Sys2Proof.Machine

open Sys2Proof

set_option Elab.async false
set_option linter.unreachableTactic false
set_option linter.unusedTactic false

variable {bm bc bs br : Bool} {d0 : Device}

theorem Device.setReg_keeps : ∀ a0 a1 a2, Keeps bm bc bs true d0 a0 → Keeps bm bc bs true d0 (@Device.setReg a0 a1 a2) := by
  intros; rename_i h; exact keeps_regs _ h fun k => KeysRise.mset _ k (Nat.zero_le _) _

theorem Device.setField_keeps : ∀ a0 a1 a2 a3 a4, Keeps bm bc bs true d0 a0 → Keeps bm bc bs true d0 (@Device.setField a0 a1 a2 a3 a4) := by
  intros; unfold Device.setField; try dsimp only
  repeat' first | intro _ | with_reducible assumption | with_reducible apply Device.setReg_keeps | dsimp only | split

theorem Device.noteBit_keeps : ∀ a0 a1 a2, Keeps bm bc bs br d0 a0 → Keeps bm bc bs br d0 ((@Device.noteBit a0 a1 a2)) := by
  intros; unfold Device.noteBit; try dsimp only
  repeat' first
      | intro _ | with_reducible assumption | with_reducible apply keeps_ite | dsimp only | split
      | (fail_if_no_progress with_reducible refine keeps_fields ?_)

theorem Device.setBit_keeps : ∀ a0 a1 a2, Keeps bm bc bs true d0 a0 → Keeps bm bc bs true d0 ((@Device.setBit a0 a1 a2)) := by
  intros; unfold Device.setBit; try dsimp only
  repeat' first
      | intro _ | with_reducible assumption | with_reducible apply Device.setField_keeps
      | with_reducible apply Device.noteBit_keeps | with_reducible apply keeps_ite | dsimp only | split
      | (fail_if_no_progress with_reducible refine keeps_fields ?_)

theorem Device.noteCount_keeps : ∀ a0 a1 a2, Keeps bm bc bs br d0 a0 → Keeps bm bc bs br d0 ((@Device.noteCount a0 a1 a2)) := by
  intros; unfold Device.noteCount; try dsimp only
  repeat' first
      | intro _ | with_reducible assumption | with_reducible apply keeps_ite | dsimp only | split
      | (fail_if_no_progress with_reducible refine keeps_fields ?_)

theorem Device.count_keeps : ∀ a0 a1 a2, Keeps bm bc bs true d0 a0 → Keeps bm bc bs true d0 ((@Device.count a0 a1 a2)) := by
  intros; unfold Device.count; try dsimp only
  repeat' first
      | intro _ | with_reducible assumption | with_reducible apply Device.setField_keeps
      | with_reducible apply Device.noteCount_keeps | with_reducible apply keeps_ite | dsimp only | split
      | (fail_if_no_progress with_reducible refine keeps_fields ?_)

theorem Device.onlyIf_keeps : ∀ a0 a1 a2, (∀ y0, Keeps bm bc bs br d0 y0 → Keeps bm bc bs br d0 ((a1 y0))) → Keeps bm bc bs br d0 a2 → Keeps bm bc bs br d0 ((@Device.onlyIf a0 a1 a2)) := by
  intros; unfold Device.onlyIf; try dsimp only
  repeat' first
      | intro _ | with_reducible assumption | with_reducible apply_assumption | with_reducible apply keeps_ite
      | dsimp only | split | (fail_if_no_progress with_reducible refine keeps_fields ?_)

theorem Device.idle_keeps : ∀ a0, Keeps bm bc bs br d0 a0 → Keeps bm bc bs br d0 ((@Device.idle a0)) := by
  intros; unfold Device.idle; try dsimp only
  repeat' first
      | intro _ | with_reducible assumption | with_reducible apply keeps_ite | dsimp only | split
      | (fail_if_no_progress with_reducible refine keeps_fields ?_)

theorem Device.whole_keeps : ∀ a0 a1, (∀ y0, Keeps bm bc bs br d0 y0 → Keeps bm bc bs br d0 ((a0 y0))) → Keeps bm bc bs br d0 a1 → Keeps bm bc bs br d0 ((@Device.whole a0 a1)) := by
  intros; unfold Device.whole; try dsimp only
  repeat' first
      | intro _ | with_reducible assumption | with_reducible apply_assumption | with_reducible apply keeps_ite
      | dsimp only | split | (fail_if_no_progress with_reducible refine keeps_fields ?_)

theorem Device.each_keeps : ∀ a0 a1 a2 a3, (∀ y0 y1, Keeps bm bc bs br d0 y1 → Keeps bm bc bs br d0 (a2 y0 y1)) → Keeps bm bc bs br d0 a3 → Keeps bm bc bs br d0 (@Device.each a0 a1 a2 a3) := by
  intros; unfold Device.each; try dsimp only
  repeat' first
      | intro _ | with_reducible assumption | with_reducible apply_assumption | with_reducible refine keeps_foldl _ _ _ ?_ ?_
      | with_reducible refine keeps_foldl_fst _ _ _ ?_ ?_ | with_reducible refine keeps_foldl_snd _ _ _ ?_ ?_ | dsimp only
      | split

theorem Device.setCore_keeps : ∀ a0 a1 a2, Keeps bm true bs br d0 a0 → Keeps bm true bs br d0 (@Device.setCore a0 a1 a2) := by
  intros; rename_i h; exact keeps_cores _ h fun k => KeysRise.mset _ k (Nat.zero_le _) _

theorem Device.modCore_keeps : ∀ a0 a1 a2, Keeps bm true bs br d0 a0 → Keeps bm true bs br d0 (@Device.modCore a0 a1 a2) := by
  intros; unfold Device.modCore; try dsimp only
  repeat' first | intro _ | with_reducible assumption | with_reducible apply Device.setCore_keeps | dsimp only | split

theorem Device.modSite_keeps : ∀ a0 a1 a2, Keeps bm bc true br d0 a0 → Keeps bm bc true br d0 (@Device.modSite a0 a1 a2) := by
  intros; rename_i h; exact keeps_sites _ h fun k => KeysRise.mset _ k (Nat.zero_le _) _

theorem Device.modChan_keeps : ∀ a0 a1 a2 a3, Keeps bm bc true br d0 a0 → Keeps bm bc true br d0 (@Device.modChan a0 a1 a2 a3) := by
  intros; unfold Device.modChan; try dsimp only
  repeat' first | intro _ | with_reducible assumption | with_reducible apply Device.modSite_keeps | dsimp only | split

theorem Device.modTower_keeps : ∀ a0 a1 a2, Keeps bm bc bs br d0 a0 → Keeps bm bc bs br d0 (@Device.modTower a0 a1 a2) := by
  intros; rename_i h; exact keeps_upd _ _ _ _ _ _ _ _ _ _ _ _ _ _ _ _ _ _ _ _ _ _ _ _ _ _ h rfl rfl (fun k => k) (fun k => KeysRise.mset _ k (Nat.zero_le _) _) (fun k => k)

theorem Device.modHalf_keeps : ∀ a0 a1 a2, Keeps bm bc bs br d0 a0 → Keeps bm bc bs br d0 (@Device.modHalf a0 a1 a2) := by
  intros; rename_i h; exact keeps_upd _ _ _ _ _ _ _ _ _ _ _ _ _ _ _ _ _ _ _ _ _ _ _ _ _ _ h rfl rfl (fun k => k) (fun k => k) (fun k => KeysRise.mset _ k (Nat.zero_le _) _)

theorem Device.modPort_keeps : ∀ a0 a1 a2, Keeps bm bc bs br d0 a0 → Keeps bm bc bs br d0 (@Device.modPort a0 a1 a2) := by
  intros; rename_i h; exact keeps_upd _ _ _ _ _ _ _ _ _ _ _ _ _ _ _ _ _ _ _ _ _ _ _ _ _ _ h rfl rfl (fun k => KeysRise.mset _ k (Nat.zero_le _) _) (fun k => k) (fun k => k)

theorem Device.modTake_keeps : ∀ a0 a1, Keeps bm bc bs br d0 a0 → Keeps bm bc bs br d0 (@Device.modTake a0 a1) := by
  intros; unfold Device.modTake; try dsimp only
  repeat' first | intro _ | with_reducible assumption | dsimp only | split | (with_reducible refine keeps_fields ?_)

theorem Device.emit_keeps : ∀ a0 a1, Keeps bm bc bs br d0 a0 → Keeps bm bc bs br d0 (@Device.emit a0 a1) := by
  intros; unfold Device.emit; try dsimp only
  repeat' first | intro _ | with_reducible assumption | dsimp only | split | (with_reducible refine keeps_fields ?_)

theorem Device.draw_keeps : ∀ a0, Keeps bm bc bs br d0 a0 → Keeps bm bc bs br d0 ((@Device.draw a0)).2 := by
  intros; unfold Device.draw; try dsimp only
  repeat' first | intro _ | with_reducible assumption | dsimp only | split | (with_reducible refine keeps_fields ?_)

theorem Device.drawBytes_keeps : ∀ a0 a1, Keeps bm bc bs br d0 a0 → Keeps bm bc bs br d0 ((@Device.drawBytes a0 a1)).2 := by
  intros; unfold Device.drawBytes; try dsimp only
  repeat' first | intro _ | with_reducible assumption | dsimp only | split | (with_reducible refine keeps_fields ?_)

theorem Device.raiseVector_keeps : ∀ a0 a1, Keeps bm bc bs br d0 a0 → Keeps bm bc bs br d0 (@Device.raiseVector a0 a1) := by
  intros; unfold Device.raiseVector; try dsimp only
  repeat' first
      | intro _ | with_reducible assumption | with_reducible apply Device.emit_keeps | with_reducible apply keeps_ite
      | dsimp only | split | (with_reducible refine keeps_fields ?_)

theorem Device.event_keeps : ∀ a0 a1, Keeps bm bc bs true d0 a0 → Keeps bm bc bs true d0 (@Device.event a0 a1) := by
  intros; unfold Device.event; try dsimp only
  repeat' first
      | intro _ | with_reducible assumption | with_reducible apply Device.setBit_keeps
      | with_reducible apply Device.raiseVector_keeps | with_reducible apply keeps_ite | dsimp only | split

theorem Device.sendPending_keeps : ∀ a0, Keeps bm bc bs br d0 a0 → Keeps bm bc bs br d0 (@Device.sendPending a0) := by
  intros; unfold Device.sendPending; try dsimp only
  repeat' first
      | intro _ | with_reducible assumption | with_reducible apply Device.each_keeps | with_reducible apply Device.emit_keeps
      | with_reducible apply keeps_ite | dsimp only | split | (with_reducible refine keeps_fields ?_)

theorem Device.setLog_keeps : ∀ a0 a1 a2, Keeps bm bc bs br d0 a0 → Keeps bm bc bs br d0 (@Device.setLog a0 a1 a2) := by
  intros; unfold Device.setLog; try dsimp only
  repeat' first
      | intro _ | with_reducible assumption | with_reducible apply Device.modTower_keeps
      | with_reducible apply Device.modHalf_keeps | with_reducible apply keeps_ite | dsimp only | split

theorem Device.log_keeps : ∀ a0 a1 a2 a3 a4 a5 a6, Keeps bm bc bs true d0 a0 → Keeps bm bc bs true d0 (@Device.log a0 a1 a2 a3 a4 a5 a6) := by
  intros; unfold Device.log; try dsimp only
  repeat' first
      | intro _ | with_reducible assumption | with_reducible apply Device.event_keeps
      | with_reducible apply Device.setLog_keeps | with_reducible apply Device.count_keeps
      | with_reducible apply Device.setBit_keeps | dsimp only | split

theorem Device.rampStop_keeps : ∀ a0 a1, Keeps bm true bs true d0 a1 → Keeps bm true bs true d0 ((@Device.rampStop a0 a1)) := by
  intros; unfold Device.rampStop; try dsimp only
  repeat' first
      | intro _ | with_reducible assumption | with_reducible apply Device.count_keeps
      | with_reducible apply Device.modCore_keeps | with_reducible apply keeps_ite | dsimp only | split
      | (fail_if_no_progress with_reducible refine keeps_fields ?_)

theorem Device.stopCore_keeps : ∀ a0 a1, Keeps bm true bs true d0 a1 → Keeps bm true bs true d0 ((@Device.stopCore a0 a1)) := by
  intros; unfold Device.stopCore; try dsimp only
  repeat' first
      | intro _ | with_reducible assumption | with_reducible apply Device.rampStop_keeps
      | with_reducible apply Device.modCore_keeps | with_reducible apply keeps_ite | dsimp only | split
      | (fail_if_no_progress with_reducible refine keeps_fields ?_)

theorem Device.mbxEnd_keeps : ∀ a0 a1, Keeps bm bc bs br d0 a0 → Keeps bm bc bs br d0 (@Device.mbxEnd a0 a1) := by
  intros; unfold Device.mbxEnd; try dsimp only
  repeat' first | intro _ | with_reducible assumption | dsimp only | split | (with_reducible refine keeps_fields ?_)

theorem Device.mbxEndOf_keeps : ∀ a0 a1 a2, Keeps bm bc bs br d0 a0 → Keeps bm bc bs br d0 (@Device.mbxEndOf a0 a1 a2) := by
  intros; unfold Device.mbxEndOf; try dsimp only
  repeat' first
      | intro _ | with_reducible assumption | with_reducible apply Device.mbxEnd_keeps | with_reducible apply keeps_ite
      | dsimp only | split

theorem Device.abortCommand_keeps : ∀ a0, Keeps bm bc bs br d0 a0 → Keeps bm bc bs br d0 (@Device.abortCommand a0) := by
  intros; unfold Device.abortCommand; try dsimp only
  repeat' first
      | intro _ | with_reducible assumption | with_reducible apply keeps_ite | dsimp only | split
      | (with_reducible refine keeps_fields ?_)

theorem Device.beginAbort_keeps : ∀ a0, Keeps bm true bs true d0 a0 → Keeps bm true bs true d0 ((@Device.beginAbort a0)) := by
  intros; unfold Device.beginAbort; try dsimp only
  repeat' first
      | intro _ | with_reducible assumption | with_reducible apply Device.stopCore_keeps
      | with_reducible apply Device.each_keeps | with_reducible apply Device.abortCommand_keeps
      | with_reducible apply Device.modTake_keeps | with_reducible apply keeps_ite | dsimp only | split
      | (fail_if_no_progress with_reducible refine keeps_fields ?_)

theorem Device.faultEntry_keeps : ∀ a0 a1 a2 a3 a4 a5, Keeps bm bc bs true d0 a0 → Keeps bm bc bs true d0 (@Device.faultEntry a0 a1 a2 a3 a4 a5) := by
  intros; unfold Device.faultEntry; try dsimp only
  repeat' first
      | intro _ | with_reducible assumption
      | with_reducible apply Device.log_keeps
      | dsimp only | split

theorem Device.setFault_keeps : ∀ a0 a1 a2 a3 a4 a5 a6, Keeps bm bc bs true d0 a0 → Keeps bm bc bs true d0 ((@Device.setFault a0 a1 a2 a3 a4 a5 a6)) := by
  intros; unfold Device.setFault; try dsimp only
  repeat' first
      | intro _ | with_reducible assumption | with_reducible apply Device.setReg_keeps
      | with_reducible apply Device.noteBit_keeps | with_reducible apply keeps_ite | dsimp only | split
      | (fail_if_no_progress with_reducible refine keeps_fields ?_)

theorem Device.recordFault_keeps : ∀ a0 a1 a2 a3 a4 a5 a6, Keeps bm bc bs true d0 a0 → Keeps bm bc bs true d0 ((@Device.recordFault a0 a1 a2 a3 a4 a5 a6)) := by
  intros; unfold Device.recordFault; try dsimp only
  repeat' first
      | intro _ | with_reducible assumption | with_reducible apply Device.setFault_keeps
      | with_reducible apply Device.faultEntry_keeps | with_reducible apply keeps_ite | dsimp only | split
      | (fail_if_no_progress with_reducible refine keeps_fields ?_)

theorem Device.moreFault_keeps : ∀ a0 a1 a2 a3 a4 a5, Keeps bm bc bs true d0 a0 → Keeps bm bc bs true d0 (@Device.moreFault a0 a1 a2 a3 a4 a5) := by
  intros; unfold Device.moreFault; try dsimp only
  repeat' first
      | intro _ | with_reducible assumption
      | with_reducible apply Device.count_keeps
      | with_reducible apply Device.faultEntry_keeps
      | with_reducible apply keeps_ite
      | dsimp only | split

theorem Device.noteFault_keeps : ∀ a0 a1 a2 a3 a4, Keeps bm bc bs true d0 a0 → Keeps bm bc bs true d0 ((@Device.noteFault a0 a1 a2 a3 a4)) := by
  intros; unfold Device.noteFault; try dsimp only
  repeat' first
      | intro _ | with_reducible assumption | with_reducible apply keeps_ite | dsimp only | split
      | (fail_if_no_progress with_reducible refine keeps_fields ?_)

theorem Device.undoEntry_keeps : ∀ a0 a1, Keeps bm bc bs br d0 a0 → Keeps bm bc bs br d0 ((@Device.undoEntry a0 a1)) := by
  intros; unfold Device.undoEntry; try dsimp only
  repeat' first
      | intro _ | with_reducible assumption | with_reducible apply Device.setLog_keeps
      | with_reducible apply keeps_ite | dsimp only | split
      | (fail_if_no_progress with_reducible refine keeps_fields ?_)

theorem Device.dropFaults_keeps : ∀ a0, Keeps bm bc bs true d0 a0 → Keeps bm bc bs true d0 ((@Device.dropFaults a0)) := by
  intros; unfold Device.dropFaults; try dsimp only
  repeat' first
      | intro _ | with_reducible assumption | with_reducible apply Device.each_keeps
      | with_reducible apply Device.setReg_keeps | with_reducible apply Device.undoEntry_keeps
      | with_reducible apply keeps_ite | dsimp only | split
      | (fail_if_no_progress with_reducible refine keeps_fields ?_)

theorem Device.outrank_keeps : ∀ a0 a1 a2 a3 a4 a5 a6 a7, Keeps bm bc bs true d0 a0 → Keeps bm bc bs true d0 ((@Device.outrank a0 a1 a2 a3 a4 a5 a6 a7)) := by
  intros; unfold Device.outrank; try dsimp only
  repeat' first
      | intro _ | with_reducible assumption | with_reducible apply Device.dropFaults_keeps
      | with_reducible apply Device.setField_keeps | with_reducible apply Device.count_keeps
      | with_reducible apply Device.setFault_keeps | with_reducible apply Device.setLog_keeps
      | with_reducible apply keeps_ite | dsimp only | split
      | (fail_if_no_progress with_reducible refine keeps_fields ?_)

theorem Device.joinLoss_keeps : ∀ a0 a1 a2 a3, Keeps bm bc bs true d0 a0 → Keeps bm bc bs true d0 ((@Device.joinLoss a0 a1 a2 a3)) := by
  intros; unfold Device.joinLoss; try dsimp only
  repeat' first
      | intro _ | with_reducible assumption | with_reducible apply Device.setField_keeps
      | with_reducible apply Device.setReg_keeps | with_reducible apply Device.setLog_keeps
      | with_reducible apply keeps_ite | dsimp only | split
      | (fail_if_no_progress with_reducible refine keeps_fields ?_)

theorem Device.enterFault_keeps : ∀ a0 a1 a2 a3 a4 a5 a6, Keeps bm bc bs true d0 a0 → Keeps bm bc bs true d0 ((@Device.enterFault a0 a1 a2 a3 a4 a5 a6)) := by
  intros; unfold Device.enterFault; try dsimp only
  repeat' first
      | intro _ | with_reducible assumption | with_reducible apply Device.noteFault_keeps
      | with_reducible apply Device.recordFault_keeps | with_reducible apply Device.moreFault_keeps
      | with_reducible apply Device.outrank_keeps | with_reducible apply Device.joinLoss_keeps
      | with_reducible apply keeps_ite | dsimp only | split
      | (fail_if_no_progress with_reducible refine keeps_fields ?_)

theorem Device.fault_keeps : ∀ a0 a1 a2 a3 a4 a5 a6, Keeps bm true bs true d0 a0 → Keeps bm true bs true d0 ((@Device.fault a0 a1 a2 a3 a4 a5 a6)) := by
  intros; unfold Device.fault; try dsimp only
  repeat' first
      | intro _ | with_reducible assumption | with_reducible apply Device.enterFault_keeps
      | with_reducible apply Device.beginAbort_keeps | with_reducible apply keeps_ite | dsimp only | split
      | (fail_if_no_progress with_reducible refine keeps_fields ?_)

theorem Device.fatal_keeps : ∀ a0 a1 a2, Keeps bm true bs true d0 a0 → Keeps bm true bs true d0 ((@Device.fatal a0 a1 a2)) := by
  intros; unfold Device.fatal; try dsimp only
  repeat' first
      | intro _ | with_reducible assumption | with_reducible apply Device.dropFaults_keeps
      | with_reducible apply Device.setField_keeps | with_reducible apply Device.log_keeps
      | with_reducible apply Device.event_keeps | with_reducible apply Device.beginAbort_keeps
      | with_reducible apply keeps_ite | dsimp only | split
      | (fail_if_no_progress with_reducible refine keeps_fields ?_)

theorem Device.degraded_keeps : ∀ a0 a1 a2 a3, Keeps bm bc bs true d0 a0 → Keeps bm bc bs true d0 (@Device.degraded a0 a1 a2 a3) := by
  intros; unfold Device.degraded; try dsimp only
  repeat' first
      | intro _ | with_reducible assumption | with_reducible apply Device.event_keeps | with_reducible apply Device.log_keeps
      | dsimp only | split

theorem Device.consume_keeps : ∀ a0 a1 a2 a3, Keeps bm true bs true d0 a0 → Keeps bm true bs true d0 (@Device.consume a0 a1 a2 a3) := by
  intros; unfold Device.consume; try dsimp only
  repeat' first
      | intro _ | with_reducible assumption | with_reducible apply Device.setBit_keeps | with_reducible apply Device.log_keeps
      | with_reducible apply Device.fault_keeps | dsimp only | split

theorem Device.addrError_keeps : ∀ a0 a1 a2, Keeps bm bc bs true d0 a0 → Keeps bm bc bs true d0 (@Device.addrError a0 a1 a2) := by
  intros; unfold Device.addrError; try dsimp only
  repeat' first
      | intro _ | with_reducible assumption | with_reducible apply Device.count_keeps | with_reducible apply Device.log_keeps
      | with_reducible apply Device.setBit_keeps | with_reducible apply keeps_ite | dsimp only | split

theorem Device.countCe_keeps : ∀ a0 a1, Keeps bm bc bs true d0 a1 → Keeps bm bc bs true d0 ((@Device.countCe a0 a1)) := by
  intros; unfold Device.countCe; try dsimp only
  repeat' first
      | intro _ | with_reducible assumption | with_reducible apply Device.setBit_keeps
      | with_reducible apply Device.count_keeps | with_reducible apply keeps_ite | dsimp only | split
      | (fail_if_no_progress with_reducible refine keeps_fields ?_)

theorem Device.countUe_keeps : ∀ a0 a1, Keeps bm bc bs true d0 a1 → Keeps bm bc bs true d0 ((@Device.countUe a0 a1)) := by
  intros; unfold Device.countUe; try dsimp only
  repeat' first
      | intro _ | with_reducible assumption | with_reducible apply Device.setBit_keeps
      | with_reducible apply Device.count_keeps | with_reducible apply keeps_ite | dsimp only | split
      | (fail_if_no_progress with_reducible refine keeps_fields ?_)

theorem Device.noteWord_keeps : ∀ a0 a1 a2 a3, Keeps bm bc bs true d0 a0 → Keeps bm bc bs true d0 ((@Device.noteWord a0 a1 a2 a3)) := by
  intros; unfold Device.noteWord; try dsimp only
  repeat' first
      | intro _ | with_reducible assumption | with_reducible apply Device.countCe_keeps
      | with_reducible apply Device.log_keeps | with_reducible apply Device.countUe_keeps
      | with_reducible apply Device.setBit_keeps | with_reducible apply Device.count_keeps
      | with_reducible apply keeps_ite | dsimp only | split
      | (fail_if_no_progress with_reducible refine keeps_fields ?_)

theorem Device.crossed_keeps : ∀ a0 a1 a2 a3 a4 a5 a6, Keeps bm bc bs true d0 a0 → Keeps bm bc bs true d0 (((@Device.crossed a0 a1 a2 a3 a4 a5 a6)).1) := by
  intros; unfold Device.crossed; try dsimp only
  repeat' first
      | intro _ | with_reducible assumption | with_reducible apply Device.countCe_keeps
      | with_reducible apply Device.log_keeps | with_reducible apply Device.countUe_keeps
      | with_reducible apply keeps_ite | with_reducible refine keeps_foldl _ _ _ ?_ ?_
      | with_reducible refine keeps_foldl_fst _ _ _ ?_ ?_ | with_reducible refine keeps_foldl_snd _ _ _ ?_ ?_
      | dsimp only | split | (fail_if_no_progress with_reducible refine keeps_fields ?_)

theorem Device.takeFlip_keeps : ∀ a0 a1 a2 a3, Keeps bm bc bs true d0 a0 → Keeps bm bc bs true d0 ((@Device.takeFlip a0 a1 a2 a3)).2 := by
  intros; unfold Device.takeFlip; try dsimp only
  repeat' first
      | intro _ | with_reducible assumption | with_reducible apply Device.setBit_keeps
      | with_reducible apply Device.setField_keeps | with_reducible apply keeps_ite | dsimp only | split

theorem Device.flipFor_keeps : ∀ a0 a1 a2, Keeps bm bc bs true d0 a0 → Keeps bm bc bs true d0 ((@Device.flipFor a0 a1 a2)).2 := by
  intros; unfold Device.flipFor; try dsimp only
  repeat' first
      | intro _ | with_reducible assumption | with_reducible apply Device.takeFlip_keeps | with_reducible apply keeps_ite
      | dsimp only | split

theorem Device.wireMask_keeps : ∀ a0 a1, Keeps bm bc bs br d0 a0 → Keeps bm bc bs br d0 ((@Device.wireMask a0 a1)).2 := by
  intros; unfold Device.wireMask; try dsimp only
  repeat' first | intro _ | with_reducible assumption | with_reducible apply Device.draw_keeps | dsimp only | split

theorem Device.cwHere_keeps : ∀ a0 a1, Keeps bm bc bs br d0 a0 → Keeps bm bc bs br d0 ((@Device.cwHere a0 a1)).1 := by
  intros; unfold Device.cwHere; try dsimp only
  repeat' first
      | intro _ | with_reducible assumption | with_reducible apply Device.wireMask_keeps
      | with_reducible apply Device.draw_keeps | dsimp only | split

theorem Device.dropBack_keeps : ∀ a0 a1, Keeps bm bc true br d0 a0 → Keeps bm bc true br d0 (@Device.dropBack a0 a1) := by
  intros; unfold Device.dropBack; try dsimp only
  repeat' first
      | intro _ | with_reducible assumption | with_reducible apply Device.modChan_keeps | with_reducible apply keeps_ite
      | dsimp only | split

theorem Device.storeCw_keeps : ∀ a0 a1 a2 a3 a4, Keeps true bc true true d0 a0 → Keeps true bc true true d0 (@Device.storeCw a0 a1 a2 a3 a4) := by
  intros; unfold Device.storeCw; dsimp only
  split
  · refine keeps_mem _ ?_ fun h => Memory.wf_writeCw h _ _ _ _
    exact Device.wireMask_keeps _ _ (Device.flipFor_keeps _ _ _ (Device.dropBack_keeps _ _ (by assumption)))
  · refine keeps_mem _ ?_ fun h => Memory.wf_putCw h _ _ _ _
    exact Device.wireMask_keeps _ _ (Device.flipFor_keeps _ _ _ (Device.dropBack_keeps _ _ (Device.noteWord_keeps _ _ _ _
      (Device.cwHere_keeps _ _ (by assumption)))))

theorem Device.setMerge_keeps : ∀ a0 a1 a2 a3, Keeps bm bc bs br d0 a0 → Keeps bm bc bs br d0 (@Device.setMerge a0 a1 a2 a3) := by
  intros; unfold Device.setMerge; try dsimp only
  repeat' first | intro _ | with_reducible assumption | with_reducible apply Device.modHalf_keeps | dsimp only | split

theorem Device.completeMerge_keeps : ∀ a0 a1 a2 a3, Keeps true bc true true d0 a0 → Keeps true bc true true d0 ((@Device.completeMerge a0 a1 a2 a3)) := by
  intros; unfold Device.completeMerge; try dsimp only
  repeat' first
      | intro _ | with_reducible assumption | with_reducible apply Device.setMerge_keeps
      | with_reducible apply Device.storeCw_keeps | with_reducible apply keeps_ite | dsimp only | split
      | (fail_if_no_progress with_reducible refine keeps_fields ?_)

theorem Device.mergeWrite_keeps : ∀ a0 a1 a2 a3 a4 a5, Keeps true bc true true d0 a0 → Keeps true bc true true d0 ((@Device.mergeWrite a0 a1 a2 a3 a4 a5)) := by
  intros; unfold Device.mergeWrite; try dsimp only
  repeat' first
      | intro _ | with_reducible assumption | with_reducible apply Device.setMerge_keeps
      | with_reducible apply Device.completeMerge_keeps | with_reducible apply keeps_ite | dsimp only | split
      | (fail_if_no_progress with_reducible refine keeps_fields ?_)

theorem Device.writeCw_keeps : ∀ a0 a1 a2 a3 a4, Keeps true bc true true d0 a0 → Keeps true bc true true d0 ((@Device.writeCw a0 a1 a2 a3 a4)) := by
  intros; unfold Device.writeCw; try dsimp only
  repeat' first
      | intro _ | with_reducible assumption | with_reducible apply Device.mergeWrite_keeps
      | with_reducible apply Device.completeMerge_keeps | with_reducible apply Device.storeCw_keeps
      | with_reducible apply keeps_ite | dsimp only | split
      | (fail_if_no_progress with_reducible refine keeps_fields ?_)

theorem Device.writeMem_keeps : ∀ a0 a1 a2 a3 a4, Keeps true bc true true d0 a0 → Keeps true bc true true d0 (@Device.writeMem a0 a1 a2 a3 a4) := by
  intros; unfold Device.writeMem; try dsimp only
  repeat' first
      | intro _ | with_reducible assumption | with_reducible apply Device.each_keeps
      | with_reducible apply Device.writeCw_keeps | dsimp only | split

theorem Device.readCw_keeps : ∀ a0 a1, Keeps true bc true true d0 a0 → Keeps true bc true true d0 ((@Device.readCw a0 a1)).1 := by
  intros; unfold Device.readCw; try dsimp only
  repeat' first
      | intro _ | with_reducible assumption | with_reducible apply Device.completeMerge_keeps
      | with_reducible apply Device.cwHere_keeps | with_reducible apply Device.noteWord_keeps | dsimp only | split

theorem Device.readMem_keeps : ∀ a0 a1 a2, Keeps true bc true true d0 a0 → Keeps true bc true true d0 ((@Device.readMem a0 a1 a2)).dev := by
  intros; unfold Device.readMem; try dsimp only
  repeat' first
      | intro _ | with_reducible assumption | with_reducible apply Device.readCw_keeps | with_reducible apply keeps_ite
      | with_reducible refine keeps_foldl _ _ _ ?_ ?_ | with_reducible refine keeps_foldl_fst _ _ _ ?_ ?_
      | with_reducible refine keeps_foldl_snd _ _ _ ?_ ?_ | dsimp only | split

theorem Device.wakeAt_keeps : ∀ a0 a1, Keeps bm bc bs true d0 a0 → Keeps bm bc bs true d0 ((@Device.wakeAt a0 a1)) := by
  intros; unfold Device.wakeAt; try dsimp only
  repeat' first
      | intro _ | with_reducible assumption | with_reducible apply Device.setField_keeps
      | with_reducible apply keeps_ite | dsimp only | split
      | (fail_if_no_progress with_reducible refine keeps_fields ?_)

theorem Device.wakeRun_keeps : ∀ a0 a1 a2, Keeps bm bc true true d0 a0 → Keeps bm bc true true d0 (@Device.wakeRun a0 a1 a2) := by
  intros; unfold Device.wakeRun; try dsimp only
  repeat' first
      | intro _ | with_reducible assumption | with_reducible apply Device.each_keeps | with_reducible apply Device.wakeAt_keeps
      | dsimp only | split

theorem Device.coreFlip_keeps : ∀ a0 a1 a2, Keeps bm bc bs true d0 a0 → Keeps bm bc bs true d0 ((@Device.coreFlip a0 a1 a2)).2 := by
  intros; unfold Device.coreFlip; try dsimp only
  repeat' first
      | intro _ | with_reducible assumption | with_reducible apply Device.takeFlip_keeps | with_reducible apply keeps_ite
      | dsimp only | split

theorem Device.noteCore_keeps : ∀ a0 a1 a2 a3 a4, Keeps bm bc bs true d0 a0 → Keeps bm bc bs true d0 ((@Device.noteCore a0 a1 a2 a3 a4)) := by
  intros; unfold Device.noteCore; try dsimp only
  repeat' first
      | intro _ | with_reducible assumption | with_reducible apply Device.countCe_keeps
      | with_reducible apply Device.log_keeps | with_reducible apply Device.countUe_keeps
      | with_reducible apply keeps_ite | dsimp only | split
      | (fail_if_no_progress with_reducible refine keeps_fields ?_)

theorem Device.readCore_keeps : ∀ a0 a1 a2 a3 a4 a5, Keeps bm bc bs true d0 a0 → Keeps bm bc bs true d0 ((@Device.readCore a0 a1 a2 a3 a4 a5)).dev := by
  intros; unfold Device.readCore; try dsimp only
  repeat' first
      | intro _ | with_reducible assumption | with_reducible apply Device.noteCore_keeps | with_reducible apply keeps_ite
      | with_reducible refine keeps_foldl _ _ _ ?_ ?_ | with_reducible refine keeps_foldl_fst _ _ _ ?_ ?_
      | with_reducible refine keeps_foldl_snd _ _ _ ?_ ?_ | dsimp only | split

theorem Device.writeCore_keeps : ∀ a0 a1 a2 a3 a4 a5 a6, Keeps bm true bs true d0 a0 → Keeps bm true bs true d0 (@Device.writeCore a0 a1 a2 a3 a4 a5 a6) := by
  intros; unfold Device.writeCore; try dsimp only
  repeat' first
      | intro _ | with_reducible assumption | with_reducible apply Device.each_keeps
      | with_reducible apply Device.noteCore_keeps | with_reducible apply Device.coreFlip_keeps
      | with_reducible apply Device.modCore_keeps | with_reducible apply keeps_ite | dsimp only | split

theorem Device.note_keeps : ∀ a0 a1 a2 a3, Keeps bm bc bs br d0 a0 → Keeps bm bc bs br d0 ((@Device.note a0 a1 a2 a3)) := by
  intros; unfold Device.note; try dsimp only
  repeat' first
      | intro _ | with_reducible assumption | with_reducible apply keeps_ite | dsimp only | split
      | (fail_if_no_progress with_reducible refine keeps_fields ?_)

theorem Device.pushReq_keeps : ∀ a0 a1 a2 a3 a4, Keeps bm bc true br d0 a0 → ∀ r, (@Device.pushReq a0 a1 a2 a3 a4) = some r → Keeps bm bc true br d0 (r) := by
  intro a0 a1 a2 a3 a4 h0 r hr; unfold Device.pushReq at hr; try dsimp only at hr
  repeat' first
      | cases hr | intro _ | with_reducible assumption | with_reducible apply Device.modSite_keeps
      | with_reducible apply Device.modChan_keeps
      | (rw [Option.map_eq_some_iff] at hr; obtain ⟨_, _, hr⟩ := hr; cases hr)
      | (rw [Option.bind_eq_some_iff] at hr; obtain ⟨_, _, hr⟩ := hr) | dsimp only at hr | split at hr
      | with_reducible apply keeps_ite | dsimp only | split
      | (fail_if_no_progress with_reducible refine keeps_fields ?_)

theorem Device.admitWaiting_keeps : ∀ a0 a1 a2, Keeps bm bc true br d0 a2 → Keeps bm bc true br d0 (@Device.admitWaiting a0 a1 a2) := by
  intros; unfold Device.admitWaiting; try dsimp only
  repeat' first
      | intro _ | with_reducible assumption | with_reducible apply Device.each_keeps
      | with_reducible apply Device.modChan_keeps | with_reducible apply keeps_ite | dsimp only
      | with_reducible refine Device.pushReq_keeps _ _ _ _ _ ?_ _ (by assumption) | split

theorem Device.pushAll_keeps : ∀ a0 a1, Keeps bm bc true br d0 a0 → ∀ r, (@Device.pushAll a0 a1) = some r → Keeps bm bc true br d0 r := by
  intro d l
  induction l generalizing d with
  | nil => intro h r hr; cases hr; exact h
  | cons a t ih =>
    intro h r hr
    obtain ⟨s, c, q, o⟩ := a
    unfold Device.pushAll at hr
    split at hr
    · rename_i e he; exact ih e (Device.pushReq_keeps _ _ _ _ _ h _ he) r hr
    · cases hr

theorem Device.refreshBank_keeps : ∀ a0 a1 a2 a3 a4, Keeps bm bc true true d0 a0 → Keeps bm bc true true d0 (@Device.refreshBank a0 a1 a2 a3 a4) := by
  intros; unfold Device.refreshBank; try dsimp only
  repeat' first
      | intro _ | with_reducible assumption | with_reducible apply Device.modChan_keeps
      | with_reducible apply Device.count_keeps | with_reducible apply keeps_ite | dsimp only | split

theorem Device.burstMade_keeps : ∀ a0 a1 a2 a3 a4, Keeps bm bc true true d0 a0 → Keeps bm bc true true d0 (@Device.burstMade a0 a1 a2 a3 a4) := by
  intros; unfold Device.burstMade; try dsimp only
  repeat' first
      | intro _ | with_reducible assumption | with_reducible apply Device.count_keeps
      | with_reducible apply Device.modChan_keeps | with_reducible apply keeps_ite | dsimp only | split

theorem Device.unqueue_keeps : ∀ a0 a1 a2 a3, Keeps bm bc true br d0 a0 → Keeps bm bc true br d0 ((@Device.unqueue a0 a1 a2 a3)) := by
  intros; unfold Device.unqueue; try dsimp only
  repeat' first
      | intro _ | with_reducible assumption | with_reducible apply Device.modChan_keeps
      | with_reducible apply keeps_ite | dsimp only | split
      | (fail_if_no_progress with_reducible refine keeps_fields ?_)

theorem Device.dramTurn_keeps : ∀ a0 a1 a2 a3 a4, Keeps bm bc true true d0 a4 → ∀ r, (@Device.dramTurn a0 a1 a2 a3 a4) = some r → Keeps bm bc true true d0 (r) := by
  intro a0 a1 a2 a3
  induction a3 with
  | zero =>
    intro a4 h0 r hr; unfold Device.dramTurn at hr; try dsimp only at hr
    repeat' first
        | cases hr | intro _ | with_reducible assumption | with_reducible refine ih _ ?_ _ hr
        | with_reducible apply Device.refreshBank_keeps | with_reducible apply Device.unqueue_keeps
        | with_reducible apply Device.burstMade_keeps
        | (rw [Option.map_eq_some_iff] at hr; obtain ⟨_, _, hr⟩ := hr; cases hr)
        | (rw [Option.bind_eq_some_iff] at hr; obtain ⟨_, _, hr⟩ := hr) | dsimp only at hr | split at hr
        | with_reducible apply keeps_ite | dsimp only | split
        | (fail_if_no_progress with_reducible refine keeps_fields ?_)
  | succ n ih =>
    intro a4 h0 r hr; unfold Device.dramTurn at hr; try dsimp only at hr
    repeat' first
        | cases hr | intro _ | with_reducible assumption | with_reducible refine ih _ ?_ _ hr
        | with_reducible apply Device.refreshBank_keeps | with_reducible apply Device.unqueue_keeps
        | with_reducible apply Device.burstMade_keeps
        | (rw [Option.map_eq_some_iff] at hr; obtain ⟨_, _, hr⟩ := hr; cases hr)
        | (rw [Option.bind_eq_some_iff] at hr; obtain ⟨_, _, hr⟩ := hr) | dsimp only at hr | split at hr
        | with_reducible apply keeps_ite | dsimp only | split
        | (fail_if_no_progress with_reducible refine keeps_fields ?_)

theorem Device.dramNow_keeps : ∀ a0 a1 a2 a3, Keeps bm bc true true d0 a3 → ∀ r, (@Device.dramNow a0 a1 a2 a3) = some r → Keeps bm bc true true d0 (r) := by
  intro a0 a1 a2 a3 h0 r hr; unfold Device.dramNow at hr; try dsimp only at hr
  repeat' first
      | cases hr | intro _ | with_reducible assumption
      | with_reducible refine Device.pushReq_keeps _ _ _ _ _ ?_ _ (by assumption)
      | with_reducible refine Device.dramTurn_keeps _ _ _ _ _ ?_ _ (by assumption)
      | (rw [Option.map_eq_some_iff] at hr; obtain ⟨_, _, hr⟩ := hr; cases hr)
      | (rw [Option.bind_eq_some_iff] at hr; obtain ⟨_, _, hr⟩ := hr) | dsimp only at hr | split at hr
      | with_reducible apply keeps_ite | dsimp only | split
      | (fail_if_no_progress with_reducible refine keeps_fields ?_)

theorem Device.dramAll_keeps : ∀ a0 a1 a2 a3, Keeps bm bc true true d0 a3 → ∀ r, (@Device.dramAll a0 a1 a2 a3) = some r → Keeps bm bc true true d0 (r) := by
  intro a0 a1 a2
  induction a2 with
  | nil =>
    intro a3 h0 r hr; unfold Device.dramAll at hr; try dsimp only at hr
    repeat' first
        | cases hr | intro _ | with_reducible assumption | with_reducible refine ih _ ?_ _ hr
        | with_reducible refine Device.dramNow_keeps _ _ _ _ ?_ _ (by assumption)
        | (rw [Option.map_eq_some_iff] at hr; obtain ⟨_, _, hr⟩ := hr; cases hr)
        | (rw [Option.bind_eq_some_iff] at hr; obtain ⟨_, _, hr⟩ := hr) | dsimp only at hr | split at hr
        | with_reducible apply keeps_ite | dsimp only | split
        | (fail_if_no_progress with_reducible refine keeps_fields ?_)
  | cons x l ih =>
    intro a3 h0 r hr; unfold Device.dramAll at hr; try dsimp only at hr
    repeat' first
        | cases hr | intro _ | with_reducible assumption | with_reducible refine ih _ ?_ _ hr
        | with_reducible refine Device.dramNow_keeps _ _ _ _ ?_ _ (by assumption)
        | (rw [Option.map_eq_some_iff] at hr; obtain ⟨_, _, hr⟩ := hr; cases hr)
        | (rw [Option.bind_eq_some_iff] at hr; obtain ⟨_, _, hr⟩ := hr) | dsimp only at hr | split at hr
        | with_reducible apply keeps_ite | dsimp only | split
        | (fail_if_no_progress with_reducible refine keeps_fields ?_)

theorem Device.openUnit_keeps : ∀ a0 a1 a2, Keeps bm bc bs br d0 a2 → Keeps bm bc bs br d0 (@Device.openUnit a0 a1 a2) := by
  intros; unfold Device.openUnit; try dsimp only
  repeat' first | intro _ | with_reducible assumption | dsimp only | split | (with_reducible refine keeps_fields ?_)

theorem Device.openLine_keeps : ∀ a0 a1 a2 a3, Keeps bm bc bs br d0 a3 → Keeps bm bc bs br d0 (@Device.openLine a0 a1 a2 a3) := by
  intros; unfold Device.openLine; try dsimp only
  repeat' first
      | intro _ | with_reducible assumption | with_reducible apply Device.each_keeps
      | with_reducible apply Device.openUnit_keeps | dsimp only | split

theorem Device.setTag_keeps : ∀ a0 a1 a2 a3, Keeps bm bc bs br d0 a0 → Keeps bm bc bs br d0 (@Device.setTag a0 a1 a2 a3) := by
  intros; unfold Device.setTag; try dsimp only
  repeat' first | intro _ | with_reducible assumption | with_reducible apply Device.modHalf_keeps | dsimp only | split

theorem Device.takeTag_keeps : ∀ a0 a1 a2 a3, Keeps bm bc bs br d0 a0 → ∀ r, (@Device.takeTag a0 a1 a2 a3) = some r → Keeps bm bc bs br d0 (r).2 := by
  intro d hf pool t h r hr
  unfold Device.takeTag at hr
  split at hr
  · cases hr
  · injection hr with hr; subst hr; dsimp only; exact Device.modHalf_keeps _ _ _ (Device.setTag_keeps _ _ _ _ h)

theorem Device.freeTag_keeps : ∀ a0 a1 a2, Keeps bm bc bs br d0 a0 → Keeps bm bc bs br d0 (@Device.freeTag a0 a1 a2) := by
  intros; unfold Device.freeTag; try dsimp only
  repeat' first | intro _ | with_reducible assumption | with_reducible apply Device.setTag_keeps | dsimp only | split

theorem Device.enter_keeps : ∀ a0 a1 a2, Keeps bm bc bs br d0 a2 → Keeps bm bc bs br d0 (@Device.enter a0 a1 a2) := by
  intros; unfold Device.enter; try dsimp only
  repeat' first | intro _ | with_reducible assumption | with_reducible apply Device.modHalf_keeps | dsimp only | split

theorem Device.leave_keeps : ∀ a0 a1 a2, Keeps bm bc bs br d0 a2 → Keeps bm bc bs br d0 (@Device.leave a0 a1 a2) := by
  intros; unfold Device.leave; try dsimp only
  repeat' first | intro _ | with_reducible assumption | with_reducible apply Device.modHalf_keeps | dsimp only | split

theorem Device.issueTag_keeps : ∀ a0 a1 a2 a3, Keeps bm bc bs br d0 a0 → ∀ r, (@Device.issueTag a0 a1 a2 a3) = some r → Keeps bm bc bs br d0 (r).2 := by
  intro d hf pool t h r hr
  unfold Device.issueTag at hr
  simp only [Option.map_eq_some_iff] at hr
  obtain ⟨a, ha, rfl⟩ := hr
  exact Device.enter_keeps _ _ _ (Device.takeTag_keeps _ _ _ _ h _ ha)

theorem Device.requestOut_keeps : ∀ a0 a1 a2, Keeps bm bc bs br d0 a0 → ∀ r, (@Device.requestOut a0 a1 a2) = some r → Keeps bm bc bs br d0 r := by
  intro d hf i h r hr
  unfold Device.requestOut at hr
  dsimp only at hr
  split at hr
  · split at hr
    · injection hr with hr; rw [← hr]; exact Device.modHalf_keeps _ _ _ h
    · cases hr
  · split at hr
    · split at hr
      · injection hr with hr; rw [← hr]; exact h
      · cases hr
    · cases hr

theorem Device.served_keeps : ∀ a0 a1 a2 a3, Keeps bm bc bs br d0 a3 → Keeps bm bc bs br d0 (@Device.served a0 a1 a2 a3) := by
  intros; unfold Device.served; try dsimp only
  repeat' first
      | intro _ | with_reducible assumption | with_reducible apply Device.setTag_keeps
      | with_reducible apply Device.modHalf_keeps | dsimp only | split

theorem Device.openCapacity_keeps : ∀ a0 a1 a2, Keeps bm bc true true d0 a2 → Keeps bm bc true true d0 (@Device.openCapacity a0 a1 a2) := by
  intros; unfold Device.openCapacity; try dsimp only
  repeat' first
      | intro _ | with_reducible assumption | with_reducible apply Device.openLine_keeps
      | with_reducible apply Device.wakeRun_keeps | dsimp only | split

theorem Device.responseOut_keeps : ∀ a0 a1 a2, Keeps bm bc bs br d0 a0 → ∀ r, (@Device.responseOut a0 a1 a2) = some r → Keeps bm bc bs br d0 r := by
  intro d hf i h r hr
  unfold Device.responseOut at hr
  dsimp only at hr
  split at hr
  · split at hr
    · injection hr with hr; rw [← hr]; exact Device.modHalf_keeps _ _ _ h
    · cases hr
  · injection hr with hr; rw [← hr]; exact h

theorem Device.passPath_keeps : ∀ a0 a1 a2 a3 a4, Keeps bm bc bs true d0 a0 → Keeps bm bc bs true d0 ((@Device.passPath a0 a1 a2 a3 a4)).1 := by
  intros; unfold Device.passPath; try dsimp only
  repeat' first | intro _ | with_reducible assumption | with_reducible apply Device.crossed_keeps | dsimp only | split

theorem Device.portPush_keeps : ∀ a0 a1 a2, Keeps bm bc true true d0 a0 → ∀ r, (@Device.portPush a0 a1 a2) = some r → Keeps bm bc true true d0 r := by
  intro d hf i h r hr
  unfold Device.portPush at hr
  dsimp only at hr
  split at hr
  · split at hr
    · injection hr with hr; rw [← hr]; exact Device.modHalf_keeps _ _ _ (Device.setTag_keeps _ _ _ _ h)
    · simp only [Option.map_eq_some_iff] at hr
      obtain ⟨a, ha, rfl⟩ := hr
      refine Device.modHalf_keeps _ _ _ (Device.setTag_keeps _ _ _ _ (Device.pushAll_keeps _ _ ?_ _ ha))
      exact keeps_pick (fun x : Device × List Nat => x.1) (Device.passPath_keeps _ _ _ _ _ h) (show Keeps _ _ _ _ d0 (d, _).1 from h)
  · cases hr

theorem Device.pumpPorts_keeps : ∀ a0 a1, Keeps bm bc true true d0 a1 → Keeps bm bc true true d0 (@Device.pumpPorts a0 a1) := by
  intros; unfold Device.pumpPorts; try dsimp only
  repeat' first
      | intro _ | with_reducible assumption | with_reducible apply keeps_ite | with_reducible refine keeps_foldl _ _ _ ?_ ?_
      | with_reducible refine keeps_foldl_fst _ _ _ ?_ ?_ | with_reducible refine keeps_foldl_snd _ _ _ ?_ ?_ | dsimp only
      | with_reducible refine Device.portPush_keeps _ _ _ ?_ _ (by assumption) | split

theorem Device.ring_keeps : ∀ a0 a1, Keeps bm bc bs br d0 a1 → Keeps bm bc bs br d0 (@Device.ring a0 a1) := by
  intros; unfold Device.ring; try dsimp only
  repeat' first | intro _ | with_reducible assumption | dsimp only | split | (with_reducible refine keeps_fields ?_)

theorem Device.accFlag_keeps : ∀ a0 a1 a2 a3, Keeps bm bc bs true d0 a0 → Keeps bm bc bs true d0 (@Device.accFlag a0 a1 a2 a3) := by
  intros; unfold Device.accFlag; try dsimp only
  repeat' first
      | intro _ | with_reducible assumption | with_reducible apply Device.setBit_keeps | with_reducible apply keeps_ite
      | dsimp only | split

theorem Device.convFlags_keeps : ∀ a0 a1 a2 a3, Keeps bm bc bs true d0 a0 → Keeps bm bc bs true d0 (@Device.convFlags a0 a1 a2 a3) := by
  intros; unfold Device.convFlags; try dsimp only
  repeat' first | intro _ | with_reducible assumption | with_reducible apply Device.accFlag_keeps | dsimp only | split

theorem Device.underflow_keeps : ∀ a0 a1 a2, Keeps bm bc bs true d0 a0 → Keeps bm bc bs true d0 (@Device.underflow a0 a1 a2) := by
  intros; unfold Device.underflow; try dsimp only
  repeat' first
      | intro _ | with_reducible assumption | with_reducible apply Device.setBit_keeps
      | with_reducible apply Device.count_keeps | with_reducible apply keeps_ite | dsimp only | split

theorem Device.attFlag_keeps : ∀ a0 a1 a2 a3, Keeps bm bc bs true d0 a0 → Keeps bm bc bs true d0 (@Device.attFlag a0 a1 a2 a3) := by
  intros; unfold Device.attFlag; try dsimp only
  repeat' first
      | intro _ | with_reducible assumption | with_reducible apply Device.setBit_keeps | with_reducible apply keeps_ite
      | dsimp only | split

theorem Device.evtAdd_keeps : ∀ a0 a1 a2 a3, Keeps bm true bs true d0 a0 → Keeps bm true bs true d0 (@Device.evtAdd a0 a1 a2 a3) := by
  intros; unfold Device.evtAdd; try dsimp only
  repeat' first
      | intro _ | with_reducible assumption | with_reducible apply Device.setBit_keeps
      | with_reducible apply Device.modCore_keeps | with_reducible apply keeps_ite | dsimp only | split

theorem Device.cueEvent_keeps : ∀ a0 a1 a2, Keeps bm true bs true d0 a0 → Keeps bm true bs true d0 (@Device.cueEvent a0 a1 a2) := by
  intros; unfold Device.cueEvent; try dsimp only
  repeat' first
      | intro _ | with_reducible assumption | with_reducible apply Device.evtAdd_keeps | with_reducible apply keeps_ite
      | dsimp only | split

theorem Device.cueError_keeps : ∀ a0 a1 a2 a3 a4 a5, Keeps bm true bs true d0 a0 → Keeps bm true bs true d0 ((@Device.cueError a0 a1 a2 a3 a4 a5)) := by
  intros; unfold Device.cueError; try dsimp only
  repeat' first
      | intro _ | with_reducible assumption | with_reducible apply Device.setReg_keeps
      | with_reducible apply Device.noteBit_keeps | with_reducible apply Device.modCore_keeps
      | with_reducible apply Device.fault_keeps | with_reducible apply keeps_ite | dsimp only | split
      | (fail_if_no_progress with_reducible refine keeps_fields ?_)

theorem Device.sendFlit_keeps : ∀ a0 a1 a2 a3 a4 a5, Keeps bm bc bs br d0 a0 → Keeps bm bc bs br d0 (@Device.sendFlit a0 a1 a2 a3 a4 a5) := by
  intros; unfold Device.sendFlit; try dsimp only
  repeat' first
      | intro _ | with_reducible assumption | with_reducible apply Device.emit_keeps
      | with_reducible apply Device.modPort_keeps | with_reducible apply keeps_ite | dsimp only | split

theorem Device.sendIdle_keeps : ∀ a0 a1 a2, Keeps bm bc bs br d0 a2 → Keeps bm bc bs br d0 (@Device.sendIdle a0 a1 a2) := by
  intro p n
  induction n with
  | zero => intro d h; exact h
  | succ n ih =>
    intro d h
    unfold Device.sendIdle
    dsimp only
    split
    · exact ih _ (Device.sendFlit_keeps _ _ _ _ _ _ h)
    · exact h

theorem Device.settlePort_keeps : ∀ a0 a1, Keeps bm bc bs br d0 a1 → Keeps bm bc bs br d0 (@Device.settlePort a0 a1) := by
  intros; unfold Device.settlePort; try dsimp only
  repeat' first | intro _ | with_reducible assumption | with_reducible apply Device.sendIdle_keeps | dsimp only | split

theorem Device.sendPacket_keeps : ∀ a0 a1 a2, Keeps bm bc bs true d0 a0 → Keeps bm bc bs true d0 (@Device.sendPacket a0 a1 a2) := by
  intros; unfold Device.sendPacket; try dsimp only
  repeat' first
      | intro _ | with_reducible assumption | with_reducible apply Device.takeFlip_keeps
      | with_reducible apply Device.emit_keeps | with_reducible apply Device.modPort_keeps
      | with_reducible apply Device.each_keeps | with_reducible apply Device.sendFlit_keeps | with_reducible apply keeps_ite
      | dsimp only | split

theorem Device.pumpPort_keeps : ∀ a0 a1 a2, Keeps bm bc bs true d0 a2 → Keeps bm bc bs true d0 ((@Device.pumpPort a0 a1 a2)) := by
  intro a0 a1
  induction a1 with
  | zero =>
    intro a2 h0; unfold Device.pumpPort; try dsimp only
    repeat' first
        | intro _ | with_reducible assumption | with_reducible apply ih | with_reducible apply Device.sendPacket_keeps
        | with_reducible apply keeps_ite | dsimp only | split
        | (fail_if_no_progress with_reducible refine keeps_fields ?_)
  | succ n ih =>
    intro a2 h0; unfold Device.pumpPort; try dsimp only
    repeat' first
        | intro _ | with_reducible assumption | with_reducible apply ih | with_reducible apply Device.sendPacket_keeps
        | with_reducible apply keeps_ite | dsimp only | split
        | (fail_if_no_progress with_reducible refine keeps_fields ?_)

theorem Device.txPacket_keeps : ∀ a0 a1 a2, Keeps bm bc bs true d0 a0 → Keeps bm bc bs true d0 (@Device.txPacket a0 a1 a2) := by
  intros; unfold Device.txPacket; try dsimp only
  repeat' first
      | intro _ | with_reducible assumption | with_reducible apply Device.modPort_keeps
      | with_reducible apply Device.pumpPort_keeps | dsimp only | split

theorem Device.sendClap_keeps : ∀ a0 a1 a2, Keeps bm bc bs true d0 a0 → Keeps bm bc bs true d0 (@Device.sendClap a0 a1 a2) := by
  intros; unfold Device.sendClap; try dsimp only
  repeat' first
      | intro _ | with_reducible assumption | with_reducible apply Device.modPort_keeps
      | with_reducible apply Device.emit_keeps | with_reducible apply Device.pumpPort_keeps | dsimp only | split

theorem Device.sendCont_keeps : ∀ a0 a1, Keeps bm bc bs true d0 a0 → Keeps bm bc bs true d0 (@Device.sendCont a0 a1) := by
  intros; unfold Device.sendCont; try dsimp only
  repeat' first
      | intro _ | with_reducible assumption | with_reducible apply Device.emit_keeps
      | with_reducible apply Device.txPacket_keeps | dsimp only | split

theorem Device.takeRx_keeps : ∀ a0 a1 a2, Keeps bm bc bs br d0 a0 → Keeps bm bc bs br d0 ((@Device.takeRx a0 a1 a2)) := by
  intros; unfold Device.takeRx; try dsimp only
  repeat' first
      | intro _ | with_reducible assumption | with_reducible apply Device.modPort_keeps
      | with_reducible apply Device.settlePort_keeps | with_reducible apply keeps_ite | dsimp only | split
      | (fail_if_no_progress with_reducible refine keeps_fields ?_)

theorem Device.takeHead_keeps : ∀ a0 a1 a2, Keeps bm bc bs br d0 a0 → Keeps bm bc bs br d0 (@Device.takeHead a0 a1 a2) := by
  intros; unfold Device.takeHead; try dsimp only
  repeat' first | intro _ | with_reducible assumption | with_reducible apply Device.takeRx_keeps | dsimp only | split

theorem Device.contIn_keeps : ∀ a0 a1 a2, Keeps bm bc bs br d0 a0 → (∀ y0, Keeps bm bc bs br d0 y0 → Keeps bm bc bs br d0 (a2 y0)) → Keeps bm bc bs br d0 (@Device.contIn a0 a1 a2) := by
  intros; unfold Device.contIn; try dsimp only
  repeat' first
      | intro _ | with_reducible assumption | with_reducible apply_assumption | with_reducible apply Device.takeHead_keeps
      | with_reducible apply keeps_ite | dsimp only | split

theorem Device.logPacket_keeps : ∀ a0 a1 a2 a3, Keeps bm bc bs true d0 a0 → Keeps bm bc bs true d0 (@Device.logPacket a0 a1 a2 a3) := by
  intros; unfold Device.logPacket; try dsimp only
  repeat' first | intro _ | with_reducible assumption | with_reducible apply Device.log_keeps | dsimp only | split

theorem Device.refused_keeps : ∀ a0 a1 a2, Keeps bm bc bs true d0 a0 → Keeps bm bc bs true d0 (@Device.refused a0 a1 a2) := by
  intros; unfold Device.refused; try dsimp only
  repeat' first
      | intro _ | with_reducible assumption | with_reducible apply Device.logPacket_keeps
      | with_reducible apply Device.setBit_keeps | with_reducible apply Device.count_keeps | dsimp only | split

theorem Device.ackTo_keeps : ∀ a0 a1 a2, Keeps bm bc bs true d0 a0 → Keeps bm bc bs true d0 (@Device.ackTo a0 a1 a2) := by
  intros; unfold Device.ackTo; try dsimp only
  repeat' first
      | intro _ | with_reducible assumption | with_reducible apply Device.modPort_keeps
      | with_reducible apply Device.txPacket_keeps | with_reducible apply keeps_ite | dsimp only | split

theorem Device.modModule_keeps : ∀ a0 a1 a2, Keeps bm bc bs br d0 a0 → Keeps bm bc bs br d0 (@Device.modModule a0 a1 a2) := by
  intros; unfold Device.modModule; try dsimp only
  repeat' first | intro _ | with_reducible assumption | dsimp only | split | (with_reducible refine keeps_fields ?_)

theorem Device.sendBridge_keeps : ∀ a0 a1 a2 a3 a4 a5, Keeps bm bc bs br d0 a0 → Keeps bm bc bs br d0 (@Device.sendBridge a0 a1 a2 a3 a4 a5) := by
  intros; unfold Device.sendBridge; try dsimp only
  repeat' first
      | intro _ | with_reducible assumption | with_reducible apply Device.modModule_keeps
      | with_reducible apply Device.emit_keeps | with_reducible apply keeps_ite | dsimp only | split

theorem Device.sendService_keeps : ∀ a0 a1 a2, Keeps bm bc bs br d0 a0 → Keeps bm bc bs br d0 (@Device.sendService a0 a1 a2) := by
  intros; unfold Device.sendService; try dsimp only
  repeat' first | intro _ | with_reducible assumption | with_reducible apply Device.sendBridge_keeps | dsimp only | split

theorem Device.sendRequest_keeps : ∀ a0 a1 a2 a3 a4, Keeps bm bc bs br d0 a0 → Keeps bm bc bs br d0 (@Device.sendRequest a0 a1 a2 a3 a4) := by
  intros; unfold Device.sendRequest; try dsimp only
  repeat' first
      | intro _ | with_reducible assumption | with_reducible apply Device.sendBridge_keeps | with_reducible apply keeps_ite
      | with_reducible refine keeps_foldl _ _ _ ?_ ?_ | with_reducible refine keeps_foldl_fst _ _ _ ?_ ?_
      | with_reducible refine keeps_foldl_snd _ _ _ ?_ ?_ | dsimp only | split

theorem Device.farIssue_keeps : ∀ a0 a1 a2 a3 a4, Keeps bm bc bs br d0 a0 → ∀ r, (@Device.farIssue a0 a1 a2 a3 a4) = some r → Keeps bm bc bs br d0 (r) := by
  intro a0 a1 a2 a3 a4 h0 r hr; unfold Device.farIssue at hr; try dsimp only at hr
  repeat' first
      | cases hr | intro _ | with_reducible assumption
      | with_reducible refine Device.takeTag_keeps _ _ _ _ ?_ (_, _) (by assumption)
      | with_reducible apply Device.sendRequest_keeps
      | (rw [Option.map_eq_some_iff] at hr; obtain ⟨_, _, hr⟩ := hr; cases hr)
      | (rw [Option.bind_eq_some_iff] at hr; obtain ⟨_, _, hr⟩ := hr) | dsimp only at hr | split at hr
      | with_reducible apply keeps_ite | dsimp only | split
      | (fail_if_no_progress with_reducible refine keeps_fields ?_)

theorem Device.coreTxn_keeps : ∀ a0 a1 a2, Keeps bm bc bs true d0 a0 → ∀ r, (@Device.coreTxn a0 a1 a2) = some r → Keeps bm bc bs true d0 r := by
  intro d k t h r hr
  unfold Device.coreTxn at hr
  dsimp only at hr
  have hx := keeps_pick (fun x : Device × List Nat => x.1) (p := t.write = true) (Device.passPath_keeps d k t.addr t.len t.poison h) (show Keeps _ _ _ _ d0 (d, t.poison).1 from h)
  split at hr
  · split at hr
    · simp only [Option.map_eq_some_iff] at hr
      obtain ⟨a, ha, rfl⟩ := hr
      exact Device.issueTag_keeps _ _ _ _ hx _ ha
    · exact Device.farIssue_keeps _ _ _ _ _ hx _ hr
  · simp only [Option.map_eq_some_iff] at hr
    obtain ⟨a, ha, rfl⟩ := hr
    exact Device.issueTag_keeps _ _ _ _ hx _ ha

theorem Device.ringTxn_keeps : ∀ a0 a1 a2 a3, Keeps bm bc bs br d0 a0 → ∀ r, (@Device.ringTxn a0 a1 a2 a3) = some r → Keeps bm bc bs br d0 (r) := by
  intro a0 a1 a2 a3 h0 r hr; unfold Device.ringTxn at hr; try dsimp only at hr
  repeat' first
      | cases hr | intro _ | with_reducible assumption
      | with_reducible refine Device.issueTag_keeps _ _ _ _ ?_ (_, _) (by assumption)
      | with_reducible refine Device.farIssue_keeps _ _ _ _ _ ?_ _ (by assumption)
      | (rw [Option.map_eq_some_iff] at hr; obtain ⟨_, _, hr⟩ := hr; cases hr)
      | (rw [Option.bind_eq_some_iff] at hr; obtain ⟨_, _, hr⟩ := hr) | dsimp only at hr | split at hr
      | with_reducible apply keeps_ite | dsimp only | split
      | (fail_if_no_progress with_reducible refine keeps_fields ?_)

theorem Device.bridgeAnswer_keeps : ∀ a0 a1 a2 a3 a4, Keeps bm bc bs br d0 a0 → Keeps bm bc bs br d0 (@Device.bridgeAnswer a0 a1 a2 a3 a4) := by
  intros; unfold Device.bridgeAnswer; try dsimp only
  repeat' first
      | intro _ | with_reducible assumption | with_reducible apply Device.sendBridge_keeps
      | with_reducible apply Device.setTag_keeps | with_reducible apply keeps_ite | dsimp only | split

theorem Device.ringPut_keeps : ∀ a0 a1 a2 a3, Keeps bm bc bs br d0 a3 → Keeps bm bc bs br d0 (@Device.ringPut a0 a1 a2 a3) := by
  intros; unfold Device.ringPut; try dsimp only
  repeat' first | intro _ | with_reducible assumption | with_reducible apply Device.modHalf_keeps | dsimp only | split

theorem Device.ringGrant_keeps : ∀ a0 a1 a2, Keeps bm bc bs br d0 a0 → ∀ r, (@Device.ringGrant a0 a1 a2) = some r → Keeps bm bc bs br d0 r := by
  intro d hf q h r hr
  unfold Device.ringGrant at hr
  obtain ⟨c, -, hc⟩ := List.exists_of_findSome?_eq_some hr
  split at hc
  · cases hc
  · simp only [Option.map_eq_some_iff] at hc
    obtain ⟨a, ha, rfl⟩ := hc
    exact Device.modHalf_keeps _ _ _ (Device.ringTxn_keeps _ _ _ _ h _ ha)

theorem Device.ringDrain_keeps : ∀ a0 a1 a2 a3, Keeps bm bc bs br d0 a3 → Keeps bm bc bs br d0 (@Device.ringDrain a0 a1 a2 a3) := by
  intro hf q n
  induction n with
  | zero => intro d h; exact h
  | succ n ih =>
    intro d h
    unfold Device.ringDrain
    split
    · rename_i e he; exact ih _ (Device.ringGrant_keeps _ _ _ h _ he)
    · exact h

theorem Device.mustWait_keeps : ∀ a0, Keeps bm bc bs br d0 a0 → Keeps bm bc bs br d0 (((@Device.mustWait a0)).dev) := by
  intros; unfold Device.mustWait; try dsimp only
  repeat' first
      | intro _ | with_reducible assumption | with_reducible apply keeps_ite | dsimp only | split
      | (fail_if_no_progress with_reducible refine keeps_fields ?_)

theorem Device.mustWaitFor_keeps : ∀ a0 a1 a2 a3, Keeps bm bc bs br d0 a3 → Keeps bm bc bs br d0 (((@Device.mustWaitFor a0 a1 a2 a3)).dev) := by
  intros; unfold Device.mustWaitFor; try dsimp only
  repeat' first
      | intro _ | with_reducible assumption | with_reducible apply Device.mustWait_keeps
      | with_reducible apply keeps_ite | dsimp only | split
      | (fail_if_no_progress with_reducible refine keeps_fields ?_)

theorem Device.storeTag_keeps : ∀ a0 a1 a2, Keeps true bc true true d0 a2 → Keeps true bc true true d0 ((@Device.storeTag a0 a1 a2)) := by
  intros; unfold Device.storeTag; try dsimp only
  repeat' first
      | intro _ | with_reducible assumption | with_reducible apply Device.each_keeps
      | with_reducible apply Device.writeCw_keeps | with_reducible apply keeps_ite | dsimp only | split
      | (fail_if_no_progress with_reducible refine keeps_fields ?_)

theorem Device.atMemory_keeps : ∀ a0 a1 a2, Keeps true bc true true d0 a2 → Keeps true bc true true d0 (((@Device.atMemory a0 a1 a2)).dev) := by
  intros; unfold Device.atMemory; try dsimp only
  repeat' first
      | intro _ | with_reducible assumption | with_reducible apply Device.storeTag_keeps
      | with_reducible apply Device.readMem_keeps | with_reducible apply keeps_ite | dsimp only | split
      | (fail_if_no_progress with_reducible refine keeps_fields ?_)

theorem ReadRes.run_keeps : ∀ a0 a1, Keeps bm bc bs br d0 ((a0).dev) → Keeps bm bc bs br d0 (((@ReadRes.run a0 a1)).dev) := by
  intros; unfold ReadRes.run; try dsimp only
  repeat' first
      | intro _ | with_reducible assumption | with_reducible apply keeps_ite | dsimp only | split
      | (fail_if_no_progress with_reducible refine keeps_fields ?_)

theorem Device.dramTrip_keeps : ∀ a0 a1 a2 a3, Keeps true bc true true d0 a3 → Keeps true bc true true d0 (((@Device.dramTrip a0 a1 a2 a3)).dev) := by
  intros; unfold Device.dramTrip; try dsimp only
  repeat' first
      | intro _ | with_reducible assumption | with_reducible apply Device.mustWaitFor_keeps
      | with_reducible apply Device.readMem_keeps | with_reducible apply Device.atMemory_keeps
      | with_reducible apply ReadRes.run_keeps | with_reducible apply Device.mustWait_keeps
      | with_reducible apply keeps_ite | dsimp only
      | with_reducible refine Device.dramAll_keeps _ _ _ _ ?_ _ (by assumption) | split
      | (fail_if_no_progress with_reducible refine keeps_fields ?_)

theorem Device.portTurns_keeps : ∀ a0 a1 a2 a3 a4 a5 a6 a7, Keeps bm bc true true d0 a7 → ∀ r, (@Device.portTurns a0 a1 a2 a3 a4 a5 a6 a7) = some r → Keeps bm bc true true d0 (r) := by
  intro a0 a1 a2 a3 a4 a5 a6
  induction a6 with
  | nil =>
    intro a7 h0 r hr; unfold Device.portTurns at hr; try dsimp only at hr
    repeat' first
        | cases hr | intro _ | with_reducible assumption | with_reducible refine ih _ ?_ _ hr
        | with_reducible refine Device.dramTurn_keeps _ _ _ _ _ ?_ _ (by assumption)
        | (rw [Option.map_eq_some_iff] at hr; obtain ⟨_, _, hr⟩ := hr; cases hr)
        | (rw [Option.bind_eq_some_iff] at hr; obtain ⟨_, _, hr⟩ := hr) | dsimp only at hr | split at hr
        | with_reducible apply keeps_ite | dsimp only | split
        | (fail_if_no_progress with_reducible refine keeps_fields ?_)
  | cons x l ih =>
    intro a7 h0 r hr; unfold Device.portTurns at hr; try dsimp only at hr
    repeat' first
        | cases hr | intro _ | with_reducible assumption | with_reducible refine ih _ ?_ _ hr
        | with_reducible refine Device.dramTurn_keeps _ _ _ _ _ ?_ _ (by assumption)
        | (rw [Option.map_eq_some_iff] at hr; obtain ⟨_, _, hr⟩ := hr; cases hr)
        | (rw [Option.bind_eq_some_iff] at hr; obtain ⟨_, _, hr⟩ := hr) | dsimp only at hr | split at hr
        | with_reducible apply keeps_ite | dsimp only | split
        | (fail_if_no_progress with_reducible refine keeps_fields ?_)

theorem Device.portTrip_keeps : ∀ a0 a1 a2, Keeps true bc true true d0 a2 → Keeps true bc true true d0 (((@Device.portTrip a0 a1 a2)).dev) := by
  intro h i d hd; unfold Device.portTrip; try dsimp only
  split
  · split
    · exact Device.mustWaitFor_keeps _ _ _ _ hd
    · split
      · rename_i e he
        rw [Option.bind_eq_some_iff] at he
        obtain ⟨f, hf, he⟩ := he
        have k := Device.portTurns_keeps (bm := true) _ _ _ _ _ _ _ _ (Device.portPush_keeps _ _ _ hd _ hf) _ he
        split
        · exact Device.atMemory_keeps _ _ _ k
        · exact Device.passPath_keeps _ _ _ _ _ (Device.atMemory_keeps _ _ _ k)
      · exact Device.mustWait_keeps _ hd
  · exact Device.mustWait_keeps _ hd

theorem Device.homeTrip_keeps : ∀ a0 a1 a2, Keeps true bc true true d0 a2 → Keeps true bc true true d0 (((@Device.homeTrip a0 a1 a2)).dev) := by
  intros; unfold Device.homeTrip; try dsimp only
  repeat' first
      | intro _ | with_reducible assumption | with_reducible apply Device.portTrip_keeps
      | with_reducible apply Device.mustWait_keeps | with_reducible apply Device.openCapacity_keeps
      | with_reducible apply Device.atMemory_keeps | with_reducible apply Device.served_keeps
      | with_reducible apply keeps_ite | dsimp only
      | with_reducible refine Device.requestOut_keeps _ _ _ ?_ _ (by assumption)
      | with_reducible refine Device.responseOut_keeps _ _ _ ?_ _ (by assumption) | split
      | (fail_if_no_progress with_reducible refine keeps_fields ?_)

theorem Device.crossNow_keeps : ∀ a0 a1 a2, Keeps bm bc bs br d0 a2 → ∀ r, (@Device.crossNow a0 a1 a2) = some r → Keeps bm bc bs br d0 (r) := by
  intro a0 a1 a2 h0 r hr; unfold Device.crossNow at hr; try dsimp only at hr
  repeat' first
      | cases hr | intro _ | with_reducible assumption | with_reducible apply Device.modModule_keeps
      | (rw [Option.map_eq_some_iff] at hr; obtain ⟨_, _, hr⟩ := hr; cases hr)
      | (rw [Option.bind_eq_some_iff] at hr; obtain ⟨_, _, hr⟩ := hr) | dsimp only at hr | split at hr
      | with_reducible apply keeps_ite | dsimp only | split
      | (fail_if_no_progress with_reducible refine keeps_fields ?_)

theorem Device.awayTrip_keeps : ∀ a0 a1 a2, Keeps true bc true true d0 a2 → Keeps true bc true true d0 (((@Device.awayTrip a0 a1 a2)).dev) := by
  intros; unfold Device.awayTrip; try dsimp only
  repeat' first
      | intro _ | with_reducible assumption | with_reducible apply Device.mustWait_keeps
      | with_reducible apply Device.setTag_keeps | with_reducible apply Device.enter_keeps
      | with_reducible apply Device.homeTrip_keeps | with_reducible apply Device.bridgeAnswer_keeps
      | with_reducible apply Device.freeTag_keeps | with_reducible apply keeps_ite | dsimp only
      | with_reducible refine Device.crossNow_keeps _ _ _ ?_ _ (by assumption) | split
      | (fail_if_no_progress with_reducible refine keeps_fields ?_)

theorem Device.tripOf_keeps : ∀ a0 a1 a2, Keeps true bc true true d0 a2 → Keeps true bc true true d0 (((@Device.tripOf a0 a1 a2)).dev) := by
  intros; unfold Device.tripOf; try dsimp only
  repeat' first
      | intro _ | with_reducible assumption | with_reducible apply Device.ring_keeps
      | with_reducible apply Device.mustWait_keeps | with_reducible apply Device.awayTrip_keeps
      | with_reducible apply Device.homeTrip_keeps | with_reducible apply Device.freeTag_keeps
      | with_reducible apply ReadRes.run_keeps | with_reducible apply keeps_ite | dsimp only | split
      | (fail_if_no_progress with_reducible refine keeps_fields ?_)

theorem Device.ringTrip_keeps : ∀ a0 a1 a2 a3, Keeps true bc true true d0 a3 → Keeps true bc true true d0 (((@Device.ringTrip a0 a1 a2 a3)).dev) := by
  intros; unfold Device.ringTrip; try dsimp only
  repeat' first
      | intro _ | with_reducible assumption | with_reducible apply Device.ringPut_keeps
      | with_reducible apply Device.ringDrain_keeps | with_reducible apply Device.tripOf_keeps
      | with_reducible apply keeps_ite | dsimp only | split
      | (fail_if_no_progress with_reducible refine keeps_fields ?_)

theorem Device.coreTrip_keeps : ∀ a0 a1 a2, Keeps true bc true true d0 a2 → Keeps true bc true true d0 (((@Device.coreTrip a0 a1 a2)).dev) := by
  intros; unfold Device.coreTrip; try dsimp only
  repeat' first
      | intro _ | with_reducible assumption | with_reducible apply Device.ring_keeps
      | with_reducible apply Device.mustWait_keeps | with_reducible apply Device.tripOf_keeps
      | with_reducible apply Device.passPath_keeps | with_reducible apply keeps_ite | dsimp only
      | with_reducible refine Device.coreTxn_keeps _ _ _ ?_ _ (by assumption) | split
      | (fail_if_no_progress with_reducible refine keeps_fields ?_)

theorem Device.readLines_keeps : ∀ a0 a1 a2 a3, (∀ y0 y1, Keeps bm bc bs br d0 y1 → Keeps bm bc bs br d0 (((a2 y0 y1)).dev)) → Keeps bm bc bs br d0 a3 → Keeps bm bc bs br d0 (((@Device.readLines a0 a1 a2 a3)).dev) := by
  intros; unfold Device.readLines; try dsimp only
  repeat' first
      | intro _ | with_reducible assumption | with_reducible apply_assumption | with_reducible apply keeps_ite
      | with_reducible refine keeps_foldl _ _ _ ?_ ?_ | with_reducible refine keeps_foldl_fst _ _ _ ?_ ?_
      | with_reducible refine keeps_foldl_snd _ _ _ ?_ ?_ | with_reducible refine keeps_fold ReadRes.dev _ _ _ ?_ ?_
      | dsimp only | split | (fail_if_no_progress with_reducible refine keeps_fields ?_)

theorem Device.writeLines_keeps : ∀ a0 a1 a2 a3, (∀ y0 y1, Keeps bm bc bs br d0 y1 → Keeps bm bc bs br d0 (((a2 y0 y1)).dev)) → Keeps bm bc bs br d0 a3 → Keeps bm bc bs br d0 ((@Device.writeLines a0 a1 a2 a3)) := by
  intros; unfold Device.writeLines; try dsimp only
  repeat' first
      | intro _ | with_reducible assumption | with_reducible apply_assumption | with_reducible apply keeps_ite
      | with_reducible refine keeps_foldl _ _ _ ?_ ?_ | with_reducible refine keeps_foldl_fst _ _ _ ?_ ?_
      | with_reducible refine keeps_foldl_snd _ _ _ ?_ ?_ | with_reducible refine keeps_fold ReadRes.dev _ _ _ ?_ ?_
      | dsimp only | split | (fail_if_no_progress with_reducible refine keeps_fields ?_)

theorem Device.unitTrip_keeps : ∀ a0 a1 a2, Keeps true bc true true d0 a2 → Keeps true bc true true d0 (((@Device.unitTrip a0 a1 a2)).dev) := by
  intros; unfold Device.unitTrip; try dsimp only
  repeat' first
      | intro _ | with_reducible assumption | with_reducible apply Device.dramTrip_keeps
      | with_reducible apply Device.coreTrip_keeps | with_reducible apply keeps_ite | dsimp only | split
      | (fail_if_no_progress with_reducible refine keeps_fields ?_)

theorem Device.unitRead_keeps : ∀ a0 a1 a2 a3, Keeps true bc true true d0 a0 → Keeps true bc true true d0 (((@Device.unitRead a0 a1 a2 a3)).dev) := by
  intros; unfold Device.unitRead; try dsimp only
  repeat' first
      | intro _ | with_reducible assumption | with_reducible apply Device.unitTrip_keeps
      | with_reducible apply Device.readLines_keeps | with_reducible apply keeps_ite | dsimp only | split
      | (fail_if_no_progress with_reducible refine keeps_fields ?_)

theorem Device.unitWrite_keeps : ∀ a0 a1 a2 a3, Keeps true bc true true d0 a0 → Keeps true bc true true d0 ((@Device.unitWrite a0 a1 a2 a3)) := by
  intros; unfold Device.unitWrite; try dsimp only
  repeat' first
      | intro _ | with_reducible assumption | with_reducible apply Device.unitTrip_keeps
      | with_reducible apply Device.writeLines_keeps | with_reducible apply keeps_ite | dsimp only | split
      | (fail_if_no_progress with_reducible refine keeps_fields ?_)

theorem Device.serviceTrip_keeps : ∀ a0 a1 a2, Keeps true bc true true d0 a2 → Keeps true bc true true d0 (((@Device.serviceTrip a0 a1 a2)).dev) := by
  intros; unfold Device.serviceTrip; try dsimp only
  repeat' first
      | intro _ | with_reducible assumption | with_reducible apply Device.dramTrip_keeps
      | with_reducible apply Device.ringTrip_keeps | with_reducible apply keeps_ite | dsimp only | split
      | (fail_if_no_progress with_reducible refine keeps_fields ?_)

theorem Device.serviceRead_keeps : ∀ a0 a1 a2, Keeps true bc true true d0 a0 → Keeps true bc true true d0 (((@Device.serviceRead a0 a1 a2)).dev) := by
  intros; unfold Device.serviceRead; try dsimp only
  repeat' first
      | intro _ | with_reducible assumption | with_reducible apply Device.serviceTrip_keeps
      | with_reducible apply Device.readLines_keeps | with_reducible apply keeps_ite | dsimp only | split
      | (fail_if_no_progress with_reducible refine keeps_fields ?_)

theorem Device.serviceWrite_keeps : ∀ a0 a1 a2, Keeps true bc true true d0 a0 → Keeps true bc true true d0 ((@Device.serviceWrite a0 a1 a2)) := by
  intros; unfold Device.serviceWrite; try dsimp only
  repeat' first
      | intro _ | with_reducible assumption | with_reducible apply Device.serviceTrip_keeps
      | with_reducible apply Device.writeLines_keeps | with_reducible apply keeps_ite | dsimp only | split
      | (fail_if_no_progress with_reducible refine keeps_fields ?_)

theorem Device.readSpace_keeps : ∀ a0 a1 a2 a3 a4 a5, Keeps true bc true true d0 a0 → Keeps true bc true true d0 ((@Device.readSpace a0 a1 a2 a3 a4 a5)).dev := by
  intros; unfold Device.readSpace; try dsimp only
  repeat' first
      | intro _ | with_reducible assumption | with_reducible apply Device.readCore_keeps
      | with_reducible apply Device.unitRead_keeps | with_reducible apply keeps_ite | dsimp only | split

theorem Device.sigAdd_keeps : ∀ a0 a1 a2, Keeps bm true bs br d0 a0 → Keeps bm true bs br d0 (@Device.sigAdd a0 a1 a2) := by
  intros; unfold Device.sigAdd; try dsimp only
  repeat' first
      | intro _ | with_reducible assumption | with_reducible apply Device.modCore_keeps | with_reducible apply keeps_ite
      | dsimp only | split

theorem Device.sigStore_keeps : ∀ a0 a1 a2 a3, Keeps bm true bs br d0 a0 → Keeps bm true bs br d0 (@Device.sigStore a0 a1 a2 a3) := by
  intros; unfold Device.sigStore; try dsimp only
  repeat' first
      | intro _ | with_reducible assumption | with_reducible apply Device.each_keeps | with_reducible apply Device.sigAdd_keeps
      | dsimp only | split

theorem Device.writeSpace_keeps : ∀ a0 a1 a2 a3 a4 a5, Keeps true true true true d0 a0 → Keeps true true true true d0 (@Device.writeSpace a0 a1 a2 a3 a4 a5) := by
  intros; unfold Device.writeSpace; try dsimp only
  repeat' first
      | intro _ | with_reducible assumption | with_reducible apply Device.writeCore_keeps
      | with_reducible apply Device.unitWrite_keeps | with_reducible apply Device.sigStore_keeps
      | with_reducible apply keeps_ite | dsimp only | split

theorem Device.readRuns_keeps : ∀ a0 a1 a2 a3 a4, Keeps true bc true true d0 a0 → Keeps true bc true true d0 ((@Device.readRuns a0 a1 a2 a3 a4)).dev := by
  intros; unfold Device.readRuns
  refine keeps_fold ReadRes.dev _ _ _ ?_ ?_
  · assumption
  · intro a x h; exact Device.readSpace_keeps _ _ _ _ _ _ h

theorem Device.readTensor_keeps : ∀ a0 a1 a2 a3, Keeps true bc true true d0 a0 → Keeps true bc true true d0 ((@Device.readTensor a0 a1 a2 a3)).dev := by
  intros; unfold Device.readTensor; try dsimp only
  repeat' first
      | intro _ | with_reducible assumption | with_reducible apply Device.readSpace_keeps
      | with_reducible apply Device.readRuns_keeps | with_reducible apply keeps_ite
      | with_reducible refine keeps_foldl _ _ _ ?_ ?_ | with_reducible refine keeps_foldl_fst _ _ _ ?_ ?_
      | with_reducible refine keeps_foldl_snd _ _ _ ?_ ?_ | dsimp only | split

theorem Device.writeTensor_keeps : ∀ a0 a1 a2 a3 a4, Keeps true true true true d0 a0 → Keeps true true true true d0 (@Device.writeTensor a0 a1 a2 a3 a4) := by
  intros; unfold Device.writeTensor; try dsimp only
  repeat' first
      | intro _ | with_reducible assumption | with_reducible apply Device.each_keeps
      | with_reducible apply Device.writeSpace_keeps | dsimp only | split

theorem Device.writeScales_keeps : ∀ a0 a1 a2 a3 a4, Keeps true true true true d0 a0 → Keeps true true true true d0 (@Device.writeScales a0 a1 a2 a3 a4) := by
  intros; unfold Device.writeScales; try dsimp only
  repeat' first
      | intro _ | with_reducible assumption | with_reducible apply Device.each_keeps
      | with_reducible apply Device.writeSpace_keeps | with_reducible refine keeps_foldl _ _ _ ?_ ?_
      | with_reducible refine keeps_foldl_fst _ _ _ ?_ ?_ | with_reducible refine keeps_foldl_snd _ _ _ ?_ ?_ | dsimp only
      | split

theorem Device.compareFrame_keeps : ∀ a0 a1, Keeps bm true bs true d0 a1 → Keeps bm true bs true d0 ((@Device.compareFrame a0 a1)) := by
  intros; unfold Device.compareFrame; try dsimp only
  repeat' first
      | intro _ | with_reducible assumption | with_reducible apply Device.setReg_keeps
      | with_reducible apply Device.noteBit_keeps | with_reducible apply Device.fault_keeps
      | with_reducible apply keeps_ite | dsimp only | split
      | (fail_if_no_progress with_reducible refine keeps_fields ?_)

theorem Device.sendSignatures_keeps : ∀ a0, Keeps bm true bs true d0 a0 → Keeps bm true bs true d0 (@Device.sendSignatures a0) := by
  intros; unfold Device.sendSignatures; try dsimp only
  repeat' first
      | intro _ | with_reducible assumption | with_reducible apply Device.compareFrame_keeps
      | with_reducible apply Device.sendCont_keeps | with_reducible apply keeps_ite | dsimp only | split
      | (with_reducible refine keeps_fields ?_)

theorem Device.contSigs_keeps : ∀ a0 a1 a2, Keeps bm true bs true d0 a2 → Keeps bm true bs true d0 (@Device.contSigs a0 a1 a2) := by
  intros; unfold Device.contSigs; try dsimp only
  repeat' first
      | intro _ | with_reducible assumption | with_reducible apply Device.contIn_keeps
      | with_reducible apply Device.compareFrame_keeps | with_reducible apply keeps_ite | dsimp only | split
      | (with_reducible refine keeps_fields ?_)

theorem Device.passSync_keeps : ∀ a0 a1 a2, Keeps bm true bs true d0 a0 → Keeps bm true bs true d0 (@Device.passSync a0 a1 a2) := by
  intros; unfold Device.passSync; try dsimp only
  repeat' first
      | intro _ | with_reducible assumption | with_reducible apply Device.modCore_keeps
      | with_reducible apply Device.cueEvent_keeps | dsimp only | split

theorem Device.issueError_keeps : ∀ a0 a1 a2 a3, Keeps bm true bs true d0 a0 → Keeps bm true bs true d0 (@Device.issueError a0 a1 a2 a3) := by
  intros; unfold Device.issueError; try dsimp only
  repeat' first | intro _ | with_reducible assumption | with_reducible apply Device.cueError_keeps | dsimp only | split

theorem Device.issueHold_keeps : ∀ a0 a1 a2, Keeps bm true bs true d0 a0 → Keeps bm true bs true d0 (@Device.issueHold a0 a1 a2) := by
  intros; unfold Device.issueHold; try dsimp only
  repeat' first
      | intro _ | with_reducible assumption | with_reducible apply Device.modCore_keeps
      | with_reducible apply Device.cueEvent_keeps | with_reducible apply keeps_ite | dsimp only | split

theorem Device.tableWrite_keeps : ∀ a0 a1 a2 a3, Keeps bm true bs true d0 a0 → Keeps bm true bs true d0 (@Device.tableWrite a0 a1 a2 a3) := by
  intros; unfold Device.tableWrite; try dsimp only
  repeat' first
      | intro _ | with_reducible assumption | with_reducible apply Device.takeFlip_keeps
      | with_reducible apply Device.modCore_keeps | dsimp only | split

theorem Device.issueSync_keeps : ∀ a0 a1 a2, Keeps bm true bs true d0 a0 → Keeps bm true bs true d0 (@Device.issueSync a0 a1 a2) := by
  intros; unfold Device.issueSync; try dsimp only
  repeat' first
      | intro _ | with_reducible assumption | with_reducible apply Device.issueError_keeps
      | with_reducible apply Device.issueHold_keeps | with_reducible apply Device.passSync_keeps
      | with_reducible apply Device.evtAdd_keeps | with_reducible apply Device.modTake_keeps
      | with_reducible apply Device.modCore_keeps | with_reducible apply Device.cueEvent_keeps
      | with_reducible apply Device.readCore_keeps | with_reducible apply Device.consume_keeps
      | with_reducible apply Device.tableWrite_keeps | dsimp only | split

theorem Device.nbParam_keeps : ∀ a0 a1 a2, Keeps bm bc bs true d0 a0 → Keeps bm bc bs true d0 ((@Device.nbParam a0 a1 a2)).dev := by
  intros; unfold Device.nbParam; try dsimp only
  repeat' first
      | intro _ | with_reducible assumption | with_reducible apply Device.readCore_keeps | with_reducible apply keeps_ite
      | dsimp only | split

theorem Device.noteRefs_keeps : ∀ a0 a1 a2, Keeps bm bc bs true d0 a0 → Keeps bm bc bs true d0 (@Device.noteRefs a0 a1 a2) := by
  intros; unfold Device.noteRefs; try dsimp only
  repeat' first
      | intro _ | with_reducible assumption | with_reducible apply Device.each_keeps
      | with_reducible apply Device.noteCore_keeps | dsimp only | split

theorem Device.issueUnit_keeps : ∀ a0 a1 a2, Keeps bm true bs true d0 a0 → Keeps bm true bs true d0 ((@Device.issueUnit a0 a1 a2)) := by
  intros; unfold Device.issueUnit; try dsimp only
  repeat' first
      | intro _ | with_reducible assumption | with_reducible apply Device.modCore_keeps
      | with_reducible apply Device.noteRefs_keeps | with_reducible apply Device.consume_keeps
      | with_reducible apply Device.nbParam_keeps | with_reducible apply Device.issueError_keeps
      | with_reducible apply keeps_ite | dsimp only | split
      | (fail_if_no_progress with_reducible refine keeps_fields ?_)

theorem Device.issueNext_keeps : ∀ a0 a1 a2, Keeps bm true bs true d0 a2 → Keeps bm true bs true d0 (@Device.issueNext a0 a1 a2) := by
  intros; unfold Device.issueNext; try dsimp only
  repeat' first
      | intro _ | with_reducible assumption | with_reducible apply Device.noteCore_keeps
      | with_reducible apply Device.consume_keeps | with_reducible apply Device.modCore_keeps
      | with_reducible apply Device.issueSync_keeps | with_reducible apply Device.issueUnit_keeps
      | with_reducible apply keeps_ite | dsimp only | split

theorem Device.holdRelease_keeps : ∀ a0 a1, Keeps bm true bs br d0 a1 → Keeps bm true bs br d0 (@Device.holdRelease a0 a1) := by
  intros; unfold Device.holdRelease; try dsimp only
  repeat' first
      | intro _ | with_reducible assumption | with_reducible apply Device.modCore_keeps | with_reducible apply keeps_ite
      | dsimp only | split

theorem Device.arriveSignal_keeps : ∀ a0 a1 a2, Keeps bm true bs true d0 a2 → Keeps bm true bs true d0 (@Device.arriveSignal a0 a1 a2) := by
  intros; unfold Device.arriveSignal; try dsimp only
  repeat' first
      | intro _ | with_reducible assumption | with_reducible apply Device.evtAdd_keeps
      | with_reducible apply Device.modTake_keeps | dsimp only | split

theorem Device.deliverSignal_keeps : ∀ a0 a1, Keeps bm true bs true d0 a1 → Keeps bm true bs true d0 (@Device.deliverSignal a0 a1) := by
  intros; unfold Device.deliverSignal; try dsimp only
  repeat' first
      | intro _ | with_reducible assumption | with_reducible apply Device.arriveSignal_keeps
      | with_reducible apply Device.sendService_keeps | with_reducible apply Device.modTake_keeps
      | with_reducible apply keeps_ite | dsimp only | split

theorem Device.checkFrameDone_keeps : ∀ a0, Keeps bm true bs true d0 a0 → Keeps bm true bs true d0 (@Device.checkFrameDone a0) := by
  intros; unfold Device.checkFrameDone; try dsimp only
  repeat' first
      | intro _ | with_reducible assumption | with_reducible apply Device.setField_keeps
      | with_reducible apply Device.modTake_keeps | with_reducible apply Device.sendSignatures_keeps
      | with_reducible apply Device.event_keeps | with_reducible apply keeps_ite | dsimp only | split

theorem Device.endFrame_keeps : ∀ a0 a1, Keeps bm true bs true d0 a1 → Keeps bm true bs true d0 (@Device.endFrame a0 a1) := by
  intros; unfold Device.endFrame; try dsimp only
  repeat' first
      | intro _ | with_reducible assumption | with_reducible apply Device.modCore_keeps
      | with_reducible apply Device.cueError_keeps | with_reducible apply Device.checkFrameDone_keeps
      | with_reducible apply keeps_ite | dsimp only | split

theorem Device.completeCue_keeps : ∀ a0 a1 a2, Keeps bm true bs true d0 a2 → Keeps bm true bs true d0 ((@Device.completeCue a0 a1 a2)) := by
  intros; unfold Device.completeCue; try dsimp only
  repeat' first
      | intro _ | with_reducible assumption | with_reducible apply Device.each_keeps
      | with_reducible apply Device.modCore_keeps | with_reducible apply Device.cueEvent_keeps
      | with_reducible apply keeps_ite | dsimp only | split
      | (fail_if_no_progress with_reducible refine keeps_fields ?_)

theorem Device.readHdr_keeps : ∀ a0 a1 a2 a3, Keeps true bc true true d0 a0 → Keeps true bc true true d0 ((@Device.readHdr a0 a1 a2 a3)).dev := by
  intros; unfold Device.readHdr; try dsimp only
  repeat' first | intro _ | with_reducible assumption | with_reducible apply Device.unitRead_keeps | dsimp only | split

theorem Device.resolvePage_keeps : ∀ a0 a1 a2, Keeps true bc true true d0 a0 → Keeps true bc true true d0 ((@Device.resolvePage a0 a1 a2)).dev := by
  intros; unfold Device.resolvePage; try dsimp only
  repeat' first
      | intro _ | with_reducible assumption | with_reducible apply Device.readHdr_keeps | with_reducible apply keeps_ite
      | dsimp only | split

theorem Device.readLane_keeps : ∀ a0 a1 a2 a3 a4 a5 a6 a7, Keeps bm bc bs true d0 a0 → Keeps bm bc bs true d0 ((@Device.readLane a0 a1 a2 a3 a4 a5 a6 a7)).dev := by
  intros; unfold Device.readLane; try dsimp only
  repeat' first
      | intro _ | with_reducible assumption | with_reducible apply Device.readCore_keeps | with_reducible apply keeps_ite
      | dsimp only | split

theorem Device.readLanes_keeps : ∀ a0 a1 a2 a3 a4 a5 a6 a7 a8, Keeps bm bc bs true d0 a0 → Keeps bm bc bs true d0 ((@Device.readLanes a0 a1 a2 a3 a4 a5 a6 a7 a8)).1 := by
  intros; unfold Device.readLanes
  refine keeps_foldl_fst _ _ _ ?_ ?_
  · assumption
  · intro a x h; exact Device.readLane_keeps _ _ _ _ _ _ _ _ h

theorem Device.feedFlags_keeps : ∀ a0 a1 a2, Keeps bm bc bs true d0 a0 → Keeps bm bc bs true d0 (@Device.feedFlags a0 a1 a2) := by
  intros; unfold Device.feedFlags; try dsimp only
  repeat' first
      | intro _ | with_reducible assumption | with_reducible apply Device.underflow_keeps
      | with_reducible apply Device.accFlag_keeps | dsimp only | split

theorem Device.arrCount_keeps : ∀ a0 a1 a2 a3 a4, Keeps bm bc bs true d0 a0 → Keeps bm bc bs true d0 (@Device.arrCount a0 a1 a2 a3 a4) := by
  intros; unfold Device.arrCount; try dsimp only
  repeat' first | intro _ | with_reducible assumption | with_reducible apply Device.count_keeps | dsimp only | split

theorem Device.feedTile_keeps : ∀ a0 a1 a2 a3, Keeps bm true bs true d0 a0 → Keeps bm true bs true d0 (@Device.feedTile a0 a1 a2 a3) := by
  intros; unfold Device.feedTile; try dsimp only
  repeat' first
      | intro _ | with_reducible assumption | with_reducible apply Device.readLanes_keeps
      | with_reducible apply Device.consume_keeps | with_reducible apply Device.modCore_keeps
      | with_reducible apply Device.arrCount_keeps | with_reducible apply Device.feedFlags_keeps
      | with_reducible apply keeps_ite | dsimp only | split

theorem Device.feedTiles_keeps : ∀ a0 a1 a2 a3 a4, Keeps bm true bs true d0 a4 → Keeps bm true bs true d0 (@Device.feedTiles a0 a1 a2 a3 a4) := by
  intro k q n
  induction n with
  | zero => intro t d h; exact h
  | succ n ih =>
    intro t d h
    unfold Device.feedTiles
    dsimp only
    repeat' first
        | with_reducible assumption | with_reducible apply Device.arrCount_keeps | with_reducible apply Device.modCore_keeps
        | with_reducible apply ih | with_reducible apply Device.feedTile_keeps | split

theorem Device.beginFeed_keeps : ∀ a0 a1 a2 a3, Keeps bm true bs true d0 a0 → Keeps bm true bs true d0 ((@Device.beginFeed a0 a1 a2 a3)) := by
  intros; unfold Device.beginFeed; try dsimp only
  repeat' first
      | intro _ | with_reducible assumption | with_reducible apply Device.modCore_keeps
      | with_reducible apply Device.feedTiles_keeps | with_reducible apply keeps_ite | dsimp only | split
      | (fail_if_no_progress with_reducible refine keeps_fields ?_)

theorem Device.beginRamp_keeps : ∀ a0 a1, Keeps bm true bs true d0 a0 → Keeps bm true bs true d0 ((@Device.beginRamp a0 a1)) := by
  intros; unfold Device.beginRamp; try dsimp only
  repeat' first
      | intro _ | with_reducible assumption | with_reducible apply Device.arrCount_keeps
      | with_reducible apply Device.modCore_keeps | with_reducible apply keeps_ite | dsimp only | split
      | (fail_if_no_progress with_reducible refine keeps_fields ?_)

theorem Device.startCue_keeps : ∀ a0 a1 a2, Keeps bm true bs true d0 a0 → Keeps bm true bs true d0 ((@Device.startCue a0 a1 a2)) := by
  intros; unfold Device.startCue; try dsimp only
  repeat' first
      | intro _ | with_reducible assumption | with_reducible apply Device.modCore_keeps
      | with_reducible apply Device.arrCount_keeps | with_reducible apply Device.beginFeed_keeps
      | with_reducible apply Device.beginRamp_keeps | with_reducible apply keeps_ite | dsimp only | split
      | (fail_if_no_progress with_reducible refine keeps_fields ?_)

theorem Device.matrixStep_keeps : ∀ a0 a1, Keeps bm true bs true d0 a1 → Keeps bm true bs true d0 ((@Device.matrixStep a0 a1)) := by
  intros; unfold Device.matrixStep; try dsimp only
  repeat' first
      | intro _ | with_reducible assumption | with_reducible apply Device.beginFeed_keeps
      | with_reducible apply Device.feedTiles_keeps | with_reducible apply Device.cueError_keeps
      | with_reducible apply Device.startCue_keeps | with_reducible apply keeps_ite | dsimp only | split
      | (fail_if_no_progress with_reducible refine keeps_fields ?_)

theorem Device.unloadTile_keeps : ∀ a0 a1, Keeps bm true bs true d0 a1 → Keeps bm true bs true d0 (@Device.unloadTile a0 a1) := by
  intros; unfold Device.unloadTile; try dsimp only
  repeat' first
      | intro _ | with_reducible assumption | with_reducible apply Device.accFlag_keeps
      | with_reducible apply Device.modCore_keeps | with_reducible apply keeps_ite | dsimp only | split

theorem Device.rampUp_keeps : ∀ a0 a1, Keeps bm true bs true d0 a1 → Keeps bm true bs true d0 ((@Device.rampUp a0 a1)) := by
  intros; unfold Device.rampUp; try dsimp only
  repeat' first
      | intro _ | with_reducible assumption | with_reducible apply Device.arrCount_keeps
      | with_reducible apply Device.modCore_keeps | with_reducible apply keeps_ite | dsimp only | split
      | (fail_if_no_progress with_reducible refine keeps_fields ?_)

theorem Device.drainEnd_keeps : ∀ a0 a1, Keeps bm true bs true d0 a1 → Keeps bm true bs true d0 ((@Device.drainEnd a0 a1)) := by
  intros; unfold Device.drainEnd; try dsimp only
  repeat' first
      | intro _ | with_reducible assumption | with_reducible apply Device.arrCount_keeps
      | with_reducible apply Device.modCore_keeps | with_reducible apply keeps_ite | dsimp only | split
      | (fail_if_no_progress with_reducible refine keeps_fields ?_)

theorem Device.resetArrays_keeps : ∀ a0 a1, Keeps bm true bs br d0 a0 → Keeps bm true bs br d0 ((@Device.resetArrays a0 a1)) := by
  intros; unfold Device.resetArrays; try dsimp only
  repeat' first
      | intro _ | with_reducible assumption | with_reducible apply Device.each_keeps
      | with_reducible apply Device.modCore_keeps | with_reducible apply Device.modTower_keeps
      | with_reducible apply Device.mbxEndOf_keeps | with_reducible apply keeps_ite | dsimp only | split
      | (fail_if_no_progress with_reducible refine keeps_fields ?_)

theorem Device.rampDown_keeps : ∀ a0 a1, Keeps bm true bs true d0 a1 → Keeps bm true bs true d0 ((@Device.rampDown a0 a1)) := by
  intros; unfold Device.rampDown; try dsimp only
  repeat' first
      | intro _ | with_reducible assumption | with_reducible apply Device.arrCount_keeps
      | with_reducible apply Device.modCore_keeps | with_reducible apply Device.resetArrays_keeps
      | with_reducible apply keeps_ite | dsimp only | split
      | (fail_if_no_progress with_reducible refine keeps_fields ?_)

theorem Device.markDone_keeps : ∀ a0 a1 a2, Keeps bm true bs br d0 a0 → Keeps bm true bs br d0 (@Device.markDone a0 a1 a2) := by
  intros; unfold Device.markDone; try dsimp only
  repeat' first | intro _ | with_reducible assumption | with_reducible apply Device.modCore_keeps | dsimp only | split

theorem Device.vectorStep_keeps : ∀ a0 a1 a2, Keeps true true true true d0 a2 → Keeps true true true true d0 (@Device.vectorStep a0 a1 a2) := by
  intros; unfold Device.vectorStep; try dsimp only
  repeat' first
      | intro _ | with_reducible assumption | with_reducible apply Device.readTensor_keeps
      | with_reducible apply Device.consume_keeps | with_reducible apply Device.cueError_keeps
      | with_reducible apply Device.modCore_keeps | with_reducible apply Device.writeScales_keeps
      | with_reducible apply Device.writeTensor_keeps | with_reducible apply Device.markDone_keeps
      | with_reducible apply Device.convFlags_keeps | with_reducible apply keeps_ite | dsimp only | split

theorem Device.functionStep_keeps : ∀ a0 a1 a2, Keeps true true true true d0 a2 → Keeps true true true true d0 (@Device.functionStep a0 a1 a2) := by
  intros; unfold Device.functionStep; try dsimp only
  repeat' first
      | intro _ | with_reducible assumption | with_reducible apply Device.readTensor_keeps
      | with_reducible apply Device.consume_keeps | with_reducible apply Device.cueError_keeps
      | with_reducible apply Device.modCore_keeps | with_reducible apply Device.markDone_keeps
      | with_reducible apply Device.convFlags_keeps | with_reducible apply Device.writeTensor_keeps
      | with_reducible apply keeps_ite | dsimp only | split

theorem Device.evictCands_keeps : ∀ a0 a1 a2, Keeps true bc true true d0 a0 → Keeps true bc true true d0 (((@Device.evictCands a0 a1 a2)).1).dev := by
  intros; unfold Device.evictCands
  refine keeps_fold (fun a : KvRes × List (Nat × Nat) => a.1.dev) _ _ _ ?_ ?_
  · assumption
  · intro a x h; exact Device.readHdr_keeps _ _ _ _ h

theorem Device.freePage_keeps : ∀ a0 a1 a2 a3 a4, Keeps true true true true d0 a0 → Keeps true true true true d0 (@Device.freePage a0 a1 a2 a3 a4) := by
  intros; unfold Device.freePage; try dsimp only
  repeat' first
      | intro _ | with_reducible assumption | with_reducible apply Device.unitWrite_keeps
      | with_reducible apply Device.modCore_keeps | with_reducible apply Device.count_keeps | with_reducible apply keeps_ite
      | dsimp only | split

theorem Device.evictPages_keeps : ∀ a0 a1 a2 a3, Keeps true true true true d0 a0 → Keeps true true true true d0 ((@Device.evictPages a0 a1 a2 a3)).dev := by
  intros; unfold Device.evictPages; try dsimp only
  repeat' first
      | intro _ | with_reducible assumption | with_reducible apply Device.evictCands_keeps
      | with_reducible apply Device.each_keeps | with_reducible apply Device.freePage_keeps | with_reducible apply keeps_ite
      | dsimp only | split

theorem Device.evictStep_keeps : ∀ a0 a1, Keeps true true true true d0 a1 → Keeps true true true true d0 (@Device.evictStep a0 a1) := by
  intros; unfold Device.evictStep; try dsimp only
  repeat' first
      | intro _ | with_reducible assumption | with_reducible apply Device.evictPages_keeps
      | with_reducible apply Device.consume_keeps | with_reducible apply Device.markDone_keeps | dsimp only | split

theorem Device.allocFrame_keeps : ∀ a0 a1 a2, Keeps true true true true d0 a0 → Keeps true true true true d0 (((@Device.allocFrame a0 a1 a2)).1).dev := by
  intros; unfold Device.allocFrame; try dsimp only
  repeat' first
      | intro _ | with_reducible assumption | with_reducible apply Device.modCore_keeps
      | with_reducible apply Device.evictPages_keeps | dsimp only | split

theorem Device.roomFor_keeps : ∀ a0 a1 a2, Keeps true bc true true d0 a0 → Keeps true bc true true d0 (((@Device.roomFor a0 a1 a2)).1).dev := by
  intros; unfold Device.roomFor; try dsimp only
  repeat' first
      | intro _ | with_reducible assumption | with_reducible apply Device.evictCands_keeps | with_reducible apply keeps_ite
      | dsimp only | split

theorem Device.flush_keeps : ∀ a0 a1 a2 a3, Keeps true true true true d0 a0 → Keeps true true true true d0 ((@Device.flush a0 a1 a2 a3)).dev := by
  intros; unfold Device.flush; try dsimp only
  repeat' first
      | intro _ | with_reducible assumption | with_reducible apply Device.allocFrame_keeps
      | with_reducible apply Device.readCore_keeps | with_reducible apply Device.unitRead_keeps
      | with_reducible apply Device.unitWrite_keeps | with_reducible apply Device.writeCore_keeps
      | with_reducible apply Device.modCore_keeps | with_reducible apply Device.count_keeps | with_reducible apply keeps_ite
      | dsimp only | split

theorem Device.stage_keeps : ∀ a0 a1 a2 a3, Keeps bm true bs true d0 a0 → Keeps bm true bs true d0 (@Device.stage a0 a1 a2 a3) := by
  intros; unfold Device.stage; try dsimp only
  repeat' first | intro _ | with_reducible assumption | with_reducible apply Device.writeCore_keeps | dsimp only | split

theorem Device.readRows_keeps : ∀ a0 a1 a2 a3 a4 a5, Keeps bm bc bs true d0 a0 → Keeps bm bc bs true d0 (((@Device.readRows a0 a1 a2 a3 a4 a5)).dev) := by
  intros; unfold Device.readRows; try dsimp only
  repeat' first
      | intro _ | with_reducible assumption | with_reducible apply Device.readCore_keeps
      | with_reducible apply keeps_ite | with_reducible refine keeps_foldl _ _ _ ?_ ?_
      | with_reducible refine keeps_foldl_fst _ _ _ ?_ ?_ | with_reducible refine keeps_foldl_snd _ _ _ ?_ ?_
      | with_reducible refine keeps_fold ReadRes.dev _ _ _ ?_ ?_ | dsimp only | split
      | (fail_if_no_progress with_reducible refine keeps_fields ?_)

theorem Device.quantOpen_keeps : ∀ a0 a1 a2 a3 a4 a5, Keeps bm bc bs true d0 a0 → Keeps bm bc bs true d0 (((@Device.quantOpen a0 a1 a2 a3 a4 a5)).dev) := by
  intros; unfold Device.quantOpen; try dsimp only
  repeat' first
      | intro _ | with_reducible assumption | with_reducible apply_assumption
      | with_reducible apply Device.readRows_keeps | with_reducible apply keeps_ite | dsimp only | split
      | (fail_if_no_progress with_reducible refine keeps_fields ?_)

theorem Device.placeRow_keeps : ∀ a0 a1 a2 a3 a4 a5 a6, Keeps bm true bs true d0 a0 → Keeps bm true bs true d0 ((@Device.placeRow a0 a1 a2 a3 a4 a5 a6)).dev := by
  intros; unfold Device.placeRow; try dsimp only
  repeat' first
      | intro _ | with_reducible assumption | with_reducible apply Device.modCore_keeps
      | with_reducible apply Device.stage_keeps | with_reducible apply Device.each_keeps
      | with_reducible apply Device.quantOpen_keeps | with_reducible apply keeps_ite | dsimp only | split

theorem Device.placeRows_keeps : ∀ a0 a1 a2 a3 a4 a5 a6 a7, Keeps true true true true d0 (a7).dev → Keeps true true true true d0 ((@Device.placeRows a0 a1 a2 a3 a4 a5 a6 a7)).dev := by
  intro k gi pf dim home rnd rows
  induction rows with
  | nil => intro r h; exact h
  | cons row rest ih =>
    intro r h
    unfold Device.placeRows
    dsimp only
    repeat' first
        | with_reducible assumption | with_reducible apply ih | split | with_reducible apply Device.flush_keeps
        | with_reducible apply Device.placeRow_keeps | dsimp only

theorem Device.appendStep_keeps : ∀ a0 a1, Keeps true true true true d0 a1 → Keeps true true true true d0 (@Device.appendStep a0 a1) := by
  intros; unfold Device.appendStep; try dsimp only
  repeat' first
      | intro _ | with_reducible assumption | with_reducible apply Device.roomFor_keeps
      | with_reducible apply Device.cueError_keeps | with_reducible apply Device.consume_keeps
      | with_reducible apply Device.readTensor_keeps | with_reducible apply Device.placeRows_keeps
      | with_reducible apply Device.convFlags_keeps | with_reducible apply Device.markDone_keeps
      | with_reducible apply keeps_ite | dsimp only | split

theorem Device.updateScore_keeps : ∀ a0 a1 a2, Keeps true bc true true d0 a0 → Keeps true bc true true d0 ((@Device.updateScore a0 a1 a2)).dev := by
  intros; unfold Device.updateScore; try dsimp only
  repeat' first
      | intro _ | with_reducible assumption | with_reducible apply Device.readHdr_keeps
      | with_reducible apply Device.unitWrite_keeps | with_reducible apply keeps_ite | dsimp only | split

theorem AttRun.take_keeps : ∀ a0 a1 a2 a3, Keeps bm bc bs br d0 (a0).dev → Keeps bm bc bs br d0 ((@AttRun.take a0 a1 a2 a3)).dev := by
  intros; unfold AttRun.take; try dsimp only
  repeat' first | intro _ | with_reducible assumption | dsimp only | split

theorem attPage_keeps : ∀ a0 a1 a2, Keeps true bc true true d0 (a1).dev → Keeps true bc true true d0 ((@attPage a0 a1 a2)).dev := by
  intros; unfold attPage; dsimp only
  repeat' first
      | with_reducible assumption | with_reducible apply keeps_pick AttRun.dev | with_reducible apply keeps_pick ReadRes.dev
      | with_reducible apply Device.resolvePage_keeps | with_reducible apply Device.log_keeps
      | with_reducible apply Device.attFlag_keeps | with_reducible apply Device.count_keeps
      | with_reducible apply Device.readMem_keeps | with_reducible apply Device.unitRead_keeps
      | with_reducible apply AttRun.take_keeps | dsimp only

theorem Device.tailData_keeps : ∀ a0 a1 a2 a3 a4, Keeps bm bc bs true d0 a0 → Keeps bm bc bs true d0 ((((@Device.tailData a0 a1 a2 a3 a4)).1).dev) := by
  intros; unfold Device.tailData; try dsimp only
  repeat' first
      | intro _ | with_reducible assumption | with_reducible apply Device.readCore_keeps
      | with_reducible apply Device.readRows_keeps | with_reducible apply Device.quantOpen_keeps
      | with_reducible apply keeps_ite | dsimp only | split
      | (fail_if_no_progress with_reducible refine keeps_fields ?_)

theorem attTail_keeps : ∀ a0 a1 a2 a3, Keeps bm bc bs true d0 ((a1).dev) → Keeps bm bc bs true d0 (((@attTail a0 a1 a2 a3)).dev) := by
  intros; unfold attTail; try dsimp only
  repeat' first
      | intro _ | with_reducible assumption | with_reducible apply Device.readCore_keeps
      | with_reducible apply Device.tailData_keeps | with_reducible apply AttRun.take_keeps
      | with_reducible apply keeps_ite | dsimp only | split
      | (fail_if_no_progress with_reducible refine keeps_fields ?_)

theorem Device.attCycles_keeps : ∀ a0 a1 a2 a3 a4, Keeps bm true bs true d0 a0 → Keeps bm true bs true d0 ((@Device.attCycles a0 a1 a2 a3 a4)) := by
  intros; unfold Device.attCycles; try dsimp only
  repeat' first
      | intro _ | with_reducible assumption | with_reducible apply Device.arrCount_keeps
      | with_reducible apply Device.modCore_keeps | with_reducible apply keeps_ite
      | with_reducible refine keeps_foldl _ _ _ ?_ ?_ | with_reducible refine keeps_foldl_fst _ _ _ ?_ ?_
      | with_reducible refine keeps_foldl_snd _ _ _ ?_ ?_ | dsimp only | split
      | (fail_if_no_progress with_reducible refine keeps_fields ?_)

theorem Device.attWaited_keeps : ∀ a0 a1, Keeps bm true bs true d0 a0 → Keeps bm true bs true d0 ((@Device.attWaited a0 a1)) := by
  intros; unfold Device.attWaited; try dsimp only
  repeat' first
      | intro _ | with_reducible assumption | with_reducible apply Device.count_keeps
      | with_reducible apply Device.modCore_keeps | with_reducible apply keeps_ite | dsimp only | split
      | (fail_if_no_progress with_reducible refine keeps_fields ?_)

theorem Device.attWaits_keeps : ∀ a0 a1, Keeps bm true bs br d0 a1 → Keeps bm true bs br d0 ((@Device.attWaits a0 a1)) := by
  intros; unfold Device.attWaits; try dsimp only
  repeat' first
      | intro _ | with_reducible assumption | with_reducible apply Device.modCore_keeps
      | with_reducible apply keeps_ite | dsimp only | split
      | (fail_if_no_progress with_reducible refine keeps_fields ?_)

theorem Device.attLoad_keeps : ∀ a0 a1 a2 a3 a4, Keeps true bc true true d0 a0 → Keeps true bc true true d0 ((@Device.attLoad a0 a1 a2 a3 a4)).dev := by
  intros; unfold Device.attLoad; try dsimp only
  repeat' first
      | intro _ | with_reducible assumption | with_reducible apply Device.readCore_keeps
      | with_reducible apply Device.readTensor_keeps | with_reducible apply keeps_ite | dsimp only | split

theorem attBlocks_keeps : ∀ a0 a1 a2 a3, Keeps true bc true true d0 (a2).dev → Keeps true bc true true d0 ((@attBlocks a0 a1 a2 a3)).dev := by
  intros; unfold attBlocks; try dsimp only
  split
  · apply attTail_keeps
    refine keeps_fold AttRun.dev _ _ _ ?_ ?_
    · assumption
    · intro a x h; exact attPage_keeps _ _ _ h
  · refine keeps_fold AttRun.dev _ _ _ ?_ ?_
    · assumption
    · intro a x h; exact attPage_keeps _ _ _ h

theorem Device.staleRef_keeps : ∀ a0 a1 a2, Keeps bm bc bs true d0 a2 → Keeps bm bc bs true d0 (@Device.staleRef a0 a1 a2) := by
  intros; unfold Device.staleRef; try dsimp only
  repeat' first
      | intro _ | with_reducible assumption | with_reducible apply Device.log_keeps | with_reducible apply Device.attFlag_keeps
      | with_reducible apply Device.count_keeps | dsimp only | split

theorem Device.attFlags_keeps : ∀ a0 a1 a2, Keeps bm bc bs true d0 a0 → Keeps bm bc bs true d0 (a2).dev → Keeps bm bc bs true d0 (@Device.attFlags a0 a1 a2) := by
  intros; unfold Device.attFlags; try dsimp only
  repeat' first
      | intro _ | with_reducible assumption | with_reducible apply Device.convFlags_keeps
      | with_reducible apply Device.accFlag_keeps | with_reducible apply Device.feedFlags_keeps
      | with_reducible apply Device.each_keeps | with_reducible apply Device.staleRef_keeps | dsimp only | split

theorem Device.attWrite_keeps : ∀ a0 a1 a2 a3 a4 a5 a6, Keeps bm true bs true d0 a0 → Keeps bm true bs true d0 ((a4).dev) → Keeps bm true bs true d0 ((a6).dev) → Keeps bm true bs true d0 ((@Device.attWrite a0 a1 a2 a3 a4 a5 a6)) := by
  intros; unfold Device.attWrite; try dsimp only
  repeat' first
      | intro _ | with_reducible assumption | with_reducible apply Device.drawBytes_keeps
      | with_reducible apply Device.attWaited_keeps | with_reducible apply Device.attCycles_keeps
      | with_reducible apply Device.writeCore_keeps | with_reducible apply Device.attFlag_keeps
      | with_reducible apply keeps_ite | dsimp only | split
      | (fail_if_no_progress with_reducible refine keeps_fields ?_)

theorem Device.attScores_keeps : ∀ a0 a1 a2, Keeps true bc true true d0 a0 → Keeps true bc true true d0 ((@Device.attScores a0 a1 a2)).dev := by
  intros; unfold Device.attScores
  refine keeps_fold KvRes.dev _ _ _ ?_ ?_
  · assumption
  · intro a x h
    try dsimp only
    split
    · exact Device.updateScore_keeps _ _ _ h
    · exact h

theorem Device.attendStep_keeps : ∀ a0 a1, Keeps true true true true d0 a1 → Keeps true true true true d0 ((@Device.attendStep a0 a1)) := by
  intros; unfold Device.attendStep; try dsimp only
  repeat' first
      | intro _ | with_reducible assumption | with_reducible apply attBlocks_keeps
      | with_reducible apply Device.attWaits_keeps | with_reducible apply Device.readCore_keeps
      | with_reducible apply Device.consume_keeps | with_reducible apply Device.cueError_keeps
      | with_reducible apply Device.attLoad_keeps | with_reducible apply Device.attFlags_keeps
      | with_reducible apply Device.attWrite_keeps | with_reducible apply Device.attScores_keeps
      | with_reducible apply Device.markDone_keeps | with_reducible apply keeps_ite | dsimp only | split
      | (fail_if_no_progress with_reducible refine keeps_fields ?_)

theorem Device.attendCue_keeps : ∀ a0 a1, Keeps true true true true d0 a1 → Keeps true true true true d0 ((@Device.attendCue a0 a1)) := by
  intros; unfold Device.attendCue; try dsimp only
  repeat' first
      | intro _ | with_reducible assumption | with_reducible apply Device.attendStep_keeps
      | with_reducible apply Device.attWaits_keeps | with_reducible apply keeps_ite | dsimp only | split
      | (fail_if_no_progress with_reducible refine keeps_fields ?_)

theorem Device.finishStep_keeps : ∀ a0 a1, Keeps true true true true d0 a1 → Keeps true true true true d0 (@Device.finishStep a0 a1) := by
  intros; unfold Device.finishStep; try dsimp only
  repeat' first
      | intro _ | with_reducible assumption | with_reducible apply Device.readCore_keeps
      | with_reducible apply Device.consume_keeps | with_reducible apply Device.cueError_keeps
      | with_reducible apply Device.convFlags_keeps | with_reducible apply Device.writeTensor_keeps
      | with_reducible apply Device.markDone_keeps | with_reducible apply Device.attFlag_keeps | with_reducible apply keeps_ite
      | dsimp only | split

end Sys2Proof.Machine
end

