-- ==== Sys2Proof/Laws/KeepsMemory.lean ====
section
/-! SUPPORT. What no operation breaks: the DMA units and engines, the ring, the store and the DRAM channels. -/
namespace Sys2Proof.Machine

open Sys2Proof

set_option Elab.async false
set_option linter.unreachableTactic false
set_option linter.unusedTactic false

variable {bm bc bs br : Bool} {d0 : Device}

theorem Device.hostPut_keeps : ∀ a0 a1 a2 a3, Keeps true bc bs br d0 a0 → Keeps true bc bs br d0 (@Device.hostPut a0 a1 a2 a3) := by
  intros; unfold Device.hostPut
  exact keeps_hostMem _ (by assumption) fun h => Memory.wf_write h _ _ _ _

theorem Device.modEngine_keeps : ∀ a0 a1 a2, Keeps bm bc bs br d0 a0 → Keeps bm bc bs br d0 (@Device.modEngine a0 a1 a2) := by
  intros; unfold Device.modEngine; try dsimp only
  repeat' first | intro _ | with_reducible assumption | dsimp only | split | (with_reducible refine keeps_fields ?_)

theorem Device.modDesc_keeps : ∀ a0 a1 a2 a3, Keeps bm bc bs br d0 a0 → Keeps bm bc bs br d0 (@Device.modDesc a0 a1 a2 a3) := by
  intros; unfold Device.modDesc; try dsimp only
  repeat' first
      | intro _ | with_reducible assumption | with_reducible apply_assumption | with_reducible apply Device.modEngine_keeps
      | with_reducible apply keeps_ite | dsimp only | split

theorem Device.dmaHalt_keeps : ∀ a0 a1 a2, Keeps bm bc bs true d0 a2 → Keeps bm bc bs true d0 (@Device.dmaHalt a0 a1 a2) := by
  intros; unfold Device.dmaHalt; try dsimp only
  repeat' first
      | intro _ | with_reducible assumption | with_reducible apply Device.setField_keeps
      | with_reducible apply Device.setBit_keeps | with_reducible apply Device.raiseVector_keeps
      | with_reducible apply Device.modEngine_keeps | dsimp only | split

theorem Device.dmaFinish_keeps : ∀ a0 a1, Keeps true bc bs true d0 a1 → Keeps true bc bs true d0 (@Device.dmaFinish a0 a1) := by
  intros; unfold Device.dmaFinish; try dsimp only
  repeat' first
      | intro _ | with_reducible assumption | with_reducible apply Device.dmaHalt_keeps
      | with_reducible apply Device.setField_keeps | with_reducible apply Device.modEngine_keeps
      | with_reducible apply Device.hostPut_keeps | with_reducible apply Device.ring_keeps
      | with_reducible apply Device.raiseVector_keeps | with_reducible apply keeps_ite | dsimp only | split

theorem Device.dmaFail_keeps : ∀ a0 a1 a2 a3, Keeps true bc bs true d0 a3 → Keeps true bc bs true d0 (@Device.dmaFail a0 a1 a2 a3) := by
  intros; unfold Device.dmaFail; try dsimp only
  repeat' first
      | intro _ | with_reducible assumption | with_reducible apply Device.each_keeps
      | with_reducible apply Device.dmaFinish_keeps | with_reducible apply Device.modDesc_keeps
      | with_reducible apply keeps_ite | dsimp only | split

theorem Device.ringPump_keeps : ∀ a0 a1, Keeps bm bc true true d0 a1 → Keeps bm bc true true d0 (@Device.ringPump a0 a1) := by
  intros; unfold Device.ringPump; try dsimp only
  repeat' first
      | intro _ | with_reducible assumption | with_reducible apply Device.pumpPorts_keeps
      | with_reducible apply Device.each_keeps | with_reducible apply Device.ringDrain_keeps | with_reducible apply keeps_ite
      | dsimp only | split

theorem Device.setJobs_keeps : ∀ a0 a1 a2, Keeps bm bc bs br d0 a0 → Keeps bm bc bs br d0 (@Device.setJobs a0 a1 a2) := by
  intros; unfold Device.setJobs; try dsimp only
  repeat' first | intro _ | with_reducible assumption | dsimp only | split | (with_reducible refine keeps_fields ?_)

theorem Device.hostAddrError_keeps : ∀ a0 a1, Keeps bm bc bs true d0 a0 → Keeps bm bc bs true d0 (@Device.hostAddrError a0 a1) := by
  intros; unfold Device.hostAddrError; try dsimp only
  repeat' first
      | intro _ | with_reducible assumption | with_reducible apply Device.addrError_keeps
      | with_reducible apply Device.count_keeps | with_reducible apply Device.setBit_keeps | dsimp only | split

theorem Access.hostLine_keeps : ∀ a0 a1 a2, Keeps bm bc bs true d0 (a1).1 → Keeps bm bc bs true d0 ((@Access.hostLine a0 a1 a2)).1 := by
  intros; unfold Access.hostLine; try dsimp only
  repeat' first
      | intro _ | with_reducible assumption | with_reducible apply Device.drawBytes_keeps
      | with_reducible apply Device.count_keeps | with_reducible apply Device.setBit_keeps | with_reducible apply keeps_ite
      | dsimp only | split

theorem Device.ackPort_keeps : ∀ a0 a1 a2 a3, Keeps bm bc bs true d0 a0 → Keeps bm bc bs true d0 (@Device.ackPort a0 a1 a2 a3) := by
  intros; unfold Device.ackPort; try dsimp only
  repeat' first
      | intro _ | with_reducible assumption | with_reducible apply Device.ackTo_keeps | with_reducible apply keeps_ite
      | dsimp only | split

theorem Device.landedBy_keeps : ∀ a0 a1, Keeps bm bc bs br d0 a0 → Keeps bm bc bs br d0 (@Device.landedBy a0 a1) := by
  intros; unfold Device.landedBy; try dsimp only
  repeat' first
      | intro _ | with_reducible assumption | with_reducible apply Device.modTake_keeps | with_reducible apply keeps_ite
      | dsimp only | split

theorem Device.refuseLate_keeps : ∀ a0 a1 a2, Keeps bm bc bs true d0 a0 → Keeps bm bc bs true d0 (@Device.refuseLate a0 a1 a2) := by
  intros; unfold Device.refuseLate; try dsimp only
  repeat' first
      | intro _ | with_reducible assumption | with_reducible apply Device.ackPort_keeps
      | with_reducible apply Device.refused_keeps | dsimp only | split

theorem Device.outputLeft_keeps : ∀ a0 a1, Keeps bm bc bs true d0 a1 → Keeps bm bc bs true d0 ((@Device.outputLeft a0 a1)) := by
  intros; unfold Device.outputLeft; try dsimp only
  repeat' first
      | intro _ | with_reducible assumption | with_reducible apply Device.setField_keeps
      | with_reducible apply keeps_ite | dsimp only | split
      | (fail_if_no_progress with_reducible refine keeps_fields ?_)

theorem Device.finish_keeps : ∀ a0 a1, Keeps true bc bs true d0 a1 → Keeps true bc bs true d0 ((@Device.finish a0 a1)) := by
  intros; unfold Device.finish; try dsimp only
  repeat' first
      | intro _ | with_reducible assumption | with_reducible apply Device.hostAddrError_keeps
      | with_reducible apply Device.emit_keeps | with_reducible apply Device.addrError_keeps
      | with_reducible apply Device.dmaFail_keeps | with_reducible apply Device.hostPut_keeps
      | with_reducible apply Device.modDesc_keeps | with_reducible apply Device.refuseLate_keeps
      | with_reducible apply Device.landedBy_keeps | with_reducible apply Device.ackPort_keeps
      | with_reducible apply Device.outputLeft_keeps | with_reducible apply Device.setJobs_keeps
      | with_reducible apply Access.hostLine_keeps | with_reducible apply keeps_ite
      | with_reducible refine keeps_foldl _ _ _ ?_ ?_ | with_reducible refine keeps_foldl_fst _ _ _ ?_ ?_
      | with_reducible refine keeps_foldl_snd _ _ _ ?_ ?_ | with_reducible refine keeps_fold ReadRes.dev _ _ _ ?_ ?_
      | dsimp only | split | (fail_if_no_progress with_reducible refine keeps_fields ?_)

theorem Device.access_keeps : ∀ a0 a1 a2 a3 a4 a5 a6 a7 a8, Keeps true bc true true d0 a8 → Keeps true bc true true d0 (@Device.access a0 a1 a2 a3 a4 a5 a6 a7 a8) := by
  intros; unfold Device.access; try dsimp only
  repeat' first
      | intro _ | with_reducible assumption | with_reducible apply Device.finish_keeps
      | with_reducible apply Device.ringPump_keeps | with_reducible apply Device.each_keeps
      | with_reducible apply Device.ringPut_keeps | with_reducible apply keeps_ite | dsimp only | split
      | (with_reducible refine keeps_fields ?_)

theorem Device.ringAnswer_keeps : ∀ a0 a1 a2, Keeps true bc bs true d0 a0 → Keeps true bc bs true d0 (@Device.ringAnswer a0 a1 a2) := by
  intros; unfold Device.ringAnswer; try dsimp only
  repeat' first
      | intro _ | with_reducible assumption | with_reducible apply Device.finish_keeps | with_reducible apply keeps_ite
      | dsimp only | split | (with_reducible refine keeps_fields ?_)

theorem Device.headMod_keeps : ∀ a0 a1 a2 a3, Keeps bm true bs br d0 a0 → Keeps bm true bs br d0 (@Device.headMod a0 a1 a2 a3) := by
  intros; unfold Device.headMod; try dsimp only
  repeat' first | intro _ | with_reducible assumption | with_reducible apply Device.modCore_keeps | dsimp only | split

theorem Device.workMod_keeps : ∀ a0 a1 a2 a3, Keeps bm true bs br d0 a0 → Keeps bm true bs br d0 (@Device.workMod a0 a1 a2 a3) := by
  intros; unfold Device.workMod; try dsimp only
  repeat' first | intro _ | with_reducible assumption | with_reducible apply Device.headMod_keeps | dsimp only | split

theorem Device.mcastMod_keeps : ∀ a0 a1 a2, Keeps bm bc bs br d0 a0 → Keeps bm bc bs br d0 (@Device.mcastMod a0 a1 a2) := by
  intros; unfold Device.mcastMod; try dsimp only
  repeat' first
      | intro _ | with_reducible assumption | with_reducible apply Device.modHalf_keeps | with_reducible apply keeps_ite
      | dsimp only | split

theorem Device.dmaSettle_keeps : ∀ a0 a1 a2, Keeps bm true bs br d0 a0 → Keeps bm true bs br d0 ((@Device.dmaSettle a0 a1 a2)) := by
  intros; unfold Device.dmaSettle; try dsimp only
  repeat' first
      | intro _ | with_reducible assumption | with_reducible apply Device.markDone_keeps
      | with_reducible apply Device.each_keeps | with_reducible apply Device.modCore_keeps
      | with_reducible apply Device.mcastMod_keeps | with_reducible apply Device.modHalf_keeps
      | with_reducible apply keeps_ite | dsimp only | split
      | (fail_if_no_progress with_reducible refine keeps_fields ?_)

theorem Device.passBond_keeps : ∀ a0 a1 a2 a3 a4, Keeps bm bc bs true d0 a0 → Keeps bm bc bs true d0 ((@Device.passBond a0 a1 a2 a3 a4)).1 := by
  intros; unfold Device.passBond; try dsimp only
  repeat' first | intro _ | with_reducible assumption | with_reducible apply Device.crossed_keeps | dsimp only | split

theorem Device.land_keeps : ∀ a0 a1 a2 a3 a4 a5 a6, Keeps bm true bs true d0 a0 → Keeps bm true bs true d0 (@Device.land a0 a1 a2 a3 a4 a5 a6) := by
  intros; unfold Device.land; try dsimp only
  repeat' first
      | intro _ | with_reducible assumption | with_reducible apply Device.passBond_keeps
      | with_reducible apply Device.writeCore_keeps | with_reducible apply Device.each_keeps | with_reducible apply keeps_ite
      | dsimp only | split

theorem Device.heldIssue_keeps : ∀ a0 a1 a2 a3, Keeps bm true true true d0 a0 → ∀ r, (@Device.heldIssue a0 a1 a2 a3) = some r → Keeps bm true true true d0 r := by
  intro d k u x h r hr
  unfold Device.heldIssue at hr
  dsimp only at hr
  split at hr
  · simp only [Option.map_eq_some_iff] at hr
    obtain ⟨a, ha, rfl⟩ := hr
    exact Device.workMod_keeps _ _ _ _ (Device.pushAll_keeps _ _ h _ ha)
  · simp only [Option.map_eq_some_iff] at hr
    obtain ⟨a, ha, rfl⟩ := hr
    exact Device.workMod_keeps _ _ _ _ (Device.sigStore_keeps _ _ _ _ (Device.coreTxn_keeps _ _ _ h _ ha))

theorem Device.pieceIssue_keeps : ∀ a0 a1 a2 a3 a4, Keeps bm true true true d0 a0 → ∀ r, (@Device.pieceIssue a0 a1 a2 a3 a4) = some r → Keeps bm true true true d0 (r) := by
  intro a0 a1 a2 a3 a4 h0 r hr; unfold Device.pieceIssue at hr; try dsimp only at hr
  repeat' first
      | cases hr | intro _ | with_reducible assumption
      | with_reducible refine Device.pushReq_keeps _ _ _ _ _ ?_ _ (by assumption)
      | with_reducible refine Device.coreTxn_keeps _ _ _ ?_ _ (by assumption)
      | with_reducible refine Device.heldIssue_keeps _ _ _ _ ?_ _ (by assumption)
      | with_reducible apply Device.workMod_keeps | with_reducible apply Device.readCore_keeps
      | (rw [Option.map_eq_some_iff] at hr; obtain ⟨_, _, hr⟩ := hr; cases hr)
      | (rw [Option.bind_eq_some_iff] at hr; obtain ⟨_, _, hr⟩ := hr) | dsimp only at hr | split at hr
      | with_reducible apply keeps_ite | dsimp only | split
      | (fail_if_no_progress with_reducible refine keeps_fields ?_)

theorem Device.dmaPump_keeps : ∀ a0 a1 a2, Keeps bm true true true d0 a2 → Keeps bm true true true d0 (@Device.dmaPump a0 a1 a2) := by
  intros; unfold Device.dmaPump; try dsimp only
  repeat' first
      | intro _ | with_reducible assumption | with_reducible apply Device.workMod_keeps
      | with_reducible apply Device.each_keeps | with_reducible apply Device.dmaSettle_keeps | dsimp only
      | with_reducible refine Device.heldIssue_keeps _ _ _ _ ?_ _ (by assumption)
      | with_reducible refine Device.pieceIssue_keeps _ _ _ _ _ ?_ _ (by assumption) | split

theorem Device.dmaEnd_keeps : ∀ a0 a1 a2, Keeps bm true bs br d0 a0 → Keeps bm true bs br d0 (@Device.dmaEnd a0 a1 a2) := by
  intros; unfold Device.dmaEnd; try dsimp only
  repeat' first
      | intro _ | with_reducible assumption | with_reducible apply Device.dmaSettle_keeps
      | with_reducible apply Device.workMod_keeps | dsimp only | split

theorem Device.dmaArrive_keeps : ∀ a0 a1 a2 a3 a4 a5, Keeps bm true true true d0 a0 → Keeps bm true true true d0 (@Device.dmaArrive a0 a1 a2 a3 a4 a5) := by
  intro d k u p bs bad h
  have hw : Keeps _ _ _ _ d0 (d.workMod k u fun w => { w with flight := w.flight - 1 }) := Device.workMod_keeps _ _ _ _ h
  unfold Device.dmaArrive
  dsimp only
  split
  · exact h
  · split
    · split
      · rename_i e he
        split at he
        · cases he
        · exact Device.heldIssue_keeps _ _ _ _ hw _ he
      · apply Device.dmaSettle_keeps
        split
        · exact hw
        · exact Device.workMod_keeps _ _ _ _ hw
    · exact Device.dmaSettle_keeps _ _ _ (Device.land_keeps _ _ _ _ _ _ _ hw)

theorem Device.mcastLand_keeps : ∀ a0 a1 a2 a3 a4 a5 a6 a7, Keeps bm true bs true d0 a0 → ∀ r, (@Device.mcastLand a0 a1 a2 a3 a4 a5 a6 a7) = some r → Keeps bm true bs true d0 (r) := by
  intro a0 a1 a2 a3 a4 a5 a6 a7 h0 r hr; unfold Device.mcastLand at hr; try dsimp only at hr
  repeat' first
      | cases hr | intro _ | with_reducible assumption | with_reducible apply Device.passPath_keeps
      | with_reducible apply Device.land_keeps | with_reducible apply Device.setCore_keeps
      | with_reducible apply Device.mcastMod_keeps
      | (rw [Option.map_eq_some_iff] at hr; obtain ⟨_, _, hr⟩ := hr; cases hr)
      | (rw [Option.bind_eq_some_iff] at hr; obtain ⟨_, _, hr⟩ := hr) | dsimp only at hr | split at hr
      | with_reducible apply keeps_ite | dsimp only | split
      | (fail_if_no_progress with_reducible refine keeps_fields ?_)

theorem Device.mcastArrive_keeps : ∀ a0 a1 a2 a3 a4, Keeps bm true bs true d0 a0 → Keeps bm true bs true d0 (@Device.mcastArrive a0 a1 a2 a3 a4) := by
  intro d k p bs bad h
  unfold Device.mcastArrive
  split
  · refine Device.dmaEnd_keeps _ _ _ (Device.each_keeps _ _ _ _ ?_ h)
    intro m e he
    exact keeps_getD (fun r hr => Device.mcastLand_keeps _ _ _ _ _ _ _ _ he r hr) (Device.mcastMod_keeps _ _ _ he)
  · exact h

theorem Device.dmaBegin_keeps : ∀ a0 a1 a2 a3, Keeps bm true true true d0 a0 → Keeps bm true true true d0 (@Device.dmaBegin a0 a1 a2 a3) := by
  intros; unfold Device.dmaBegin; try dsimp only
  repeat' first
      | intro _ | with_reducible assumption | with_reducible apply Device.dmaPump_keeps
      | with_reducible apply Device.headMod_keeps | dsimp only | split

theorem Device.mcastBegin_keeps : ∀ a0 a1 a2 a3, Keeps bm true true true d0 a0 → Keeps bm true true true d0 (@Device.mcastBegin a0 a1 a2 a3) := by
  intros; unfold Device.mcastBegin; try dsimp only
  repeat' first
      | intro _ | with_reducible assumption | with_reducible apply Device.setCore_keeps
      | with_reducible apply Device.dmaBegin_keeps | with_reducible apply Device.modHalf_keeps | with_reducible apply keeps_ite
      | with_reducible refine keeps_foldl _ _ _ ?_ ?_ | with_reducible refine keeps_foldl_fst _ _ _ ?_ ?_
      | with_reducible refine keeps_foldl_snd _ _ _ ?_ ?_ | dsimp only | split

theorem Device.readStep_keeps : ∀ a0 a1 a2, Keeps bm true true true d0 a2 → Keeps bm true true true d0 (@Device.readStep a0 a1 a2) := by
  intros; unfold Device.readStep; try dsimp only
  repeat' first
      | intro _ | with_reducible assumption | with_reducible apply Device.dmaPump_keeps
      | with_reducible apply Device.cueError_keeps | with_reducible apply Device.mcastBegin_keeps
      | with_reducible apply Device.dmaBegin_keeps | with_reducible apply Device.setCore_keeps | with_reducible apply keeps_ite
      | dsimp only | split

theorem Device.writeStep_keeps : ∀ a0 a1 a2, Keeps bm true true true d0 a2 → Keeps bm true true true d0 (@Device.writeStep a0 a1 a2) := by
  intros; unfold Device.writeStep; try dsimp only
  repeat' first
      | intro _ | with_reducible assumption | with_reducible apply Device.dmaPump_keeps
      | with_reducible apply Device.dmaBegin_keeps | with_reducible apply keeps_ite | dsimp only | split

theorem Device.gatherStep_keeps : ∀ a0 a1, Keeps true true true true d0 a1 → Keeps true true true true d0 (@Device.gatherStep a0 a1) := by
  intros; unfold Device.gatherStep; try dsimp only
  repeat' first
      | intro _ | with_reducible assumption | with_reducible apply Device.dmaPump_keeps
      | with_reducible apply Device.readTensor_keeps | with_reducible apply Device.consume_keeps
      | with_reducible apply Device.cueError_keeps | with_reducible apply Device.dmaBegin_keeps
      | with_reducible apply keeps_ite | dsimp only | split

theorem Device.mcastWhole_keeps : ∀ a0 a1 a2 a3 a4, Keeps bm true bs br d0 a4 → Keeps bm true bs br d0 ((@Device.mcastWhole a0 a1 a2 a3 a4)) := by
  intros; unfold Device.mcastWhole; try dsimp only
  repeat' first
      | intro _ | with_reducible assumption | with_reducible apply Device.modCore_keeps
      | with_reducible apply Device.dmaSettle_keeps | with_reducible apply keeps_ite | dsimp only | split
      | (fail_if_no_progress with_reducible refine keeps_fields ?_)

theorem Device.catchArrive_keeps : ∀ a0 a1 a2 a3 a4 a5, Keeps bm true bs true d0 a0 → Keeps bm true bs true d0 (@Device.catchArrive a0 a1 a2 a3 a4 a5) := by
  intro d k m p bs bad h
  have hm := Device.mcastMod_keeps d k (fun x => { x with catching := x.catching.filter (· ≠ m) }) h
  unfold Device.catchArrive
  dsimp only
  split
  · refine Device.mcastWhole_keeps _ _ _ _ _ ?_
    exact keeps_getD (fun r hr => Device.mcastLand_keeps _ _ _ _ _ _ _ _ hm r hr) (Device.mcastMod_keeps _ _ _ hm)
  · exact hm

theorem Device.mcastCatch_keeps : ∀ a0 a1 a2, Keeps bm bc bs true d0 a2 → Keeps bm bc bs true d0 ((@Device.mcastCatch a0 a1 a2)) := by
  intros; unfold Device.mcastCatch; try dsimp only
  repeat' first
      | intro _ | with_reducible assumption | with_reducible apply Device.mcastMod_keeps
      | with_reducible apply keeps_ite | dsimp only
      | with_reducible refine Device.coreTxn_keeps _ _ _ ?_ _ (by assumption) | split
      | (fail_if_no_progress with_reducible refine keeps_fields ?_)

theorem Device.serveTag_keeps : ∀ a0 a1 a2 a3, Keeps true bc true true d0 a3 → Keeps true bc true true d0 ((@Device.serveTag a0 a1 a2 a3)) := by
  intros; unfold Device.serveTag; try dsimp only
  repeat' first
      | intro _ | with_reducible assumption | with_reducible apply Device.openCapacity_keeps
      | with_reducible apply Device.atMemory_keeps | with_reducible apply Device.served_keeps
      | with_reducible apply keeps_ite | dsimp only
      | with_reducible refine Device.requestOut_keeps _ _ _ ?_ _ (by assumption) | split
      | (fail_if_no_progress with_reducible refine keeps_fields ?_)

theorem Device.baneIssue_keeps : ∀ a0 a1 a2 a3, Keeps bm bc bs true d0 a0 → ∀ r, (@Device.baneIssue a0 a1 a2 a3) = some r → Keeps bm bc bs true d0 (r) := by
  intro a0 a1 a2 a3 h0 r hr; unfold Device.baneIssue at hr; try dsimp only at hr
  repeat' first
      | cases hr | intro _ | with_reducible assumption
      | with_reducible refine Device.coreTxn_keeps _ _ _ ?_ _ (by assumption)
      | with_reducible refine Device.issueTag_keeps _ _ _ _ ?_ (_, _) (by assumption)
      | with_reducible refine Device.ringTxn_keeps _ _ _ _ ?_ _ (by assumption)
      | (rw [Option.map_eq_some_iff] at hr; obtain ⟨_, _, hr⟩ := hr; cases hr)
      | (rw [Option.bind_eq_some_iff] at hr; obtain ⟨_, _, hr⟩ := hr) | dsimp only at hr | split at hr
      | with_reducible apply keeps_ite | dsimp only | split
      | (fail_if_no_progress with_reducible refine keeps_fields ?_)

theorem Device.payOwed_keeps : ∀ a0 a1 a2, Keeps bm bc true true d0 a0 → Keeps bm bc true true d0 (@Device.payOwed a0 a1 a2) := by
  intros; unfold Device.payOwed; try dsimp only
  repeat' first
      | intro _ | with_reducible assumption | with_reducible apply Device.modHalf_keeps
      | with_reducible apply Device.ringPump_keeps | dsimp only
      | with_reducible refine Device.baneIssue_keeps _ _ _ _ ?_ _ (by assumption) | split

theorem Device.txnAnswer_keeps : ∀ a0 a1, Keeps true true true true d0 a0 → Keeps true true true true d0 ((@Device.txnAnswer a0 a1)) := by
  intros; unfold Device.txnAnswer; try dsimp only
  repeat' first
      | intro _ | with_reducible assumption | with_reducible apply Device.dmaEnd_keeps
      | with_reducible apply Device.dmaArrive_keeps | with_reducible apply Device.mcastArrive_keeps
      | with_reducible apply Device.ring_keeps | with_reducible apply Device.ringAnswer_keeps
      | with_reducible apply Device.catchArrive_keeps | with_reducible apply keeps_ite | dsimp only | split
      | (fail_if_no_progress with_reducible refine keeps_fields ?_)

theorem Device.staleTag_keeps : ∀ a0 a1 a2 a3 a4 a5 a6, Keeps bm bc bs true d0 a0 → Keeps bm bc bs true d0 (@Device.staleTag a0 a1 a2 a3 a4 a5 a6) := by
  intros; unfold Device.staleTag; try dsimp only
  repeat' first
      | intro _ | with_reducible assumption | with_reducible apply Device.log_keeps | with_reducible apply Device.setBit_keeps
      | with_reducible apply Device.count_keeps | dsimp only | split

theorem Device.staleResponse_keeps : ∀ a0 a1 a2 a3 a4, Keeps bm bc bs true d0 a0 → Keeps bm bc bs true d0 (@Device.staleResponse a0 a1 a2 a3 a4) := by
  intros; unfold Device.staleResponse; try dsimp only
  repeat' first | intro _ | with_reducible assumption | with_reducible apply Device.staleTag_keeps | dsimp only | split

theorem Device.response_keeps : ∀ a0 a1 a2 a3, Keeps true true true true d0 a3 → Keeps true true true true d0 ((@Device.response a0 a1 a2 a3)) := by
  intros; unfold Device.response; try dsimp only
  repeat' first
      | intro _ | with_reducible assumption | with_reducible apply Device.staleResponse_keeps
      | with_reducible apply Device.served_keeps | with_reducible apply Device.bridgeAnswer_keeps
      | with_reducible apply Device.passPath_keeps | with_reducible apply Device.freeTag_keeps
      | with_reducible apply Device.txnAnswer_keeps | with_reducible apply Device.payOwed_keeps
      | with_reducible apply keeps_ite | dsimp only
      | with_reducible refine Device.responseOut_keeps _ _ _ ?_ _ (by assumption) | split
      | (fail_if_no_progress with_reducible refine keeps_fields ?_)

theorem Device.poisonLine_keeps : ∀ a0 a1, Keeps bm bc bs br d0 a0 → Keeps bm bc bs br d0 ((@Device.poisonLine a0 a1)).1 := by
  intros; unfold Device.poisonLine; try dsimp only
  repeat' first | intro _ | with_reducible assumption | with_reducible apply Device.drawBytes_keeps | dsimp only | split

theorem Device.timedOut_keeps : ∀ a0 a1 a2 a3, Keeps true true true true d0 a0 → Keeps true true true true d0 ((@Device.timedOut a0 a1 a2 a3)) := by
  intros; unfold Device.timedOut; try dsimp only
  repeat' first
      | intro _ | with_reducible assumption | with_reducible apply Device.txnAnswer_keeps
      | with_reducible apply Device.modHalf_keeps | with_reducible apply Device.poisonLine_keeps
      | with_reducible apply keeps_ite | dsimp only
      | with_reducible refine Device.baneIssue_keeps _ _ _ _ ?_ _ (by assumption) | split
      | (fail_if_no_progress with_reducible refine keeps_fields ?_)

theorem Device.tagTimeout_keeps : ∀ a0 a1 a2, Keeps true true true true d0 a2 → Keeps true true true true d0 ((@Device.tagTimeout a0 a1 a2)) := by
  intros; unfold Device.tagTimeout; try dsimp only
  repeat' first
      | intro _ | with_reducible assumption | with_reducible apply Device.served_keeps
      | with_reducible apply Device.count_keeps | with_reducible apply Device.setBit_keeps
      | with_reducible apply Device.log_keeps | with_reducible apply Device.bridgeAnswer_keeps
      | with_reducible apply Device.leave_keeps | with_reducible apply Device.setTag_keeps
      | with_reducible apply Device.timedOut_keeps | with_reducible apply keeps_ite | dsimp only | split
      | (fail_if_no_progress with_reducible refine keeps_fields ?_)

theorem Device.loseHalf_keeps : ∀ a0 a1 a2, Keeps true true true true d0 a2 → Keeps true true true true d0 ((@Device.loseHalf a0 a1 a2)) := by
  intros; unfold Device.loseHalf; try dsimp only
  repeat' first
      | intro _ | with_reducible assumption | with_reducible apply Device.modHalf_keeps
      | with_reducible apply Device.setBit_keeps | with_reducible apply Device.each_keeps
      | with_reducible apply Device.tagTimeout_keeps | with_reducible apply Device.modTower_keeps
      | with_reducible apply Device.modSite_keeps | with_reducible apply Device.fatal_keeps
      | with_reducible apply keeps_ite | dsimp only | split
      | (fail_if_no_progress with_reducible refine keeps_fields ?_)

theorem Device.tagTimeoutAll_keeps : ∀ a0 a1 a2, Keeps true true true true d0 a2 → Keeps true true true true d0 (@Device.tagTimeoutAll a0 a1 a2) := by
  intros; unfold Device.tagTimeoutAll; try dsimp only
  repeat' first
      | intro _ | with_reducible assumption | with_reducible apply Device.tagTimeout_keeps
      | with_reducible apply Device.loseHalf_keeps | with_reducible apply keeps_ite | dsimp only | split

theorem Device.tagRelease_keeps : ∀ a0 a1 a2, Keeps bm bc true true d0 a2 → Keeps bm bc true true d0 (@Device.tagRelease a0 a1 a2) := by
  intros; unfold Device.tagRelease; try dsimp only
  repeat' first
      | intro _ | with_reducible assumption | with_reducible apply Device.payOwed_keeps
      | with_reducible apply Device.freeTag_keeps | with_reducible apply keeps_ite | dsimp only | split

theorem Device.mergeExpire_keeps : ∀ a0 a1 a2, Keeps true bc true true d0 a2 → Keeps true bc true true d0 (@Device.mergeExpire a0 a1 a2) := by
  intros; unfold Device.mergeExpire; try dsimp only
  repeat' first | intro _ | with_reducible assumption | with_reducible apply Device.completeMerge_keeps | dsimp only | split

theorem Device.portServed_keeps : ∀ a0 a1 a2 a3 a4 a5, Keeps bm bc bs true d0 a5 → Keeps bm bc bs true d0 (@Device.portServed a0 a1 a2 a3 a4 a5) := by
  intros; unfold Device.portServed; try dsimp only
  repeat' first
      | intro _ | with_reducible assumption | with_reducible apply Device.staleResponse_keeps
      | with_reducible apply Device.passPath_keeps | with_reducible apply Device.setTag_keeps | with_reducible apply keeps_ite
      | dsimp only | split

theorem Device.serveReq_keeps : ∀ a0 a1, Keeps true true true true d0 a0 → Keeps true true true true d0 (@Device.serveReq a0 a1) := by
  intros; unfold Device.serveReq; try dsimp only
  repeat' first
      | intro _ | with_reducible assumption | with_reducible apply Device.each_keeps
      | with_reducible apply Device.writeCw_keeps | with_reducible apply Device.dmaEnd_keeps
      | with_reducible apply Device.portServed_keeps | with_reducible apply Device.readMem_keeps
      | with_reducible apply Device.dmaArrive_keeps | with_reducible apply keeps_ite | dsimp only | split

theorem Device.grantAccess_keeps : ∀ a0 a1 a2 a3, Keeps true true true true d0 a0 → Keeps true true true true d0 ((@Device.grantAccess a0 a1 a2 a3)) := by
  intros; unfold Device.grantAccess; try dsimp only
  repeat' first
      | intro _ | with_reducible assumption | with_reducible apply Device.unqueue_keeps
      | with_reducible apply Device.burstMade_keeps | with_reducible apply Device.serveReq_keeps
      | with_reducible apply Device.admitWaiting_keeps | with_reducible apply Device.pumpPorts_keeps
      | with_reducible apply keeps_ite | dsimp only | split
      | (fail_if_no_progress with_reducible refine keeps_fields ?_)

theorem Device.scrubWrite_keeps : ∀ a0 a1 a2, Keeps true bc true true d0 a2 → Keeps true bc true true d0 ((@Device.scrubWrite a0 a1 a2)) := by
  intro s c d h; unfold Device.scrubWrite
  split
  · exact h
  · refine Device.each_keeps _ _ _ _ (fun b e he => ?_) ?_
    · exact keeps_mem _ (Device.wireMask_keeps _ _ he) fun h => Memory.wf_putCw h _ _ _ _
    · exact Device.burstMade_keeps _ _ _ _ _ (Device.modChan_keeps _ _ _ _ h)

theorem Device.drainChan_keeps : ∀ a0 a1 a2 a3, Keeps true true true true d0 a3 → Keeps true true true true d0 ((@Device.drainChan a0 a1 a2 a3)) := by
  intro a0 a1 a2
  induction a2 with
  | zero =>
    intro a3 h0; unfold Device.drainChan; try dsimp only
    repeat' first
        | intro _ | with_reducible assumption | with_reducible apply ih | with_reducible apply Device.refreshBank_keeps
        | with_reducible apply Device.access_keeps | with_reducible apply Device.grantAccess_keeps
        | with_reducible apply keeps_ite | dsimp only | split
        | (fail_if_no_progress with_reducible refine keeps_fields ?_)
  | succ n ih =>
    intro a3 h0; unfold Device.drainChan; try dsimp only
    repeat' first
        | intro _ | with_reducible assumption | with_reducible apply ih | with_reducible apply Device.refreshBank_keeps
        | with_reducible apply Device.access_keeps | with_reducible apply Device.grantAccess_keeps
        | with_reducible apply keeps_ite | dsimp only | split
        | (fail_if_no_progress with_reducible refine keeps_fields ?_)

theorem Device.burst_keeps : ∀ a0 a1 a2, Keeps true true true true d0 a2 → Keeps true true true true d0 (@Device.burst a0 a1 a2) := by
  intros; unfold Device.burst; try dsimp only
  repeat' first
      | intro _ | with_reducible assumption | with_reducible apply Device.refreshBank_keeps
      | with_reducible apply Device.grantAccess_keeps | with_reducible apply Device.scrubWrite_keeps
      | with_reducible apply keeps_ite | dsimp only | split

theorem Device.dramArrive_keeps : ∀ a0 a1 a2 a3, Keeps bm bc true true d0 a3 → Keeps bm bc true true d0 (@Device.dramArrive a0 a1 a2 a3) := by
  intro s ch r d h
  unfold Device.dramArrive
  split
  · exact h
  · split
    · split
      · exact Device.addrError_keeps _ _ _ h
      · exact h
    · split
      · rename_i e he
        split at he
        · cases he
        · exact Device.pushReq_keeps _ _ _ _ _ h _ he
      · exact Device.modChan_keeps _ _ _ _ h

theorem Device.refreshFalls_keeps : ∀ a0 a1 a2 a3, Keeps bm bc true br d0 a3 → Keeps bm bc true br d0 (@Device.refreshFalls a0 a1 a2 a3) := by
  intros; unfold Device.refreshFalls; try dsimp only
  repeat' first
      | intro _ | with_reducible assumption | with_reducible apply Device.modChan_keeps | with_reducible apply keeps_ite
      | dsimp only | split

theorem Device.idleSleep_keeps : ∀ a0 a1 a2, Keeps bm bc true true d0 a2 → Keeps bm bc true true d0 (@Device.idleSleep a0 a1 a2) := by
  intros; unfold Device.idleSleep; try dsimp only
  repeat' first
      | intro _ | with_reducible assumption | with_reducible apply Device.modChan_keeps
      | with_reducible apply Device.setField_keeps | with_reducible apply keeps_ite | dsimp only | split

theorem Device.remap_keeps : ∀ a0 a1 a2 a3 a4, Keeps bm bc bs true d0 a0 → Keeps bm bc bs true d0 (@Device.remap a0 a1 a2 a3 a4) := by
  intros; unfold Device.remap; try dsimp only
  repeat' first
      | intro _ | with_reducible assumption | with_reducible apply Device.setBit_keeps
      | with_reducible apply Device.setField_keeps | dsimp only | split

theorem Device.copyCw_keeps : ∀ a0 a1, Keeps true bc true true d0 a0 → Keeps true bc true true d0 (@Device.copyCw a0 a1) := by
  intro d cw h
  have hn := Device.dropBack_keeps _ cw (Device.noteWord_keeps _ (16 * cw) (d.cwHere cw).2 8 (Device.cwHere_keeps _ cw h))
  unfold Device.copyCw; dsimp only
  split
  · exact hn
  · exact keeps_mem _ hn fun h => Memory.wf_putCw h _ _ _ _

theorem Device.copyFlip_keeps : ∀ a0 a1 a2 a3, Keeps true bc bs true d0 a0 → Keeps true bc bs true d0 (@Device.copyFlip a0 a1 a2 a3) := by
  intro d s ch b h
  unfold Device.copyFlip; dsimp only
  split
  · exact keeps_mem _ (Device.takeFlip_keeps _ _ _ _ h) fun h => Memory.wf_putCw h _ _ _ _
  · exact Device.takeFlip_keeps _ _ _ _ h

theorem Device.copyBursts_keeps : ∀ a0 a1 a2 a3, Keeps bm bc true true d0 a3 → Keeps bm bc true true d0 ((@Device.copyBursts a0 a1 a2 a3)) := by
  intros; unfold Device.copyBursts; try dsimp only
  repeat' first
      | intro _ | with_reducible assumption | with_reducible apply Device.modChan_keeps
      | with_reducible apply Device.count_keeps | with_reducible apply Device.burstMade_keeps
      | with_reducible apply keeps_ite | dsimp only | split
      | (fail_if_no_progress with_reducible refine keeps_fields ?_)

theorem Device.copyBank_keeps : ∀ a0 a1 a2 a3, Keeps true bc true true d0 a3 → Keeps true bc true true d0 ((@Device.copyBank a0 a1 a2 a3)) := by
  intros; unfold Device.copyBank; try dsimp only
  repeat' first
      | intro _ | with_reducible assumption | with_reducible apply Device.each_keeps
      | with_reducible apply Device.copyCw_keeps | with_reducible apply Device.copyFlip_keeps
      | with_reducible apply Device.copyBursts_keeps | with_reducible apply Device.remap_keeps
      | with_reducible apply Device.note_keeps | with_reducible apply keeps_ite | dsimp only | split
      | (fail_if_no_progress with_reducible refine keeps_fields ?_)

theorem Device.copyBanks_keeps : ∀ a0, Keeps true bc true true d0 a0 → Keeps true bc true true d0 (@Device.copyBanks a0) := by
  intros; unfold Device.copyBanks; try dsimp only
  repeat' first
      | intro _ | with_reducible assumption | with_reducible apply Device.each_keeps
      | with_reducible apply Device.copyBank_keeps | dsimp only | split

theorem Device.scrubCw_keeps : ∀ a0 a1, Keeps true bc true true d0 a0 → Keeps true bc true true d0 (@Device.scrubCw a0 a1) := by
  intro d cw h
  have hn : ∀ u, Keeps _ _ _ _ d0 ((d.cwHere cw).1.noteWord (16 * cw) (d.cwHere cw).2 u) :=
    fun u => Device.noteWord_keeps _ _ _ _ (Device.cwHere_keeps _ _ h)
  unfold Device.scrubCw; dsimp only
  split
  · exact hn _
  · split
    · exact Device.modChan_keeps _ _ _ _ (hn _)
    · exact keeps_mem _ (hn _) fun h => Memory.wf_putCw h _ _ _ _

theorem Device.scrubLine_keeps : ∀ a0 a1, Keeps true bc true true d0 a0 → Keeps true bc true true d0 (@Device.scrubLine a0 a1) := by
  intros; unfold Device.scrubLine; try dsimp only
  repeat' first
      | intro _ | with_reducible assumption | with_reducible apply Device.each_keeps
      | with_reducible apply Device.scrubCw_keeps | with_reducible apply keeps_ite | dsimp only | split

theorem Device.scrubPass_keeps : ∀ a0 a1 a2 a3 a4, Keeps bm bc bs true d0 a0 → Keeps bm bc bs true d0 ((@Device.scrubPass a0 a1 a2 a3 a4)).1 := by
  intros; unfold Device.scrubPass; try dsimp only
  repeat' first
      | intro _ | with_reducible assumption | with_reducible apply Device.setField_keeps
      | with_reducible apply Device.setBit_keeps | with_reducible apply keeps_ite | dsimp only | split

theorem Device.scrubDram_keeps : ∀ a0 a1 a2, Keeps true bc true true d0 a2 → Keeps true bc true true d0 ((@Device.scrubDram a0 a1 a2)) := by
  intros; unfold Device.scrubDram; try dsimp only
  repeat' first
      | intro _ | with_reducible assumption | with_reducible apply Device.scrubWrite_keeps
      | with_reducible apply Device.burstMade_keeps | with_reducible apply Device.scrubLine_keeps
      | with_reducible apply Device.modChan_keeps | with_reducible apply Device.scrubPass_keeps
      | with_reducible apply Device.modTower_keeps | with_reducible apply keeps_ite | dsimp only | split
      | (fail_if_no_progress with_reducible refine keeps_fields ?_)

theorem Device.halfPass_keeps : ∀ a0 a1, Keeps bm bc bs true d0 a0 → Keeps bm bc bs true d0 (@Device.halfPass a0 a1) := by
  intros; unfold Device.halfPass; try dsimp only
  repeat' first
      | intro _ | with_reducible assumption | with_reducible apply Device.scrubPass_keeps
      | with_reducible apply Device.modHalf_keeps | with_reducible apply keeps_ite | dsimp only | split

theorem Device.scrubStore_keeps : ∀ a0 a1 a2, Keeps true bc true true d0 a2 → Keeps true bc true true d0 (@Device.scrubStore a0 a1 a2) := by
  intros; unfold Device.scrubStore; try dsimp only
  repeat' first
      | intro _ | with_reducible assumption | with_reducible apply Device.each_keeps
      | with_reducible apply Device.completeMerge_keeps | with_reducible apply Device.halfPass_keeps
      | with_reducible apply Device.modHalf_keeps | with_reducible apply Device.scrubLine_keeps
      | with_reducible apply keeps_ite | dsimp only | split

theorem Device.scrubLpd_keeps : ∀ a0 a1, Keeps true bc true true d0 a1 → Keeps true bc true true d0 ((@Device.scrubLpd a0 a1)) := by
  intros; unfold Device.scrubLpd; try dsimp only
  repeat' first
      | intro _ | with_reducible assumption | with_reducible apply Device.scrubLine_keeps
      | with_reducible apply Device.openLine_keeps | with_reducible apply Device.halfPass_keeps
      | with_reducible apply keeps_ite | dsimp only | split
      | (fail_if_no_progress with_reducible refine keeps_fields ?_)

end Sys2Proof.Machine
end

