-- ==== Sys2Proof/Laws/KeepsFrames.lean ====
section
/-! SUPPORT. What no operation breaks: reels, losses, the near-bank units, the slate, takes and frames. -/
namespace Sys2Proof.Machine

open Sys2Proof

set_option Elab.async false
set_option linter.unreachableTactic false
set_option linter.unusedTactic false

variable {bm bc bs br : Bool} {d0 : Device}

theorem Device.startModel_keeps : ∀ a0 a1, Keeps bm bc bs br d0 a1 → Keeps bm bc bs br d0 (@Device.startModel a0 a1) := by
  intros; unfold Device.startModel; try dsimp only
  repeat' first | intro _ | with_reducible assumption | with_reducible apply Device.modTower_keeps | dsimp only | split

theorem Device.addEnergy_keeps : ∀ a0 a1 a2, Keeps bm bc bs true d0 a2 → Keeps bm bc bs true d0 ((@Device.addEnergy a0 a1 a2)) := by
  intros; unfold Device.addEnergy; try dsimp only
  repeat' first
      | intro _ | with_reducible assumption | with_reducible apply Device.setReg_keeps
      | with_reducible apply keeps_ite | dsimp only | split
      | (fail_if_no_progress with_reducible refine keeps_fields ?_)

theorem Device.advanceModel_keeps : ∀ a0 a1 a2, Keeps bm bc bs true d0 a2 → Keeps bm bc bs true d0 ((@Device.advanceModel a0 a1 a2)) := by
  intros; unfold Device.advanceModel; try dsimp only
  repeat' first
      | intro _ | with_reducible assumption | with_reducible apply Device.addEnergy_keeps
      | with_reducible apply Device.modTower_keeps | with_reducible apply keeps_ite | dsimp only | split
      | (fail_if_no_progress with_reducible refine keeps_fields ?_)

theorem addWord_keeps : ∀ a0 a1 a2, Keeps bm bc bs true d0 (a0).dev → Keeps bm bc bs true d0 ((@addWord a0 a1 a2)).dev := by
  intros; unfold addWord; try dsimp only
  repeat' first
      | intro _ | with_reducible assumption | with_reducible apply Device.noteWord_keeps | with_reducible apply keeps_ite
      | dsimp only | split

theorem Device.readRow_keeps : ∀ a0 a1 a2 a3 a4, Keeps bm bc bs true d0 a0 → Keeps bm bc bs true d0 ((@Device.readRow a0 a1 a2 a3 a4)).dev := by
  intro d s c b w h
  exact keeps_fold RowRead.dev _ _ _ h fun a x ha => addWord_keeps _ _ _ ha

theorem Device.bankWrite_keeps : ∀ a0 a1 a2 a3, Keeps true bc true true d0 a0 → Keeps true bc true true d0 (@Device.bankWrite a0 a1 a2 a3) := by
  intro d cw bs p h
  unfold Device.bankWrite; dsimp only
  exact keeps_mem _ (Device.flipFor_keeps _ _ _ (Device.dropBack_keeps _ _ h)) fun h => Memory.wf_putCw h _ _ _ _

theorem Device.modUnit_keeps : ∀ a0 a1 a2 a3, Keeps bm bc true br d0 a0 → Keeps bm bc true br d0 (@Device.modUnit a0 a1 a2 a3) := by
  intros; unfold Device.modUnit; try dsimp only
  repeat' first | intro _ | with_reducible assumption | with_reducible apply Device.modSite_keeps | dsimp only | split

theorem noRow_keeps : ∀ a0, Keeps bm bc bs br d0 a0 → Keeps bm bc bs br d0 ((@noRow a0)).dev := by
  intros; unfold noRow; try dsimp only
  repeat' first | intro _ | with_reducible assumption | dsimp only | split

theorem Device.writeRow_keeps : ∀ a0 a1 a2 a3 a4 a5 a6 a7, Keeps true bc true true d0 a0 → Keeps true bc true true d0 (@Device.writeRow a0 a1 a2 a3 a4 a5 a6 a7) := by
  intros; unfold Device.writeRow; try dsimp only
  repeat' first
      | intro _ | with_reducible assumption | with_reducible apply Device.each_keeps
      | with_reducible apply Device.bankWrite_keeps | with_reducible apply Device.count_keeps | with_reducible apply keeps_ite
      | dsimp only | split

theorem Device.operand_keeps : ∀ a0 a1 a2 a3, Keeps bm bc true true d0 a0 → Keeps bm bc true true d0 (((@Device.operand a0 a1 a2 a3)).dev) := by
  intros; unfold Device.operand; try dsimp only
  repeat' first
      | intro _ | with_reducible assumption | with_reducible apply Device.readRow_keeps
      | with_reducible apply Device.modUnit_keeps | with_reducible apply keeps_ite | dsimp only | split
      | (fail_if_no_progress with_reducible refine keeps_fields ?_)

theorem Device.storeRow_keeps : ∀ a0 a1 a2 a3 a4 a5, Keeps true bc true true d0 a0 → Keeps true bc true true d0 ((@Device.storeRow a0 a1 a2 a3 a4 a5)) := by
  intros; unfold Device.storeRow; try dsimp only
  repeat' first
      | intro _ | with_reducible assumption | with_reducible apply Device.modUnit_keeps
      | with_reducible apply Device.writeRow_keeps | with_reducible apply keeps_ite | dsimp only | split
      | (fail_if_no_progress with_reducible refine keeps_fields ?_)

theorem Device.writeElems_keeps : ∀ a0 a1 a2 a3 a4 a5 a6 a7 a8 a9, Keeps true bc true true d0 a0 → Keeps true bc true true d0 (@Device.writeElems a0 a1 a2 a3 a4 a5 a6 a7 a8 a9) := by
  intros; unfold Device.writeElems; try dsimp only
  repeat' first
      | intro _ | with_reducible assumption | with_reducible apply Device.convFlags_keeps
      | with_reducible apply Device.storeRow_keeps | dsimp only | split

theorem Device.nbBits_keeps : ∀ a0 a1 a2 a3, Keeps true bc true true d0 a0 → Keeps true bc true true d0 (@Device.nbBits a0 a1 a2 a3) := by
  intros; unfold Device.nbBits; try dsimp only
  repeat' first
      | intro _ | with_reducible assumption | with_reducible apply noRow_keeps | with_reducible apply Device.operand_keeps
      | with_reducible apply Device.storeRow_keeps | with_reducible apply keeps_ite | dsimp only | split

theorem Device.nbSumsq_keeps : ∀ a0 a1 a2, Keeps bm bc true true d0 a0 → Keeps bm bc true true d0 (@Device.nbSumsq a0 a1 a2) := by
  intros; unfold Device.nbSumsq; try dsimp only
  repeat' first
      | intro _ | with_reducible assumption | with_reducible apply Device.operand_keeps
      | with_reducible apply Device.modUnit_keeps | dsimp only | split

theorem Device.nbSumOut_keeps : ∀ a0 a1 a2 a3 a4, Keeps bm true bs true d0 a0 → Keeps bm true bs true d0 (@Device.nbSumOut a0 a1 a2 a3 a4) := by
  intros; unfold Device.nbSumOut; try dsimp only
  repeat' first
      | intro _ | with_reducible assumption | with_reducible apply Device.writeCore_keeps
      | with_reducible apply Device.count_keeps | with_reducible apply keeps_ite | dsimp only | split

theorem Device.nbAdamw_keeps : ∀ a0 a1 a2 a3 a4, Keeps true bc true true d0 a0 → Keeps true bc true true d0 (@Device.nbAdamw a0 a1 a2 a3 a4) := by
  intros; unfold Device.nbAdamw; try dsimp only
  repeat' first
      | intro _ | with_reducible assumption | with_reducible apply Device.operand_keeps
      | with_reducible apply Device.writeElems_keeps | dsimp only | split

theorem Device.nbArith_keeps : ∀ a0 a1 a2 a3 a4 a5, Keeps true bc true true d0 a0 → Keeps true bc true true d0 ((@Device.nbArith a0 a1 a2 a3 a4 a5)) := by
  intros; unfold Device.nbArith; try dsimp only
  repeat' first
      | intro _ | with_reducible assumption | with_reducible apply noRow_keeps
      | with_reducible apply Device.operand_keeps | with_reducible apply Device.readCore_keeps
      | with_reducible apply Device.writeElems_keeps | with_reducible apply keeps_ite | dsimp only | split
      | (fail_if_no_progress with_reducible refine keeps_fields ?_)

theorem Device.nbBody_keeps : ∀ a0 a1 a2, Keeps true bc true true d0 a0 → Keeps true bc true true d0 (@Device.nbBody a0 a1 a2) := by
  intros; unfold Device.nbBody; try dsimp only
  repeat' first
      | intro _ | with_reducible assumption | with_reducible apply Device.nbSumsq_keeps
      | with_reducible apply Device.nbAdamw_keeps | with_reducible apply Device.nbBits_keeps
      | with_reducible apply Device.nbArith_keeps | with_reducible apply keeps_ite | dsimp only | split

theorem Device.modCmd_keeps : ∀ a0 a1 a2 a3 a4, Keeps bm bc true br d0 a0 → Keeps bm bc true br d0 (@Device.modCmd a0 a1 a2 a3 a4) := by
  intros; unfold Device.modCmd; try dsimp only
  repeat' first
      | intro _ | with_reducible assumption | with_reducible apply Device.modSite_keeps | with_reducible apply keeps_ite
      | dsimp only | split

theorem Device.nbCompute_keeps : ∀ a0 a1 a2 a3, Keeps true bc true true d0 a3 → Keeps true bc true true d0 (@Device.nbCompute a0 a1 a2 a3) := by
  intros; unfold Device.nbCompute; try dsimp only
  repeat' first
      | intro _ | with_reducible assumption | with_reducible apply Device.modCmd_keeps
      | with_reducible apply Device.nbBody_keeps | with_reducible apply keeps_ite | dsimp only | split

theorem Device.nbCommand_keeps : ∀ a0 a1 a2, Keeps true true true true d0 a2 → Keeps true true true true d0 (@Device.nbCommand a0 a1 a2) := by
  intros; unfold Device.nbCommand; try dsimp only
  repeat' first
      | intro _ | with_reducible assumption | with_reducible apply Device.each_keeps
      | with_reducible apply Device.nbCompute_keeps | with_reducible apply Device.cueError_keeps
      | with_reducible apply Device.readCore_keeps | with_reducible apply Device.modSite_keeps
      | with_reducible apply Device.modCore_keeps | with_reducible apply keeps_ite | dsimp only | split

theorem Device.nbRefresh_keeps : ∀ a0 a1 a2 a3, Keeps bm bc true true d0 a0 → Keeps bm bc true true d0 (@Device.nbRefresh a0 a1 a2 a3) := by
  intros; unfold Device.nbRefresh; try dsimp only
  repeat' first
      | intro _ | with_reducible assumption | with_reducible apply Device.modChan_keeps
      | with_reducible apply Device.count_keeps | with_reducible apply keeps_ite | dsimp only | split

theorem Device.stepOpen_keeps : ∀ a0 a1 a2 a3, Keeps bm bc true br d0 a3 → Keeps bm bc true br d0 ((@Device.stepOpen a0 a1 a2 a3)) := by
  intros; unfold Device.stepOpen; try dsimp only
  repeat' first
      | intro _ | with_reducible assumption | with_reducible apply Device.modChan_keeps
      | with_reducible apply Device.modUnit_keeps | with_reducible apply Device.modCmd_keeps
      | with_reducible apply keeps_ite | dsimp only | split
      | (fail_if_no_progress with_reducible refine keeps_fields ?_)

theorem Device.stepStart_keeps : ∀ a0 a1 a2 a3, Keeps bm bc true true d0 a3 → Keeps bm bc true true d0 (@Device.stepStart a0 a1 a2 a3) := by
  intros; unfold Device.stepStart; try dsimp only
  repeat' first
      | intro _ | with_reducible assumption | with_reducible apply Device.stepOpen_keeps
      | with_reducible apply Device.nbRefresh_keeps | with_reducible apply keeps_ite | dsimp only | split

theorem Device.serveBank_keeps : ∀ a0 a1 a2 a3 a4 a5, Keeps true true true true d0 a0 → Keeps true true true true d0 (@Device.serveBank a0 a1 a2 a3 a4 a5) := by
  intro d s c b before n
  induction n generalizing d with
  | zero => intro h; exact h
  | succ n ih =>
    intro h
    unfold Device.serveBank
    split
    · exact ih _ (Device.grantAccess_keeps _ _ _ _ h)
    · exact h

theorem Device.nbFinish_keeps : ∀ a0 a1 a2, Keeps bm true true br d0 a0 → Keeps bm true true br d0 (@Device.nbFinish a0 a1 a2) := by
  intros; unfold Device.nbFinish; try dsimp only
  repeat' first
      | intro _ | with_reducible assumption | with_reducible apply Device.modCore_keeps
      | with_reducible apply Device.modSite_keeps | with_reducible apply keeps_ite | dsimp only | split

theorem Device.stepDone_keeps : ∀ a0 a1 a2 a3, Keeps true true true true d0 a3 → Keeps true true true true d0 (@Device.stepDone a0 a1 a2 a3) := by
  intros; unfold Device.stepDone; try dsimp only
  repeat' first
      | intro _ | with_reducible assumption | with_reducible apply Device.nbCompute_keeps
      | with_reducible apply Device.nbSumOut_keeps | with_reducible apply Device.count_keeps
      | with_reducible apply Device.modCmd_keeps | with_reducible apply keeps_ite | dsimp only | split

theorem Device.stepEnd_keeps : ∀ a0 a1 a2 a3, Keeps true true true true d0 a3 → Keeps true true true true d0 ((@Device.stepEnd a0 a1 a2 a3)) := by
  intros; unfold Device.stepEnd; try dsimp only
  repeat' first
      | intro _ | with_reducible assumption | with_reducible apply Device.stepDone_keeps
      | with_reducible apply Device.nbFinish_keeps | with_reducible apply Device.nbRefresh_keeps
      | with_reducible apply Device.serveBank_keeps | with_reducible apply Device.stepStart_keeps
      | with_reducible apply keeps_ite | dsimp only | split
      | (fail_if_no_progress with_reducible refine keeps_fields ?_)

theorem Device.endSteps_keeps : ∀ a0, Keeps true true true true d0 a0 → Keeps true true true true d0 (@Device.endSteps a0) := by
  intros; unfold Device.endSteps; try dsimp only
  repeat' first
      | intro _ | with_reducible assumption | with_reducible apply Device.each_keeps
      | with_reducible apply Device.stepDone_keeps | with_reducible apply keeps_ite | dsimp only | split

theorem Device.nbFence_keeps : ∀ a0 a1, Keeps bm bc bs br d0 a1 → Keeps bm bc bs br d0 (@Device.nbFence a0 a1) := by
  intros; unfold Device.nbFence; try dsimp only
  repeat' first
      | intro _ | with_reducible assumption | with_reducible apply Device.modTower_keeps | with_reducible apply keeps_ite
      | dsimp only | split

theorem Device.readUntilBad_keeps : ∀ a0 a1, Keeps true bc true true d0 a1 → Keeps true bc true true d0 (((@Device.readUntilBad a0 a1)).1) := by
  intro a0
  induction a0 with
  | nil =>
    intro a1 h0; unfold Device.readUntilBad; try dsimp only
    repeat' first
        | intro _ | with_reducible assumption | with_reducible apply ih | with_reducible apply Device.serviceRead_keeps
        | with_reducible apply keeps_ite | dsimp only | split
        | (fail_if_no_progress with_reducible refine keeps_fields ?_)
  | cons x l ih =>
    intro a1 h0; unfold Device.readUntilBad; try dsimp only
    repeat' first
        | intro _ | with_reducible assumption | with_reducible apply ih | with_reducible apply Device.serviceRead_keeps
        | with_reducible apply keeps_ite | dsimp only | split
        | (fail_if_no_progress with_reducible refine keeps_fields ?_)

theorem Device.checkReel_keeps : ∀ a0 a1, Keeps true bc true true d0 a0 → Keeps true bc true true d0 (((@Device.checkReel a0 a1)).dev) := by
  intros; unfold Device.checkReel; try dsimp only
  repeat' first
      | intro _ | with_reducible assumption | with_reducible apply Device.serviceRead_keeps
      | with_reducible apply Device.readUntilBad_keeps | with_reducible apply keeps_ite | dsimp only | split
      | (fail_if_no_progress with_reducible refine keeps_fields ?_)

theorem Device.unloadReel_keeps : ∀ a0, Keeps bm bc bs true d0 a0 → Keeps bm bc bs true d0 (@Device.unloadReel a0) := by
  intros; unfold Device.unloadReel; try dsimp only
  repeat' first
      | intro _ | with_reducible assumption | with_reducible apply Device.modTake_keeps
      | with_reducible apply Device.setField_keeps | with_reducible apply Device.each_keeps
      | with_reducible apply Device.setReg_keeps | dsimp only | split | (with_reducible refine keeps_fields ?_)

theorem Device.takeReel_keeps : ∀ a0 a1, Keeps bm bc bs true d0 a0 → Keeps bm bc bs true d0 (@Device.takeReel a0 a1) := by
  intros; unfold Device.takeReel; try dsimp only
  repeat' first
      | intro _ | with_reducible assumption | with_reducible apply Device.modTake_keeps
      | with_reducible apply Device.setField_keeps | with_reducible apply Device.each_keeps
      | with_reducible apply Device.setReg_keeps | dsimp only | split | (with_reducible refine keeps_fields ?_)

theorem Device.fillBuffer_keeps : ∀ a0 a1 a2 a3, Keeps bm true bs true d0 a0 → Keeps bm true bs true d0 (a3).dev → Keeps bm true bs true d0 (@Device.fillBuffer a0 a1 a2 a3) := by
  intros; unfold Device.fillBuffer; try dsimp only
  repeat' first
      | intro _ | with_reducible assumption | with_reducible apply Device.takeFlip_keeps
      | with_reducible apply Device.modCore_keeps | with_reducible refine keeps_foldl _ _ _ ?_ ?_
      | with_reducible refine keeps_foldl_fst _ _ _ ?_ ?_ | with_reducible refine keeps_foldl_snd _ _ _ ?_ ?_ | dsimp only
      | split

theorem Device.badService_keeps : ∀ a0, Keeps true true true true d0 a0 → Keeps true true true true d0 ((@Device.badService a0)) := by
  intros; unfold Device.badService; try dsimp only
  repeat' first
      | intro _ | with_reducible assumption | with_reducible apply Device.loseHalf_keeps
      | with_reducible apply keeps_ite | dsimp only | split
      | (fail_if_no_progress with_reducible refine keeps_fields ?_)

theorem Device.entryArrives_keeps : ∀ a0 a1 a2 a3, Keeps true true true true d0 a3 → Keeps true true true true d0 ((@Device.entryArrives a0 a1 a2 a3)) := by
  intros; unfold Device.entryArrives; try dsimp only
  repeat' first
      | intro _ | with_reducible assumption | with_reducible apply Device.modCore_keeps
      | with_reducible apply Device.fillBuffer_keeps | with_reducible apply Device.serviceRead_keeps
      | with_reducible apply keeps_ite | dsimp only | split
      | (fail_if_no_progress with_reducible refine keeps_fields ?_)

theorem Device.listArrives_keeps : ∀ a0 a1, Keeps true true true true d0 a1 → Keeps true true true true d0 ((@Device.listArrives a0 a1)) := by
  intros; unfold Device.listArrives; try dsimp only
  repeat' first
      | intro _ | with_reducible assumption | with_reducible apply AttRun.take_keeps
      | with_reducible apply Device.serviceRead_keeps | with_reducible apply Device.badService_keeps
      | with_reducible apply Device.entryArrives_keeps | with_reducible apply keeps_ite | dsimp only | split
      | (fail_if_no_progress with_reducible refine keeps_fields ?_)

theorem Device.mbxBegin_keeps : ∀ a0 a1 a2, (∀ y0, Keeps bm bc bs true d0 y0 → Keeps bm bc bs true d0 (a1 y0)) → Keeps bm bc bs true d0 a2 → Keeps bm bc bs true d0 (@Device.mbxBegin a0 a1 a2) := by
  intros; unfold Device.mbxBegin; try dsimp only
  repeat' first
      | intro _ | with_reducible assumption | with_reducible apply_assumption | with_reducible apply Device.setBit_keeps
      | with_reducible apply Device.setField_keeps | with_reducible apply keeps_ite | dsimp only | split
      | (with_reducible refine keeps_fields ?_)

theorem Device.mbxComplete_keeps : ∀ a0, Keeps bm bc bs true d0 a0 → Keeps bm bc bs true d0 (@Device.mbxComplete a0) := by
  intros; unfold Device.mbxComplete; try dsimp only
  repeat' first
      | intro _ | with_reducible assumption | with_reducible apply Device.setField_keeps
      | with_reducible apply Device.setReg_keeps | with_reducible apply Device.event_keeps | with_reducible apply keeps_ite
      | dsimp only | split | (with_reducible refine keeps_fields ?_)

theorem Device.mbxWhen_keeps : ∀ a0 a1 a2 a3, (∀ y0, Keeps bm bc bs true d0 y0 → Keeps bm bc bs true d0 (a2 y0)) → Keeps bm bc bs true d0 a3 → Keeps bm bc bs true d0 (@Device.mbxWhen a0 a1 a2 a3) := by
  intros; unfold Device.mbxWhen; try dsimp only
  repeat' first
      | intro _ | with_reducible assumption | with_reducible apply_assumption | with_reducible apply Device.mbxBegin_keeps
      | with_reducible apply Device.mbxEnd_keeps | with_reducible apply keeps_ite | dsimp only | split

theorem Device.refusePort_keeps : ∀ a0 a1, Keeps bm bc bs br d0 a1 → Keeps bm bc bs br d0 ((@Device.refusePort a0 a1)) := by
  intros; unfold Device.refusePort; try dsimp only
  repeat' first
      | intro _ | with_reducible assumption | with_reducible apply Device.setTag_keeps
      | with_reducible apply Device.served_keeps | with_reducible apply keeps_ite | dsimp only | split
      | (fail_if_no_progress with_reducible refine keeps_fields ?_)

theorem Device.fence_keeps : ∀ a0 a1, Keeps bm true true true d0 a1 → Keeps bm true true true d0 ((@Device.fence a0 a1)) := by
  intros; unfold Device.fence; try dsimp only
  repeat' first
      | intro _ | with_reducible assumption | with_reducible apply Device.refusePort_keeps
      | with_reducible apply Device.mbxEndOf_keeps | with_reducible apply Device.modTower_keeps
      | with_reducible apply Device.setBit_keeps | with_reducible apply Device.each_keeps
      | with_reducible apply Device.stopCore_keeps | with_reducible apply Device.modSite_keeps
      | with_reducible apply Device.modHalf_keeps | with_reducible apply keeps_ite | dsimp only | split
      | (fail_if_no_progress with_reducible refine keeps_fields ?_)

theorem Device.autoRejoin_keeps : ∀ a0 a1, Keeps bm bc bs br d0 a1 → Keeps bm bc bs br d0 (@Device.autoRejoin a0 a1) := by
  intros; unfold Device.autoRejoin; try dsimp only
  repeat' first
      | intro _ | with_reducible assumption | with_reducible apply Device.modTower_keeps | with_reducible apply keeps_ite
      | dsimp only | split

theorem Device.loseTowers_keeps : ∀ a0 a1, Keeps bm true true true d0 a1 → Keeps bm true true true d0 (@Device.loseTowers a0 a1) := by
  intros; unfold Device.loseTowers; try dsimp only
  repeat' first
      | intro _ | with_reducible assumption | with_reducible apply Device.each_keeps | with_reducible apply Device.fence_keeps
      | with_reducible apply Device.fault_keeps | with_reducible apply Device.autoRejoin_keeps
      | with_reducible refine keeps_foldl _ _ _ ?_ ?_ | with_reducible refine keeps_foldl_fst _ _ _ ?_ ?_
      | with_reducible refine keeps_foldl_snd _ _ _ ?_ ?_ | dsimp only | split

theorem Device.darken_keeps : ∀ a0 a1, Keeps bm bc bs true d0 a1 → Keeps bm bc bs true d0 (@Device.darken a0 a1) := by
  intros; unfold Device.darken; try dsimp only
  repeat' first
      | intro _ | with_reducible assumption | with_reducible apply Device.setField_keeps
      | with_reducible apply Device.modTower_keeps | dsimp only | split

theorem Device.rejoinCmd_keeps : ∀ a0, Keeps bm bc bs true d0 a0 → Keeps bm bc bs true d0 (@Device.rejoinCmd a0) := by
  intros; unfold Device.rejoinCmd; try dsimp only
  repeat' first
      | intro _ | with_reducible assumption | with_reducible apply Device.mbxWhen_keeps
      | with_reducible apply Device.mbxEnd_keeps | with_reducible apply Device.modTower_keeps | with_reducible apply keeps_ite
      | dsimp only | split

theorem Device.tuneTower_keeps : ∀ a0 a1 a2, Keeps bm bc bs br d0 a2 → Keeps bm bc bs br d0 (@Device.tuneTower a0 a1 a2) := by
  intros; unfold Device.tuneTower; try dsimp only
  repeat' first
      | intro _ | with_reducible assumption | with_reducible apply Device.modTower_keeps
      | with_reducible refine keeps_foldl _ _ _ ?_ ?_ | with_reducible refine keeps_foldl_fst _ _ _ ?_ ?_
      | with_reducible refine keeps_foldl_snd _ _ _ ?_ ?_ | dsimp only | split

theorem Device.rejoinEnd_keeps : ∀ a0 a1 a2 a3, Keeps bm bc true true d0 a3 → Keeps bm bc true true d0 (@Device.rejoinEnd a0 a1 a2 a3) := by
  intros; unfold Device.rejoinEnd; try dsimp only
  repeat' first
      | intro _ | with_reducible assumption | with_reducible apply Device.modTower_keeps
      | with_reducible apply Device.setField_keeps | with_reducible apply Device.each_keeps
      | with_reducible apply Device.modSite_keeps | with_reducible apply Device.mbxEndOf_keeps
      | with_reducible apply Device.startModel_keeps | with_reducible apply Device.tuneTower_keeps
      | with_reducible apply Device.darken_keeps | with_reducible apply Device.autoRejoin_keeps
      | with_reducible apply keeps_ite | dsimp only | split

theorem Device.dropArrayCues_keeps : ∀ a0 a1, Keeps bm true bs true d0 a1 → Keeps bm true bs true d0 ((@Device.dropArrayCues a0 a1)) := by
  intros; unfold Device.dropArrayCues; try dsimp only
  repeat' first
      | intro _ | with_reducible assumption | with_reducible apply Device.rampStop_keeps
      | with_reducible apply Device.modCore_keeps | with_reducible apply keeps_ite | dsimp only | split
      | (fail_if_no_progress with_reducible refine keeps_fields ?_)

theorem Device.arrayResetCmd_keeps : ∀ a0, Keeps bm true bs true d0 a0 → Keeps bm true bs true d0 ((@Device.arrayResetCmd a0)) := by
  intros; unfold Device.arrayResetCmd; try dsimp only
  repeat' first
      | intro _ | with_reducible assumption | with_reducible apply Device.mbxWhen_keeps
      | with_reducible apply Device.mbxEnd_keeps | with_reducible apply Device.each_keeps
      | with_reducible apply Device.dropArrayCues_keeps | with_reducible apply Device.modTower_keeps
      | with_reducible apply Device.resetArrays_keeps | with_reducible apply keeps_ite | dsimp only | split
      | (fail_if_no_progress with_reducible refine keeps_fields ?_)

theorem Device.recheckEye_keeps : ∀ a0 a1, Keeps bm bc bs true d0 a1 → Keeps bm bc bs true d0 (@Device.recheckEye a0 a1) := by
  intros; unfold Device.recheckEye; try dsimp only
  repeat' first
      | intro _ | with_reducible assumption | with_reducible apply Device.modTower_keeps
      | with_reducible apply Device.setField_keeps | with_reducible apply Device.log_keeps
      | with_reducible apply Device.setBit_keeps | with_reducible apply keeps_ite | dsimp only | split

theorem Device.guardBand_keeps : ∀ a0 a1, Keeps bm true true true d0 a1 → Keeps bm true true true d0 (@Device.guardBand a0 a1) := by
  intros; unfold Device.guardBand; try dsimp only
  repeat' first
      | intro _ | with_reducible assumption | with_reducible apply Device.count_keeps
      | with_reducible apply Device.modTake_keeps | with_reducible apply Device.each_keeps
      | with_reducible apply Device.setField_keeps | with_reducible apply Device.loseTowers_keeps
      | with_reducible apply Device.recheckEye_keeps | with_reducible apply keeps_ite
      | with_reducible refine keeps_foldl _ _ _ ?_ ?_ | with_reducible refine keeps_foldl_fst _ _ _ ?_ ?_
      | with_reducible refine keeps_foldl_snd _ _ _ ?_ ?_ | dsimp only | split

theorem Device.guardForce_keeps : ∀ a0, Keeps bm bc bs br d0 a0 → Keeps bm bc bs br d0 (@Device.guardForce a0) := by
  intros; unfold Device.guardForce; try dsimp only
  repeat' first
      | intro _ | with_reducible assumption | with_reducible apply Device.modTake_keeps | with_reducible apply keeps_ite
      | dsimp only | split

theorem Device.flashProgram_keeps : ∀ a0 a1 a2, Keeps true bc bs br d0 a0 → Keeps true bc bs br d0 (@Device.flashProgram a0 a1 a2) := by
  intros; unfold Device.flashProgram
  exact keeps_flash _ (by assumption) fun h => Memory.wf_put h _ _

theorem Device.flashErase_keeps : ∀ a0 a1 a2, Keeps true bc bs br d0 a0 → Keeps true bc bs br d0 (@Device.flashErase a0 a1 a2) := by
  intros; unfold Device.flashErase
  refine keeps_flash _ (by assumption) fun h => ?_
  rw [Memory.wf_iff] at h ⊢
  exact ⟨MapOk.filter h.1 _, h.2⟩

theorem Device.foundDefect_keeps : ∀ a0 a1 a2, Keeps bm bc bs br d0 a0 → Keeps bm bc bs br d0 ((@Device.foundDefect a0 a1 a2)) := by
  intros; unfold Device.foundDefect; try dsimp only
  repeat' first
      | intro _ | with_reducible assumption | with_reducible apply Device.note_keeps | with_reducible apply keeps_ite
      | dsimp only | split | (fail_if_no_progress with_reducible refine keeps_fields ?_)

theorem Device.foundRepair_keeps : ∀ a0 a1 a2 a3 a4 a5, Keeps bm bc bs true d0 a0 → Keeps bm bc bs true d0 ((@Device.foundRepair a0 a1 a2 a3 a4 a5)) := by
  intros; unfold Device.foundRepair; try dsimp only
  repeat' first
      | intro _ | with_reducible assumption | with_reducible apply Device.note_keeps
      | with_reducible apply Device.log_keeps | with_reducible apply keeps_ite | dsimp only | split
      | (fail_if_no_progress with_reducible refine keeps_fields ?_)

theorem Device.addEntry_keeps : ∀ a0 a1, Keeps bm bc bs br d0 a0 → Keeps bm bc bs br d0 (@Device.addEntry a0 a1) := by
  intros; unfold Device.addEntry; try dsimp only
  repeat' first
      | intro _ | with_reducible assumption | with_reducible apply keeps_ite | dsimp only | split
      | (with_reducible refine keeps_fields ?_)

theorem Device.beginWrite_keeps : ∀ a0 a1, Keeps true bc bs br d0 a0 → Keeps true bc bs br d0 (@Device.beginWrite a0 a1) := by
  intros; unfold Device.beginWrite; try dsimp only
  repeat' first
      | intro _ | with_reducible assumption | with_reducible apply Device.flashErase_keeps | dsimp only | split
      | (with_reducible refine keeps_fields ?_)

theorem Device.offerWrite_keeps : ∀ a0 a1, Keeps true bc bs true d0 a0 → Keeps true bc bs true d0 (@Device.offerWrite a0 a1) := by
  intros; unfold Device.offerWrite; try dsimp only
  repeat' first
      | intro _ | with_reducible assumption | with_reducible apply Device.beginWrite_keeps
      | with_reducible apply Device.setBit_keeps | with_reducible apply keeps_ite | dsimp only | split
      | (with_reducible refine keeps_fields ?_)

theorem Device.tryHeld_keeps : ∀ a0, Keeps true bc bs br d0 a0 → Keeps true bc bs br d0 (@Device.tryHeld a0) := by
  intros; unfold Device.tryHeld; try dsimp only
  repeat' first
      | intro _ | with_reducible assumption | with_reducible apply Device.beginWrite_keeps | with_reducible apply keeps_ite
      | dsimp only | split | (with_reducible refine keeps_fields ?_)

theorem Device.programRecords_keeps : ∀ a0 a1 a2, Keeps true bc bs br d0 a0 → Keeps true bc bs br d0 (@Device.programRecords a0 a1 a2) := by
  intros; unfold Device.programRecords; try dsimp only
  repeat' first | intro _ | with_reducible assumption | with_reducible apply Device.flashProgram_keeps | dsimp only | split

theorem Device.commitWrite_keeps : ∀ a0 a1, Keeps true bc bs br d0 a0 → Keeps true bc bs br d0 (((@Device.commitWrite a0 a1)).1) := by
  intros; unfold Device.commitWrite; try dsimp only
  repeat' first
      | intro _ | with_reducible assumption | with_reducible apply Device.programRecords_keeps
      | with_reducible apply AttRun.take_keeps | with_reducible apply Device.flashProgram_keeps
      | with_reducible apply Device.flashErase_keeps | with_reducible apply keeps_ite | dsimp only | split
      | (fail_if_no_progress with_reducible refine keeps_fields ?_)

theorem Device.programFree_keeps : ∀ a0 a1 a2, Keeps true bc bs br d0 a0 → Keeps true bc bs br d0 (@Device.programFree a0 a1 a2) := by
  intros; unfold Device.programFree; try dsimp only
  repeat' first
      | intro _ | with_reducible assumption | with_reducible apply Device.drawBytes_keeps
      | with_reducible apply Device.flashProgram_keeps | dsimp only | split

theorem Device.tearWrite_keeps : ∀ a0, Keeps true bc bs br d0 a0 → Keeps true bc bs br d0 (@Device.tearWrite a0) := by
  intros; unfold Device.tearWrite; try dsimp only
  repeat' first
      | intro _ | with_reducible assumption | with_reducible apply Device.draw_keeps
      | with_reducible apply Device.programRecords_keeps | with_reducible apply Device.programFree_keeps
      | with_reducible apply keeps_ite | dsimp only | split

theorem Device.formMap_keeps : ∀ a0 a1, Keeps bm bc bs br d0 a1 → Keeps bm bc bs br d0 (@Device.formMap a0 a1) := by
  intros; unfold Device.formMap; try dsimp only
  repeat' first
      | intro _ | with_reducible assumption | with_reducible apply Device.modTower_keeps
      | with_reducible refine keeps_foldl _ _ _ ?_ ?_ | with_reducible refine keeps_foldl_fst _ _ _ ?_ ?_
      | with_reducible refine keeps_foldl_snd _ _ _ ?_ ?_ | dsimp only | split

theorem Device.joinMap_keeps : ∀ a0, Keeps bm bc bs br d0 a0 → Keeps bm bc bs br d0 (@Device.joinMap a0) := by
  intros; unfold Device.joinMap; try dsimp only
  repeat' first
      | intro _ | with_reducible assumption | with_reducible apply Device.each_keeps
      | with_reducible apply Device.formMap_keeps | dsimp only | split | (with_reducible refine keeps_fields ?_)

theorem Device.loadTable_keeps : ∀ a0 a1 a2 a3, Keeps true bc true true d0 a0 → Keeps true bc true true d0 ((@Device.loadTable a0 a1 a2 a3)).1 := by
  intros; unfold Device.loadTable; try dsimp only
  repeat' first
      | intro _ | with_reducible assumption | with_reducible apply Device.serviceRead_keeps
      | with_reducible apply Device.takeFlip_keeps | with_reducible refine keeps_foldl _ _ _ ?_ ?_
      | with_reducible refine keeps_foldl_fst _ _ _ ?_ ?_ | with_reducible refine keeps_foldl_snd _ _ _ ?_ ?_ | dsimp only
      | split

theorem Device.reelImage_keeps : ∀ a0 a1 a2, Keeps true true true true d0 a0 → Keeps true true true true d0 (((@Device.reelImage a0 a1 a2)).1) := by
  intros; unfold Device.reelImage; try dsimp only
  repeat' first
      | intro _ | with_reducible assumption | with_reducible apply Device.serviceRead_keeps
      | with_reducible apply Device.badService_keeps | with_reducible apply keeps_ite | dsimp only | split
      | (fail_if_no_progress with_reducible refine keeps_fields ?_)

theorem Device.poolEntry_keeps : ∀ a0 a1 a2 a3 a4, Keeps bm true bs true d0 a0 → Keeps bm true bs true d0 (((@Device.poolEntry a0 a1 a2 a3 a4)).1) := by
  intro d k a t e h; unfold Device.poolEntry
  generalize descRead (mget DescEntry.reset t e) = w
  dsimp only
  split
  · exact Device.consume_keeps _ _ _ _ h
  · split
    · exact Device.consume_keeps _ _ _ _ h
    · exact h

theorem Device.freePool_keeps : ∀ a0 a1, Keeps true bc true true d0 a1 → Keeps true bc true true d0 (@Device.freePool a0 a1) := by
  intros; unfold Device.freePool; try dsimp only
  repeat' first
      | intro _ | with_reducible assumption | with_reducible apply Device.each_keeps
      | with_reducible apply Device.serviceWrite_keeps | dsimp only | split

theorem Device.startCore_keeps : ∀ a0 a1, Keeps true true true true d0 a1 → Keeps true true true true d0 ((@Device.startCore a0 a1)) := by
  intros; unfold Device.startCore; try dsimp only
  repeat' first
      | intro _ | with_reducible assumption | with_reducible apply AttRun.take_keeps
      | with_reducible apply Device.reelImage_keeps | with_reducible apply Device.loadTable_keeps
      | with_reducible apply Device.poolEntry_keeps | with_reducible apply Device.modCore_keeps
      | with_reducible apply Device.freePool_keeps | with_reducible apply keeps_ite | dsimp only | split
      | (fail_if_no_progress with_reducible refine keeps_fields ?_)

theorem Device.wakeLpd_keeps : ∀ a0, Keeps bm bc bs true d0 a0 → Keeps bm bc bs true d0 (@Device.wakeLpd a0) := by
  intros; unfold Device.wakeLpd; try dsimp only
  repeat' first
      | intro _ | with_reducible assumption | with_reducible apply Device.each_keeps
      | with_reducible apply Device.setField_keeps | with_reducible apply keeps_ite | dsimp only | split

theorem Device.prepareTake_keeps : ∀ a0 a1 a2 a3, Keeps true true true true d0 a3 → Keeps true true true true d0 ((@Device.prepareTake a0 a1 a2 a3)) := by
  intros; unfold Device.prepareTake; try dsimp only
  repeat' first
      | intro _ | with_reducible assumption | with_reducible apply Device.startCore_keeps
      | with_reducible apply Device.each_keeps | with_reducible apply Device.modSite_keeps
      | with_reducible apply Device.wakeLpd_keeps | with_reducible apply Device.setReg_keeps
      | with_reducible apply Device.modCore_keeps | with_reducible apply Device.setField_keeps
      | with_reducible apply Device.setBit_keeps | with_reducible apply Device.modTake_keeps
      | with_reducible apply keeps_ite | dsimp only | split
      | (fail_if_no_progress with_reducible refine keeps_fields ?_)

theorem Device.thaw_keeps : ∀ a0, Keeps bm bc bs true d0 a0 → Keeps bm bc bs true d0 (@Device.thaw a0) := by
  intros; unfold Device.thaw
  exact keeps_upd _ _ _ _ _ _ _ _ _ _ _ _ _ _ _ _ _ _ _ _ _ _ _ _ _ _ (Device.setField_keeps _ _ _ _ _ (by assumption)) rfl rfl (fun h => h) (fun h => h) (fun h => h)

theorem Device.armTake_keeps : ∀ a0, Keeps true true true true d0 a0 → Keeps true true true true d0 ((@Device.armTake a0)) := by
  intros; unfold Device.armTake; try dsimp only
  repeat' first
      | intro _ | with_reducible assumption | with_reducible apply Device.modTake_keeps
      | with_reducible apply Device.prepareTake_keeps | with_reducible apply keeps_ite | dsimp only | split
      | (fail_if_no_progress with_reducible refine keeps_fields ?_)

theorem Device.judgeHello_keeps : ∀ a0, Keeps true true true true d0 a0 → Keeps true true true true d0 (@Device.judgeHello a0) := by
  intros; unfold Device.judgeHello; try dsimp only
  repeat' first
      | intro _ | with_reducible assumption | with_reducible apply Device.modTake_keeps
      | with_reducible apply Device.armTake_keeps | with_reducible apply Device.mbxEndOf_keeps
      | with_reducible apply Device.thaw_keeps | with_reducible apply Device.setBit_keeps | with_reducible apply keeps_ite
      | dsimp only | split | (with_reducible refine keeps_fields ?_)

theorem Device.acceptStart_keeps : ∀ a0, Keeps true true true true d0 a0 → Keeps true true true true d0 (@Device.acceptStart a0) := by
  intros; unfold Device.acceptStart; try dsimp only
  repeat' first
      | intro _ | with_reducible assumption | with_reducible apply Device.judgeHello_keeps
      | with_reducible apply Device.sendCont_keeps | with_reducible apply Device.armTake_keeps | with_reducible apply keeps_ite
      | dsimp only | split | (with_reducible refine keeps_fields ?_)

theorem Device.takeStartCmd_keeps : ∀ a0, Keeps true true true true d0 a0 → Keeps true true true true d0 (@Device.takeStartCmd a0) := by
  intros; unfold Device.takeStartCmd; try dsimp only
  repeat' first
      | intro _ | with_reducible assumption | with_reducible apply Device.mbxWhen_keeps
      | with_reducible apply Device.acceptStart_keeps | with_reducible apply Device.copyBanks_keeps | dsimp only | split

theorem Device.reelLoadCmd_keeps : ∀ a0, Keeps true true true true d0 a0 → Keeps true true true true d0 (@Device.reelLoadCmd a0) := by
  intros; unfold Device.reelLoadCmd; try dsimp only
  repeat' first
      | intro _ | with_reducible assumption | with_reducible apply Device.mbxWhen_keeps
      | with_reducible apply Device.checkReel_keeps | with_reducible apply Device.unloadReel_keeps
      | with_reducible apply Device.joinMap_keeps | with_reducible apply Device.copyBanks_keeps
      | with_reducible apply Device.acceptStart_keeps | with_reducible apply Device.takeReel_keeps
      | with_reducible apply Device.mbxEnd_keeps | with_reducible apply keeps_ite | dsimp only | split
      | (with_reducible refine keeps_fields ?_)

theorem Device.vote_keeps : ∀ a0 a1, Keeps bm bc bs true d0 a0 → Keeps bm bc bs true d0 (@Device.vote a0 a1) := by
  intros; unfold Device.vote; try dsimp only
  repeat' first
      | intro _ | with_reducible assumption | with_reducible apply Device.sendCont_keeps | with_reducible apply keeps_ite
      | dsimp only | split

theorem Device.takeStopCmd_keeps : ∀ a0, Keeps bm bc bs true d0 a0 → Keeps bm bc bs true d0 ((@Device.takeStopCmd a0)) := by
  intros; unfold Device.takeStopCmd; try dsimp only
  repeat' first
      | intro _ | with_reducible assumption | with_reducible apply Device.mbxWhen_keeps
      | with_reducible apply AttRun.take_keeps | with_reducible apply Device.mbxEnd_keeps
      | with_reducible apply Device.vote_keeps | with_reducible apply Device.modTake_keeps
      | with_reducible apply keeps_ite | dsimp only | split
      | (fail_if_no_progress with_reducible refine keeps_fields ?_)

theorem Device.contHello_keeps : ∀ a0 a1 a2, Keeps true true true true d0 a2 → Keeps true true true true d0 (@Device.contHello a0 a1 a2) := by
  intros; unfold Device.contHello; try dsimp only
  repeat' first
      | intro _ | with_reducible assumption | with_reducible apply Device.contIn_keeps
      | with_reducible apply Device.judgeHello_keeps | with_reducible apply keeps_ite | dsimp only | split
      | (with_reducible refine keeps_fields ?_)

theorem Device.endTake_keeps : ∀ a0, Keeps bm true bs true d0 a0 → Keeps bm true bs true d0 ((@Device.endTake a0)) := by
  intros; unfold Device.endTake; try dsimp only
  repeat' first
      | intro _ | with_reducible assumption | with_reducible apply Device.each_keeps
      | with_reducible apply Device.modCore_keeps | with_reducible apply Device.modTake_keeps
      | with_reducible apply Device.thaw_keeps | with_reducible apply keeps_ite | dsimp only | split
      | (fail_if_no_progress with_reducible refine keeps_fields ?_)

theorem Device.sleepMemories_keeps : ∀ a0, Keeps bm bc true true d0 a0 → Keeps bm bc true true d0 ((@Device.sleepMemories a0)) := by
  intros; unfold Device.sleepMemories; try dsimp only
  repeat' first
      | intro _ | with_reducible assumption | with_reducible apply Device.each_keeps
      | with_reducible apply Device.modSite_keeps | with_reducible apply Device.setField_keeps
      | with_reducible apply keeps_ite | dsimp only | split
      | (fail_if_no_progress with_reducible refine keeps_fields ?_)

theorem Device.flushMerges_keeps : ∀ a0, Keeps true bc true true d0 a0 → Keeps true bc true true d0 (@Device.flushMerges a0) := by
  intros; unfold Device.flushMerges; try dsimp only
  repeat' first
      | intro _ | with_reducible assumption | with_reducible apply Device.each_keeps
      | with_reducible apply Device.completeMerge_keeps | dsimp only | split

theorem Device.endIssued_keeps : ∀ a0 a1, Keeps true true true true d0 a1 → Keeps true true true true d0 ((@Device.endIssued a0 a1)) := by
  intros; unfold Device.endIssued; try dsimp only
  repeat' first
      | intro _ | with_reducible assumption | with_reducible apply Device.modSite_keeps
      | with_reducible apply Device.each_keeps | with_reducible apply Device.drainChan_keeps
      | with_reducible apply keeps_ite | dsimp only | split
      | (fail_if_no_progress with_reducible refine keeps_fields ?_)

theorem Device.parkMemories_keeps : ∀ a0, Keeps bm bc true true d0 a0 → Keeps bm bc true true d0 ((@Device.parkMemories a0)) := by
  intros; unfold Device.parkMemories; try dsimp only
  repeat' first
      | intro _ | with_reducible assumption | with_reducible apply Device.sleepMemories_keeps
      | with_reducible apply Device.each_keeps | with_reducible apply Device.modSite_keeps
      | with_reducible apply keeps_ite | dsimp only | split
      | (fail_if_no_progress with_reducible refine keeps_fields ?_)

theorem Device.abortEnd_keeps : ∀ a0, Keeps true true true true d0 a0 → Keeps true true true true d0 ((@Device.abortEnd a0)) := by
  intros; unfold Device.abortEnd; try dsimp only
  repeat' first
      | intro _ | with_reducible assumption | with_reducible apply Device.autoRejoin_keeps
      | with_reducible apply AttRun.take_keeps | with_reducible apply Device.endSteps_keeps
      | with_reducible apply Device.each_keeps | with_reducible apply Device.endIssued_keeps
      | with_reducible apply Device.rampStop_keeps | with_reducible apply Device.modCore_keeps
      | with_reducible apply Device.modSite_keeps | with_reducible apply Device.modHalf_keeps
      | with_reducible apply Device.flushMerges_keeps | with_reducible apply Device.modTake_keeps
      | with_reducible apply Device.unloadReel_keeps | with_reducible apply Device.thaw_keeps
      | with_reducible apply Device.event_keeps | with_reducible apply Device.parkMemories_keeps
      | with_reducible apply keeps_ite | dsimp only | split
      | (fail_if_no_progress with_reducible refine keeps_fields ?_)

theorem Device.setBudgets_keeps : ∀ a0, Keeps bm bc bs true d0 a0 → Keeps bm bc bs true d0 (@Device.setBudgets a0) := by
  intros; unfold Device.setBudgets; try dsimp only
  repeat' first
      | intro _ | with_reducible assumption | with_reducible apply Device.each_keeps | with_reducible apply Device.setReg_keeps
      | dsimp only | split

theorem Device.recordFlow_keeps : ∀ a0, Keeps bm bc bs true d0 a0 → Keeps bm bc bs true d0 (@Device.recordFlow a0) := by
  intros; unfold Device.recordFlow; try dsimp only
  repeat' first
      | intro _ | with_reducible assumption | with_reducible apply Device.setReg_keeps
      | with_reducible apply Device.setBit_keeps | with_reducible apply Device.event_keeps | with_reducible apply keeps_ite
      | dsimp only | split

theorem Device.decideFrame_keeps : ∀ a0 a1 a2 a3 a4 a5, Keeps bm bc bs br d0 a0 → Keeps bm bc bs br d0 ((@Device.decideFrame a0 a1 a2 a3 a4 a5)) := by
  intros; unfold Device.decideFrame; try dsimp only
  repeat' first
      | intro _ | with_reducible assumption | with_reducible apply AttRun.take_keeps
      | with_reducible apply Device.modTake_keeps | with_reducible apply keeps_ite | dsimp only | split
      | (fail_if_no_progress with_reducible refine keeps_fields ?_)

theorem Device.sample_keeps : ∀ a0 a1 a2 a3, Keeps true true true true d0 a0 → Keeps true true true true d0 ((@Device.sample a0 a1 a2 a3)) := by
  intros; unfold Device.sample; try dsimp only
  repeat' first
      | intro _ | with_reducible assumption | with_reducible apply Device.serviceRead_keeps
      | with_reducible apply Device.badService_keeps | with_reducible apply Device.decideFrame_keeps
      | with_reducible apply keeps_ite | dsimp only | split
      | (fail_if_no_progress with_reducible refine keeps_fields ?_)

theorem Device.samplingPoint_keeps : ∀ a0, Keeps true true true true d0 a0 → Keeps true true true true d0 (@Device.samplingPoint a0) := by
  intros; unfold Device.samplingPoint; try dsimp only
  repeat' first
      | intro _ | with_reducible assumption | with_reducible apply Device.setBudgets_keeps
      | with_reducible apply Device.recordFlow_keeps | with_reducible apply Device.sample_keeps
      | with_reducible apply keeps_ite | dsimp only | split

theorem Device.sendOutcome_keeps : ∀ a0 a1, Keeps bm bc bs br d0 a0 → Keeps bm bc bs br d0 ((@Device.sendOutcome a0 a1)) := by
  intros; unfold Device.sendOutcome; try dsimp only
  repeat' first
      | intro _ | with_reducible assumption | with_reducible apply Device.modTake_keeps
      | with_reducible apply Device.sendService_keeps | with_reducible apply keeps_ite | dsimp only | split
      | (fail_if_no_progress with_reducible refine keeps_fields ?_)

theorem Device.gafferResults_keeps : ∀ a0, Keeps bm bc bs br d0 a0 → Keeps bm bc bs br d0 ((@Device.gafferResults a0)) := by
  intros; unfold Device.gafferResults; try dsimp only
  repeat' first
      | intro _ | with_reducible assumption | with_reducible apply AttRun.take_keeps
      | with_reducible apply Device.modTake_keeps | with_reducible apply Device.emit_keeps
      | with_reducible apply Device.sendOutcome_keeps | with_reducible apply keeps_ite | dsimp only | split
      | (fail_if_no_progress with_reducible refine keeps_fields ?_)

theorem Device.gafferOutcome_keeps : ∀ a0, Keeps bm bc bs true d0 a0 → Keeps bm bc bs true d0 ((@Device.gafferOutcome a0)) := by
  intros; unfold Device.gafferOutcome; try dsimp only
  repeat' first
      | intro _ | with_reducible assumption | with_reducible apply AttRun.take_keeps
      | with_reducible apply Device.modTake_keeps | with_reducible apply Device.vote_keeps
      | with_reducible apply keeps_ite | dsimp only | split
      | (fail_if_no_progress with_reducible refine keeps_fields ?_)

theorem Device.toldLength_keeps : ∀ a0 a1, Keeps bm bc bs true d0 a1 → Keeps bm bc bs true d0 ((@Device.toldLength a0 a1)) := by
  intros; unfold Device.toldLength; try dsimp only
  repeat' first
      | intro _ | with_reducible assumption | with_reducible apply AttRun.take_keeps
      | with_reducible apply Device.modTake_keeps | with_reducible apply Device.gafferOutcome_keeps
      | with_reducible apply keeps_ite | dsimp only | split
      | (fail_if_no_progress with_reducible refine keeps_fields ?_)

theorem Device.contOutcome_keeps : ∀ a0 a1 a2, Keeps bm bc bs br d0 a2 → Keeps bm bc bs br d0 (@Device.contOutcome a0 a1 a2) := by
  intros; unfold Device.contOutcome; try dsimp only
  repeat' first
      | intro _ | with_reducible assumption | with_reducible apply Device.contIn_keeps | with_reducible apply keeps_ite
      | dsimp only | split | (with_reducible refine keeps_fields ?_)

theorem Device.contLate_keeps : ∀ a0, Keeps bm bc bs true d0 a0 → Keeps bm bc bs true d0 (@Device.contLate a0) := by
  intros; unfold Device.contLate; try dsimp only
  repeat' first
      | intro _ | with_reducible assumption | with_reducible apply Device.vote_keeps | dsimp only | split
      | (with_reducible refine keeps_fields ?_)

theorem Device.contOutcomeMissing_keeps : ∀ a0, Keeps bm bc bs true d0 a0 → Keeps bm bc bs true d0 (@Device.contOutcomeMissing a0) := by
  intros; unfold Device.contOutcomeMissing; try dsimp only
  repeat' first
      | intro _ | with_reducible assumption | with_reducible apply Device.contLate_keeps | with_reducible apply keeps_ite
      | dsimp only | split

theorem Device.contCompareLate_keeps : ∀ a0, Keeps bm bc bs true d0 a0 → Keeps bm bc bs true d0 (@Device.contCompareLate a0) := by
  intros; unfold Device.contCompareLate; try dsimp only
  repeat' first
      | intro _ | with_reducible assumption | with_reducible apply Device.contLate_keeps | with_reducible apply keeps_ite
      | dsimp only | split

theorem Device.tickEnergy_keeps : ∀ a0 a1, Keeps bm bc bs true d0 a0 → Keeps bm bc bs true d0 ((@Device.tickEnergy a0 a1)) := by
  intros; unfold Device.tickEnergy; try dsimp only
  repeat' first
      | intro _ | with_reducible assumption | with_reducible apply Device.each_keeps
      | with_reducible apply Device.addEnergy_keeps | with_reducible apply AttRun.take_keeps
      | with_reducible apply Device.modTower_keeps | with_reducible apply Device.setReg_keeps
      | with_reducible apply Device.setBit_keeps | with_reducible apply Device.log_keeps
      | with_reducible apply Device.setField_keeps | with_reducible apply Device.modTake_keeps
      | with_reducible apply keeps_ite | dsimp only | split
      | (fail_if_no_progress with_reducible refine keeps_fields ?_)

theorem Device.overrun_keeps : ∀ a0, Keeps bm true bs true d0 a0 → Keeps bm true bs true d0 ((@Device.overrun a0)) := by
  intros; unfold Device.overrun; try dsimp only
  repeat' first
      | intro _ | with_reducible assumption | with_reducible apply Device.fault_keeps
      | with_reducible apply Device.fatal_keeps | with_reducible apply Device.setReg_keeps
      | with_reducible apply Device.noteBit_keeps | with_reducible apply keeps_ite
      | with_reducible refine keeps_foldl _ _ _ ?_ ?_ | with_reducible refine keeps_foldl_fst _ _ _ ?_ ?_
      | with_reducible refine keeps_foldl_snd _ _ _ ?_ ?_ | dsimp only | split
      | (fail_if_no_progress with_reducible refine keeps_fields ?_)

theorem Device.releaseFrame_keeps : ∀ a0, Keeps bm true bs true d0 a0 → Keeps bm true bs true d0 ((@Device.releaseFrame a0)) := by
  intros; unfold Device.releaseFrame; try dsimp only
  repeat' first
      | intro _ | with_reducible assumption | with_reducible apply AttRun.take_keeps
      | with_reducible apply Device.each_keeps | with_reducible apply Device.modCore_keeps
      | with_reducible apply Device.setField_keeps | with_reducible apply Device.modTake_keeps
      | with_reducible apply Device.checkFrameDone_keeps | with_reducible apply keeps_ite
      | with_reducible refine keeps_foldl _ _ _ ?_ ?_ | with_reducible refine keeps_foldl_fst _ _ _ ?_ ?_
      | with_reducible refine keeps_foldl_snd _ _ _ ?_ ?_ | dsimp only | split
      | (fail_if_no_progress with_reducible refine keeps_fields ?_)

theorem Device.darkFrame_keeps : ∀ a0, Keeps bm bc bs true d0 a0 → Keeps bm bc bs true d0 (@Device.darkFrame a0) := by
  intros; unfold Device.darkFrame; try dsimp only
  repeat' first
      | intro _ | with_reducible assumption | with_reducible apply Device.modTake_keeps
      | with_reducible apply Device.event_keeps | with_reducible apply Device.count_keeps | dsimp only | split

theorem Device.recordDark_keeps : ∀ a0 a1, Keeps bm bc bs true d0 a0 → Keeps bm bc bs true d0 (@Device.recordDark a0 a1) := by
  intros; unfold Device.recordDark; try dsimp only
  repeat' first | intro _ | with_reducible assumption | with_reducible apply Device.setReg_keeps | dsimp only | split

theorem Device.applyOutcome_keeps : ∀ a0, Keeps bm true bs true d0 a0 → Keeps bm true bs true d0 ((@Device.applyOutcome a0)) := by
  intros; unfold Device.applyOutcome; try dsimp only
  repeat' first
      | intro _ | with_reducible assumption | with_reducible apply AttRun.take_keeps
      | with_reducible apply Device.modTake_keeps | with_reducible apply Device.darkFrame_keeps
      | with_reducible apply Device.recordDark_keeps | with_reducible apply Device.count_keeps
      | with_reducible apply Device.releaseFrame_keeps | with_reducible apply Device.fault_keeps
      | with_reducible apply keeps_ite | dsimp only | split
      | (fail_if_no_progress with_reducible refine keeps_fields ?_)

theorem Device.startEnds_keeps : ∀ a0 a1, Keeps bm bc bs br d0 a1 → Keeps bm bc bs br d0 ((@Device.startEnds a0 a1)) := by
  intros; unfold Device.startEnds; try dsimp only
  repeat' first
      | intro _ | with_reducible assumption | with_reducible apply Device.mbxEndOf_keeps
      | with_reducible apply keeps_ite | dsimp only | split
      | (fail_if_no_progress with_reducible refine keeps_fields ?_)

theorem Device.startAtTick_keeps : ∀ a0, Keeps bm true bs true d0 a0 → Keeps bm true bs true d0 ((@Device.startAtTick a0)) := by
  intros; unfold Device.startAtTick; try dsimp only
  repeat' first
      | intro _ | with_reducible assumption | with_reducible apply Device.endTake_keeps
      | with_reducible apply Device.startEnds_keeps | with_reducible apply Device.modTake_keeps
      | with_reducible apply keeps_ite | dsimp only | split
      | (fail_if_no_progress with_reducible refine keeps_fields ?_)

theorem Device.tickTake_keeps : ∀ a0, Keeps bm true bs true d0 a0 → Keeps bm true bs true d0 ((@Device.tickTake a0)) := by
  intros; unfold Device.tickTake; try dsimp only
  repeat' first
      | intro _ | with_reducible assumption | with_reducible apply AttRun.take_keeps
      | with_reducible apply Device.overrun_keeps | with_reducible apply Device.modTake_keeps
      | with_reducible apply Device.endTake_keeps | with_reducible apply Device.mbxEndOf_keeps
      | with_reducible apply Device.startAtTick_keeps | with_reducible apply Device.applyOutcome_keeps
      | with_reducible apply keeps_ite | dsimp only | split
      | (fail_if_no_progress with_reducible refine keeps_fields ?_)

theorem Device.sendClapper_keeps : ∀ a0 a1 a2, Keeps bm bc bs true d0 a0 → Keeps bm bc bs true d0 (@Device.sendClapper a0 a1 a2) := by
  intros; unfold Device.sendClapper; try dsimp only
  repeat' first
      | intro _ | with_reducible assumption | with_reducible apply Device.each_keeps
      | with_reducible apply Device.sendClap_keeps | dsimp only | split

theorem Device.followClapper_keeps : ∀ a0, Keeps bm bc bs true d0 a0 → Keeps bm bc bs true d0 (@Device.followClapper a0) := by
  intros; unfold Device.followClapper; try dsimp only
  repeat' first
      | intro _ | with_reducible assumption | with_reducible apply Device.setReg_keeps
      | with_reducible apply Device.setField_keeps | with_reducible apply Device.setBit_keeps | with_reducible apply keeps_ite
      | dsimp only | split | (with_reducible refine keeps_fields ?_)

theorem Device.tickClapper_keeps : ∀ a0, Keeps bm bc bs true d0 a0 → Keeps bm bc bs true d0 (@Device.tickClapper a0) := by
  intros; unfold Device.tickClapper; try dsimp only
  repeat' first
      | intro _ | with_reducible assumption | with_reducible apply Device.sendClapper_keeps
      | with_reducible apply Device.followClapper_keeps | with_reducible apply keeps_ite | dsimp only | split
      | (with_reducible refine keeps_fields ?_)

theorem Device.tickMarks_keeps : ∀ a0, Keeps true true true true d0 a0 → Keeps true true true true d0 ((@Device.tickMarks a0)) := by
  intros; unfold Device.tickMarks; try dsimp only
  repeat' first
      | intro _ | with_reducible assumption | with_reducible apply Device.modTake_keeps
      | with_reducible apply Device.loseHalf_keeps | with_reducible apply Device.each_keeps
      | with_reducible apply Device.modModule_keeps | with_reducible apply Device.sendBridge_keeps
      | with_reducible apply keeps_ite | dsimp only | split
      | (fail_if_no_progress with_reducible refine keeps_fields ?_)

theorem Device.tick_keeps : ∀ a0 a1, Keeps true true true true d0 a1 → Keeps true true true true d0 (@Device.tick a0 a1) := by
  intros; unfold Device.tick; try dsimp only
  repeat' first
      | intro _ | with_reducible assumption | with_reducible apply Device.tickMarks_keeps
      | with_reducible apply Device.setField_keeps | with_reducible apply Device.tickClapper_keeps
      | with_reducible apply Device.tickTake_keeps | with_reducible apply Device.tickEnergy_keeps | dsimp only | split

theorem Device.forwardClapper_keeps : ∀ a0 a1 a2 a3, Keeps bm bc bs true d0 a0 → Keeps bm bc bs true d0 (@Device.forwardClapper a0 a1 a2 a3) := by
  intros; unfold Device.forwardClapper; try dsimp only
  repeat' first
      | intro _ | with_reducible assumption | with_reducible apply Device.draw_keeps
      | with_reducible apply Device.sendClapper_keeps | dsimp only | split

theorem Device.chooseClapper_keeps : ∀ a0 a1 a2 a3 a4, Keeps bm bc bs br d0 a0 → Keeps bm bc bs br d0 (@Device.chooseClapper a0 a1 a2 a3 a4) := by
  intros; unfold Device.chooseClapper; try dsimp only
  repeat' first
      | intro _ | with_reducible assumption | with_reducible apply keeps_ite | dsimp only | split
      | (with_reducible refine keeps_fields ?_)

theorem Device.useClapper_keeps : ∀ a0 a1 a2 a3, Keeps bm bc bs true d0 a3 → Keeps bm bc bs true d0 (@Device.useClapper a0 a1 a2 a3) := by
  intros; unfold Device.useClapper; try dsimp only
  repeat' first
      | intro _ | with_reducible assumption | with_reducible apply Device.setBit_keeps
      | with_reducible apply Device.setField_keeps | with_reducible apply Device.forwardClapper_keeps
      | with_reducible apply Device.chooseClapper_keeps | with_reducible apply keeps_ite | dsimp only | split
      | (with_reducible refine keeps_fields ?_)

theorem Device.clapperIn_keeps : ∀ a0 a1 a2 a3, Keeps bm bc bs true d0 a3 → Keeps bm bc bs true d0 (@Device.clapperIn a0 a1 a2 a3) := by
  intros; unfold Device.clapperIn; try dsimp only
  repeat' first
      | intro _ | with_reducible assumption | with_reducible apply Device.useClapper_keeps
      | with_reducible apply Device.takeHead_keeps | with_reducible apply keeps_ite | dsimp only | split

theorem Device.holdoverEntry_keeps : ∀ a0, Keeps bm bc bs true d0 a0 → Keeps bm bc bs true d0 (@Device.holdoverEntry a0) := by
  intros; unfold Device.holdoverEntry; try dsimp only
  repeat' first
      | intro _ | with_reducible assumption | with_reducible apply Device.setField_keeps
      | with_reducible apply Device.setBit_keeps | with_reducible apply keeps_ite | dsimp only | split

theorem Device.holdoverExpiry_keeps : ∀ a0, Keeps bm true bs true d0 a0 → Keeps bm true bs true d0 (@Device.holdoverExpiry a0) := by
  intros; unfold Device.holdoverExpiry; try dsimp only
  repeat' first
      | intro _ | with_reducible assumption | with_reducible apply Device.fault_keeps | with_reducible apply keeps_ite
      | dsimp only | split

theorem Device.landSum_keeps : ∀ a0 a1, Keeps bm bc bs br d0 a0 → Keeps bm bc bs br d0 ((@Device.landSum a0 a1)).2 := by
  intros; unfold Device.landSum; try dsimp only
  repeat' first
      | intro _ | with_reducible assumption | with_reducible apply Device.draw_keeps | with_reducible apply keeps_ite
      | dsimp only | split

theorem Device.land32_keeps : ∀ a0 a1 a2 a3, Keeps bm bc bs true d0 a3 → Keeps bm bc bs true d0 (@Device.land32 a0 a1 a2 a3) := by
  intros; unfold Device.land32; try dsimp only
  repeat' first
      | intro _ | with_reducible assumption | with_reducible apply Device.modTake_keeps
      | with_reducible apply Device.landSum_keeps | with_reducible apply Device.count_keeps | with_reducible apply keeps_ite
      | dsimp only | split

theorem Device.payloadLanded_keeps : ∀ a0 a1 a2 a3, Keeps bm bc bs true d0 a3 → Keeps bm bc bs true d0 (@Device.payloadLanded a0 a1 a2 a3) := by
  intros; unfold Device.payloadLanded; try dsimp only
  repeat' first
      | intro _ | with_reducible assumption | with_reducible apply Device.land32_keeps
      | with_reducible apply Device.modTake_keeps | with_reducible apply keeps_ite | dsimp only | split

theorem Device.flowStale_keeps : ∀ a0, Keeps bm bc bs true d0 a0 → Keeps bm bc bs true d0 (@Device.flowStale a0) := by
  intros; unfold Device.flowStale; try dsimp only
  repeat' first
      | intro _ | with_reducible assumption | with_reducible apply Device.setField_keeps
      | with_reducible apply Device.setBit_keeps | dsimp only | split

end Sys2Proof.Machine
end

