-- ==== Sys2Proof/Laws/KeepsLinks.lean ====
section
/-! SUPPORT. What no operation breaks: the half bridge, the fabric and its collectives. -/
namespace Sys2Proof.Machine

open Sys2Proof

set_option Elab.async false
set_option linter.unreachableTactic false
set_option linter.unusedTactic false

variable {bm bc bs br : Bool} {d0 : Device}

theorem Device.emitKept_keeps : ∀ a0 a1 a2, Keeps bm bc bs br d0 a2 → Keeps bm bc bs br d0 ((@Device.emitKept a0 a1 a2)) := by
  intros; unfold Device.emitKept; try dsimp only
  repeat' first
      | intro _ | with_reducible assumption | with_reducible apply Device.each_keeps
      | with_reducible apply Device.emit_keeps | with_reducible apply Device.modModule_keeps
      | with_reducible apply keeps_ite | dsimp only | split
      | (fail_if_no_progress with_reducible refine keeps_fields ?_)

theorem Device.replayBridge_keeps : ∀ a0 a1 a2, Keeps bm bc bs true d0 a0 → Keeps bm bc bs true d0 (@Device.replayBridge a0 a1 a2) := by
  intros; unfold Device.replayBridge; try dsimp only
  repeat' first
      | intro _ | with_reducible assumption | with_reducible apply Device.modModule_keeps
      | with_reducible apply Device.count_keeps | with_reducible apply Device.emitKept_keeps | with_reducible apply keeps_ite
      | dsimp only | split

theorem Device.announce_keeps : ∀ a0 a1 a2 a3, Keeps bm bc bs br d0 a0 → Keeps bm bc bs br d0 (@Device.announce a0 a1 a2 a3) := by
  intros; unfold Device.announce; try dsimp only
  repeat' first | intro _ | with_reducible assumption | with_reducible apply Device.modModule_keeps | dsimp only | split

theorem Device.crossedTo_keeps : ∀ a0 a1 a2 a3, Keeps bm bc true true d0 a3 → Keeps bm bc true true d0 (@Device.crossedTo a0 a1 a2 a3) := by
  intros; unfold Device.crossedTo; try dsimp only
  repeat' first
      | intro _ | with_reducible assumption | with_reducible apply Device.pumpPorts_keeps
      | with_reducible apply Device.enter_keeps | with_reducible apply Device.setTag_keeps | dsimp only | split

theorem Device.bridgeRead_keeps : ∀ a0 a1 a2 a3, Keeps bm bc true true d0 a0 → Keeps bm bc true true d0 (@Device.bridgeRead a0 a1 a2 a3) := by
  intros; unfold Device.bridgeRead; try dsimp only
  repeat' first
      | intro _ | with_reducible assumption | with_reducible apply Device.crossedTo_keeps | with_reducible apply keeps_ite
      | dsimp only | split

theorem Device.bridgeWrite_keeps : ∀ a0 a1 a2 a3, Keeps bm bc bs br d0 a0 → Keeps bm bc bs br d0 (@Device.bridgeWrite a0 a1 a2 a3) := by
  intros; unfold Device.bridgeWrite; try dsimp only
  repeat' first
      | intro _ | with_reducible assumption | with_reducible apply Device.setTag_keeps
      | with_reducible apply Device.announce_keeps | with_reducible apply keeps_ite | dsimp only | split

theorem Device.bridgeMask_keeps : ∀ a0 a1 a2 a3, Keeps bm bc bs br d0 a0 → Keeps bm bc bs br d0 (@Device.bridgeMask a0 a1 a2 a3) := by
  intros; unfold Device.bridgeMask; try dsimp only
  repeat' first
      | intro _ | with_reducible assumption | with_reducible apply Device.modModule_keeps | with_reducible apply keeps_ite
      | dsimp only | split

theorem Device.bridgeGive_keeps : ∀ a0 a1 a2 a3, Keeps bm bc true true d0 a0 → (∀ y0 y1, Keeps bm bc true true d0 y0 → Keeps bm bc true true d0 ((a3 y0 y1)).1) → Keeps bm bc true true d0 (@Device.bridgeGive a0 a1 a2 a3) := by
  intro d hf j f h hk
  have hg : ∀ e, Keeps bm bc true true d0 e → Keeps bm bc true true d0
      (if (d.tag hf j).st = .bridging then (e.freeTag hf j).payOwed hf j
       else if (d.tag hf j).st = .timedOut then e.setTag hf j { d.tag hf j with owner := .none } else e) := by
    intro e he
    split
    · exact Device.payOwed_keeps _ _ _ (Device.freeTag_keeps _ _ _ he)
    · split
      · exact Device.setTag_keeps _ _ _ _ he
      · exact he
  unfold Device.bridgeGive
  refine hg _ ?_
  split
  · dsimp only
    split
    · exact Device.staleTag_keeps _ _ _ _ _ _ _ h
    · split
      · exact Device.setTag_keeps _ _ _ _ (hk _ _ h)
      · exact h
  · exact h

theorem Device.bridgeResp_keeps : ∀ a0 a1 a2 a3, Keeps bm bc true true d0 a0 → Keeps bm bc true true d0 ((@Device.bridgeResp a0 a1 a2 a3)) := by
  intros; unfold Device.bridgeResp; try dsimp only
  repeat' first
      | intro _ | with_reducible assumption | with_reducible apply Device.staleTag_keeps
      | with_reducible apply Device.announce_keeps | with_reducible apply Device.bridgeGive_keeps
      | with_reducible apply Device.poisonLine_keeps | with_reducible apply keeps_ite | dsimp only | split
      | (fail_if_no_progress with_reducible refine keeps_fields ?_)

theorem Device.bridgeSig_keeps : ∀ a0 a1 a2, Keeps bm true bs true d0 a0 → Keeps bm true bs true d0 (@Device.bridgeSig a0 a1 a2) := by
  intros; unfold Device.bridgeSig; try dsimp only
  repeat' first | intro _ | with_reducible assumption | with_reducible apply Device.arriveSignal_keeps | dsimp only | split

theorem Device.bridgeSvc_keeps : ∀ a0 a1 a2 a3, Keeps bm bc bs true d0 a0 → Keeps bm bc bs true d0 ((@Device.bridgeSvc a0 a1 a2 a3)) := by
  intros; unfold Device.bridgeSvc; try dsimp only
  repeat' first
      | intro _ | with_reducible assumption | with_reducible apply Device.modModule_keeps
      | with_reducible apply Device.toldLength_keeps | with_reducible apply keeps_ite | dsimp only | split
      | (fail_if_no_progress with_reducible refine keeps_fields ?_)

theorem Device.bridgeEntry_keeps : ∀ a0 a1 a2 a3, Keeps bm true true true d0 a3 → Keeps bm true true true d0 (@Device.bridgeEntry a0 a1 a2 a3) := by
  intros; unfold Device.bridgeEntry; try dsimp only
  repeat' first
      | intro _ | with_reducible assumption | with_reducible apply Device.bridgeRead_keeps
      | with_reducible apply Device.bridgeWrite_keeps | with_reducible apply Device.bridgeMask_keeps
      | with_reducible apply Device.bridgeResp_keeps | with_reducible apply Device.bridgeSig_keeps
      | with_reducible apply Device.bridgeSvc_keeps | dsimp only | split

theorem Device.writeBeat_keeps : ∀ a0 a1 a2 a3, Keeps bm bc true true d0 a0 → Keeps bm bc true true d0 ((@Device.writeBeat a0 a1 a2 a3)) := by
  intros; unfold Device.writeBeat; try dsimp only
  repeat' first
      | intro _ | with_reducible assumption | with_reducible apply ReadRes.run_keeps
      | with_reducible apply Device.crossedTo_keeps | with_reducible apply keeps_ite | dsimp only | split
      | (fail_if_no_progress with_reducible refine keeps_fields ?_)

theorem Device.noteBeat_keeps : ∀ a0 a1 a2 a3, Keeps bm bc bs true d0 a0 → Keeps bm bc bs true d0 ((@Device.noteBeat a0 a1 a2 a3)) := by
  intros; unfold Device.noteBeat; try dsimp only
  repeat' first
      | intro _ | with_reducible assumption | with_reducible apply Device.each_keeps
      | with_reducible apply Device.countCe_keeps | with_reducible apply Device.log_keeps
      | with_reducible apply Device.countUe_keeps | with_reducible apply keeps_ite | dsimp only | split
      | (fail_if_no_progress with_reducible refine keeps_fields ?_)

theorem Device.bridgeBeat_keeps : ∀ a0 a1 a2 a3, Keeps bm bc true true d0 a3 → Keeps bm bc true true d0 ((@Device.bridgeBeat a0 a1 a2 a3)) := by
  intros; unfold Device.bridgeBeat; try dsimp only
  repeat' first
      | intro _ | with_reducible assumption | with_reducible apply Device.modModule_keeps
      | with_reducible apply Device.noteBeat_keeps | with_reducible apply Device.writeBeat_keeps
      | with_reducible apply Device.bridgeGive_keeps | with_reducible apply keeps_ite | dsimp only | split
      | (fail_if_no_progress with_reducible refine keeps_fields ?_)

theorem Device.bridgeSlots_keeps : ∀ a0 a1 a2 a3, Keeps bm true true true d0 a3 → Keeps bm true true true d0 (@Device.bridgeSlots a0 a1 a2 a3) := by
  intros; unfold Device.bridgeSlots; try dsimp only
  repeat' first
      | intro _ | with_reducible assumption | with_reducible apply Device.each_keeps
      | with_reducible apply Device.bridgeEntry_keeps | with_reducible apply Device.bridgeBeat_keeps
      | with_reducible apply keeps_ite | dsimp only | split

theorem Device.markIn_keeps : ∀ a0 a1 a2, Keeps true true true true d0 a2 → Keeps true true true true d0 ((@Device.markIn a0 a1 a2)) := by
  intros; unfold Device.markIn; try dsimp only
  repeat' first
      | intro _ | with_reducible assumption | with_reducible apply Device.modModule_keeps
      | with_reducible apply AttRun.take_keeps | with_reducible apply Device.loseHalf_keeps
      | with_reducible apply keeps_ite | dsimp only | split
      | (fail_if_no_progress with_reducible refine keeps_fields ?_)

theorem Device.bridgeTake_keeps : ∀ a0 a1 a2 a3, Keeps true true true true d0 a3 → Keeps true true true true d0 (@Device.bridgeTake a0 a1 a2 a3) := by
  intros; unfold Device.bridgeTake; try dsimp only
  repeat' first
      | intro _ | with_reducible assumption | with_reducible apply Device.modModule_keeps
      | with_reducible apply Device.bridgeSlots_keeps | with_reducible apply Device.markIn_keeps
      | with_reducible apply keeps_ite | dsimp only | split

theorem Device.bridgeRecv_keeps : ∀ a0 a1 a2 a3, Keeps true true true true d0 a3 → Keeps true true true true d0 (@Device.bridgeRecv a0 a1 a2 a3) := by
  intros; unfold Device.bridgeRecv; try dsimp only
  repeat' first
      | intro _ | with_reducible assumption | with_reducible apply Device.modModule_keeps
      | with_reducible apply Device.count_keeps | with_reducible apply Device.replayBridge_keeps
      | with_reducible apply Device.bridgeTake_keeps | with_reducible apply keeps_ite | dsimp only | split

theorem Device.bridgeFlit_keeps : ∀ a0 a1 a2 a3, Keeps true true true true d0 a3 → Keeps true true true true d0 (@Device.bridgeFlit a0 a1 a2 a3) := by
  intros; unfold Device.bridgeFlit; try dsimp only
  repeat' first
      | intro _ | with_reducible assumption | with_reducible apply Device.bridgeRecv_keeps
      | with_reducible apply Device.sendBridge_keeps | with_reducible apply keeps_ite | dsimp only | split

theorem Device.countModules_keeps : ∀ a0, Keeps bm bc bs true d0 a0 → Keeps bm bc bs true d0 (@Device.countModules a0) := by
  intros; unfold Device.countModules; try dsimp only
  repeat' first | intro _ | with_reducible assumption | with_reducible apply Device.setField_keeps | dsimp only | split

theorem Device.choosePrimary_keeps : ∀ a0, Keeps bm bc bs true d0 a0 → Keeps bm bc bs true d0 (@Device.choosePrimary a0) := by
  intros; unfold Device.choosePrimary; try dsimp only
  repeat' first
      | intro _ | with_reducible assumption | with_reducible apply Device.each_keeps
      | with_reducible apply Device.setField_keeps | with_reducible apply keeps_ite | dsimp only | split

theorem Device.moveService_keeps : ∀ a0, Keeps bm bc bs br d0 a0 → Keeps bm bc bs br d0 ((@Device.moveService a0)) := by
  intros; unfold Device.moveService; try dsimp only
  repeat' first
      | intro _ | with_reducible assumption | with_reducible apply Device.modTake_keeps
      | with_reducible apply AttRun.take_keeps | with_reducible apply Device.sendOutcome_keeps
      | with_reducible apply keeps_ite | dsimp only | split
      | (fail_if_no_progress with_reducible refine keeps_fields ?_)

theorem Device.moduleDown_keeps : ∀ a0 a1, Keeps true true true true d0 a1 → Keeps true true true true d0 (@Device.moduleDown a0 a1) := by
  intros; unfold Device.moduleDown; try dsimp only
  repeat' first
      | intro _ | with_reducible assumption | with_reducible apply Device.countModules_keeps
      | with_reducible apply Device.setField_keeps | with_reducible apply Device.loseHalf_keeps
      | with_reducible apply Device.moveService_keeps | with_reducible apply Device.setBit_keeps
      | with_reducible apply Device.choosePrimary_keeps | with_reducible apply Device.degraded_keeps
      | with_reducible apply Device.fault_keeps | with_reducible apply keeps_ite | dsimp only | split

theorem Device.repairLanes_keeps : ∀ a0 a1 a2 a3 a4, Keeps bm bc bs true d0 a4 → Keeps bm bc bs true d0 ((@Device.repairLanes a0 a1 a2 a3 a4)) := by
  intros; unfold Device.repairLanes; try dsimp only
  repeat' first
      | intro _ | with_reducible assumption | with_reducible apply Device.each_keeps
      | with_reducible apply AttRun.take_keeps | with_reducible apply Device.foundRepair_keeps
      | with_reducible apply keeps_ite | dsimp only | split
      | (fail_if_no_progress with_reducible refine keeps_fields ?_)

theorem Device.resumeModule_keeps : ∀ a0 a1, Keeps bm bc bs br d0 a1 → Keeps bm bc bs br d0 (@Device.resumeModule a0 a1) := by
  intros; unfold Device.resumeModule; try dsimp only
  repeat' first
      | intro _ | with_reducible assumption | with_reducible apply Device.modModule_keeps
      | with_reducible apply Device.emitKept_keeps | with_reducible apply keeps_ite | dsimp only | split

theorem Device.bridgeRetrain_keeps : ∀ a0 a1 a2 a3 a4 a5, Keeps true true true true d0 a5 → Keeps true true true true d0 (@Device.bridgeRetrain a0 a1 a2 a3 a4 a5) := by
  intros; unfold Device.bridgeRetrain; try dsimp only
  repeat' first
      | intro _ | with_reducible assumption | with_reducible apply Device.repairLanes_keeps
      | with_reducible apply Device.setField_keeps | with_reducible apply Device.degraded_keeps
      | with_reducible apply Device.setBit_keeps | with_reducible apply Device.moduleDown_keeps
      | with_reducible apply Device.resumeModule_keeps | with_reducible apply keeps_ite | dsimp only | split

theorem Device.setFabTag_keeps : ∀ a0 a1 a2 a3, Keeps bm bc bs br d0 a0 → Keeps bm bc bs br d0 (@Device.setFabTag a0 a1 a2 a3) := by
  intros; unfold Device.setFabTag; try dsimp only
  repeat' first | intro _ | with_reducible assumption | with_reducible apply Device.modPort_keeps | dsimp only | split

theorem Device.tagPacket_keeps : ∀ a0 a1 a2 a3, Keeps bm bc bs br d0 a0 → ∀ r, (@Device.tagPacket a0 a1 a2 a3) = some r → Keeps bm bc bs br d0 (r).1 := by
  intro d p k w h r hr
  unfold Device.tagPacket at hr
  split at hr
  · cases hr
  · injection hr with hr
    rw [← hr]
    exact Device.setFabTag_keeps _ _ _ _ h

theorem Device.refuseAt_keeps : ∀ a0 a1 a2, Keeps bm bc bs true d0 a0 → Keeps bm bc bs true d0 (@Device.refuseAt a0 a1 a2) := by
  intros; unfold Device.refuseAt; try dsimp only
  repeat' first
      | intro _ | with_reducible assumption | with_reducible apply Device.refused_keeps
      | with_reducible apply Device.addrError_keeps | with_reducible apply keeps_ite | dsimp only | split

theorem Device.ringWrite_keeps : ∀ a0 a1 a2 a3 a4, Keeps true bc true true d0 a0 → Keeps true bc true true d0 (@Device.ringWrite a0 a1 a2 a3 a4) := by
  intros; unfold Device.ringWrite; try dsimp only
  repeat' first | intro _ | with_reducible assumption | with_reducible apply Device.access_keeps | dsimp only | split

theorem Device.ringData_keeps : ∀ a0 a1 a2 a3 a4, Keeps true bc true true d0 a0 → Keeps true bc true true d0 (@Device.ringData a0 a1 a2 a3 a4) := by
  intros; unfold Device.ringData; try dsimp only
  repeat' first
      | intro _ | with_reducible assumption | with_reducible apply Device.ringWrite_keeps
      | with_reducible apply Device.refuseAt_keeps | with_reducible apply keeps_ite | dsimp only | split

theorem Device.castOn_keeps : ∀ a0 a1 a2, Keeps bm bc bs true d0 a0 → Keeps bm bc bs true d0 (@Device.castOn a0 a1 a2) := by
  intros; unfold Device.castOn; try dsimp only
  repeat' first
      | intro _ | with_reducible assumption | with_reducible apply Device.each_keeps
      | with_reducible apply Device.txPacket_keeps | with_reducible apply keeps_ite | dsimp only | split

theorem Device.dataIn_keeps : ∀ a0 a1 a2, Keeps true bc true true d0 a2 → Keeps true bc true true d0 (@Device.dataIn a0 a1 a2) := by
  intros; unfold Device.dataIn; try dsimp only
  repeat' first
      | intro _ | with_reducible assumption | with_reducible apply Device.takeRx_keeps
      | with_reducible apply Device.castOn_keeps | with_reducible apply Device.ringWrite_keeps
      | with_reducible apply Device.ackTo_keeps | with_reducible apply Device.refuseAt_keeps | with_reducible apply keeps_ite
      | dsimp only | split

theorem Device.fabSend_keeps : ∀ a0 a1 a2 a3, Keeps bm bc bs true d0 a0 → (∀ y0 y1, Keeps bm bc bs true d0 y1 → Keeps bm bc bs true d0 (a3 y0 y1)) → ∀ r, (@Device.fabSend a0 a1 a2 a3) = some r → Keeps bm bc bs true d0 r := by
  intro d w k ring h hr r hs
  unfold Device.fabSend at hs
  split at hs
  · split at hs
    · injection hs with hs; rw [← hs]; exact Device.refused_keeps _ _ _ h
    · split at hs
      · injection hs with hs; rw [← hs]; exact hr _ _ h
      · simp only [Option.map_eq_some_iff] at hs
        obtain ⟨a, ha, hs⟩ := hs
        rw [← hs]
        refine hr _ _ (Device.each_keeps _ _ _ _ ?_ (Device.tagPacket_keeps _ _ _ _ h _ ha))
        intro q e he
        exact Device.txPacket_keeps _ _ _ he
  · split at hs
    · injection hs with hs; rw [← hs]; exact hr _ _ h
    · split at hs
      · injection hs with hs; rw [← hs]; exact Device.refused_keeps _ _ _ h
      · simp only [Option.map_eq_some_iff] at hs
        obtain ⟨a, ha, hs⟩ := hs
        rw [← hs]
        exact Device.txPacket_keeps _ _ _ (Device.tagPacket_keeps _ _ _ _ h _ ha)

theorem Device.pumpRing_keeps : ∀ a0 a1, Keeps true bc true true d0 a1 → Keeps true bc true true d0 (@Device.pumpRing a0 a1) := by
  intro n
  induction n with
  | zero => intro d h; exact h
  | succ n ih =>
    intro d h
    unfold Device.pumpRing
    split
    · exact h
    · split
      · rename_i e he
        refine ih _ (Device.outputLeft_keeps _ _ (keeps_fields (Device.fabSend_keeps _ _ _ _ h ?_ _ he)))
        intro k d hd
        exact Device.ringData_keeps _ _ _ _ _ hd
      · exact h

theorem Device.readStream_keeps : ∀ a0 a1 a2 a3, Keeps true bc true true d0 a0 → Keeps true bc true true d0 (((@Device.readStream a0 a1 a2 a3)).1) := by
  intros; unfold Device.readStream; try dsimp only
  repeat' first
      | intro _ | with_reducible assumption | with_reducible apply Device.ringTrip_keeps
      | with_reducible apply Device.readLines_keeps | with_reducible apply keeps_ite
      | with_reducible refine keeps_foldl _ _ _ ?_ ?_ | with_reducible refine keeps_foldl_fst _ _ _ ?_ ?_
      | with_reducible refine keeps_foldl_snd _ _ _ ?_ ?_ | with_reducible refine keeps_fold ReadRes.dev _ _ _ ?_ ?_
      | dsimp only | split | (fail_if_no_progress with_reducible refine keeps_fields ?_)

theorem Device.sendPkt_keeps : ∀ a0 a1 a2 a3, Keeps true bc true true d0 a0 → Keeps true bc true true d0 (((@Device.sendPkt a0 a1 a2 a3)).1) := by
  intros; unfold Device.sendPkt; try dsimp only
  repeat' first
      | intro _ | with_reducible assumption | with_reducible apply Device.readStream_keeps
      | with_reducible apply keeps_ite | dsimp only | split
      | (fail_if_no_progress with_reducible refine keeps_fields ?_)

theorem Device.sendPump_keeps : ∀ a0 a1 a2 a3 a4, (∀ y0 y1, Keeps true true true true d0 y1 → Keeps true true true true d0 (a2 y0 y1)) → Keeps true true true true d0 a4 → Keeps true true true true d0 (@Device.sendPump a0 a1 a2 a3 a4) := by
  intro k q ring n
  induction n with
  | zero => intro d hr h; exact h
  | succ n ih =>
    intro d hr h
    unfold Device.sendPump
    split
    · dsimp only
      split
      · rename_i e he
        simp only [Option.filter_eq_some_iff] at he
        obtain ⟨he, -⟩ := he
        split at he
        · cases he
        · refine ih _ hr (Device.workMod_keeps _ _ _ _ (Device.sigAdd_keeps _ _ _ (Device.fabSend_keeps _ _ _ _ ?_ hr _ he)))
          refine Device.sendPkt_keeps _ _ _ _ ?_
          (with_reducible refine keeps_fields ?_); exact h
      · exact h
    · exact h

theorem Device.sendStep_keeps : ∀ a0 a1 a2, (∀ y0 y1, Keeps true true true true d0 y1 → Keeps true true true true d0 (a0 y0 y1)) → Keeps true true true true d0 a2 → Keeps true true true true d0 (@Device.sendStep a0 a1 a2) := by
  intros; unfold Device.sendStep; try dsimp only
  repeat' first
      | intro _ | with_reducible assumption | with_reducible apply_assumption | with_reducible apply Device.headMod_keeps
      | with_reducible apply Device.dmaSettle_keeps | with_reducible apply Device.sendPump_keeps
      | with_reducible apply keeps_ite | dsimp only | split

theorem Device.staleAck_keeps : ∀ a0 a1 a2 a3 a4, Keeps bm bc bs true d0 a0 → Keeps bm bc bs true d0 (@Device.staleAck a0 a1 a2 a3 a4) := by
  intros; unfold Device.staleAck; try dsimp only
  repeat' first
      | intro _ | with_reducible assumption | with_reducible apply Device.log_keeps | with_reducible apply Device.setBit_keeps
      | with_reducible apply Device.count_keeps | dsimp only | split

theorem Device.ackEntry_keeps : ∀ a0 a1 a2 a3, Keeps bm bc bs true d0 a3 → Keeps bm bc bs true d0 (@Device.ackEntry a0 a1 a2 a3) := by
  intros; unfold Device.ackEntry; try dsimp only
  repeat' first
      | intro _ | with_reducible assumption | with_reducible apply Device.staleAck_keeps
      | with_reducible apply Device.log_keeps | with_reducible apply Device.setBit_keeps
      | with_reducible apply Device.count_keeps | with_reducible apply Device.setFabTag_keeps | with_reducible apply keeps_ite
      | dsimp only | split

theorem Device.ackIn_keeps : ∀ a0 a1 a2, Keeps true bc true true d0 a2 → Keeps true bc true true d0 (@Device.ackIn a0 a1 a2) := by
  intros; unfold Device.ackIn; try dsimp only
  repeat' first
      | intro _ | with_reducible assumption | with_reducible apply Device.takeRx_keeps | with_reducible apply Device.each_keeps
      | with_reducible apply Device.ackEntry_keeps | with_reducible apply Device.pumpRing_keeps
      | with_reducible apply keeps_ite | dsimp only | split

theorem Device.fabTimeout_keeps : ∀ a0 a1 a2, Keeps bm true bs true d0 a2 → Keeps bm true bs true d0 (@Device.fabTimeout a0 a1 a2) := by
  intros; unfold Device.fabTimeout; try dsimp only
  repeat' first
      | intro _ | with_reducible assumption | with_reducible apply Device.setFabTag_keeps
      | with_reducible apply Device.log_keeps | with_reducible apply Device.setBit_keeps
      | with_reducible apply Device.count_keeps | with_reducible apply Device.fault_keeps | with_reducible apply keeps_ite
      | dsimp only | split

theorem Device.fabRelease_keeps : ∀ a0 a1 a2, Keeps true bc true true d0 a2 → Keeps true bc true true d0 (@Device.fabRelease a0 a1 a2) := by
  intros; unfold Device.fabRelease; try dsimp only
  repeat' first
      | intro _ | with_reducible assumption | with_reducible apply Device.setFabTag_keeps
      | with_reducible apply Device.pumpRing_keeps | with_reducible apply keeps_ite | dsimp only | split

theorem Device.forward_keeps : ∀ a0 a1 a2, Keeps true bc true true d0 a2 → Keeps true bc true true d0 ((@Device.forward a0 a1 a2)) := by
  intros; unfold Device.forward; try dsimp only
  repeat' first
      | intro _ | with_reducible assumption | with_reducible apply Device.dataIn_keeps
      | with_reducible apply Device.takeRx_keeps | with_reducible apply Device.castOn_keeps
      | with_reducible apply Device.count_keeps | with_reducible apply Device.setBit_keeps
      | with_reducible apply Device.logPacket_keeps | with_reducible apply Device.txPacket_keeps
      | with_reducible apply Device.refused_keeps | with_reducible apply Device.ackTo_keeps
      | with_reducible apply keeps_ite | dsimp only | split
      | (fail_if_no_progress with_reducible refine keeps_fields ?_)

theorem Device.aged_keeps : ∀ a0 a1 a2, Keeps bm bc bs true d0 a2 → Keeps bm bc bs true d0 (@Device.aged a0 a1 a2) := by
  intros; unfold Device.aged; try dsimp only
  repeat' first
      | intro _ | with_reducible assumption | with_reducible apply Device.logPacket_keeps
      | with_reducible apply Device.setBit_keeps | with_reducible apply Device.count_keeps
      | with_reducible apply Device.modPort_keeps | with_reducible apply Device.takeRx_keeps | with_reducible apply keeps_ite
      | dsimp only | split

theorem Device.receive_keeps : ∀ a0 a1 a2 a3, Keeps bm bc bs true d0 a0 → Keeps bm bc bs true d0 ((@Device.receive a0 a1 a2 a3)) := by
  intros; unfold Device.receive; try dsimp only
  repeat' first
      | intro _ | with_reducible assumption | with_reducible apply AttRun.take_keeps
      | with_reducible apply Device.modPort_keeps | with_reducible apply Device.draw_keeps
      | with_reducible apply Device.logPacket_keeps | with_reducible apply keeps_ite | dsimp only | split
      | (fail_if_no_progress with_reducible refine keeps_fields ?_)

theorem Device.noteFab_keeps : ∀ a0 a1 a2 a3, Keeps bm bc bs true d0 a0 → Keeps bm bc bs true d0 (@Device.noteFab a0 a1 a2 a3) := by
  intros; unfold Device.noteFab; try dsimp only
  repeat' first
      | intro _ | with_reducible assumption | with_reducible apply Device.log_keeps | with_reducible apply Device.setBit_keeps
      | with_reducible apply keeps_ite | dsimp only | split

theorem Device.fabSlots_keeps : ∀ a0 a1 a2 a3 a4 a5, Keeps bm bc bs true d0 a5 → Keeps bm bc bs true d0 (((@Device.fabSlots a0 a1 a2 a3 a4 a5)).1) := by
  intro a0 a1 a2 a3
  induction a3 with
  | nil =>
    intro a4 a5 h0; unfold Device.fabSlots; try dsimp only
    repeat' first
        | intro _ | with_reducible assumption | with_reducible apply ih | with_reducible apply Device.noteFab_keeps
        | with_reducible apply Device.receive_keeps | with_reducible apply keeps_ite | dsimp only | split
        | (fail_if_no_progress with_reducible refine keeps_fields ?_)
  | cons x l ih =>
    intro a4 a5 h0; unfold Device.fabSlots; try dsimp only
    repeat' first
        | intro _ | with_reducible assumption | with_reducible apply ih | with_reducible apply Device.noteFab_keeps
        | with_reducible apply Device.receive_keeps | with_reducible apply keeps_ite | dsimp only | split
        | (fail_if_no_progress with_reducible refine keeps_fields ?_)

theorem Device.replayFab_keeps : ∀ a0 a1, Keeps bm bc bs true d0 a0 → Keeps bm bc bs true d0 (@Device.replayFab a0 a1) := by
  intros; unfold Device.replayFab; try dsimp only
  repeat' first
      | intro _ | with_reducible assumption | with_reducible apply Device.each_keeps | with_reducible apply Device.emit_keeps
      | with_reducible apply Device.count_keeps | with_reducible apply keeps_ite | dsimp only | split

theorem Device.fabTake_keeps : ∀ a0 a1 a2, Keeps bm bc bs true d0 a2 → Keeps bm bc bs true d0 ((@Device.fabTake a0 a1 a2)) := by
  intros; unfold Device.fabTake; try dsimp only
  repeat' first
      | intro _ | with_reducible assumption | with_reducible apply Device.fabSlots_keeps
      | with_reducible apply Device.modPort_keeps | with_reducible apply keeps_ite | dsimp only | split
      | (fail_if_no_progress with_reducible refine keeps_fields ?_)

theorem Device.fabCredits_keeps : ∀ a0 a1 a2, Keeps bm bc bs br d0 a2 → Keeps bm bc bs br d0 (@Device.fabCredits a0 a1 a2) := by
  intros; unfold Device.fabCredits; try dsimp only
  repeat' first | intro _ | with_reducible assumption | with_reducible apply Device.modPort_keeps | dsimp only | split

theorem Device.fabRecv_keeps : ∀ a0 a1 a2, Keeps bm bc bs true d0 a2 → Keeps bm bc bs true d0 (@Device.fabRecv a0 a1 a2) := by
  intros; unfold Device.fabRecv; try dsimp only
  repeat' first
      | intro _ | with_reducible assumption | with_reducible apply Device.modPort_keeps
      | with_reducible apply Device.count_keeps | with_reducible apply Device.replayFab_keeps
      | with_reducible apply Device.fabCredits_keeps | with_reducible apply Device.fabTake_keeps
      | with_reducible apply keeps_ite | dsimp only | split

theorem Device.fabFlitIn_keeps : ∀ a0 a1 a2, Keeps bm bc bs true d0 a2 → Keeps bm bc bs true d0 (@Device.fabFlitIn a0 a1 a2) := by
  intros; unfold Device.fabFlitIn; try dsimp only
  repeat' first
      | intro _ | with_reducible assumption | with_reducible apply Device.fabRecv_keeps
      | with_reducible apply Device.settlePort_keeps | with_reducible apply Device.pumpPort_keeps
      | with_reducible apply Device.sendFlit_keeps | with_reducible apply keeps_ite | dsimp only | split

theorem Device.ringRead_keeps : ∀ a0 a1 a2 a3, Keeps true bc true true d0 a0 → Keeps true bc true true d0 (((@Device.ringRead a0 a1 a2 a3)).dev) := by
  intros; unfold Device.ringRead; try dsimp only
  repeat' first
      | intro _ | with_reducible assumption | with_reducible apply Device.ringTrip_keeps
      | with_reducible apply Device.readLines_keeps | with_reducible apply keeps_ite | dsimp only | split
      | (fail_if_no_progress with_reducible refine keeps_fields ?_)

theorem Device.consumeColl_keeps : ∀ a0 a1 a2, Keeps bm true bs true d0 a0 → Keeps bm true bs true d0 (@Device.consumeColl a0 a1 a2) := by
  intros; unfold Device.consumeColl; try dsimp only
  repeat' first
      | intro _ | with_reducible assumption | with_reducible apply Device.fault_keeps | with_reducible apply Device.log_keeps
      | dsimp only | split

theorem Device.refuseColl_keeps : ∀ a0 a1 a2, Keeps bm bc bs true d0 a0 → Keeps bm bc bs true d0 (@Device.refuseColl a0 a1 a2) := by
  intros; unfold Device.refuseColl; try dsimp only
  repeat' first
      | intro _ | with_reducible assumption | with_reducible apply Device.ackPort_keeps
      | with_reducible apply Device.refuseAt_keeps | dsimp only | split

theorem Device.collOut_keeps : ∀ a0 a1 a2, Keeps true bc true true d0 a0 → Keeps true bc true true d0 (@Device.collOut a0 a1 a2) := by
  intros; unfold Device.collOut; try dsimp only
  repeat' first
      | intro _ | with_reducible assumption | with_reducible apply Device.ringWrite_keeps
      | with_reducible apply Device.refuseColl_keeps | with_reducible apply keeps_ite | dsimp only | split

theorem Device.contribute_keeps : ∀ a0 a1 a2 a3 a4 a5, Keeps true bc true true d0 a0 → Keeps true bc true true d0 (@Device.contribute a0 a1 a2 a3 a4 a5) := by
  intros; unfold Device.contribute; try dsimp only
  repeat' first
      | intro _ | with_reducible assumption | with_reducible apply Device.refuseColl_keeps
      | with_reducible apply Device.setBit_keeps | with_reducible apply Device.ringWrite_keeps | with_reducible apply keeps_ite
      | dsimp only | split

theorem Device.collect_keeps : ∀ a0 a1 a2, Keeps true true true true d0 a0 → Keeps true true true true d0 ((@Device.collect a0 a1 a2)) := by
  intros; unfold Device.collect; try dsimp only
  repeat' first
      | intro _ | with_reducible assumption | with_reducible apply Device.refuseColl_keeps
      | with_reducible apply Device.ringRead_keeps | with_reducible apply Device.consumeColl_keeps
      | with_reducible apply Device.contribute_keeps | with_reducible apply Device.collOut_keeps
      | with_reducible apply keeps_ite | dsimp only | split
      | (fail_if_no_progress with_reducible refine keeps_fields ?_)

theorem Device.collIn_keeps : ∀ a0 a1 a2, Keeps true true true true d0 a2 → Keeps true true true true d0 (@Device.collIn a0 a1 a2) := by
  intros; unfold Device.collIn; try dsimp only
  repeat' first
      | intro _ | with_reducible assumption | with_reducible apply Device.collect_keeps
      | with_reducible apply Device.takeRx_keeps | with_reducible apply keeps_ite | dsimp only | split

theorem Device.ringPacket_keeps : ∀ a0 a1 a2, Keeps true true true true d0 a2 → Keeps true true true true d0 (@Device.ringPacket a0 a1 a2) := by
  intros; unfold Device.ringPacket; try dsimp only
  repeat' first
      | intro _ | with_reducible assumption | with_reducible apply Device.collect_keeps
      | with_reducible apply Device.ringData_keeps | with_reducible apply keeps_ite | dsimp only | split

theorem Device.combined_keeps : ∀ a0 a1 a2, Keeps bm bc bs br d0 a0 → Keeps bm bc bs br d0 ((@Device.combined a0 a1 a2)).1 := by
  intros; unfold Device.combined; try dsimp only
  repeat' first
      | intro _ | with_reducible assumption | with_reducible apply Device.drawBytes_keeps | with_reducible apply keeps_ite
      | dsimp only | split

theorem Device.sendOutput_keeps : ∀ a0 a1 a2, Keeps true bc true true d0 a2 → Keeps true bc true true d0 ((@Device.sendOutput a0 a1 a2)) := by
  intros; unfold Device.sendOutput; try dsimp only
  repeat' first
      | intro _ | with_reducible assumption | with_reducible apply Device.each_keeps
      | with_reducible apply Device.ringWrite_keeps | with_reducible apply Device.refuseAt_keeps
      | with_reducible apply Device.outputLeft_keeps | with_reducible apply Device.ring_keeps
      | with_reducible apply Device.pumpRing_keeps | with_reducible apply keeps_ite | dsimp only | split
      | (fail_if_no_progress with_reducible refine keeps_fields ?_)

theorem Device.combineJob_keeps : ∀ a0 a1 a2, Keeps true true true true d0 a2 → Keeps true true true true d0 ((@Device.combineJob a0 a1 a2)) := by
  intros; unfold Device.combineJob; try dsimp only
  repeat' first
      | intro _ | with_reducible assumption | with_reducible apply Device.ringRead_keeps
      | with_reducible apply Device.consumeColl_keeps | with_reducible apply Device.combined_keeps
      | with_reducible apply Device.sendOutput_keeps | with_reducible apply Device.outputLeft_keeps
      | with_reducible apply keeps_ite | dsimp only | split
      | (fail_if_no_progress with_reducible refine keeps_fields ?_)

theorem Device.combine_keeps : ∀ a0 a1, Keeps true true true true d0 a1 → Keeps true true true true d0 ((@Device.combine a0 a1)) := by
  intros; unfold Device.combine; try dsimp only
  repeat' first
      | intro _ | with_reducible assumption | with_reducible apply AttRun.take_keeps
      | with_reducible apply Device.setJobs_keeps | with_reducible apply Device.combineJob_keeps
      | with_reducible apply keeps_ite | dsimp only | split
      | (fail_if_no_progress with_reducible refine keeps_fields ?_)

end Sys2Proof.Machine
end

