-- ==== Sys2Proof/Laws/KeepsStart.lean ====
section
/-! SUPPORT. What no operation breaks: saves, the fuses, the sensors, discovery and start-up. -/
namespace Sys2Proof.Machine

open Sys2Proof

set_option Elab.async false
set_option linter.unreachableTactic false
set_option linter.unusedTactic false

variable {bm bc bs br : Bool} {d0 : Device}

theorem Device.logSensor_keeps : ∀ a0 a1 a2 a3, Keeps bm bc bs true d0 a0 → Keeps bm bc bs true d0 (@Device.logSensor a0 a1 a2 a3) := by
  intros; unfold Device.logSensor; try dsimp only
  repeat' first | intro _ | with_reducible assumption | with_reducible apply Device.log_keeps | dsimp only | split

theorem Device.suspectTower_keeps : ∀ a0 a1 a2, Keeps bm bc bs true d0 a2 → Keeps bm bc bs true d0 (@Device.suspectTower a0 a1 a2) := by
  intros; unfold Device.suspectTower; try dsimp only
  repeat' first
      | intro _ | with_reducible assumption | with_reducible apply Device.logSensor_keeps
      | with_reducible apply Device.setBit_keeps | with_reducible apply Device.modTower_keeps | dsimp only | split

theorem Device.checkTowerSensors_keeps : ∀ a0 a1, Keeps bm bc bs true d0 a1 → Keeps bm bc bs true d0 (@Device.checkTowerSensors a0 a1) := by
  intros; unfold Device.checkTowerSensors; try dsimp only
  repeat' first
      | intro _ | with_reducible assumption | with_reducible apply Device.each_keeps
      | with_reducible apply Device.suspectTower_keeps | with_reducible apply Device.modTower_keeps
      | with_reducible refine keeps_foldl _ _ _ ?_ ?_ | with_reducible refine keeps_foldl_fst _ _ _ ?_ ?_
      | with_reducible refine keeps_foldl_snd _ _ _ ?_ ?_ | dsimp only | split

theorem Device.checkPair_keeps : ∀ a0 a1 a2, Keeps bm bc bs true d0 a2 → Keeps bm bc bs true d0 (@Device.checkPair a0 a1 a2) := by
  intros; unfold Device.checkPair; try dsimp only
  repeat' first
      | intro _ | with_reducible assumption | with_reducible apply Device.modTower_keeps
      | with_reducible apply Device.logSensor_keeps | with_reducible apply Device.setBit_keeps
      | with_reducible apply Device.suspectTower_keeps | with_reducible apply keeps_ite | dsimp only | split

theorem Device.checkMiddles_keeps : ∀ a0 a1, Keeps bm bc bs true d0 a1 → Keeps bm bc bs true d0 (@Device.checkMiddles a0 a1) := by
  intros; unfold Device.checkMiddles; try dsimp only
  repeat' first
      | intro _ | with_reducible assumption | with_reducible apply Device.modTower_keeps
      | with_reducible apply Device.each_keeps | with_reducible apply Device.logSensor_keeps
      | with_reducible apply Device.setBit_keeps | with_reducible refine keeps_foldl _ _ _ ?_ ?_
      | with_reducible refine keeps_foldl_fst _ _ _ ?_ ?_ | with_reducible refine keeps_foldl_snd _ _ _ ?_ ?_ | dsimp only
      | split

theorem Device.warned_keeps : ∀ a0 a1 a2, Keeps bm bc bs true d0 a0 → Keeps bm bc bs true d0 (@Device.warned a0 a1 a2) := by
  intros; unfold Device.warned; try dsimp only
  repeat' first
      | intro _ | with_reducible assumption | with_reducible apply Device.log_keeps | with_reducible apply Device.event_keeps
      | with_reducible apply Device.setBit_keeps | dsimp only | split

theorem Device.setLayer_keeps : ∀ a0 a1 a2, Keeps bm bc bs true d0 a2 → Keeps bm bc bs true d0 (@Device.setLayer a0 a1 a2) := by
  intros; unfold Device.setLayer; try dsimp only
  repeat' first
      | intro _ | with_reducible assumption | with_reducible apply Device.modTower_keeps
      | with_reducible apply Device.warned_keeps | with_reducible apply keeps_ite | dsimp only | split

theorem Device.setWindow_keeps : ∀ a0 a1 a2, Keeps bm bc true br d0 a2 → Keeps bm bc true br d0 (@Device.setWindow a0 a1 a2) := by
  intros; unfold Device.setWindow; try dsimp only
  repeat' first
      | intro _ | with_reducible assumption | with_reducible apply Device.modTower_keeps
      | with_reducible apply Device.each_keeps | with_reducible apply Device.modChan_keeps | with_reducible apply keeps_ite
      | with_reducible refine keeps_foldl _ _ _ ?_ ?_ | with_reducible refine keeps_foldl_fst _ _ _ ?_ ?_
      | with_reducible refine keeps_foldl_snd _ _ _ ?_ ?_ | dsimp only | split

theorem Device.convertTower_keeps : ∀ a0 a1, Keeps bm bc true true d0 a1 → Keeps bm bc true true d0 (@Device.convertTower a0 a1) := by
  intros; unfold Device.convertTower; try dsimp only
  repeat' first
      | intro _ | with_reducible assumption | with_reducible apply Device.each_keeps
      | with_reducible apply Device.checkPair_keeps | with_reducible apply Device.checkTowerSensors_keeps
      | with_reducible apply Device.setLayer_keeps | with_reducible apply Device.checkMiddles_keeps
      | with_reducible apply Device.setWindow_keeps | dsimp only | split

theorem Device.suspectBase_keeps : ∀ a0 a1 a2, Keeps bm bc bs true d0 a2 → Keeps bm bc bs true d0 (@Device.suspectBase a0 a1 a2) := by
  intros; unfold Device.suspectBase; try dsimp only
  repeat' first
      | intro _ | with_reducible assumption | with_reducible apply Device.logSensor_keeps
      | with_reducible apply Device.setBit_keeps | with_reducible apply Device.modHalf_keeps | dsimp only | split

theorem Device.convertBase_keeps : ∀ a0 a1, Keeps bm bc bs true d0 a1 → Keeps bm bc bs true d0 (@Device.convertBase a0 a1) := by
  intros; unfold Device.convertBase; try dsimp only
  repeat' first
      | intro _ | with_reducible assumption | with_reducible apply Device.each_keeps
      | with_reducible apply Device.suspectBase_keeps | with_reducible apply Device.modHalf_keeps
      | with_reducible apply Device.warned_keeps | with_reducible apply keeps_ite
      | with_reducible refine keeps_foldl _ _ _ ?_ ?_ | with_reducible refine keeps_foldl_fst _ _ _ ?_ ?_
      | with_reducible refine keeps_foldl_snd _ _ _ ?_ ?_ | dsimp only | split

theorem Device.suspectLid_keeps : ∀ a0 a1, Keeps bm bc bs true d0 a1 → Keeps bm bc bs true d0 (@Device.suspectLid a0 a1) := by
  intros; unfold Device.suspectLid; try dsimp only
  repeat' first
      | intro _ | with_reducible assumption | with_reducible apply Device.logSensor_keeps
      | with_reducible apply Device.setBit_keeps | dsimp only | split | (with_reducible refine keeps_fields ?_)

theorem Device.checkManifold_keeps : ∀ a0 a1, Keeps bm bc bs true d0 a1 → Keeps bm bc bs true d0 (@Device.checkManifold a0 a1) := by
  intros; unfold Device.checkManifold; try dsimp only
  repeat' first
      | intro _ | with_reducible assumption | with_reducible apply Device.each_keeps
      | with_reducible apply Device.suspectLid_keeps | with_reducible refine keeps_foldl _ _ _ ?_ ?_
      | with_reducible refine keeps_foldl_fst _ _ _ ?_ ?_ | with_reducible refine keeps_foldl_snd _ _ _ ?_ ?_ | dsimp only
      | split | (with_reducible refine keeps_fields ?_)

theorem Device.setCoolant_keeps : ∀ a0, Keeps bm bc bs true d0 a0 → Keeps bm bc bs true d0 (@Device.setCoolant a0) := by
  intros; unfold Device.setCoolant; try dsimp only
  repeat' first
      | intro _ | with_reducible assumption | with_reducible apply Device.setReg_keeps | with_reducible apply keeps_ite
      | dsimp only | split | (with_reducible refine keeps_fields ?_)

theorem Device.coolantWarning_keeps : ∀ a0 a1 a2, Keeps bm bc bs true d0 a0 → Keeps bm bc bs true d0 (@Device.coolantWarning a0 a1 a2) := by
  intros; unfold Device.coolantWarning; try dsimp only
  repeat' first
      | intro _ | with_reducible assumption | with_reducible apply Device.event_keeps
      | with_reducible apply Device.setBit_keeps | with_reducible apply keeps_ite | dsimp only | split

theorem Device.pressureRange_keeps : ∀ a0, Keeps bm bc bs br d0 a0 → Keeps bm bc bs br d0 ((@Device.pressureRange a0)).2 := by
  intros; unfold Device.pressureRange; try dsimp only
  repeat' first
      | intro _ | with_reducible assumption | with_reducible apply Device.draw_keeps | with_reducible apply keeps_ite
      | dsimp only | split

theorem Device.coolantRanges_keeps : ∀ a0, Keeps bm bc bs true d0 a0 → Keeps bm bc bs true d0 (@Device.coolantRanges a0) := by
  intros; unfold Device.coolantRanges; try dsimp only
  repeat' first
      | intro _ | with_reducible assumption | with_reducible apply Device.coolantWarning_keeps
      | with_reducible apply Device.pressureRange_keeps | with_reducible apply keeps_ite | dsimp only | split

theorem Device.fabIdle_keeps : ∀ a0, Keeps bm bc bs true d0 a0 → Keeps bm bc bs true d0 (@Device.fabIdle a0) := by
  intros; unfold Device.fabIdle; try dsimp only
  repeat' first
      | intro _ | with_reducible assumption | with_reducible apply Device.each_keeps
      | with_reducible apply Device.setField_keeps | dsimp only | split

theorem Device.baseHold_keeps : ∀ a0, Keeps bm bc true true d0 a0 → Keeps bm bc true true d0 ((@Device.baseHold a0)) := by
  intros; unfold Device.baseHold; try dsimp only
  repeat' first
      | intro _ | with_reducible assumption | with_reducible apply Device.each_keeps
      | with_reducible apply Device.modSite_keeps | with_reducible apply Device.sleepMemories_keeps
      | with_reducible apply keeps_ite | dsimp only | split
      | (fail_if_no_progress with_reducible refine keeps_fields ?_)

theorem Device.trip_keeps : ∀ a0 a1, Keeps bm true true true d0 a1 → Keeps bm true true true d0 (@Device.trip a0 a1) := by
  intros; unfold Device.trip; try dsimp only
  repeat' first
      | intro _ | with_reducible assumption | with_reducible apply Device.fatal_keeps
      | with_reducible apply Device.fabIdle_keeps | with_reducible apply Device.baseHold_keeps
      | with_reducible apply Device.setBit_keeps | with_reducible apply keeps_ite | dsimp only | split
      | (with_reducible refine keeps_fields ?_)

theorem Device.coolantStop_keeps : ∀ a0 a1, Keeps bm true true true d0 a1 → Keeps bm true true true d0 (@Device.coolantStop a0 a1) := by
  intros; unfold Device.coolantStop; try dsimp only
  repeat' first
      | intro _ | with_reducible assumption | with_reducible apply Device.setBit_keeps
      | with_reducible apply Device.fault_keeps | with_reducible apply Device.fabIdle_keeps
      | with_reducible apply Device.baseHold_keeps | with_reducible apply Device.event_keeps | with_reducible apply keeps_ite
      | dsimp only | split

theorem Device.holdFail_keeps : ∀ a0 a1 a2, Keeps bm true bs true d0 a2 → Keeps bm true bs true d0 ((@Device.holdFail a0 a1 a2)) := by
  intros; unfold Device.holdFail; try dsimp only
  repeat' first
      | intro _ | with_reducible assumption | with_reducible apply Device.setBit_keeps
      | with_reducible apply Device.fault_keeps | with_reducible apply keeps_ite | dsimp only | split
      | (fail_if_no_progress with_reducible refine keeps_fields ?_)

theorem Device.takeReadings_keeps : ∀ a0 a1, Keeps bm bc bs br d0 a1 → Keeps bm bc bs br d0 ((@Device.takeReadings a0 a1)) := by
  intros; unfold Device.takeReadings; try dsimp only
  repeat' first
      | intro _ | with_reducible assumption | with_reducible apply Device.each_keeps
      | with_reducible apply Device.modTower_keeps | with_reducible apply Device.modHalf_keeps
      | with_reducible apply keeps_ite | with_reducible refine keeps_foldl _ _ _ ?_ ?_
      | with_reducible refine keeps_foldl_fst _ _ _ ?_ ?_ | with_reducible refine keeps_foldl_snd _ _ _ ?_ ?_
      | dsimp only | split | (fail_if_no_progress with_reducible refine keeps_fields ?_)

theorem Device.conversion_keeps : ∀ a0 a1, Keeps bm true true true d0 a1 → Keeps bm true true true d0 (@Device.conversion a0 a1) := by
  intros; unfold Device.conversion; try dsimp only
  repeat' first
      | intro _ | with_reducible assumption | with_reducible apply Device.each_keeps
      | with_reducible apply Device.convertBase_keeps | with_reducible apply Device.convertTower_keeps
      | with_reducible apply Device.takeReadings_keeps | with_reducible apply Device.coolantRanges_keeps
      | with_reducible apply Device.setCoolant_keeps | with_reducible apply Device.checkManifold_keeps
      | with_reducible apply Device.trip_keeps | with_reducible apply Device.coolantStop_keeps
      | with_reducible apply Device.holdFail_keeps | with_reducible apply keeps_ite | dsimp only | split

theorem Device.throttleLong_keeps : ∀ a0 a1, Keeps bm true bs true d0 a1 → Keeps bm true bs true d0 (@Device.throttleLong a0 a1) := by
  intros; unfold Device.throttleLong; try dsimp only
  repeat' first
      | intro _ | with_reducible assumption | with_reducible apply Device.holdFail_keeps | with_reducible apply keeps_ite
      | dsimp only | split

theorem Device.flowSample_keeps : ∀ a0 a1, Keeps bm true true true d0 a1 → Keeps bm true true true d0 (@Device.flowSample a0 a1) := by
  intros; unfold Device.flowSample; try dsimp only
  repeat' first
      | intro _ | with_reducible assumption | with_reducible apply Device.coolantStop_keeps | with_reducible apply keeps_ite
      | dsimp only | split | (with_reducible refine keeps_fields ?_)

theorem Device.survivalEnd_keeps : ∀ a0, Keeps bm bc true true d0 a0 → Keeps bm bc true true d0 (@Device.survivalEnd a0) := by
  intros; unfold Device.survivalEnd; try dsimp only
  repeat' first
      | intro _ | with_reducible assumption | with_reducible apply Device.setField_keeps
      | with_reducible apply Device.each_keeps | with_reducible apply Device.modSite_keeps | with_reducible apply keeps_ite
      | dsimp only | split

theorem Device.countSwing_keeps : ∀ a0 a1 a2, Keeps bm bc bs true d0 a2 → Keeps bm bc bs true d0 (@Device.countSwing a0 a1 a2) := by
  intros; unfold Device.countSwing; try dsimp only
  repeat' first
      | intro _ | with_reducible assumption | with_reducible apply Device.setField_keeps
      | with_reducible apply Device.setReg_keeps | with_reducible apply keeps_ite | dsimp only | split

theorem Device.wearSample_keeps : ∀ a0 a1, Keeps bm bc bs true d0 a1 → Keeps bm bc bs true d0 (@Device.wearSample a0 a1) := by
  intros; unfold Device.wearSample; try dsimp only
  repeat' first
      | intro _ | with_reducible assumption | with_reducible apply Device.modTower_keeps
      | with_reducible apply Device.countSwing_keeps | dsimp only | split

theorem Device.findCandidate_keeps : ∀ a0, Keeps bm bc bs true d0 a0 → Keeps bm bc bs true d0 (@Device.findCandidate a0) := by
  intros; unfold Device.findCandidate; try dsimp only
  repeat' first
      | intro _ | with_reducible assumption | with_reducible apply Device.setField_keeps
      | with_reducible apply Device.setReg_keeps | with_reducible apply keeps_ite
      | with_reducible refine keeps_foldl _ _ _ ?_ ?_ | with_reducible refine keeps_foldl_fst _ _ _ ?_ ?_
      | with_reducible refine keeps_foldl_snd _ _ _ ?_ ?_ | dsimp only | split | (with_reducible refine keeps_fields ?_)

theorem Device.rediscover_keeps : ∀ a0, Keeps bm bc bs true d0 a0 → Keeps bm bc bs true d0 (@Device.rediscover a0) := by
  intros; unfold Device.rediscover; try dsimp only
  repeat' first
      | intro _ | with_reducible assumption | with_reducible apply Device.findCandidate_keeps | with_reducible apply keeps_ite
      | dsimp only | split | (with_reducible refine keeps_fields ?_)

theorem Device.beaconOut_keeps : ∀ a0 a1, Keeps bm bc bs true d0 a1 → Keeps bm bc bs true d0 (@Device.beaconOut a0 a1) := by
  intros; unfold Device.beaconOut; try dsimp only
  repeat' first
      | intro _ | with_reducible assumption | with_reducible apply Device.txPacket_keeps | with_reducible apply keeps_ite
      | dsimp only | split

theorem Device.beaconIn_keeps : ∀ a0 a1 a2, Keeps bm bc bs true d0 a2 → Keeps bm bc bs true d0 ((@Device.beaconIn a0 a1 a2)) := by
  intros; unfold Device.beaconIn; try dsimp only
  repeat' first
      | intro _ | with_reducible assumption | with_reducible apply Device.takeHead_keeps
      | with_reducible apply Device.setReg_keeps | with_reducible apply Device.setField_keeps
      | with_reducible apply Device.modPort_keeps | with_reducible apply Device.findCandidate_keeps
      | with_reducible apply keeps_ite | dsimp only | split
      | (fail_if_no_progress with_reducible refine keeps_fields ?_)

theorem Device.flood_keeps : ∀ a0 a1 a2, Keeps bm bc bs true d0 a0 → Keeps bm bc bs true d0 (@Device.flood a0 a1 a2) := by
  intros; unfold Device.flood; try dsimp only
  repeat' first
      | intro _ | with_reducible assumption | with_reducible apply Device.each_keeps
      | with_reducible apply Device.txPacket_keeps | dsimp only | split

theorem Device.election_keeps : ∀ a0, Keeps bm bc bs true d0 a0 → Keeps bm bc bs true d0 (@Device.election a0) := by
  intros; unfold Device.election; try dsimp only
  repeat' first
      | intro _ | with_reducible assumption | with_reducible apply Device.setReg_keeps
      | with_reducible apply Device.setField_keeps | with_reducible apply Device.flood_keeps | with_reducible apply keeps_ite
      | dsimp only | split | (with_reducible refine keeps_fields ?_)

theorem Device.ctrlIn_keeps : ∀ a0 a1 a2 a3 a4 a5, (∀ y0, Keeps bm bc bs br d0 y0 → Keeps bm bc bs br d0 (a4 y0)) → Keeps bm bc bs br d0 a5 → Keeps bm bc bs br d0 (@Device.ctrlIn a0 a1 a2 a3 a4 a5) := by
  intros; unfold Device.ctrlIn; try dsimp only
  repeat' first
      | intro _ | with_reducible assumption | with_reducible apply_assumption | with_reducible apply Device.takeRx_keeps
      | with_reducible apply keeps_ite | dsimp only | split

theorem Device.topoIn_keeps : ∀ a0 a1 a2, Keeps bm bc bs true d0 a2 → Keeps bm bc bs true d0 (@Device.topoIn a0 a1 a2) := by
  intros; unfold Device.topoIn; try dsimp only
  repeat' first
      | intro _ | with_reducible assumption | with_reducible apply Device.ctrlIn_keeps
      | with_reducible apply Device.txPacket_keeps | with_reducible apply Device.flood_keeps | with_reducible apply keeps_ite
      | dsimp only | split | (with_reducible refine keeps_fields ?_)

theorem Device.takeUp_keeps : ∀ a0 a1 a2, Keeps bm bc bs true d0 a0 → Keeps bm bc bs true d0 ((@Device.takeUp a0 a1 a2)) := by
  intros; unfold Device.takeUp; try dsimp only
  repeat' first
      | intro _ | with_reducible assumption | with_reducible apply Device.setField_keeps
      | with_reducible apply Device.setBit_keeps | with_reducible apply Device.setReg_keeps
      | with_reducible apply keeps_ite | dsimp only | split
      | (fail_if_no_progress with_reducible refine keeps_fields ?_)

theorem Device.stageOwn_keeps : ∀ a0 a1 a2, Keeps bm bc bs br d0 a0 → Keeps bm bc bs br d0 (@Device.stageOwn a0 a1 a2) := by
  intros; unfold Device.stageOwn; try dsimp only
  repeat' first
      | intro _ | with_reducible assumption | with_reducible refine keeps_foldl _ _ _ ?_ ?_
      | with_reducible refine keeps_foldl_fst _ _ _ ?_ ?_ | with_reducible refine keeps_foldl_snd _ _ _ ?_ ?_ | dsimp only
      | split | (with_reducible refine keeps_fields ?_)

theorem Device.routeDelivery_keeps : ∀ a0, Keeps bm bc bs true d0 a0 → Keeps bm bc bs true d0 (@Device.routeDelivery a0) := by
  intros; unfold Device.routeDelivery; try dsimp only
  repeat' first
      | intro _ | with_reducible assumption | with_reducible apply Device.each_keeps
      | with_reducible apply Device.stageOwn_keeps | with_reducible apply Device.flood_keeps
      | with_reducible apply Device.takeUp_keeps | with_reducible apply keeps_ite | dsimp only | split

theorem Device.passOn_keeps : ∀ a0 a1 a2, Keeps bm bc bs true d0 a0 → Keeps bm bc bs true d0 (@Device.passOn a0 a1 a2) := by
  intros; unfold Device.passOn; try dsimp only
  repeat' first
      | intro _ | with_reducible assumption | with_reducible apply Device.flood_keeps | with_reducible apply keeps_ite
      | dsimp only | split

theorem Device.assignIn_keeps : ∀ a0 a1 a2, Keeps bm bc bs true d0 a2 → Keeps bm bc bs true d0 (@Device.assignIn a0 a1 a2) := by
  intros; unfold Device.assignIn; try dsimp only
  repeat' first
      | intro _ | with_reducible assumption | with_reducible apply Device.ctrlIn_keeps
      | with_reducible apply Device.passOn_keeps | with_reducible apply keeps_ite | dsimp only | split
      | (with_reducible refine keeps_fields ?_)

theorem Device.routeIn_keeps : ∀ a0 a1 a2, Keeps bm bc bs true d0 a2 → Keeps bm bc bs true d0 (@Device.routeIn a0 a1 a2) := by
  intros; unfold Device.routeIn; try dsimp only
  repeat' first
      | intro _ | with_reducible assumption | with_reducible apply Device.ctrlIn_keeps
      | with_reducible apply Device.passOn_keeps | with_reducible apply keeps_ite
      | with_reducible refine keeps_foldl _ _ _ ?_ ?_ | with_reducible refine keeps_foldl_fst _ _ _ ?_ ?_
      | with_reducible refine keeps_foldl_snd _ _ _ ?_ ?_ | dsimp only | split | (with_reducible refine keeps_fields ?_)

theorem Device.commitIn_keeps : ∀ a0 a1 a2, Keeps bm bc bs true d0 a2 → Keeps bm bc bs true d0 (@Device.commitIn a0 a1 a2) := by
  intros; unfold Device.commitIn; try dsimp only
  repeat' first
      | intro _ | with_reducible assumption | with_reducible apply Device.ctrlIn_keeps
      | with_reducible apply Device.passOn_keeps | with_reducible apply Device.setField_keeps
      | with_reducible apply Device.takeUp_keeps | with_reducible apply keeps_ite | dsimp only | split
      | (with_reducible refine keeps_fields ?_)

theorem Device.rerouteCmd_keeps : ∀ a0, Keeps bm bc bs true d0 a0 → Keeps bm bc bs true d0 (@Device.rerouteCmd a0) := by
  intro d h
  unfold Device.rerouteCmd
  refine Device.mbxWhen_keeps _ _ _ _ ?_ h
  intro e he
  refine Device.mbxEnd_keeps _ _ (Device.rediscover_keeps _ (Device.setField_keeps _ _ _ _ _ ?_))
  exact keeps_upd _ _ _ _ _ _ _ _ _ _ _ _ _ _ _ _ _ _ _ _ _ _ _ _ _ _ he rfl rfl (fun k => KeysRise.map_snd k _) (fun k => k) (fun k => k)

theorem Device.partnerAbsent_keeps : ∀ a0 a1, Keeps bm bc bs true d0 a1 → Keeps bm bc bs true d0 (@Device.partnerAbsent a0 a1) := by
  intros; unfold Device.partnerAbsent; try dsimp only
  repeat' first
      | intro _ | with_reducible assumption | with_reducible apply Device.modPort_keeps
      | with_reducible apply Device.setField_keeps | with_reducible apply keeps_ite | dsimp only | split

theorem Device.trainPort_keeps : ∀ a0 a1 a2 a3 a4, Keeps bm bc bs true d0 a4 → Keeps bm bc bs true d0 (@Device.trainPort a0 a1 a2 a3 a4) := by
  intros; unfold Device.trainPort; try dsimp only
  repeat' first
      | intro _ | with_reducible assumption | with_reducible apply Device.modPort_keeps
      | with_reducible apply Device.setField_keeps | with_reducible apply Device.foundRepair_keeps
      | with_reducible apply keeps_ite | with_reducible refine keeps_foldl _ _ _ ?_ ?_
      | with_reducible refine keeps_foldl_fst _ _ _ ?_ ?_ | with_reducible refine keeps_foldl_snd _ _ _ ?_ ?_ | dsimp only
      | split

theorem Device.partnerAppear_keeps : ∀ a0 a1 a2 a3, Keeps bm bc bs true d0 a3 → Keeps bm bc bs true d0 ((@Device.partnerAppear a0 a1 a2 a3)) := by
  intros; unfold Device.partnerAppear; try dsimp only
  repeat' first
      | intro _ | with_reducible assumption | with_reducible apply Device.trainPort_keeps
      | with_reducible apply Device.modPort_keeps | with_reducible apply Device.rediscover_keeps
      | with_reducible apply Device.beaconOut_keeps | with_reducible apply Device.pumpPort_keeps
      | with_reducible apply keeps_ite | dsimp only | split
      | (fail_if_no_progress with_reducible refine keeps_fields ?_)

theorem Device.portDown_keeps : ∀ a0 a1, Keeps bm true bs true d0 a1 → Keeps bm true bs true d0 (@Device.portDown a0 a1) := by
  intros; unfold Device.portDown; try dsimp only
  repeat' first
      | intro _ | with_reducible assumption | with_reducible apply Device.modPort_keeps
      | with_reducible apply Device.setBit_keeps | with_reducible apply Device.setField_keeps
      | with_reducible apply Device.fault_keeps | with_reducible apply Device.rediscover_keeps | with_reducible apply keeps_ite
      | dsimp only | split

theorem Device.narrow_keeps : ∀ a0 a1 a2, Keeps bm bc bs true d0 a0 → Keeps bm bc bs true d0 (@Device.narrow a0 a1 a2) := by
  intros; unfold Device.narrow; try dsimp only
  repeat' first
      | intro _ | with_reducible assumption | with_reducible apply Device.setBit_keeps
      | with_reducible apply Device.setField_keeps | with_reducible apply Device.degraded_keeps | dsimp only | split

theorem Device.laneFailure_keeps : ∀ a0 a1 a2, Keeps bm true bs true d0 a2 → Keeps bm true bs true d0 (@Device.laneFailure a0 a1 a2) := by
  intros; unfold Device.laneFailure; try dsimp only
  repeat' first
      | intro _ | with_reducible assumption | with_reducible apply Device.modPort_keeps
      | with_reducible apply Device.foundRepair_keeps | with_reducible apply Device.setField_keeps
      | with_reducible apply Device.narrow_keeps | with_reducible apply Device.portDown_keeps | with_reducible apply keeps_ite
      | dsimp only | split

theorem Device.delayEcho_keeps : ∀ a0 a1 a2, Keeps bm bc bs true d0 a2 → Keeps bm bc bs true d0 (@Device.delayEcho a0 a1 a2) := by
  intros; unfold Device.delayEcho; try dsimp only
  repeat' first
      | intro _ | with_reducible assumption | with_reducible apply Device.setField_keeps | with_reducible apply keeps_ite
      | dsimp only | split

theorem Device.saveDrainCmd_keeps : ∀ a0, Keeps bm bc bs true d0 a0 → Keeps bm bc bs true d0 (@Device.saveDrainCmd a0) := by
  intros; unfold Device.saveDrainCmd; try dsimp only
  repeat' first
      | intro _ | with_reducible assumption | with_reducible apply Device.mbxWhen_keeps
      | with_reducible apply Device.setField_keeps | dsimp only | split

theorem Device.drainDone_keeps : ∀ a0, Keeps true bc true true d0 a0 → Keeps true bc true true d0 (@Device.drainDone a0) := by
  intros; unfold Device.drainDone; try dsimp only
  repeat' first
      | intro _ | with_reducible assumption | with_reducible apply Device.mbxEnd_keeps
      | with_reducible apply Device.setBit_keeps | with_reducible apply Device.flushMerges_keeps
      | with_reducible apply keeps_ite | dsimp only | split

theorem Device.saveMem_keeps : ∀ a0 a1 a2 a3 a4, Keeps true bc bs true d0 a0 → Keeps true bc bs true d0 ((@Device.saveMem a0 a1 a2 a3 a4)) := by
  intros; unfold Device.saveMem; try dsimp only
  repeat' first
      | intro _ | with_reducible assumption | with_reducible apply Device.readCore_keeps
      | with_reducible apply Device.passPath_keeps | with_reducible apply Device.hostPut_keeps
      | with_reducible apply keeps_ite | dsimp only | split
      | (fail_if_no_progress with_reducible refine keeps_fields ?_)

theorem Device.writeImage_keeps : ∀ a0 a1 a2, Keeps true bc bs true d0 a0 → Keeps true bc bs true d0 (@Device.writeImage a0 a1 a2) := by
  intros; unfold Device.writeImage; try dsimp only
  repeat' first
      | intro _ | with_reducible assumption | with_reducible apply Device.hostPut_keeps
      | with_reducible apply Device.each_keeps | with_reducible apply Device.saveMem_keeps | with_reducible apply keeps_ite
      | dsimp only | split

theorem Device.saveCaptureCmd_keeps : ∀ a0, Keeps true bc bs true d0 a0 → Keeps true bc bs true d0 ((@Device.saveCaptureCmd a0)) := by
  intros; unfold Device.saveCaptureCmd; try dsimp only
  repeat' first
      | intro _ | with_reducible assumption | with_reducible apply Device.mbxWhen_keeps
      | with_reducible apply Device.setField_keeps | with_reducible apply Device.mbxEnd_keeps
      | with_reducible apply AttRun.take_keeps | with_reducible apply Device.writeImage_keeps
      | with_reducible apply Device.setBit_keeps | with_reducible apply keeps_ite | dsimp only | split
      | (fail_if_no_progress with_reducible refine keeps_fields ?_)

theorem takeCore_keeps : ∀ a0 a1, Keeps bm true bs true d0 ((a0).1) → Keeps bm true bs true d0 (((@takeCore a0 a1)).1) := by
  intros; unfold takeCore; try dsimp only
  repeat' first
      | intro _ | with_reducible assumption | with_reducible apply Device.poolEntry_keeps
      | with_reducible apply Device.modCore_keeps | with_reducible apply Device.each_keeps
      | with_reducible apply Device.setReg_keeps | with_reducible apply keeps_ite | dsimp only | split
      | (fail_if_no_progress with_reducible refine keeps_fields ?_)

theorem takeLanding_keeps : ∀ a0 a1, Keeps bm bc bs br d0 (a0).1 → Keeps bm bc bs br d0 ((@takeLanding a0 a1)).1 := by
  intros; unfold takeLanding; try dsimp only
  repeat' first | intro _ | with_reducible assumption | with_reducible apply Device.modTake_keeps | dsimp only | split

theorem Device.restoreState_keeps : ∀ a0 a1, Keeps bm true bs true d0 a0 → Keeps bm true bs true d0 (@Device.restoreState a0 a1) := by
  intros; unfold Device.restoreState; try dsimp only
  repeat' first
      | intro _ | with_reducible assumption | with_reducible apply takeCore_keeps | with_reducible apply Device.each_keeps
      | with_reducible apply Device.setReg_keeps | with_reducible apply takeLanding_keeps
      | with_reducible refine keeps_foldl _ _ _ ?_ ?_ | with_reducible refine keeps_foldl_fst _ _ _ ?_ ?_
      | with_reducible refine keeps_foldl_snd _ _ _ ?_ ?_ | dsimp only | split

theorem Device.restoreMem_keeps : ∀ a0 a1 a2 a3 a4, Keeps bm true bs true d0 a0 → Keeps bm true bs true d0 ((@Device.restoreMem a0 a1 a2 a3 a4)) := by
  intros; unfold Device.restoreMem; try dsimp only
  repeat' first
      | intro _ | with_reducible assumption | with_reducible apply Device.passPath_keeps
      | with_reducible apply Device.writeCore_keeps | with_reducible apply keeps_ite | dsimp only | split
      | (fail_if_no_progress with_reducible refine keeps_fields ?_)

theorem Device.resumeCmd_keeps : ∀ a0, Keeps true true true true d0 a0 → Keeps true true true true d0 ((@Device.resumeCmd a0)) := by
  intros; unfold Device.resumeCmd; try dsimp only
  repeat' first
      | intro _ | with_reducible assumption | with_reducible apply Device.mbxWhen_keeps
      | with_reducible apply AttRun.take_keeps | with_reducible apply Device.mbxEnd_keeps
      | with_reducible apply Device.setField_keeps | with_reducible apply Device.prepareTake_keeps
      | with_reducible apply Device.restoreState_keeps | with_reducible apply Device.each_keeps
      | with_reducible apply Device.restoreMem_keeps | with_reducible apply Device.setBit_keeps
      | with_reducible apply Device.sendCont_keeps | with_reducible apply Device.judgeHello_keeps
      | with_reducible apply Device.modTake_keeps | with_reducible apply keeps_ite | dsimp only | split
      | (fail_if_no_progress with_reducible refine keeps_fields ?_)

theorem Device.deriveKey_keeps : ∀ a0, Keeps bm bc bs true d0 a0 → Keeps bm bc bs true d0 ((@Device.deriveKey a0)) := by
  intros; unfold Device.deriveKey; try dsimp only
  repeat' first
      | intro _ | with_reducible assumption | with_reducible apply Device.setBit_keeps
      | with_reducible apply keeps_ite | dsimp only | split
      | (fail_if_no_progress with_reducible refine keeps_fields ?_)

theorem Device.measure_keeps : ∀ a0 a1 a2, Keeps bm bc bs br d0 a0 → Keeps bm bc bs br d0 (@Device.measure a0 a1 a2) := by
  intros; unfold Device.measure; try dsimp only
  repeat' first | intro _ | with_reducible assumption | dsimp only | split | (with_reducible refine keeps_fields ?_)

theorem Device.attest_keeps : ∀ a0, Keeps true bc bs true d0 a0 → Keeps true bc bs true d0 (@Device.attest a0) := by
  intros; unfold Device.attest; try dsimp only
  repeat' first
      | intro _ | with_reducible assumption | with_reducible apply Device.mbxEnd_keeps
      | with_reducible apply Device.deriveKey_keeps | with_reducible apply Device.hostPut_keeps
      | with_reducible apply keeps_ite | dsimp only | split | (with_reducible refine keeps_fields ?_)

theorem Device.attestCmd_keeps : ∀ a0, Keeps true bc bs true d0 a0 → Keeps true bc bs true d0 (@Device.attestCmd a0) := by
  intros; unfold Device.attestCmd; try dsimp only
  repeat' first
      | intro _ | with_reducible assumption | with_reducible apply Device.mbxBegin_keeps
      | with_reducible apply Device.attest_keeps | dsimp only | split

theorem Device.calReadCmd_keeps : ∀ a0, Keeps true bc bs true d0 a0 → Keeps true bc bs true d0 (@Device.calReadCmd a0) := by
  intros; unfold Device.calReadCmd; try dsimp only
  repeat' first
      | intro _ | with_reducible assumption | with_reducible apply Device.mbxBegin_keeps
      | with_reducible apply Device.mbxEnd_keeps | with_reducible apply Device.hostPut_keeps | with_reducible apply keeps_ite
      | dsimp only | split

theorem Device.calWriteCmd_keeps : ∀ a0, Keeps true bc bs true d0 a0 → Keeps true bc bs true d0 (@Device.calWriteCmd a0) := by
  intros; unfold Device.calWriteCmd; try dsimp only
  repeat' first
      | intro _ | with_reducible assumption | with_reducible apply Device.mbxWhen_keeps
      | with_reducible apply Device.mbxEnd_keeps | with_reducible apply Device.offerWrite_keeps
      | with_reducible apply Device.setBit_keeps | with_reducible apply keeps_ite | dsimp only | split
      | (with_reducible refine keeps_fields ?_)

theorem Device.rollbackAdvance_keeps : ∀ a0 a1, Keeps bm bc bs true d0 a1 → Keeps bm bc bs true d0 (@Device.rollbackAdvance a0 a1) := by
  intros; unfold Device.rollbackAdvance; try dsimp only
  repeat' first
      | intro _ | with_reducible assumption | with_reducible apply Device.setField_keeps
      | with_reducible apply Device.setBit_keeps | with_reducible apply keeps_ite | dsimp only | split
      | (with_reducible refine keeps_fields ?_)

theorem Device.stepBlown_keeps : ∀ a0 a1, Keeps bm bc bs true d0 a1 → Keeps bm bc bs true d0 (@Device.stepBlown a0 a1) := by
  intro b d h
  unfold Device.stepBlown
  split
  · exact h
  · dsimp only
    have hk : ∀ x, Keeps bm bc bs true d0 { d with
        fuses := { d.fuses with steps := mset 0 d.fuses.steps d.sec.advStep (mget 0 d.fuses.steps d.sec.advStep ||| b) }, sec := x } := by
      intro x
      refine h.trans ⟨fun k => ⟨KeysRise.mset _ k.steps (Nat.zero_le _) _, k.regs, k.cores, k.sites, k.towers, k.halves, k.ports, k.mem, k.hostMem, k.flash⟩, fun k => ⟨rfl, fun i => ?_⟩, rfl, rfl, fun _ => ⟨rfl, rfl, rfl⟩, fun _ => rfl, fun _ => rfl, nofun⟩
      by_cases hi : i = d.sec.advStep
      · subst hi
        rw [mget_mset_same 0 k.steps]
        ext j hj
        simp only [BitVec.getElem_and, BitVec.getElem_or]
        cases (mget 0 d.fuses.steps d.sec.advStep)[j] <;> simp
      · rw [mget_mset_other 0 _ hi]
        exact BitVec.and_self
    repeat' first | with_reducible apply Device.setField_keeps | split | exact hk _

theorem Device.finishStop_keeps : ∀ a0, Keeps bm bc bs true d0 a0 → Keeps bm bc bs true d0 (@Device.finishStop a0) := by
  intros; unfold Device.finishStop; try dsimp only
  repeat' first
      | intro _ | with_reducible assumption | with_reducible apply Device.mbxEnd_keeps
      | with_reducible apply Device.setBit_keeps | with_reducible apply keeps_ite | dsimp only | split

theorem Device.slateWriteEnd_keeps : ∀ a0, Keeps true bc bs true d0 a0 → Keeps true bc bs true d0 (@Device.slateWriteEnd a0) := by
  intros; unfold Device.slateWriteEnd; try dsimp only
  repeat' first
      | intro _ | with_reducible assumption | with_reducible apply Device.commitWrite_keeps
      | with_reducible apply Device.finishStop_keeps | with_reducible apply Device.tryHeld_keeps
      | with_reducible apply Device.setBit_keeps | with_reducible apply Device.setField_keeps | with_reducible apply keeps_ite
      | dsimp only | split | (with_reducible refine keeps_fields ?_)

theorem Device.retryHeld_keeps : ∀ a0, Keeps true bc bs true d0 a0 → Keeps true bc bs true d0 (@Device.retryHeld a0) := by
  intros; unfold Device.retryHeld; try dsimp only
  repeat' first
      | intro _ | with_reducible assumption | with_reducible apply Device.finishStop_keeps
      | with_reducible apply Device.tryHeld_keeps | dsimp only | split | (with_reducible refine keeps_fields ?_)

theorem Device.stopCmd_keeps : ∀ a0, Keeps true bc true true d0 a0 → Keeps true bc true true d0 (@Device.stopCmd a0) := by
  intros; unfold Device.stopCmd; try dsimp only
  repeat' first
      | intro _ | with_reducible assumption | with_reducible apply Device.mbxWhen_keeps
      | with_reducible apply Device.fabIdle_keeps | with_reducible apply Device.sleepMemories_keeps
      | with_reducible apply Device.copyBanks_keeps | with_reducible apply Device.finishStop_keeps
      | with_reducible apply Device.tryHeld_keeps | with_reducible apply Device.setBit_keeps | dsimp only | split
      | (with_reducible refine keeps_fields ?_)

theorem Device.failStart_keeps : ∀ a0 a1, Keeps true bc bs true d0 a0 → Keeps true bc bs true d0 ((@Device.failStart a0 a1)) := by
  intros; unfold Device.failStart; try dsimp only
  repeat' first
      | intro _ | with_reducible assumption | with_reducible apply Device.setBit_keeps
      | with_reducible apply Device.setField_keeps | with_reducible apply Device.drawBytes_keeps
      | with_reducible apply Device.offerWrite_keeps | with_reducible apply keeps_ite | dsimp only | split
      | (fail_if_no_progress with_reducible refine keeps_fields ?_)

theorem Device.tripOr_keeps : ∀ a0 a1, (∀ y0, Keeps bm true true true d0 y0 → Keeps bm true true true d0 ((a0 y0))) → Keeps bm true true true d0 a1 → Keeps bm true true true d0 ((@Device.tripOr a0 a1)) := by
  intros; unfold Device.tripOr; try dsimp only
  repeat' first
      | intro _ | with_reducible assumption | with_reducible apply_assumption | with_reducible apply Device.trip_keeps
      | with_reducible apply keeps_ite | dsimp only | split
      | (fail_if_no_progress with_reducible refine keeps_fields ?_)

theorem Device.readBase_keeps : ∀ a0 a1, Keeps bm true true true d0 a1 → Keeps bm true true true d0 ((@Device.readBase a0 a1)) := by
  intros; unfold Device.readBase; try dsimp only
  repeat' first
      | intro _ | with_reducible assumption | with_reducible apply Device.convertBase_keeps
      | with_reducible apply Device.checkManifold_keeps | with_reducible apply Device.takeReadings_keeps
      | with_reducible apply Device.each_keeps | with_reducible apply Device.setCoolant_keeps
      | with_reducible apply Device.tripOr_keeps | with_reducible apply keeps_ite | dsimp only | split
      | (fail_if_no_progress with_reducible refine keeps_fields ?_)

theorem Device.readSeed_keeps : ∀ a0, Keeps bm bc bs br d0 a0 → Keeps bm bc bs br d0 ((@Device.readSeed a0)) := by
  intros; unfold Device.readSeed; try dsimp only
  repeat' first
      | intro _ | with_reducible assumption | with_reducible apply keeps_ite | dsimp only | split
      | (fail_if_no_progress with_reducible refine keeps_fields ?_)

theorem Device.phase2_keeps : ∀ a0 a1, Keeps bm true true true d0 a1 → Keeps bm true true true d0 ((@Device.phase2 a0 a1)) := by
  intros; unfold Device.phase2; try dsimp only
  repeat' first
      | intro _ | with_reducible assumption | with_reducible apply Device.readSeed_keeps
      | with_reducible apply Device.readBase_keeps | with_reducible apply keeps_ite | dsimp only | split
      | (fail_if_no_progress with_reducible refine keeps_fields ?_)

theorem Device.useImages_keeps : ∀ a0 a1, Keeps bm bc bs true d0 a0 → Keeps bm bc bs true d0 ((@Device.useImages a0 a1)) := by
  intros; unfold Device.useImages; try dsimp only
  repeat' first
      | intro _ | with_reducible assumption | with_reducible apply Device.each_keeps
      | with_reducible apply Device.measure_keeps | with_reducible apply Device.setBit_keeps
      | with_reducible apply keeps_ite | dsimp only | split
      | (fail_if_no_progress with_reducible refine keeps_fields ?_)

theorem Device.useSettings_keeps : ∀ a0, Keeps bm bc bs true d0 a0 → Keeps bm bc bs true d0 (@Device.useSettings a0) := by
  intros; unfold Device.useSettings; try dsimp only
  repeat' first
      | intro _ | with_reducible assumption | with_reducible apply Device.measure_keeps
      | with_reducible apply Device.setBit_keeps | with_reducible apply Device.setField_keeps
      | with_reducible apply Device.each_keeps | with_reducible apply Device.setReg_keeps | with_reducible apply keeps_ite
      | dsimp only | split | (with_reducible refine keeps_fields ?_)

theorem Device.startKind_keeps : ∀ a0, Keeps bm bc bs true d0 a0 → Keeps bm bc bs true d0 (@Device.startKind a0) := by
  intros; unfold Device.startKind; try dsimp only
  repeat' first
      | intro _ | with_reducible assumption | with_reducible apply Device.setField_keeps | with_reducible apply keeps_ite
      | dsimp only | split

theorem Device.useLedger_keeps : ∀ a0, Keeps bm bc bs true d0 a0 → Keeps bm bc bs true d0 ((@Device.useLedger a0)) := by
  intros; unfold Device.useLedger; try dsimp only
  repeat' first
      | intro _ | with_reducible assumption | with_reducible apply Device.each_keeps
      | with_reducible apply Device.setReg_keeps | with_reducible apply keeps_ite | dsimp only | split
      | (fail_if_no_progress with_reducible refine keeps_fields ?_)

theorem Device.useDefects_keeps : ∀ a0, Keeps bm bc bs br d0 a0 → Keeps bm bc bs br d0 (@Device.useDefects a0) := by
  intros; unfold Device.useDefects; try dsimp only
  repeat' first
      | intro _ | with_reducible assumption | with_reducible apply Device.each_keeps
      | with_reducible apply Device.addEntry_keeps | with_reducible apply Device.modTower_keeps
      | with_reducible apply Device.modHalf_keeps | with_reducible apply keeps_ite
      | with_reducible refine keeps_foldl _ _ _ ?_ ?_ | with_reducible refine keeps_foldl_fst _ _ _ ?_ ?_
      | with_reducible refine keeps_foldl_snd _ _ _ ?_ ?_ | dsimp only | split | (with_reducible refine keeps_fields ?_)

theorem Device.useIdentity_keeps : ∀ a0 a1, Keeps bm bc bs true d0 a1 → Keeps bm bc bs true d0 ((@Device.useIdentity a0 a1)) := by
  intros; unfold Device.useIdentity; try dsimp only
  repeat' first
      | intro _ | with_reducible assumption | with_reducible apply Device.setBit_keeps
      | with_reducible apply Device.setReg_keeps | with_reducible apply keeps_ite | dsimp only | split
      | (fail_if_no_progress with_reducible refine keeps_fields ?_)

theorem Device.phase3_keeps : ∀ a0 a1, Keeps true bc bs true d0 a1 → Keeps true bc bs true d0 ((@Device.phase3 a0 a1)) := by
  intros; unfold Device.phase3; try dsimp only
  repeat' first
      | intro _ | with_reducible assumption | with_reducible apply Device.useIdentity_keeps
      | with_reducible apply AttRun.take_keeps | with_reducible apply Device.failStart_keeps
      | with_reducible apply Device.useImages_keeps | with_reducible apply Device.measure_keeps
      | with_reducible apply Device.useSettings_keeps | with_reducible apply Device.startKind_keeps
      | with_reducible apply Device.useLedger_keeps | with_reducible apply Device.useDefects_keeps
      | with_reducible apply Device.setBit_keeps | with_reducible apply Device.offerWrite_keeps
      | with_reducible apply keeps_ite | dsimp only | split
      | (fail_if_no_progress with_reducible refine keeps_fields ?_)

theorem Device.mapSlices_keeps : ∀ a0 a1, Keeps bm bc bs true d0 a0 → Keeps bm bc bs true d0 ((@Device.mapSlices a0 a1)) := by
  intros; unfold Device.mapSlices; try dsimp only
  repeat' first
      | intro _ | with_reducible assumption | with_reducible apply Device.setReg_keeps
      | with_reducible apply keeps_ite | with_reducible refine keeps_foldl _ _ _ ?_ ?_
      | with_reducible refine keeps_foldl_fst _ _ _ ?_ ?_ | with_reducible refine keeps_foldl_snd _ _ _ ?_ ?_
      | dsimp only | split | (fail_if_no_progress with_reducible refine keeps_fields ?_)

theorem fillRole_keeps : ∀ a0 a1 a2, Keeps bm bc bs true d0 (a2).1 → Keeps bm bc bs true d0 ((@fillRole a0 a1 a2)).1 := by
  intros; unfold fillRole; try dsimp only
  repeat' first
      | intro _ | with_reducible assumption | with_reducible apply Device.each_keeps
      | with_reducible apply Device.setField_keeps | dsimp only | split

theorem Device.repairAtStart_keeps : ∀ a0 a1 a2 a3, Keeps bm bc bs true d0 a3 → Keeps bm bc bs true d0 (@Device.repairAtStart a0 a1 a2 a3) := by
  intros; unfold Device.repairAtStart; try dsimp only
  repeat' first
      | intro _ | with_reducible assumption | with_reducible apply Device.each_keeps
      | with_reducible apply Device.foundRepair_keeps | with_reducible apply keeps_ite | dsimp only | split

theorem Device.trainModule_keeps : ∀ a0 a1 a2, Keeps bm bc bs true d0 a2 → Keeps bm bc bs true d0 (@Device.trainModule a0 a1 a2) := by
  intros; unfold Device.trainModule; try dsimp only
  repeat' first
      | intro _ | with_reducible assumption | with_reducible apply Device.repairAtStart_keeps
      | with_reducible apply Device.setField_keeps | dsimp only | split

theorem Device.planBridge_keeps : ∀ a0 a1, Keeps bm bc bs true d0 a1 → Keeps bm bc bs true d0 (@Device.planBridge a0 a1) := by
  intro r d h
  unfold Device.planBridge
  dsimp only
  refine keeps_upd _ _ _ _ _ _ _ _ _ _ _ _ _ _ _ _ _ _ _ _ _ _ _ _ _ _ ?_ rfl rfl (fun h => h) (fun h => h) (fun h => h)
  refine Device.choosePrimary_keeps _ (Device.countModules_keeps _ (Device.setField_keeps _ _ _ _ _ (Device.setField_keeps _ _ _ _ _
    (Device.setField_keeps _ _ _ _ _ (Device.setBit_keeps _ _ _ ?_)))))
  refine keeps_fold (fun a : (Device × List Nat) × List Nat => a.1.1) _ _ _ ?_ fun a x ha => fillRole_keeps _ _ _ ha
  refine keeps_fold (fun a : (Device × List Nat) × List Nat => a.1.1) _ _ _ ?_ fun a x ha => fillRole_keeps _ _ _ ha
  exact Device.each_keeps _ _ _ _ (fun _ _ he => Device.trainModule_keeps _ _ _ he) h

theorem Device.trainLpd_keeps : ∀ a0 a1, Keeps bm bc bs true d0 a1 → Keeps bm bc bs true d0 (@Device.trainLpd a0 a1) := by
  intros; unfold Device.trainLpd; try dsimp only
  repeat' first
      | intro _ | with_reducible assumption | with_reducible apply Device.each_keeps
      | with_reducible apply Device.setField_keeps | with_reducible apply keeps_ite | dsimp only | split

theorem Device.setPhases_keeps : ∀ a0 a1, Keeps bm bc bs true d0 a1 → Keeps bm bc bs true d0 (@Device.setPhases a0 a1) := by
  intros; unfold Device.setPhases; try dsimp only
  repeat' first
      | intro _ | with_reducible assumption | with_reducible apply Device.modTower_keeps
      | with_reducible apply Device.setField_keeps | with_reducible apply Device.degraded_keeps
      | with_reducible apply Device.setBit_keeps | with_reducible apply keeps_ite | dsimp only | split
      | (with_reducible refine keeps_fields ?_)

theorem Device.testSlices_keeps : ∀ a0 a1 a2, Keeps bm bc bs br d0 a2 → Keeps bm bc bs br d0 ((@Device.testSlices a0 a1 a2)) := by
  intros; unfold Device.testSlices; try dsimp only
  repeat' first
      | intro _ | with_reducible assumption | with_reducible apply Device.each_keeps
      | with_reducible apply Device.foundDefect_keeps | with_reducible apply keeps_ite | dsimp only | split
      | (fail_if_no_progress with_reducible refine keeps_fields ?_)

theorem Device.testPhase_keeps : ∀ a0 a1, Keeps bm bc bs true d0 a1 → Keeps bm bc bs true d0 ((@Device.testPhase a0 a1)) := by
  intros; unfold Device.testPhase; try dsimp only
  repeat' first
      | intro _ | with_reducible assumption | with_reducible apply Device.foundRepair_keeps
      | with_reducible apply keeps_ite | dsimp only | split
      | (fail_if_no_progress with_reducible refine keeps_fields ?_)

theorem Device.phase4_keeps : ∀ a0 a1, Keeps true bc bs true d0 a1 → Keeps true bc bs true d0 ((@Device.phase4 a0 a1)) := by
  intros; unfold Device.phase4; try dsimp only
  repeat' first
      | intro _ | with_reducible assumption | with_reducible apply Device.testPhase_keeps
      | with_reducible apply Device.setPhases_keeps | with_reducible apply Device.testSlices_keeps
      | with_reducible apply Device.each_keeps | with_reducible apply Device.addEntry_keeps
      | with_reducible apply Device.failStart_keeps | with_reducible apply Device.mapSlices_keeps
      | with_reducible apply Device.modHalf_keeps | with_reducible apply Device.planBridge_keeps
      | with_reducible apply Device.setBit_keeps | with_reducible apply Device.setField_keeps
      | with_reducible apply Device.degraded_keeps | with_reducible apply Device.trainLpd_keeps
      | with_reducible apply keeps_ite | with_reducible refine keeps_struck _ _ _ ?_ | dsimp only | split
      | (fail_if_no_progress with_reducible refine keeps_fields ?_)

theorem Device.lightTower_keeps : ∀ a0 a1, Keeps bm bc bs true d0 a1 → Keeps bm bc bs true d0 ((@Device.lightTower a0 a1)) := by
  intros; unfold Device.lightTower; try dsimp only
  repeat' first
      | intro _ | with_reducible assumption | with_reducible apply Device.modTower_keeps
      | with_reducible apply Device.setField_keeps | with_reducible apply Device.each_keeps
      | with_reducible apply Device.startModel_keeps | with_reducible apply keeps_ite
      | with_reducible refine keeps_foldl _ _ _ ?_ ?_ | with_reducible refine keeps_foldl_fst _ _ _ ?_ ?_
      | with_reducible refine keeps_foldl_snd _ _ _ ?_ ?_ | dsimp only | split
      | (fail_if_no_progress with_reducible refine keeps_fields ?_)

theorem Device.remapTo_keeps : ∀ a0 a1 a2 a3 a4, Keeps bm bc bs true d0 a0 → Keeps bm bc bs true d0 ((@Device.remapTo a0 a1 a2 a3 a4)) := by
  intros; unfold Device.remapTo; try dsimp only
  repeat' first
      | intro _ | with_reducible assumption | with_reducible apply Device.remap_keeps
      | with_reducible apply Device.foundDefect_keeps | with_reducible apply keeps_ite | dsimp only | split
      | (fail_if_no_progress with_reducible refine keeps_fields ?_)

theorem Device.remapBanks_keeps : ∀ a0 a1 a2 a3, Keeps bm bc bs true d0 a3 → Keeps bm bc bs true d0 ((@Device.remapBanks a0 a1 a2 a3)) := by
  intros; unfold Device.remapBanks; try dsimp only
  repeat' first
      | intro _ | with_reducible assumption | with_reducible apply Device.each_keeps
      | with_reducible apply Device.remapTo_keeps | with_reducible apply keeps_ite | dsimp only | split
      | (fail_if_no_progress with_reducible refine keeps_fields ?_)

theorem Device.retireRow_keeps : ∀ a0 a1, Keeps bm bc bs br d0 a1 → Keeps bm bc bs br d0 (@Device.retireRow a0 a1) := by
  intros; unfold Device.retireRow; try dsimp only
  repeat' first
      | intro _ | with_reducible assumption | with_reducible apply Device.addEntry_keeps
      | with_reducible apply Device.foundDefect_keeps | with_reducible apply keeps_ite | dsimp only | split

theorem Device.spliceGroup_keeps : ∀ a0 a1, Keeps bm bc bs true d0 a1 → Keeps bm bc bs true d0 (@Device.spliceGroup a0 a1) := by
  intros; unfold Device.spliceGroup; try dsimp only
  repeat' first
      | intro _ | with_reducible assumption | with_reducible apply Device.each_keeps
      | with_reducible apply Device.foundRepair_keeps | with_reducible apply keeps_ite | dsimp only | split

theorem Device.losePosition_keeps : ∀ a0 a1, Keeps bm bc bs br d0 a1 → Keeps bm bc bs br d0 (@Device.losePosition a0 a1) := by
  intros; unfold Device.losePosition; try dsimp only
  repeat' first | intro _ | with_reducible assumption | with_reducible apply Device.foundDefect_keeps | dsimp only | split

theorem Device.suspectSensor_keeps : ∀ a0 a1, Keeps bm bc bs br d0 a1 → Keeps bm bc bs br d0 (@Device.suspectSensor a0 a1) := by
  intros; unfold Device.suspectSensor; try dsimp only
  repeat' first
      | intro _ | with_reducible assumption | with_reducible apply Device.foundDefect_keeps
      | with_reducible apply Device.modTower_keeps | with_reducible apply Device.modHalf_keeps | with_reducible apply keeps_ite
      | dsimp only | split | (with_reducible refine keeps_fields ?_)

theorem Device.retestSensors_keeps : ∀ a0 a1, Keeps bm bc bs br d0 a1 → Keeps bm bc bs br d0 (@Device.retestSensors a0 a1) := by
  intros; unfold Device.retestSensors; try dsimp only
  repeat' first
      | intro _ | with_reducible assumption
      | with_reducible apply Device.each_keeps
      | with_reducible apply Device.suspectSensor_keeps
      | dsimp only | split

theorem Device.lightTowers_keeps : ∀ a0 a1 a2 a3, Keeps bm bc bs true d0 a3 → Keeps bm bc bs true d0 (@Device.lightTowers a0 a1 a2 a3) := by
  intros; unfold Device.lightTowers; try dsimp only
  repeat' first
      | intro _ | with_reducible assumption | with_reducible apply Device.each_keeps
      | with_reducible apply Device.setField_keeps | with_reducible apply Device.tuneTower_keeps
      | with_reducible apply Device.lightTower_keeps | dsimp only | split | (with_reducible refine keeps_fields ?_)

theorem Device.startMemories_keeps : ∀ a0 a1 a2, Keeps true bc bs true d0 a2 → Keeps true bc bs true d0 ((@Device.startMemories a0 a1 a2)) := by
  intros; unfold Device.startMemories; try dsimp only
  repeat' first
      | intro _ | with_reducible assumption | with_reducible apply Device.retireRow_keeps
      | with_reducible apply Device.each_keeps | with_reducible apply Device.foundDefect_keeps
      | with_reducible apply Device.remapBanks_keeps | with_reducible apply keeps_ite
      | with_reducible refine keeps_struck _ _ _ ?_ | dsimp only | split
      | (fail_if_no_progress with_reducible refine keeps_fields ?_)

theorem Device.towerReadings_keeps : ∀ a0 a1, Keeps bm bc true true d0 a1 → Keeps bm bc true true d0 ((@Device.towerReadings a0 a1)) := by
  intros; unfold Device.towerReadings; try dsimp only
  repeat' first
      | intro _ | with_reducible assumption | with_reducible apply Device.suspectSensor_keeps
      | with_reducible apply Device.retestSensors_keeps | with_reducible apply Device.convertTower_keeps
      | with_reducible apply Device.takeReadings_keeps | with_reducible apply Device.each_keeps
      | with_reducible apply keeps_ite | dsimp only | split
      | (fail_if_no_progress with_reducible refine keeps_fields ?_)

theorem Device.towerSplices_keeps : ∀ a0 a1, Keeps bm bc bs true d0 a1 → Keeps bm bc bs true d0 ((@Device.towerSplices a0 a1)) := by
  intros; unfold Device.towerSplices; try dsimp only
  repeat' first
      | intro _ | with_reducible assumption | with_reducible apply Device.spliceGroup_keeps
      | with_reducible apply Device.losePosition_keeps | with_reducible apply Device.each_keeps
      | with_reducible apply Device.setField_keeps | with_reducible apply keeps_ite | dsimp only | split
      | (fail_if_no_progress with_reducible refine keeps_fields ?_)

theorem Device.lightStart_keeps : ∀ a0 a1 a2, Keeps true bc bs true d0 a2 → Keeps true bc bs true d0 ((@Device.lightStart a0 a1 a2)) := by
  intros; unfold Device.lightStart; try dsimp only
  repeat' first
      | intro _ | with_reducible assumption | with_reducible apply Device.lightTowers_keeps
      | with_reducible apply Device.startMemories_keeps | with_reducible apply Device.failStart_keeps
      | with_reducible apply keeps_ite | dsimp only | split
      | (fail_if_no_progress with_reducible refine keeps_fields ?_)

theorem Device.phase5_keeps : ∀ a0 a1, Keeps true true true true d0 a1 → Keeps true true true true d0 ((@Device.phase5 a0 a1)) := by
  intros; unfold Device.phase5; try dsimp only
  repeat' first
      | intro _ | with_reducible assumption | with_reducible apply Device.towerReadings_keeps
      | with_reducible apply Device.tripOr_keeps | with_reducible apply Device.towerSplices_keeps
      | with_reducible apply Device.lightStart_keeps | with_reducible apply keeps_ite | dsimp only | split
      | (fail_if_no_progress with_reducible refine keeps_fields ?_)

theorem Device.placeImage_keeps : ∀ a0, Keeps bm bc bs br d0 a0 → Keeps bm bc bs br d0 ((@Device.placeImage a0)) := by
  intros; unfold Device.placeImage; try dsimp only
  repeat' first
      | intro _ | with_reducible assumption | with_reducible apply Device.each_keeps
      | with_reducible apply Device.modHalf_keeps | with_reducible apply keeps_ite | dsimp only | split
      | (fail_if_no_progress with_reducible refine keeps_fields ?_)

theorem Device.phase6_keeps : ∀ a0 a1, Keeps bm bc bs br d0 a1 → Keeps bm bc bs br d0 ((@Device.phase6 a0 a1)) := by
  intros; unfold Device.phase6; try dsimp only
  repeat' first
      | intro _ | with_reducible assumption | with_reducible apply Device.formMap_keeps
      | with_reducible apply Device.placeImage_keeps | with_reducible apply Device.each_keeps
      | with_reducible apply Device.modTower_keeps | with_reducible apply Device.foundDefect_keeps
      | with_reducible apply keeps_ite | dsimp only | split
      | (fail_if_no_progress with_reducible refine keeps_fields ?_)

theorem Device.startPort_keeps : ∀ a0 a1 a2, Keeps bm bc bs true d0 a2 → Keeps bm bc bs true d0 (@Device.startPort a0 a1 a2) := by
  intros; unfold Device.startPort; try dsimp only
  repeat' first
      | intro _ | with_reducible assumption | with_reducible apply Device.setField_keeps
      | with_reducible apply Device.trainPort_keeps | with_reducible apply Device.degraded_keeps
      | with_reducible apply keeps_ite | dsimp only | split

theorem Device.makeReady_keeps : ∀ a0, Keeps bm bc bs true d0 a0 → Keeps bm bc bs true d0 (@Device.makeReady a0) := by
  intros; unfold Device.makeReady; try dsimp only
  repeat' first
      | intro _ | with_reducible assumption | with_reducible apply Device.emit_keeps | with_reducible apply Device.setBit_keeps
      | dsimp only | split | (with_reducible refine keeps_fields ?_)

theorem Device.measureDefects_keeps : ∀ a0, Keeps bm bc bs br d0 a0 → Keeps bm bc bs br d0 ((@Device.measureDefects a0)) := by
  intros; unfold Device.measureDefects; try dsimp only
  repeat' first
      | intro _ | with_reducible assumption | with_reducible apply Device.measure_keeps
      | with_reducible apply keeps_ite | dsimp only | split
      | (fail_if_no_progress with_reducible refine keeps_fields ?_)

theorem Device.beginDiscovery_keeps : ∀ a0, Keeps bm bc bs true d0 a0 → Keeps bm bc bs true d0 (@Device.beginDiscovery a0) := by
  intros; unfold Device.beginDiscovery; try dsimp only
  repeat' first
      | intro _ | with_reducible assumption | with_reducible apply Device.findCandidate_keeps
      | with_reducible apply Device.each_keeps | with_reducible apply Device.beaconOut_keeps
      | with_reducible apply Device.setReg_keeps | with_reducible apply Device.setField_keeps | with_reducible apply keeps_ite
      | dsimp only | split | (with_reducible refine keeps_fields ?_)

theorem Device.phase7_keeps : ∀ a0 a1, Keeps true bc bs true d0 a1 → Keeps true bc bs true d0 ((@Device.phase7 a0 a1)) := by
  intros; unfold Device.phase7; try dsimp only
  repeat' first
      | intro _ | with_reducible assumption | with_reducible apply Device.each_keeps
      | with_reducible apply Device.startPort_keeps | with_reducible apply Device.modHalf_keeps
      | with_reducible apply Device.measureDefects_keeps | with_reducible apply Device.offerWrite_keeps
      | with_reducible apply Device.deriveKey_keeps | with_reducible apply Device.beginDiscovery_keeps
      | with_reducible apply Device.makeReady_keeps | with_reducible apply keeps_ite | dsimp only | split
      | (fail_if_no_progress with_reducible refine keeps_fields ?_)

theorem Device.phaseWork_keeps : ∀ a0 a1, Keeps true true true true d0 a1 → Keeps true true true true d0 ((@Device.phaseWork a0 a1)) := by
  intros; unfold Device.phaseWork; try dsimp only
  repeat' first
      | intro _ | with_reducible assumption | with_reducible apply Device.phase2_keeps
      | with_reducible apply Device.phase3_keeps | with_reducible apply Device.phase4_keeps
      | with_reducible apply Device.phase5_keeps | with_reducible apply Device.phase6_keeps
      | with_reducible apply Device.phase7_keeps | with_reducible apply keeps_ite | dsimp only | split
      | (fail_if_no_progress with_reducible refine keeps_fields ?_)

theorem Device.startUpPhase_keeps : ∀ a0 a1, Keeps true true true true d0 a1 → Keeps true true true true d0 ((@Device.startUpPhase a0 a1)) := by
  intros; unfold Device.startUpPhase; try dsimp only
  repeat' first
      | intro _ | with_reducible assumption | with_reducible apply Device.setField_keeps
      | with_reducible apply Device.phaseWork_keeps | with_reducible apply keeps_ite | dsimp only | split
      | (fail_if_no_progress with_reducible refine keeps_fields ?_)

theorem Device.deferredLight_keeps : ∀ a0 a1, Keeps bm bc bs true d0 a1 → Keeps bm bc bs true d0 ((@Device.deferredLight a0 a1)) := by
  intros; unfold Device.deferredLight; try dsimp only
  repeat' first
      | intro _ | with_reducible assumption | with_reducible apply Device.lightTower_keeps
      | with_reducible apply Device.tuneTower_keeps | with_reducible apply Device.modTower_keeps
      | with_reducible apply Device.each_keeps | with_reducible apply Device.remapBanks_keeps
      | with_reducible apply keeps_ite | dsimp only | split
      | (fail_if_no_progress with_reducible refine keeps_fields ?_)

theorem Device.svcResetKey_keeps : ∀ a0 a1, Keeps bm bc bs br d0 a1 → Keeps bm bc bs br d0 (@Device.svcResetKey a0 a1) := by
  intros; unfold Device.svcResetKey; try dsimp only
  repeat' first
      | intro _ | with_reducible assumption | with_reducible apply keeps_ite | dsimp only | split
      | (with_reducible refine keeps_fields ?_)

theorem Device.phaseFailure_keeps : ∀ a0 a1 a2, Keeps bm bc bs true d0 a2 → Keeps bm bc bs true d0 ((@Device.phaseFailure a0 a1 a2)) := by
  intros; unfold Device.phaseFailure; try dsimp only
  repeat' first
      | intro _ | with_reducible assumption | with_reducible apply Device.modTower_keeps
      | with_reducible apply Device.setField_keeps | with_reducible apply Device.note_keeps
      | with_reducible apply Device.setBit_keeps | with_reducible apply Device.log_keeps
      | with_reducible apply Device.degraded_keeps | with_reducible apply keeps_ite | dsimp only | split
      | (fail_if_no_progress with_reducible refine keeps_fields ?_)

theorem Device.pin_keeps : ∀ a0 a1, Keeps bm bc bs true d0 a1 → Keeps bm bc bs true d0 (@Device.pin a0 a1) := by
  intros; unfold Device.pin; try dsimp only
  repeat' first
      | intro _ | with_reducible assumption | with_reducible apply Device.degraded_keeps
      | with_reducible apply Device.setBit_keeps | dsimp only | split

theorem Device.marginLow_keeps : ∀ a0 a1, Keeps bm bc bs true d0 a1 → Keeps bm bc bs true d0 (@Device.marginLow a0 a1) := by
  intros; unfold Device.marginLow; try dsimp only
  repeat' first
      | intro _ | with_reducible assumption | with_reducible apply Device.modTower_keeps
      | with_reducible apply Device.setField_keeps | with_reducible apply Device.setBit_keeps
      | with_reducible apply Device.pin_keeps | with_reducible apply keeps_ite | dsimp only | split

theorem Device.marginHigh_keeps : ∀ a0 a1, Keeps bm bc bs true d0 a1 → Keeps bm bc bs true d0 (@Device.marginHigh a0 a1) := by
  intros; unfold Device.marginHigh; try dsimp only
  repeat' first
      | intro _ | with_reducible assumption | with_reducible apply Device.modTower_keeps
      | with_reducible apply Device.setField_keeps | with_reducible apply keeps_ite | dsimp only | split

theorem Device.marginOk_keeps : ∀ a0 a1, Keeps bm bc bs true d0 a1 → Keeps bm bc bs true d0 (@Device.marginOk a0 a1) := by
  intros; unfold Device.marginOk; try dsimp only
  repeat' first
      | intro _ | with_reducible assumption | with_reducible apply Device.modTower_keeps
      | with_reducible apply Device.setField_keeps | with_reducible apply keeps_ite | dsimp only | split

theorem Device.cpmSample_keeps : ∀ a0 a1 a2, Keeps bm bc bs true d0 a2 → Keeps bm bc bs true d0 (@Device.cpmSample a0 a1 a2) := by
  intros; unfold Device.cpmSample; try dsimp only
  repeat' first
      | intro _ | with_reducible assumption | with_reducible apply Device.setField_keeps
      | with_reducible apply Device.marginLow_keeps | with_reducible apply Device.modTower_keeps
      | with_reducible apply Device.marginHigh_keeps | with_reducible apply Device.marginOk_keeps
      | with_reducible apply keeps_ite | dsimp only | split

theorem Device.overcurrent_keeps : ∀ a0, Keeps bm bc bs true d0 a0 → Keeps bm bc bs true d0 ((@Device.overcurrent a0)) := by
  intros; unfold Device.overcurrent; try dsimp only
  repeat' first
      | intro _ | with_reducible assumption | with_reducible apply Device.draw_keeps
      | with_reducible apply Device.setBit_keeps | with_reducible apply Device.modTake_keeps
      | with_reducible apply Device.log_keeps | with_reducible apply AttRun.take_keeps
      | with_reducible apply Device.vote_keeps | with_reducible apply keeps_ite | dsimp only | split
      | (fail_if_no_progress with_reducible refine keeps_fields ?_)

theorem Device.inputSample_keeps : ∀ a0 a1 a2, Keeps bm bc bs true d0 a2 → Keeps bm bc bs true d0 ((@Device.inputSample a0 a1 a2)) := by
  intros; unfold Device.inputSample; try dsimp only
  repeat' first
      | intro _ | with_reducible assumption | with_reducible apply Device.setField_keeps
      | with_reducible apply Device.modTake_keeps | with_reducible apply AttRun.take_keeps
      | with_reducible apply Device.overcurrent_keeps | with_reducible apply keeps_ite | dsimp only | split
      | (fail_if_no_progress with_reducible refine keeps_fields ?_)

end Sys2Proof.Machine
end

