-- ==== Sys2Proof/Laws/KeepsHost.lean ====
section
/-! SUPPORT. What no operation breaks: the host port, management, the prefix engine, test access and register accesses. -/
namespace Sys2Proof.Machine

open Sys2Proof

set_option Elab.async false
set_option linter.unreachableTactic false
set_option linter.unusedTactic false

variable {bm bc bs br : Bool} {d0 : Device}

theorem pfxPlain_keeps : ∀ a0 a1, Keeps bm bc bs br d0 a0 → Keeps bm bc bs br d0 ((@pfxPlain a0 a1)).dev := by
  intros; unfold pfxPlain; try dsimp only
  repeat' first | intro _ | with_reducible assumption | dsimp only | split

theorem Device.pfxNamed_keeps : ∀ a0 a1 a2 a3 a4 a5, Keeps true bc true true d0 a0 → Keeps true bc true true d0 ((@Device.pfxNamed a0 a1 a2 a3 a4 a5)).dev := by
  intros; unfold Device.pfxNamed; try dsimp only
  repeat' first
      | intro _ | with_reducible assumption | with_reducible apply Device.resolvePage_keeps | with_reducible apply keeps_ite
      | dsimp only | split

theorem Device.setRefcnt_keeps : ∀ a0 a1 a2 a3, Keeps true bc true true d0 a0 → Keeps true bc true true d0 (@Device.setRefcnt a0 a1 a2 a3) := by
  intros; unfold Device.setRefcnt; try dsimp only
  repeat' first | intro _ | with_reducible assumption | with_reducible apply Device.unitWrite_keeps | dsimp only | split

theorem Device.setPageKey_keeps : ∀ a0 a1 a2 a3, Keeps true bc true true d0 a0 → Keeps true bc true true d0 (@Device.setPageKey a0 a1 a2 a3) := by
  intros; unfold Device.setPageKey; try dsimp only
  repeat' first | intro _ | with_reducible assumption | with_reducible apply Device.unitWrite_keeps | dsimp only | split

theorem Device.pfxRead_keeps : ∀ a0 a1 a2 a3, Keeps true bc true true d0 a0 → Keeps true bc true true d0 ((((@Device.pfxRead a0 a1 a2 a3)).1).dev) := by
  intros; unfold Device.pfxRead; try dsimp only
  repeat' first
      | intro _ | with_reducible assumption | with_reducible apply Device.ringTrip_keeps
      | with_reducible apply Device.readLines_keeps | with_reducible apply Device.draw_keeps
      | with_reducible apply Device.log_keeps | with_reducible apply Device.setBit_keeps
      | with_reducible apply keeps_ite | dsimp only | split
      | (fail_if_no_progress with_reducible refine keeps_fields ?_)

theorem Device.pfxWrite_keeps : ∀ a0 a1 a2 a3, Keeps true bc true true d0 a0 → Keeps true bc true true d0 ((@Device.pfxWrite a0 a1 a2 a3)) := by
  intros; unfold Device.pfxWrite; try dsimp only
  repeat' first
      | intro _ | with_reducible assumption | with_reducible apply Device.ringTrip_keeps
      | with_reducible apply Device.writeLines_keeps | with_reducible apply keeps_ite | dsimp only | split
      | (fail_if_no_progress with_reducible refine keeps_fields ?_)

theorem Device.pfxLookup_keeps : ∀ a0 a1 a2 a3, Keeps true bc true true d0 a0 → Keeps true bc true true d0 ((@Device.pfxLookup a0 a1 a2 a3)).dev := by
  intros; unfold Device.pfxLookup; try dsimp only
  repeat' first
      | intro _ | with_reducible assumption | with_reducible apply Device.pfxRead_keeps
      | with_reducible apply Device.count_keeps | with_reducible apply keeps_ite | dsimp only | split

theorem Device.pfxProbe_keeps : ∀ a0 a1 a2 a3 a4 a5, Keeps true bc true true d0 a0 → Keeps true bc true true d0 ((@Device.pfxProbe a0 a1 a2 a3 a4 a5)).dev := by
  intros; unfold Device.pfxProbe; try dsimp only
  repeat' first
      | intro _ | with_reducible assumption | with_reducible apply Device.pfxLookup_keeps | with_reducible apply pfxPlain_keeps
      | with_reducible apply Device.resolvePage_keeps | with_reducible apply Device.pfxNamed_keeps
      | with_reducible apply Device.setRefcnt_keeps | with_reducible apply keeps_ite | dsimp only | split

theorem Device.pfxInsert_keeps : ∀ a0 a1 a2 a3 a4, Keeps true bc true true d0 a0 → Keeps true bc true true d0 ((@Device.pfxInsert a0 a1 a2 a3 a4)).dev := by
  intros; unfold Device.pfxInsert; try dsimp only
  repeat' first
      | intro _ | with_reducible assumption | with_reducible apply Device.resolvePage_keeps
      | with_reducible apply pfxPlain_keeps | with_reducible apply Device.pfxRead_keeps
      | with_reducible apply Device.pfxNamed_keeps | with_reducible apply Device.pfxWrite_keeps
      | with_reducible apply Device.setPageKey_keeps | with_reducible apply keeps_ite | dsimp only | split

theorem Device.pfxRemove_keeps : ∀ a0 a1 a2 a3, Keeps true bc true true d0 a0 → Keeps true bc true true d0 ((@Device.pfxRemove a0 a1 a2 a3)).dev := by
  intros; unfold Device.pfxRemove; try dsimp only
  repeat' first
      | intro _ | with_reducible assumption | with_reducible apply Device.pfxRead_keeps | with_reducible apply pfxPlain_keeps
      | with_reducible apply Device.pfxWrite_keeps | with_reducible apply Device.resolvePage_keeps
      | with_reducible apply Device.pfxNamed_keeps | with_reducible apply Device.setPageKey_keeps
      | with_reducible apply keeps_ite | dsimp only | split

theorem Device.pfxRelease_keeps : ∀ a0 a1 a2 a3, Keeps true bc true true d0 a0 → Keeps true bc true true d0 ((@Device.pfxRelease a0 a1 a2 a3)).dev := by
  intros; unfold Device.pfxRelease; try dsimp only
  repeat' first
      | intro _ | with_reducible assumption | with_reducible apply Device.resolvePage_keeps
      | with_reducible apply pfxPlain_keeps | with_reducible apply Device.setRefcnt_keeps | with_reducible apply keeps_ite
      | dsimp only | split

theorem Device.pfxDo_keeps : ∀ a0 a1 a2 a3 a4 a5, Keeps true bc true true d0 a0 → Keeps true bc true true d0 ((@Device.pfxDo a0 a1 a2 a3 a4 a5)).dev := by
  intros; unfold Device.pfxDo; try dsimp only
  repeat' first
      | intro _ | with_reducible assumption | with_reducible apply pfxPlain_keeps | with_reducible apply Device.pfxProbe_keeps
      | with_reducible apply Device.pfxInsert_keeps | with_reducible apply Device.pfxRemove_keeps
      | with_reducible apply Device.pfxRelease_keeps | with_reducible apply keeps_ite | dsimp only | split

theorem Device.prefixStep_keeps : ∀ a0 a1 a2 a3, Keeps true true true true d0 a3 → Keeps true true true true d0 (@Device.prefixStep a0 a1 a2 a3) := by
  intros; unfold Device.prefixStep; try dsimp only
  repeat' first
      | intro _ | with_reducible assumption | with_reducible apply Device.readSpace_keeps
      | with_reducible apply Device.consume_keeps | with_reducible apply Device.pfxDo_keeps
      | with_reducible apply Device.markDone_keeps | with_reducible apply Device.writeSpace_keeps
      | with_reducible apply keeps_ite | dsimp only | split

theorem Device.hostLinkUp_keeps : ∀ a0 a1 a2, Keeps bm bc bs true d0 a2 → Keeps bm bc bs true d0 (@Device.hostLinkUp a0 a1 a2) := by
  intros; unfold Device.hostLinkUp; try dsimp only
  repeat' first
      | intro _ | with_reducible assumption | with_reducible apply Device.setField_keeps
      | with_reducible apply Device.setBit_keeps | with_reducible apply keeps_ite | dsimp only | split

theorem Device.enterD3_keeps : ∀ a0, Keeps bm bc bs true d0 a0 → Keeps bm bc bs true d0 (@Device.enterD3 a0) := by
  intros; unfold Device.enterD3; try dsimp only
  repeat' first
      | intro _ | with_reducible assumption | with_reducible apply Device.setBit_keeps | with_reducible apply keeps_ite
      | with_reducible refine keeps_foldl _ _ _ ?_ ?_ | with_reducible refine keeps_foldl_fst _ _ _ ?_ ?_
      | with_reducible refine keeps_foldl_snd _ _ _ ?_ ?_ | dsimp only | split | (with_reducible refine keeps_fields ?_)

theorem Device.enterD0_keeps : ∀ a0, Keeps bm bc bs true d0 a0 → Keeps bm bc bs true d0 (@Device.enterD0 a0) := by
  intros; unfold Device.enterD0; try dsimp only
  repeat' first
      | intro _ | with_reducible assumption | with_reducible apply Device.sendPending_keeps
      | with_reducible apply Device.setField_keeps | with_reducible apply keeps_ite
      | with_reducible refine keeps_foldl _ _ _ ?_ ?_ | with_reducible refine keeps_foldl_fst _ _ _ ?_ ?_
      | with_reducible refine keeps_foldl_snd _ _ _ ?_ ?_ | dsimp only | split | (with_reducible refine keeps_fields ?_)

theorem Device.cfgWrite_keeps : ∀ a0 a1 a2, Keeps bm bc bs true d0 a0 → Keeps bm bc bs true d0 ((@Device.cfgWrite a0 a1 a2)) := by
  intros; unfold Device.cfgWrite; try dsimp only
  repeat' first
      | intro _ | with_reducible assumption | with_reducible apply Device.sendPending_keeps
      | with_reducible apply Device.enterD3_keeps | with_reducible apply Device.enterD0_keeps
      | with_reducible apply keeps_ite | dsimp only | split
      | (fail_if_no_progress with_reducible refine keeps_fields ?_)

theorem Device.cfgRead_keeps : ∀ a0 a1, Keeps bm bc bs br d0 a0 → Keeps bm bc bs br d0 (((@Device.cfgRead a0 a1)).2) := by
  intros; unfold Device.cfgRead; try dsimp only
  repeat' first
      | intro _ | with_reducible assumption | with_reducible apply keeps_ite | dsimp only | split
      | (fail_if_no_progress with_reducible refine keeps_fields ?_)

theorem Device.configRequest_keeps : ∀ a0 a1, Keeps bm bc bs true d0 a1 → Keeps bm bc bs true d0 (@Device.configRequest a0 a1) := by
  intros; unfold Device.configRequest; try dsimp only
  repeat' first
      | intro _ | with_reducible assumption | with_reducible apply Device.emit_keeps
      | with_reducible apply Device.cfgWrite_keeps | with_reducible apply Device.cfgRead_keeps | with_reducible apply keeps_ite
      | dsimp only | split

theorem Device.readBar2_keeps : ∀ a0 a1 a2, Keeps true bc true true d0 a0 → Keeps true bc true true d0 (@Device.readBar2 a0 a1 a2) := by
  intros; unfold Device.readBar2; try dsimp only
  repeat' first
      | intro _ | with_reducible assumption | with_reducible apply Device.emit_keeps
      | with_reducible apply Device.hostAddrError_keeps | with_reducible apply Device.access_keeps
      | with_reducible apply keeps_ite | dsimp only | split

theorem Device.writeBar2_keeps : ∀ a0 a1 a2 a3, Keeps true bc true true d0 a0 → Keeps true bc true true d0 (@Device.writeBar2 a0 a1 a2 a3) := by
  intros; unfold Device.writeBar2; try dsimp only
  repeat' first
      | intro _ | with_reducible assumption | with_reducible apply Device.count_keeps
      | with_reducible apply Device.setBit_keeps | with_reducible apply Device.hostAddrError_keeps
      | with_reducible apply Device.access_keeps | with_reducible apply keeps_ite | dsimp only | split

theorem Device.doorbellWrite_keeps : ∀ a0 a1 a2, Keeps bm bc bs br d0 a2 → Keeps bm bc bs br d0 ((@Device.doorbellWrite a0 a1 a2)) := by
  intros; unfold Device.doorbellWrite; try dsimp only
  repeat' first
      | intro _ | with_reducible assumption | with_reducible apply keeps_ite | dsimp only | split
      | (fail_if_no_progress with_reducible refine keeps_fields ?_)

theorem Device.doorbellIncrement_keeps : ∀ a0, Keeps bm bc bs br d0 a0 → Keeps bm bc bs br d0 (@Device.doorbellIncrement a0) := by
  intros; unfold Device.doorbellIncrement; try dsimp only
  repeat' first
      | intro _ | with_reducible assumption | with_reducible apply Device.each_keeps | with_reducible apply Device.ring_keeps
      | dsimp only | split | (with_reducible refine keeps_fields ?_)

theorem Device.unmask_keeps : ∀ a0 a1, Keeps bm bc bs br d0 a1 → Keeps bm bc bs br d0 (@Device.unmask a0 a1) := by
  intros; unfold Device.unmask; try dsimp only
  repeat' first
      | intro _ | with_reducible assumption | with_reducible apply Device.sendPending_keeps | dsimp only | split
      | (with_reducible refine keeps_fields ?_)

theorem Device.abortMailbox_keeps : ∀ a0, Keeps bm bc bs true d0 a0 → Keeps bm bc bs true d0 (@Device.abortMailbox a0) := by
  intros; unfold Device.abortMailbox; try dsimp only
  repeat' first
      | intro _ | with_reducible assumption | with_reducible apply Device.each_keeps | with_reducible apply Device.setReg_keeps
      | with_reducible apply Device.event_keeps | with_reducible apply Device.setField_keeps | with_reducible apply keeps_ite
      | dsimp only | split | (with_reducible refine keeps_fields ?_)

theorem Device.dropLink_keeps : ∀ a0, Keeps bm bc bs true d0 a0 → Keeps bm bc bs true d0 (@Device.dropLink a0) := by
  intros; unfold Device.dropLink; try dsimp only
  repeat' first | intro _ | with_reducible assumption | with_reducible apply Device.setField_keeps | dsimp only | split

theorem Device.resetHostSide_keeps : ∀ a0, Keeps bm bc bs true d0 a0 → Keeps bm bc bs true d0 ((@Device.resetHostSide a0)) := by
  intros; unfold Device.resetHostSide; try dsimp only
  repeat' first
      | intro _ | with_reducible assumption | with_reducible apply Device.each_keeps
      | with_reducible apply Device.setReg_keeps | with_reducible apply Device.setField_keeps
      | with_reducible apply Device.abortMailbox_keeps | with_reducible apply keeps_ite | dsimp only | split
      | (fail_if_no_progress with_reducible refine keeps_fields ?_)

theorem Device.hostReset_keeps : ∀ a0 a1, Keeps bm true bs true d0 a1 → Keeps bm true bs true d0 (@Device.hostReset a0 a1) := by
  intros; unfold Device.hostReset; try dsimp only
  repeat' first
      | intro _ | with_reducible assumption | with_reducible apply Device.resetHostSide_keeps
      | with_reducible apply Device.fault_keeps | with_reducible apply Device.dropLink_keeps | with_reducible apply keeps_ite
      | dsimp only | split | (with_reducible refine keeps_fields ?_)

theorem Device.dmaRun_keeps : ∀ a0 a1, Keeps bm bc bs true d0 a1 → Keeps bm bc bs true d0 (@Device.dmaRun a0 a1) := by
  intros; unfold Device.dmaRun; try dsimp only
  repeat' first
      | intro _ | with_reducible assumption | with_reducible apply Device.setBit_keeps
      | with_reducible apply Device.modEngine_keeps | with_reducible apply keeps_ite | dsimp only | split

theorem Device.dmaClear_keeps : ∀ a0 a1, Keeps bm bc bs true d0 a1 → Keeps bm bc bs true d0 (@Device.dmaClear a0 a1) := by
  intros; unfold Device.dmaClear; try dsimp only
  repeat' first | intro _ | with_reducible assumption | with_reducible apply Device.setField_keeps | dsimp only | split

theorem Device.dmaStart_keeps : ∀ a0 a1, Keeps true bc true true d0 a1 → Keeps true bc true true d0 ((@Device.dmaStart a0 a1)) := by
  intros; unfold Device.dmaStart; try dsimp only
  repeat' first
      | intro _ | with_reducible assumption | with_reducible apply Device.addrError_keeps
      | with_reducible apply Device.dmaHalt_keeps | with_reducible apply Device.modEngine_keeps
      | with_reducible apply Device.access_keeps | with_reducible apply keeps_ite | dsimp only | split
      | (fail_if_no_progress with_reducible refine keeps_fields ?_)

theorem Device.dmaDeliver_keeps : ∀ a0 a1 a2, Keeps true bc true true d0 a2 → Keeps true bc true true d0 (@Device.dmaDeliver a0 a1 a2) := by
  intros; unfold Device.dmaDeliver; try dsimp only
  repeat' first
      | intro _ | with_reducible assumption | with_reducible apply Device.dmaFail_keeps
      | with_reducible apply Device.addrError_keeps | with_reducible apply Device.count_keeps
      | with_reducible apply Device.setBit_keeps | with_reducible apply Device.access_keeps
      | with_reducible apply Device.modDesc_keeps | with_reducible apply keeps_ite | dsimp only | split

theorem Device.fetchFail_keeps : ∀ a0 a1 a2, Keeps true bc bs true d0 a2 → Keeps true bc bs true d0 ((@Device.fetchFail a0 a1 a2)) := by
  intros; unfold Device.fetchFail; try dsimp only
  repeat' first
      | intro _ | with_reducible assumption | with_reducible apply Device.modEngine_keeps
      | with_reducible apply Device.dmaFail_keeps | with_reducible apply keeps_ite | dsimp only | split
      | (fail_if_no_progress with_reducible refine keeps_fields ?_)

theorem Device.dropCal_keeps : ∀ a0, Keeps bm bc bs true d0 a0 → Keeps bm bc bs true d0 ((@Device.dropCal a0)) := by
  intros; unfold Device.dropCal; try dsimp only
  repeat' first
      | intro _ | with_reducible assumption | with_reducible apply Device.setField_keeps
      | with_reducible apply keeps_ite | dsimp only | split
      | (fail_if_no_progress with_reducible refine keeps_fields ?_)

theorem Device.mbxMissed_keeps : ∀ a0, Keeps bm true bs true d0 a0 → Keeps bm true bs true d0 ((@Device.mbxMissed a0)) := by
  intros; unfold Device.mbxMissed; try dsimp only
  repeat' first
      | intro _ | with_reducible assumption | with_reducible apply AttRun.take_keeps
      | with_reducible apply Device.endTake_keeps | with_reducible apply Device.mbxEnd_keeps
      | with_reducible apply Device.setField_keeps | with_reducible apply Device.dropCal_keeps
      | with_reducible apply keeps_ite | dsimp only | split
      | (fail_if_no_progress with_reducible refine keeps_fields ?_)

theorem Device.dmaMissed_keeps : ∀ a0 a1 a2, Keeps true true bs true d0 a2 → Keeps true true bs true d0 ((@Device.dmaMissed a0 a1 a2)) := by
  intros; unfold Device.dmaMissed; try dsimp only
  repeat' first
      | intro _ | with_reducible assumption | with_reducible apply Device.dmaFail_keeps
      | with_reducible apply Device.fetchFail_keeps | with_reducible apply Device.mbxMissed_keeps
      | with_reducible apply keeps_ite | dsimp only | split
      | (fail_if_no_progress with_reducible refine keeps_fields ?_)

theorem Device.hostCompletion_keeps : ∀ a0 a1 a2, Keeps true true true true d0 a2 → Keeps true true true true d0 ((@Device.hostCompletion a0 a1 a2)) := by
  intros; unfold Device.hostCompletion; try dsimp only
  repeat' first
      | intro _ | with_reducible assumption | with_reducible apply Device.dmaDeliver_keeps
      | with_reducible apply Device.dmaMissed_keeps | with_reducible apply keeps_ite | dsimp only | split
      | (fail_if_no_progress with_reducible refine keeps_fields ?_)

theorem Device.capacityAccess_keeps : ∀ a0 a1 a2 a3 a4, Keeps true bc true true d0 a4 → Keeps true bc true true d0 (@Device.capacityAccess a0 a1 a2 a3 a4) := by
  intros; unfold Device.capacityAccess; try dsimp only
  repeat' first
      | intro _ | with_reducible assumption | with_reducible apply Device.hostAddrError_keeps
      | with_reducible apply Device.openLine_keeps | with_reducible apply Device.wakeRun_keeps
      | with_reducible apply Device.writeMem_keeps | with_reducible apply Device.readMem_keeps
      | with_reducible apply Device.emit_keeps | with_reducible apply keeps_ite | dsimp only | split

theorem Device.lpdRefresh_keeps : ∀ a0 a1 a2, Keeps bm bc bs br d0 a2 → Keeps bm bc bs br d0 (@Device.lpdRefresh a0 a1 a2) := by
  intros; unfold Device.lpdRefresh; try dsimp only
  repeat' first
      | intro _ | with_reducible assumption | with_reducible apply keeps_ite | dsimp only | split
      | (with_reducible refine keeps_fields ?_)

theorem Device.lpdTemp_keeps : ∀ a0 a1 a2 a3 a4, Keeps bm bc bs true d0 a4 → Keeps bm bc bs true d0 ((@Device.lpdTemp a0 a1 a2 a3 a4)) := by
  intros; unfold Device.lpdTemp; try dsimp only
  repeat' first
      | intro _ | with_reducible assumption | with_reducible apply Device.setField_keeps
      | with_reducible apply Device.setBit_keeps | with_reducible apply Device.event_keeps
      | with_reducible apply keeps_ite | dsimp only | split
      | (fail_if_no_progress with_reducible refine keeps_fields ?_)

theorem Device.reply_keeps : ∀ a0 a1 a2, Keeps bm bc bs br d0 a0 → Keeps bm bc bs br d0 ((@Device.reply a0 a1 a2)) := by
  intros; unfold Device.reply; try dsimp only
  repeat' first
      | intro _ | with_reducible assumption | with_reducible apply Device.emit_keeps | with_reducible apply keeps_ite
      | dsimp only | split | (fail_if_no_progress with_reducible refine keeps_fields ?_)

theorem Device.mctpControl_keeps : ∀ a0 a1, (∀ y0, Keeps bm bc bs br d0 y0 → Keeps bm bc bs br d0 (a0 y0)) → Keeps bm bc bs br d0 a1 → Keeps bm bc bs br d0 (@Device.mctpControl a0 a1) := by
  intros; unfold Device.mctpControl; try dsimp only
  repeat' first
      | intro _ | with_reducible assumption | with_reducible apply_assumption | with_reducible apply keeps_ite | dsimp only
      | split

theorem Device.setEid_keeps : ∀ a0 a1, Keeps bm bc bs br d0 a1 → Keeps bm bc bs br d0 ((@Device.setEid a0 a1)) := by
  intros; unfold Device.setEid; try dsimp only
  repeat' first
      | intro _ | with_reducible assumption | with_reducible apply Device.mctpControl_keeps
      | with_reducible apply Device.reply_keeps | with_reducible apply keeps_ite | dsimp only | split
      | (fail_if_no_progress with_reducible refine keeps_fields ?_)

theorem Device.pldm_keeps : ∀ a0 a1, (∀ y0, Keeps bm bc bs br d0 y0 → Keeps bm bc bs br d0 ((a0 y0))) → Keeps bm bc bs br d0 a1 → Keeps bm bc bs br d0 ((@Device.pldm a0 a1)) := by
  intros; unfold Device.pldm; try dsimp only
  repeat' first
      | intro _ | with_reducible assumption | with_reducible apply_assumption
      | with_reducible apply Device.reply_keeps | with_reducible apply keeps_ite | dsimp only | split
      | (fail_if_no_progress with_reducible refine keeps_fields ?_)

theorem Device.thresholds_keeps : ∀ a0 a1, Keeps bm bc bs br d0 a0 → Keeps bm bc bs br d0 (((@Device.thresholds a0 a1)).2) := by
  intros; unfold Device.thresholds; try dsimp only
  repeat' first
      | intro _ | with_reducible assumption | with_reducible apply Device.pressureRange_keeps
      | with_reducible apply keeps_ite | dsimp only | split
      | (fail_if_no_progress with_reducible refine keeps_fields ?_)

theorem Device.writeFlow_keeps : ∀ a0 a1, Keeps bm bc bs true d0 a1 → Keeps bm bc bs true d0 (@Device.writeFlow a0 a1) := by
  intros; unfold Device.writeFlow; try dsimp only
  repeat' first
      | intro _ | with_reducible assumption | with_reducible apply Device.setField_keeps | dsimp only | split
      | (with_reducible refine keeps_fields ?_)

theorem Device.pollEvents_keeps : ∀ a0, Keeps bm bc bs br d0 a0 → Keeps bm bc bs br d0 ((@Device.pollEvents a0)) := by
  intros; unfold Device.pollEvents; try dsimp only
  repeat' first
      | intro _ | with_reducible assumption | with_reducible apply Device.reply_keeps | with_reducible apply keeps_ite
      | dsimp only | split | (fail_if_no_progress with_reducible refine keeps_fields ?_)

theorem Device.modTest_keeps : ∀ a0 a1, Keeps bm bc bs br d0 a0 → Keeps bm bc bs br d0 (@Device.modTest a0 a1) := by
  intros; unfold Device.modTest; try dsimp only
  repeat' first | intro _ | with_reducible assumption | dsimp only | split | (with_reducible refine keeps_fields ?_)

theorem Device.onTap_keeps : ∀ a0 a1, (∀ y0, Keeps bm bc bs br d0 y0 → Keeps bm bc bs br d0 ((a0 y0))) → Keeps bm bc bs br d0 a1 → Keeps bm bc bs br d0 ((@Device.onTap a0 a1)) := by
  intros; unfold Device.onTap; try dsimp only
  repeat' first
      | intro _ | with_reducible assumption | with_reducible apply_assumption | with_reducible apply keeps_ite
      | dsimp only | split | (fail_if_no_progress with_reducible refine keeps_fields ?_)

theorem Device.irScan_keeps : ∀ a0 a1 a2, Keeps bm bc bs br d0 a2 → Keeps bm bc bs br d0 ((@Device.irScan a0 a1 a2)) := by
  intros; unfold Device.irScan; try dsimp only
  repeat' first
      | intro _ | with_reducible assumption | with_reducible apply Device.modTest_keeps
      | with_reducible apply Device.emit_keeps | with_reducible apply keeps_ite
      | with_reducible refine keeps_foldl _ _ _ ?_ ?_ | with_reducible refine keeps_foldl_fst _ _ _ ?_ ?_
      | with_reducible refine keeps_foldl_snd _ _ _ ?_ ?_ | dsimp only | split
      | (fail_if_no_progress with_reducible refine keeps_fields ?_)

theorem Device.drScan_keeps : ∀ a0 a1 a2, Keeps bm bc bs br d0 a2 → Keeps bm bc bs br d0 ((@Device.drScan a0 a1 a2)) := by
  intros; unfold Device.drScan; try dsimp only
  repeat' first
      | intro _ | with_reducible assumption | with_reducible apply Device.modTest_keeps
      | with_reducible apply Device.emit_keeps | with_reducible apply keeps_ite | dsimp only | split
      | (fail_if_no_progress with_reducible refine keeps_fields ?_)

theorem Device.tapScan_keeps : ∀ a0 a1 a2 a3, Keeps bm bc bs br d0 a3 → Keeps bm bc bs br d0 ((@Device.tapScan a0 a1 a2 a3)) := by
  intros; unfold Device.tapScan; try dsimp only
  repeat' first
      | intro _ | with_reducible assumption | with_reducible apply Device.irScan_keeps
      | with_reducible apply Device.drScan_keeps | with_reducible apply keeps_ite | dsimp only | split
      | (fail_if_no_progress with_reducible refine keeps_fields ?_)

theorem Device.bypass_keeps : ∀ a0 a1 a2, Keeps bm bc bs br d0 a2 → Keeps bm bc bs br d0 ((@Device.bypass a0 a1 a2)) := by
  intros; unfold Device.bypass; try dsimp only
  repeat' first
      | intro _ | with_reducible assumption | with_reducible apply Device.onTap_keeps
      | with_reducible apply Device.tapScan_keeps | with_reducible apply keeps_ite | dsimp only | split
      | (fail_if_no_progress with_reducible refine keeps_fields ?_)

theorem Device.idcode_keeps : ∀ a0 a1, Keeps bm bc bs br d0 a1 → Keeps bm bc bs br d0 ((@Device.idcode a0 a1)) := by
  intros; unfold Device.idcode; try dsimp only
  repeat' first
      | intro _ | with_reducible assumption | with_reducible apply Device.onTap_keeps
      | with_reducible apply Device.tapScan_keeps | with_reducible apply keeps_ite | dsimp only | split
      | (fail_if_no_progress with_reducible refine keeps_fields ?_)

theorem Device.boundaryScan_keeps : ∀ a0 a1 a2 a3 a4, Keeps bm bc bs br d0 a4 → Keeps bm bc bs br d0 ((@Device.boundaryScan a0 a1 a2 a3 a4)) := by
  intros; unfold Device.boundaryScan; try dsimp only
  repeat' first
      | intro _ | with_reducible assumption | with_reducible apply Device.onTap_keeps
      | with_reducible apply Device.irScan_keeps | with_reducible apply Device.drScan_keeps
      | with_reducible apply Device.modTest_keeps | with_reducible apply keeps_ite | dsimp only | split
      | (fail_if_no_progress with_reducible refine keeps_fields ?_)

theorem Device.samplePreload_keeps : ∀ a0 a1 a2 a3, Keeps bm bc bs br d0 a3 → Keeps bm bc bs br d0 ((@Device.samplePreload a0 a1 a2 a3)) := by
  intros; unfold Device.samplePreload; try dsimp only
  repeat' first
      | intro _ | with_reducible assumption | with_reducible apply Device.boundaryScan_keeps
      | with_reducible apply keeps_ite | dsimp only | split
      | (fail_if_no_progress with_reducible refine keeps_fields ?_)

theorem Device.extest_keeps : ∀ a0 a1 a2, Keeps bm bc bs br d0 a2 → Keeps bm bc bs br d0 ((@Device.extest a0 a1 a2)) := by
  intros; unfold Device.extest; try dsimp only
  repeat' first
      | intro _ | with_reducible assumption | with_reducible apply Device.boundaryScan_keeps
      | with_reducible apply keeps_ite | dsimp only | split
      | (fail_if_no_progress with_reducible refine keeps_fields ?_)

theorem Device.wrapperTest_keeps : ∀ a0 a1 a2 a3, Keeps bm bc bs br d0 a3 → Keeps bm bc bs br d0 ((@Device.wrapperTest a0 a1 a2 a3)) := by
  intros; unfold Device.wrapperTest; try dsimp only
  repeat' first
      | intro _ | with_reducible assumption | with_reducible apply Device.onTap_keeps
      | with_reducible apply Device.tapScan_keeps | with_reducible apply keeps_ite | dsimp only | split
      | (fail_if_no_progress with_reducible refine keeps_fields ?_)

theorem Device.ijtag_keeps : ∀ a0 a1 a2, Keeps bm bc bs true d0 a2 → Keeps bm bc bs true d0 ((@Device.ijtag a0 a1 a2)) := by
  intros; unfold Device.ijtag; try dsimp only
  repeat' first
      | intro _ | with_reducible assumption | with_reducible apply Device.onTap_keeps
      | with_reducible apply Device.tapScan_keeps | with_reducible apply Device.setBit_keeps
      | with_reducible apply Device.modTest_keeps | with_reducible apply keeps_ite | dsimp only | split
      | (fail_if_no_progress with_reducible refine keeps_fields ?_)

theorem Device.configChain_keeps : ∀ a0 a1 a2, Keeps bm bc bs true d0 a2 → Keeps bm bc bs true d0 ((@Device.configChain a0 a1 a2)) := by
  intros; unfold Device.configChain; try dsimp only
  repeat' first
      | intro _ | with_reducible assumption | with_reducible apply Device.onTap_keeps
      | with_reducible apply Device.tapScan_keeps | with_reducible apply Device.modTest_keeps
      | with_reducible apply Device.setBit_keeps | with_reducible apply keeps_ite
      | with_reducible refine keeps_foldl _ _ _ ?_ ?_ | with_reducible refine keeps_foldl_fst _ _ _ ?_ ?_
      | with_reducible refine keeps_foldl_snd _ _ _ ?_ ?_ | dsimp only | split
      | (fail_if_no_progress with_reducible refine keeps_fields ?_)

theorem Device.unlock_keeps : ∀ a0 a1, Keeps bm bc bs true d0 a1 → Keeps bm bc bs true d0 ((@Device.unlock a0 a1)) := by
  intros; unfold Device.unlock; try dsimp only
  repeat' first
      | intro _ | with_reducible assumption | with_reducible apply Device.onTap_keeps
      | with_reducible apply Device.tapScan_keeps | with_reducible apply Device.modTest_keeps
      | with_reducible apply Device.setField_keeps | with_reducible apply Device.setBit_keeps
      | with_reducible apply keeps_ite | dsimp only | split
      | (fail_if_no_progress with_reducible refine keeps_fields ?_)

theorem Device.tapReset_keeps : ∀ a0, Keeps bm bc bs br d0 a0 → Keeps bm bc bs br d0 ((@Device.tapReset a0)) := by
  intros; unfold Device.tapReset; try dsimp only
  repeat' first
      | intro _ | with_reducible assumption | with_reducible apply Device.onTap_keeps
      | with_reducible apply Device.modTest_keeps | with_reducible apply keeps_ite | dsimp only | split
      | (fail_if_no_progress with_reducible refine keeps_fields ?_)

theorem Device.parallelGo_keeps : ∀ a0 a1, Keeps bm bc bs true d0 a1 → Keeps bm bc bs true d0 ((@Device.parallelGo a0 a1)) := by
  intros; unfold Device.parallelGo; try dsimp only
  repeat' first
      | intro _ | with_reducible assumption | with_reducible apply Device.setBit_keeps
      | with_reducible apply Device.modTest_keeps | with_reducible apply keeps_ite | dsimp only | split
      | (fail_if_no_progress with_reducible refine keeps_fields ?_)

theorem Device.parallelShift_keeps : ∀ a0 a1, Keeps bm bc bs true d0 a1 → Keeps bm bc bs true d0 ((@Device.parallelShift a0 a1)) := by
  intros; unfold Device.parallelShift; try dsimp only
  repeat' first
      | intro _ | with_reducible assumption | with_reducible apply Device.setField_keeps
      | with_reducible apply Device.parallelGo_keeps | with_reducible apply keeps_ite | dsimp only | split
      | (fail_if_no_progress with_reducible refine keeps_fields ?_)

theorem Device.parallelDone_keeps : ∀ a0 a1, Keeps bm bc bs true d0 a1 → Keeps bm bc bs true d0 ((@Device.parallelDone a0 a1)) := by
  intros; unfold Device.parallelDone; try dsimp only
  repeat' first
      | intro _ | with_reducible assumption | with_reducible apply Device.setReg_keeps
      | with_reducible apply Device.setField_keeps | with_reducible apply Device.modTest_keeps
      | with_reducible apply keeps_ite | dsimp only | split
      | (fail_if_no_progress with_reducible refine keeps_fields ?_)

theorem Device.storeFields_keeps : ∀ a0 a1 a2 a3 a4 a5, Keeps bm bc bs true d0 a0 → Keeps bm bc bs true d0 ((@Device.storeFields a0 a1 a2 a3 a4 a5)) := by
  intros; unfold Device.storeFields; try dsimp only
  repeat' first
      | intro _ | with_reducible assumption | with_reducible apply Device.setReg_keeps
      | with_reducible apply keeps_ite | with_reducible refine keeps_foldl _ _ _ ?_ ?_
      | with_reducible refine keeps_foldl_fst _ _ _ ?_ ?_ | with_reducible refine keeps_foldl_snd _ _ _ ?_ ?_
      | dsimp only | split | (fail_if_no_progress with_reducible refine keeps_fields ?_)

theorem Device.retireAdd_keeps : ∀ a0 a1, Keeps bm bc bs true d0 a1 → Keeps bm bc bs true d0 (@Device.retireAdd a0 a1) := by
  intros; unfold Device.retireAdd; try dsimp only
  repeat' first
      | intro _ | with_reducible assumption | with_reducible apply Device.setField_keeps | with_reducible apply keeps_ite
      | dsimp only | split | (with_reducible refine keeps_fields ?_)

theorem Device.clearLog_keeps : ∀ a0 a1, Keeps bm bc bs br d0 a1 → Keeps bm bc bs br d0 (@Device.clearLog a0 a1) := by
  intros; unfold Device.clearLog; try dsimp only
  repeat' first | intro _ | with_reducible assumption | with_reducible apply Device.setLog_keeps | dsimp only | split

theorem Device.armFlip_keeps : ∀ a0 a1 a2, Keeps bm bc bs true d0 a0 → Keeps bm bc bs true d0 (@Device.armFlip a0 a1 a2) := by
  intros; unfold Device.armFlip; try dsimp only
  repeat' first
      | intro _ | with_reducible assumption | with_reducible apply Device.setField_keeps | with_reducible apply keeps_ite
      | dsimp only | split

theorem Device.fillWindow_keeps : ∀ a0 a1, Keeps bm bc bs true d0 a1 → Keeps bm bc bs true d0 (@Device.fillWindow a0 a1) := by
  intros; unfold Device.fillWindow; try dsimp only
  repeat' first
      | intro _ | with_reducible assumption | with_reducible apply Device.setField_keeps | dsimp only | split
      | (with_reducible refine keeps_fields ?_)

theorem Device.windowFilled_keeps : ∀ a0, Keeps bm bc bs br d0 a0 → Keeps bm bc bs br d0 (@Device.windowFilled a0) := by
  intros; unfold Device.windowFilled; try dsimp only
  repeat' first
      | intro _ | with_reducible assumption | with_reducible apply Device.drawBytes_keeps | with_reducible apply keeps_ite
      | dsimp only | split | (with_reducible refine keeps_fields ?_)

theorem Device.mailbox_keeps : ∀ a0 a1, Keeps true true true true d0 a1 → Keeps true true true true d0 (@Device.mailbox a0 a1) := by
  intros; unfold Device.mailbox; try dsimp only
  repeat' first
      | intro _ | with_reducible assumption | with_reducible apply Device.reelLoadCmd_keeps
      | with_reducible apply Device.takeStartCmd_keeps | with_reducible apply Device.takeStopCmd_keeps
      | with_reducible apply Device.saveDrainCmd_keeps | with_reducible apply Device.saveCaptureCmd_keeps
      | with_reducible apply Device.mbxWhen_keeps | with_reducible apply Device.mbxEnd_keeps
      | with_reducible apply Device.resumeCmd_keeps | with_reducible apply Device.rejoinCmd_keeps
      | with_reducible apply Device.arrayResetCmd_keeps | with_reducible apply Device.rerouteCmd_keeps
      | with_reducible apply Device.stopCmd_keeps | with_reducible apply Device.calReadCmd_keeps
      | with_reducible apply Device.calWriteCmd_keeps | with_reducible apply Device.attestCmd_keeps
      | with_reducible apply Device.mbxBegin_keeps | with_reducible apply keeps_ite | dsimp only | split

theorem Device.dmaCtl_keeps : ∀ a0 a1 a2 a3 a4, Keeps bm bc bs true d0 a4 → Keeps bm bc bs true d0 (@Device.dmaCtl a0 a1 a2 a3 a4) := by
  intros; unfold Device.dmaCtl; try dsimp only
  repeat' first
      | intro _ | with_reducible assumption | with_reducible apply Device.dmaClear_keeps
      | with_reducible apply Device.dmaRun_keeps | with_reducible apply Device.setField_keeps | with_reducible apply keeps_ite
      | dsimp only | split

theorem Device.actHst_keeps : ∀ a0 a1 a2 a3 a4, Keeps true true true true d0 a4 → Keeps true true true true d0 ((@Device.actHst a0 a1 a2 a3 a4)) := by
  intros; unfold Device.actHst; try dsimp only
  repeat' first
      | intro _ | with_reducible assumption | with_reducible apply Device.mailbox_keeps
      | with_reducible apply Device.whole_keeps | with_reducible apply Device.dmaCtl_keeps
      | with_reducible apply keeps_ite | dsimp only | split
      | (fail_if_no_progress with_reducible refine keeps_fields ?_)

theorem Device.actSvc_keeps : ∀ a0 a1 a2 a3 a4, Keeps bm bc bs true d0 a4 → Keeps bm bc bs true d0 (@Device.actSvc a0 a1 a2 a3 a4) := by
  intros; unfold Device.actSvc; try dsimp only
  repeat' first
      | intro _ | with_reducible assumption | with_reducible apply Device.retireAdd_keeps
      | with_reducible apply Device.svcResetKey_keeps | with_reducible apply Device.fillWindow_keeps
      | with_reducible apply keeps_ite | dsimp only | split

theorem Device.act_keeps : ∀ a0 a1 a2 a3 a4, Keeps true true true true d0 a4 → Keeps true true true true d0 (@Device.act a0 a1 a2 a3 a4) := by
  intros; unfold Device.act; try dsimp only
  repeat' first
      | intro _ | with_reducible assumption | with_reducible apply Device.armFlip_keeps
      | with_reducible apply Device.actSvc_keeps | with_reducible apply Device.rollbackAdvance_keeps
      | with_reducible apply Device.clearLog_keeps | with_reducible apply Device.nbFence_keeps
      | with_reducible apply Device.actHst_keeps | with_reducible apply Device.parallelShift_keeps
      | with_reducible apply keeps_ite | dsimp only | split

theorem Device.writeMsix_keeps : ∀ a0 a1 a2 a3 a4, Keeps bm bc bs br d0 a0 → Keeps bm bc bs br d0 (@Device.writeMsix a0 a1 a2 a3 a4) := by
  intros; unfold Device.writeMsix; try dsimp only
  repeat' first
      | intro _ | with_reducible assumption | with_reducible apply Device.sendPending_keeps | dsimp only | split
      | (with_reducible refine keeps_fields ?_)

theorem Device.regWrite_keeps : ∀ a0 a1 a2 a3 a4, Keeps true true true true d0 a4 → Keeps true true true true d0 (@Device.regWrite a0 a1 a2 a3 a4) := by
  intros; unfold Device.regWrite; try dsimp only
  repeat' first
      | intro _ | with_reducible assumption | with_reducible apply Device.writeMsix_keeps
      | with_reducible apply Device.act_keeps | with_reducible apply Device.storeFields_keeps | with_reducible apply keeps_ite
      | dsimp only | split

theorem Device.darkAccess_keeps : ∀ a0 a1 a2, Keeps bm bc bs true d0 a0 → Keeps bm bc bs true d0 ((@Device.darkAccess a0 a1 a2)) := by
  intros; unfold Device.darkAccess; try dsimp only
  repeat' first
      | intro _ | with_reducible assumption | with_reducible apply Device.log_keeps
      | with_reducible apply Device.setBit_keeps | with_reducible apply keeps_ite | dsimp only | split
      | (fail_if_no_progress with_reducible refine keeps_fields ?_)

theorem Device.spaceWrite_keeps : ∀ a0 a1 a2 a3, Keeps true true true true d0 a3 → Keeps true true true true d0 ((@Device.spaceWrite a0 a1 a2 a3)) := by
  intros; unfold Device.spaceWrite; try dsimp only
  repeat' first
      | intro _ | with_reducible assumption | with_reducible apply Device.hostAddrError_keeps
      | with_reducible apply Device.darkAccess_keeps | with_reducible apply Device.regWrite_keeps
      | with_reducible apply keeps_ite | dsimp only | split
      | (fail_if_no_progress with_reducible refine keeps_fields ?_)

theorem Device.logClear_keeps : ∀ a0 a1, Keeps bm bc bs br d0 a1 → Keeps bm bc bs br d0 (@Device.logClear a0 a1) := by
  intros; unfold Device.logClear; try dsimp only
  repeat' first
      | intro _ | with_reducible assumption | with_reducible apply Device.clearLog_keeps | with_reducible apply keeps_ite
      | dsimp only | split

theorem Device.flipArm_keeps : ∀ a0 a1 a2 a3, Keeps bm bc bs true d0 a3 → Keeps bm bc bs true d0 (@Device.flipArm a0 a1 a2 a3) := by
  intros; unfold Device.flipArm; try dsimp only
  repeat' first
      | intro _ | with_reducible assumption | with_reducible apply Device.armFlip_keeps
      | with_reducible apply Device.setField_keeps | with_reducible apply keeps_ite | dsimp only | split

theorem Device.flipDisarm_keeps : ∀ a0 a1, Keeps bm bc bs true d0 a1 → Keeps bm bc bs true d0 (@Device.flipDisarm a0 a1) := by
  intros; unfold Device.flipDisarm; try dsimp only
  repeat' first
      | intro _ | with_reducible assumption | with_reducible apply Device.armFlip_keeps | with_reducible apply keeps_ite
      | dsimp only | split

theorem Device.readBar0_keeps : ∀ a0 a1 a2, Keeps bm bc bs true d0 a0 → Keeps bm bc bs true d0 ((@Device.readBar0 a0 a1 a2)) := by
  intros; unfold Device.readBar0; try dsimp only
  repeat' first
      | intro _ | with_reducible assumption | with_reducible apply Device.hostAddrError_keeps
      | with_reducible apply Device.emit_keeps | with_reducible apply Device.darkAccess_keeps
      | with_reducible apply keeps_ite | dsimp only | split
      | (fail_if_no_progress with_reducible refine keeps_fields ?_)

theorem Device.hostRead_keeps : ∀ a0 a1 a2 a3, Keeps true bc true true d0 a3 → Keeps true bc true true d0 (@Device.hostRead a0 a1 a2 a3) := by
  intros; unfold Device.hostRead; try dsimp only
  repeat' first
      | intro _ | with_reducible assumption | with_reducible apply Device.emit_keeps
      | with_reducible apply Device.readBar0_keeps | with_reducible apply Device.readBar2_keeps
      | with_reducible apply keeps_ite | dsimp only | split

theorem Device.poisonIn_keeps : ∀ a0 a1, Keeps bm bc bs true d0 a0 → Keeps bm bc bs true d0 (@Device.poisonIn a0 a1) := by
  intros; unfold Device.poisonIn; try dsimp only
  repeat' first
      | intro _ | with_reducible assumption | with_reducible apply Device.count_keeps
      | with_reducible apply Device.setBit_keeps | with_reducible apply keeps_ite | dsimp only | split

theorem Device.writeBar0_keeps : ∀ a0 a1 a2 a3, Keeps true true true true d0 a0 → Keeps true true true true d0 (@Device.writeBar0 a0 a1 a2 a3) := by
  intros; unfold Device.writeBar0; try dsimp only
  repeat' first
      | intro _ | with_reducible assumption | with_reducible apply Device.hostAddrError_keeps
      | with_reducible apply Device.poisonIn_keeps | with_reducible apply Device.spaceWrite_keeps
      | with_reducible apply keeps_ite | dsimp only | split

theorem Device.hostWrite_keeps : ∀ a0 a1 a2 a3 a4, Keeps true true true true d0 a4 → Keeps true true true true d0 (@Device.hostWrite a0 a1 a2 a3 a4) := by
  intros; unfold Device.hostWrite; try dsimp only
  repeat' first
      | intro _ | with_reducible assumption | with_reducible apply Device.writeBar0_keeps
      | with_reducible apply Device.writeBar2_keeps | with_reducible apply Device.doorbellWrite_keeps
      | with_reducible apply Device.poisonIn_keeps | with_reducible apply keeps_ite | dsimp only | split

end Sys2Proof.Machine
end

