-- ==== Sys2Proof/Laws/State.lean ====
section
/-! SUPPORT. What each update of the device leaves as it was: one lemma per update and field, true by rfl, so that no proof unfolds a
record update. -/
namespace Sys2Proof.Machine

open Sys2Proof

/-! Device.setReg changes the field regs alone. -/

@[simp] theorem Device.setReg_fuses (d : Device) (a : Nat) (v : W64) : (d.setReg a v).fuses = d.fuses := rfl
@[simp] theorem Device.setReg_now (d : Device) (a : Nat) (v : W64) : (d.setReg a v).now = d.now := rfl
@[simp] theorem Device.setReg_mem (d : Device) (a : Nat) (v : W64) : (d.setReg a v).mem = d.mem := rfl
@[simp] theorem Device.setReg_hostMem (d : Device) (a : Nat) (v : W64) : (d.setReg a v).hostMem = d.hostMem := rfl
@[simp] theorem Device.setReg_flash (d : Device) (a : Nat) (v : W64) : (d.setReg a v).flash = d.flash := rfl
@[simp] theorem Device.setReg_cores (d : Device) (a : Nat) (v : W64) : (d.setReg a v).cores = d.cores := rfl
@[simp] theorem Device.setReg_sites (d : Device) (a : Nat) (v : W64) : (d.setReg a v).sites = d.sites := rfl
@[simp] theorem Device.setReg_towers (d : Device) (a : Nat) (v : W64) : (d.setReg a v).towers = d.towers := rfl
@[simp] theorem Device.setReg_halves (d : Device) (a : Nat) (v : W64) : (d.setReg a v).halves = d.halves := rfl
@[simp] theorem Device.setReg_take (d : Device) (a : Nat) (v : W64) : (d.setReg a v).take = d.take := rfl
@[simp] theorem Device.setReg_clap (d : Device) (a : Nat) (v : W64) : (d.setReg a v).clap = d.clap := rfl
@[simp] theorem Device.setReg_cont (d : Device) (a : Nat) (v : W64) : (d.setReg a v).cont = d.cont := rfl
@[simp] theorem Device.setReg_mods (d : Device) (a : Nat) (v : W64) : (d.setReg a v).mods = d.mods := rfl
@[simp] theorem Device.setReg_fab (d : Device) (a : Nat) (v : W64) : (d.setReg a v).fab = d.fab := rfl
@[simp] theorem Device.setReg_host (d : Device) (a : Nat) (v : W64) : (d.setReg a v).host = d.host := rfl
@[simp] theorem Device.setReg_mbx (d : Device) (a : Nat) (v : W64) : (d.setReg a v).mbx = d.mbx := rfl
@[simp] theorem Device.setReg_lpd (d : Device) (a : Nat) (v : W64) : (d.setReg a v).lpd = d.lpd := rfl
@[simp] theorem Device.setReg_mgmt (d : Device) (a : Nat) (v : W64) : (d.setReg a v).mgmt = d.mgmt := rfl
@[simp] theorem Device.setReg_thm (d : Device) (a : Nat) (v : W64) : (d.setReg a v).thm = d.thm := rfl
@[simp] theorem Device.setReg_pins (d : Device) (a : Nat) (v : W64) : (d.setReg a v).pins = d.pins := rfl
@[simp] theorem Device.setReg_start (d : Device) (a : Nat) (v : W64) : (d.setReg a v).start = d.start := rfl
@[simp] theorem Device.setReg_sec (d : Device) (a : Nat) (v : W64) : (d.setReg a v).sec = d.sec := rfl
@[simp] theorem Device.setReg_tst (d : Device) (a : Nat) (v : W64) : (d.setReg a v).tst = d.tst := rfl
@[simp] theorem Device.setReg_retire (d : Device) (a : Nat) (v : W64) : (d.setReg a v).retire = d.retire := rfl
@[simp] theorem Device.setReg_kept (d : Device) (a : Nat) (v : W64) : (d.setReg a v).kept = d.kept := rfl
@[simp] theorem Device.setReg_out (d : Device) (a : Nat) (v : W64) : (d.setReg a v).out = d.out := rfl
@[simp] theorem Device.setReg_freeCtr (d : Device) (a : Nat) (v : W64) : (d.setReg a v).freeCtr = d.freeCtr := rfl
@[simp] theorem Device.setReg_accesses (d : Device) (a : Nat) (v : W64) : (d.setReg a v).accesses = d.accesses := rfl
@[simp] theorem Device.setReg_accessNext (d : Device) (a : Nat) (v : W64) : (d.setReg a v).accessNext = d.accessNext := rfl
@[simp] theorem Device.setReg_blocked (d : Device) (a : Nat) (v : W64) : (d.setReg a v).blocked = d.blocked := rfl
@[simp] theorem Device.setReg_wanted (d : Device) (a : Nat) (v : W64) : (d.setReg a v).wanted = d.wanted := rfl
@[simp] theorem Device.setReg_cycle (d : Device) (a : Nat) (v : W64) : (d.setReg a v).cycle = d.cycle := rfl

/-! Device.setField changes the field regs alone. -/

@[simp] theorem Device.setField_fuses (d : Device) (a lo n v : Nat) : (d.setField a lo n v).fuses = d.fuses := rfl
@[simp] theorem Device.setField_now (d : Device) (a lo n v : Nat) : (d.setField a lo n v).now = d.now := rfl
@[simp] theorem Device.setField_mem (d : Device) (a lo n v : Nat) : (d.setField a lo n v).mem = d.mem := rfl
@[simp] theorem Device.setField_hostMem (d : Device) (a lo n v : Nat) : (d.setField a lo n v).hostMem = d.hostMem := rfl
@[simp] theorem Device.setField_flash (d : Device) (a lo n v : Nat) : (d.setField a lo n v).flash = d.flash := rfl
@[simp] theorem Device.setField_cores (d : Device) (a lo n v : Nat) : (d.setField a lo n v).cores = d.cores := rfl
@[simp] theorem Device.setField_sites (d : Device) (a lo n v : Nat) : (d.setField a lo n v).sites = d.sites := rfl
@[simp] theorem Device.setField_towers (d : Device) (a lo n v : Nat) : (d.setField a lo n v).towers = d.towers := rfl
@[simp] theorem Device.setField_halves (d : Device) (a lo n v : Nat) : (d.setField a lo n v).halves = d.halves := rfl
@[simp] theorem Device.setField_take (d : Device) (a lo n v : Nat) : (d.setField a lo n v).take = d.take := rfl
@[simp] theorem Device.setField_clap (d : Device) (a lo n v : Nat) : (d.setField a lo n v).clap = d.clap := rfl
@[simp] theorem Device.setField_cont (d : Device) (a lo n v : Nat) : (d.setField a lo n v).cont = d.cont := rfl
@[simp] theorem Device.setField_mods (d : Device) (a lo n v : Nat) : (d.setField a lo n v).mods = d.mods := rfl
@[simp] theorem Device.setField_fab (d : Device) (a lo n v : Nat) : (d.setField a lo n v).fab = d.fab := rfl
@[simp] theorem Device.setField_host (d : Device) (a lo n v : Nat) : (d.setField a lo n v).host = d.host := rfl
@[simp] theorem Device.setField_mbx (d : Device) (a lo n v : Nat) : (d.setField a lo n v).mbx = d.mbx := rfl
@[simp] theorem Device.setField_lpd (d : Device) (a lo n v : Nat) : (d.setField a lo n v).lpd = d.lpd := rfl
@[simp] theorem Device.setField_mgmt (d : Device) (a lo n v : Nat) : (d.setField a lo n v).mgmt = d.mgmt := rfl
@[simp] theorem Device.setField_thm (d : Device) (a lo n v : Nat) : (d.setField a lo n v).thm = d.thm := rfl
@[simp] theorem Device.setField_pins (d : Device) (a lo n v : Nat) : (d.setField a lo n v).pins = d.pins := rfl
@[simp] theorem Device.setField_start (d : Device) (a lo n v : Nat) : (d.setField a lo n v).start = d.start := rfl
@[simp] theorem Device.setField_sec (d : Device) (a lo n v : Nat) : (d.setField a lo n v).sec = d.sec := rfl
@[simp] theorem Device.setField_tst (d : Device) (a lo n v : Nat) : (d.setField a lo n v).tst = d.tst := rfl
@[simp] theorem Device.setField_retire (d : Device) (a lo n v : Nat) : (d.setField a lo n v).retire = d.retire := rfl
@[simp] theorem Device.setField_kept (d : Device) (a lo n v : Nat) : (d.setField a lo n v).kept = d.kept := rfl
@[simp] theorem Device.setField_out (d : Device) (a lo n v : Nat) : (d.setField a lo n v).out = d.out := rfl
@[simp] theorem Device.setField_freeCtr (d : Device) (a lo n v : Nat) : (d.setField a lo n v).freeCtr = d.freeCtr := rfl
@[simp] theorem Device.setField_accesses (d : Device) (a lo n v : Nat) : (d.setField a lo n v).accesses = d.accesses := rfl
@[simp] theorem Device.setField_accessNext (d : Device) (a lo n v : Nat) : (d.setField a lo n v).accessNext = d.accessNext := rfl
@[simp] theorem Device.setField_blocked (d : Device) (a lo n v : Nat) : (d.setField a lo n v).blocked = d.blocked := rfl
@[simp] theorem Device.setField_wanted (d : Device) (a lo n v : Nat) : (d.setField a lo n v).wanted = d.wanted := rfl
@[simp] theorem Device.setField_cycle (d : Device) (a lo n v : Nat) : (d.setField a lo n v).cycle = d.cycle := rfl

/-! Device.noteBit changes the field cycle alone. -/

@[simp] theorem Device.noteBit_fuses (d : Device) (a i : Nat) : (d.noteBit a i).fuses = d.fuses := rfl
@[simp] theorem Device.noteBit_now (d : Device) (a i : Nat) : (d.noteBit a i).now = d.now := rfl
@[simp] theorem Device.noteBit_regs (d : Device) (a i : Nat) : (d.noteBit a i).regs = d.regs := rfl
@[simp] theorem Device.noteBit_mem (d : Device) (a i : Nat) : (d.noteBit a i).mem = d.mem := rfl
@[simp] theorem Device.noteBit_hostMem (d : Device) (a i : Nat) : (d.noteBit a i).hostMem = d.hostMem := rfl
@[simp] theorem Device.noteBit_flash (d : Device) (a i : Nat) : (d.noteBit a i).flash = d.flash := rfl
@[simp] theorem Device.noteBit_cores (d : Device) (a i : Nat) : (d.noteBit a i).cores = d.cores := rfl
@[simp] theorem Device.noteBit_sites (d : Device) (a i : Nat) : (d.noteBit a i).sites = d.sites := rfl
@[simp] theorem Device.noteBit_towers (d : Device) (a i : Nat) : (d.noteBit a i).towers = d.towers := rfl
@[simp] theorem Device.noteBit_halves (d : Device) (a i : Nat) : (d.noteBit a i).halves = d.halves := rfl
@[simp] theorem Device.noteBit_take (d : Device) (a i : Nat) : (d.noteBit a i).take = d.take := rfl
@[simp] theorem Device.noteBit_clap (d : Device) (a i : Nat) : (d.noteBit a i).clap = d.clap := rfl
@[simp] theorem Device.noteBit_cont (d : Device) (a i : Nat) : (d.noteBit a i).cont = d.cont := rfl
@[simp] theorem Device.noteBit_mods (d : Device) (a i : Nat) : (d.noteBit a i).mods = d.mods := rfl
@[simp] theorem Device.noteBit_fab (d : Device) (a i : Nat) : (d.noteBit a i).fab = d.fab := rfl
@[simp] theorem Device.noteBit_host (d : Device) (a i : Nat) : (d.noteBit a i).host = d.host := rfl
@[simp] theorem Device.noteBit_mbx (d : Device) (a i : Nat) : (d.noteBit a i).mbx = d.mbx := rfl
@[simp] theorem Device.noteBit_lpd (d : Device) (a i : Nat) : (d.noteBit a i).lpd = d.lpd := rfl
@[simp] theorem Device.noteBit_mgmt (d : Device) (a i : Nat) : (d.noteBit a i).mgmt = d.mgmt := rfl
@[simp] theorem Device.noteBit_thm (d : Device) (a i : Nat) : (d.noteBit a i).thm = d.thm := rfl
@[simp] theorem Device.noteBit_pins (d : Device) (a i : Nat) : (d.noteBit a i).pins = d.pins := rfl
@[simp] theorem Device.noteBit_start (d : Device) (a i : Nat) : (d.noteBit a i).start = d.start := rfl
@[simp] theorem Device.noteBit_sec (d : Device) (a i : Nat) : (d.noteBit a i).sec = d.sec := rfl
@[simp] theorem Device.noteBit_tst (d : Device) (a i : Nat) : (d.noteBit a i).tst = d.tst := rfl
@[simp] theorem Device.noteBit_retire (d : Device) (a i : Nat) : (d.noteBit a i).retire = d.retire := rfl
@[simp] theorem Device.noteBit_kept (d : Device) (a i : Nat) : (d.noteBit a i).kept = d.kept := rfl
@[simp] theorem Device.noteBit_out (d : Device) (a i : Nat) : (d.noteBit a i).out = d.out := rfl
@[simp] theorem Device.noteBit_freeCtr (d : Device) (a i : Nat) : (d.noteBit a i).freeCtr = d.freeCtr := rfl
@[simp] theorem Device.noteBit_accesses (d : Device) (a i : Nat) : (d.noteBit a i).accesses = d.accesses := rfl
@[simp] theorem Device.noteBit_accessNext (d : Device) (a i : Nat) : (d.noteBit a i).accessNext = d.accessNext := rfl
@[simp] theorem Device.noteBit_blocked (d : Device) (a i : Nat) : (d.noteBit a i).blocked = d.blocked := rfl
@[simp] theorem Device.noteBit_wanted (d : Device) (a i : Nat) : (d.noteBit a i).wanted = d.wanted := rfl

/-! Device.noteCount changes the field cycle alone. -/

@[simp] theorem Device.noteCount_fuses (d : Device) (a n : Nat) : (d.noteCount a n).fuses = d.fuses := rfl
@[simp] theorem Device.noteCount_now (d : Device) (a n : Nat) : (d.noteCount a n).now = d.now := rfl
@[simp] theorem Device.noteCount_regs (d : Device) (a n : Nat) : (d.noteCount a n).regs = d.regs := rfl
@[simp] theorem Device.noteCount_mem (d : Device) (a n : Nat) : (d.noteCount a n).mem = d.mem := rfl
@[simp] theorem Device.noteCount_hostMem (d : Device) (a n : Nat) : (d.noteCount a n).hostMem = d.hostMem := rfl
@[simp] theorem Device.noteCount_flash (d : Device) (a n : Nat) : (d.noteCount a n).flash = d.flash := rfl
@[simp] theorem Device.noteCount_cores (d : Device) (a n : Nat) : (d.noteCount a n).cores = d.cores := rfl
@[simp] theorem Device.noteCount_sites (d : Device) (a n : Nat) : (d.noteCount a n).sites = d.sites := rfl
@[simp] theorem Device.noteCount_towers (d : Device) (a n : Nat) : (d.noteCount a n).towers = d.towers := rfl
@[simp] theorem Device.noteCount_halves (d : Device) (a n : Nat) : (d.noteCount a n).halves = d.halves := rfl
@[simp] theorem Device.noteCount_take (d : Device) (a n : Nat) : (d.noteCount a n).take = d.take := rfl
@[simp] theorem Device.noteCount_clap (d : Device) (a n : Nat) : (d.noteCount a n).clap = d.clap := rfl
@[simp] theorem Device.noteCount_cont (d : Device) (a n : Nat) : (d.noteCount a n).cont = d.cont := rfl
@[simp] theorem Device.noteCount_mods (d : Device) (a n : Nat) : (d.noteCount a n).mods = d.mods := rfl
@[simp] theorem Device.noteCount_fab (d : Device) (a n : Nat) : (d.noteCount a n).fab = d.fab := rfl
@[simp] theorem Device.noteCount_host (d : Device) (a n : Nat) : (d.noteCount a n).host = d.host := rfl
@[simp] theorem Device.noteCount_mbx (d : Device) (a n : Nat) : (d.noteCount a n).mbx = d.mbx := rfl
@[simp] theorem Device.noteCount_lpd (d : Device) (a n : Nat) : (d.noteCount a n).lpd = d.lpd := rfl
@[simp] theorem Device.noteCount_mgmt (d : Device) (a n : Nat) : (d.noteCount a n).mgmt = d.mgmt := rfl
@[simp] theorem Device.noteCount_thm (d : Device) (a n : Nat) : (d.noteCount a n).thm = d.thm := rfl
@[simp] theorem Device.noteCount_pins (d : Device) (a n : Nat) : (d.noteCount a n).pins = d.pins := rfl
@[simp] theorem Device.noteCount_start (d : Device) (a n : Nat) : (d.noteCount a n).start = d.start := rfl
@[simp] theorem Device.noteCount_sec (d : Device) (a n : Nat) : (d.noteCount a n).sec = d.sec := rfl
@[simp] theorem Device.noteCount_tst (d : Device) (a n : Nat) : (d.noteCount a n).tst = d.tst := rfl
@[simp] theorem Device.noteCount_retire (d : Device) (a n : Nat) : (d.noteCount a n).retire = d.retire := rfl
@[simp] theorem Device.noteCount_kept (d : Device) (a n : Nat) : (d.noteCount a n).kept = d.kept := rfl
@[simp] theorem Device.noteCount_out (d : Device) (a n : Nat) : (d.noteCount a n).out = d.out := rfl
@[simp] theorem Device.noteCount_freeCtr (d : Device) (a n : Nat) : (d.noteCount a n).freeCtr = d.freeCtr := rfl
@[simp] theorem Device.noteCount_accesses (d : Device) (a n : Nat) : (d.noteCount a n).accesses = d.accesses := rfl
@[simp] theorem Device.noteCount_accessNext (d : Device) (a n : Nat) : (d.noteCount a n).accessNext = d.accessNext := rfl
@[simp] theorem Device.noteCount_blocked (d : Device) (a n : Nat) : (d.noteCount a n).blocked = d.blocked := rfl
@[simp] theorem Device.noteCount_wanted (d : Device) (a n : Nat) : (d.noteCount a n).wanted = d.wanted := rfl

/-! Device.setBit changes the fields regs and cycle alone. -/

@[simp] theorem Device.setBit_fuses (d : Device) (a i : Nat) : (d.setBit a i).fuses = d.fuses := rfl
@[simp] theorem Device.setBit_now (d : Device) (a i : Nat) : (d.setBit a i).now = d.now := rfl
@[simp] theorem Device.setBit_mem (d : Device) (a i : Nat) : (d.setBit a i).mem = d.mem := rfl
@[simp] theorem Device.setBit_hostMem (d : Device) (a i : Nat) : (d.setBit a i).hostMem = d.hostMem := rfl
@[simp] theorem Device.setBit_flash (d : Device) (a i : Nat) : (d.setBit a i).flash = d.flash := rfl
@[simp] theorem Device.setBit_cores (d : Device) (a i : Nat) : (d.setBit a i).cores = d.cores := rfl
@[simp] theorem Device.setBit_sites (d : Device) (a i : Nat) : (d.setBit a i).sites = d.sites := rfl
@[simp] theorem Device.setBit_towers (d : Device) (a i : Nat) : (d.setBit a i).towers = d.towers := rfl
@[simp] theorem Device.setBit_halves (d : Device) (a i : Nat) : (d.setBit a i).halves = d.halves := rfl
@[simp] theorem Device.setBit_take (d : Device) (a i : Nat) : (d.setBit a i).take = d.take := rfl
@[simp] theorem Device.setBit_clap (d : Device) (a i : Nat) : (d.setBit a i).clap = d.clap := rfl
@[simp] theorem Device.setBit_cont (d : Device) (a i : Nat) : (d.setBit a i).cont = d.cont := rfl
@[simp] theorem Device.setBit_mods (d : Device) (a i : Nat) : (d.setBit a i).mods = d.mods := rfl
@[simp] theorem Device.setBit_fab (d : Device) (a i : Nat) : (d.setBit a i).fab = d.fab := rfl
@[simp] theorem Device.setBit_host (d : Device) (a i : Nat) : (d.setBit a i).host = d.host := rfl
@[simp] theorem Device.setBit_mbx (d : Device) (a i : Nat) : (d.setBit a i).mbx = d.mbx := rfl
@[simp] theorem Device.setBit_lpd (d : Device) (a i : Nat) : (d.setBit a i).lpd = d.lpd := rfl
@[simp] theorem Device.setBit_mgmt (d : Device) (a i : Nat) : (d.setBit a i).mgmt = d.mgmt := rfl
@[simp] theorem Device.setBit_thm (d : Device) (a i : Nat) : (d.setBit a i).thm = d.thm := rfl
@[simp] theorem Device.setBit_pins (d : Device) (a i : Nat) : (d.setBit a i).pins = d.pins := rfl
@[simp] theorem Device.setBit_start (d : Device) (a i : Nat) : (d.setBit a i).start = d.start := rfl
@[simp] theorem Device.setBit_sec (d : Device) (a i : Nat) : (d.setBit a i).sec = d.sec := rfl
@[simp] theorem Device.setBit_tst (d : Device) (a i : Nat) : (d.setBit a i).tst = d.tst := rfl
@[simp] theorem Device.setBit_retire (d : Device) (a i : Nat) : (d.setBit a i).retire = d.retire := rfl
@[simp] theorem Device.setBit_kept (d : Device) (a i : Nat) : (d.setBit a i).kept = d.kept := rfl
@[simp] theorem Device.setBit_out (d : Device) (a i : Nat) : (d.setBit a i).out = d.out := rfl
@[simp] theorem Device.setBit_freeCtr (d : Device) (a i : Nat) : (d.setBit a i).freeCtr = d.freeCtr := rfl
@[simp] theorem Device.setBit_accesses (d : Device) (a i : Nat) : (d.setBit a i).accesses = d.accesses := rfl
@[simp] theorem Device.setBit_accessNext (d : Device) (a i : Nat) : (d.setBit a i).accessNext = d.accessNext := rfl
@[simp] theorem Device.setBit_blocked (d : Device) (a i : Nat) : (d.setBit a i).blocked = d.blocked := rfl
@[simp] theorem Device.setBit_wanted (d : Device) (a i : Nat) : (d.setBit a i).wanted = d.wanted := rfl

/-! Device.count changes the fields regs and cycle alone. -/

@[simp] theorem Device.count_fuses (d : Device) (a n : Nat) : (d.count a n).fuses = d.fuses := rfl
@[simp] theorem Device.count_now (d : Device) (a n : Nat) : (d.count a n).now = d.now := rfl
@[simp] theorem Device.count_mem (d : Device) (a n : Nat) : (d.count a n).mem = d.mem := rfl
@[simp] theorem Device.count_hostMem (d : Device) (a n : Nat) : (d.count a n).hostMem = d.hostMem := rfl
@[simp] theorem Device.count_flash (d : Device) (a n : Nat) : (d.count a n).flash = d.flash := rfl
@[simp] theorem Device.count_cores (d : Device) (a n : Nat) : (d.count a n).cores = d.cores := rfl
@[simp] theorem Device.count_sites (d : Device) (a n : Nat) : (d.count a n).sites = d.sites := rfl
@[simp] theorem Device.count_towers (d : Device) (a n : Nat) : (d.count a n).towers = d.towers := rfl
@[simp] theorem Device.count_halves (d : Device) (a n : Nat) : (d.count a n).halves = d.halves := rfl
@[simp] theorem Device.count_take (d : Device) (a n : Nat) : (d.count a n).take = d.take := rfl
@[simp] theorem Device.count_clap (d : Device) (a n : Nat) : (d.count a n).clap = d.clap := rfl
@[simp] theorem Device.count_cont (d : Device) (a n : Nat) : (d.count a n).cont = d.cont := rfl
@[simp] theorem Device.count_mods (d : Device) (a n : Nat) : (d.count a n).mods = d.mods := rfl
@[simp] theorem Device.count_fab (d : Device) (a n : Nat) : (d.count a n).fab = d.fab := rfl
@[simp] theorem Device.count_host (d : Device) (a n : Nat) : (d.count a n).host = d.host := rfl
@[simp] theorem Device.count_mbx (d : Device) (a n : Nat) : (d.count a n).mbx = d.mbx := rfl
@[simp] theorem Device.count_lpd (d : Device) (a n : Nat) : (d.count a n).lpd = d.lpd := rfl
@[simp] theorem Device.count_mgmt (d : Device) (a n : Nat) : (d.count a n).mgmt = d.mgmt := rfl
@[simp] theorem Device.count_thm (d : Device) (a n : Nat) : (d.count a n).thm = d.thm := rfl
@[simp] theorem Device.count_pins (d : Device) (a n : Nat) : (d.count a n).pins = d.pins := rfl
@[simp] theorem Device.count_start (d : Device) (a n : Nat) : (d.count a n).start = d.start := rfl
@[simp] theorem Device.count_sec (d : Device) (a n : Nat) : (d.count a n).sec = d.sec := rfl
@[simp] theorem Device.count_tst (d : Device) (a n : Nat) : (d.count a n).tst = d.tst := rfl
@[simp] theorem Device.count_retire (d : Device) (a n : Nat) : (d.count a n).retire = d.retire := rfl
@[simp] theorem Device.count_kept (d : Device) (a n : Nat) : (d.count a n).kept = d.kept := rfl
@[simp] theorem Device.count_out (d : Device) (a n : Nat) : (d.count a n).out = d.out := rfl
@[simp] theorem Device.count_freeCtr (d : Device) (a n : Nat) : (d.count a n).freeCtr = d.freeCtr := rfl
@[simp] theorem Device.count_accesses (d : Device) (a n : Nat) : (d.count a n).accesses = d.accesses := rfl
@[simp] theorem Device.count_accessNext (d : Device) (a n : Nat) : (d.count a n).accessNext = d.accessNext := rfl
@[simp] theorem Device.count_blocked (d : Device) (a n : Nat) : (d.count a n).blocked = d.blocked := rfl
@[simp] theorem Device.count_wanted (d : Device) (a n : Nat) : (d.count a n).wanted = d.wanted := rfl

/-! Device.setCore changes the field cores alone. -/

@[simp] theorem Device.setCore_fuses (d : Device) (k : Nat) (c : Core) : (d.setCore k c).fuses = d.fuses := rfl
@[simp] theorem Device.setCore_now (d : Device) (k : Nat) (c : Core) : (d.setCore k c).now = d.now := rfl
@[simp] theorem Device.setCore_regs (d : Device) (k : Nat) (c : Core) : (d.setCore k c).regs = d.regs := rfl
@[simp] theorem Device.setCore_mem (d : Device) (k : Nat) (c : Core) : (d.setCore k c).mem = d.mem := rfl
@[simp] theorem Device.setCore_hostMem (d : Device) (k : Nat) (c : Core) : (d.setCore k c).hostMem = d.hostMem := rfl
@[simp] theorem Device.setCore_flash (d : Device) (k : Nat) (c : Core) : (d.setCore k c).flash = d.flash := rfl
@[simp] theorem Device.setCore_sites (d : Device) (k : Nat) (c : Core) : (d.setCore k c).sites = d.sites := rfl
@[simp] theorem Device.setCore_towers (d : Device) (k : Nat) (c : Core) : (d.setCore k c).towers = d.towers := rfl
@[simp] theorem Device.setCore_halves (d : Device) (k : Nat) (c : Core) : (d.setCore k c).halves = d.halves := rfl
@[simp] theorem Device.setCore_take (d : Device) (k : Nat) (c : Core) : (d.setCore k c).take = d.take := rfl
@[simp] theorem Device.setCore_clap (d : Device) (k : Nat) (c : Core) : (d.setCore k c).clap = d.clap := rfl
@[simp] theorem Device.setCore_cont (d : Device) (k : Nat) (c : Core) : (d.setCore k c).cont = d.cont := rfl
@[simp] theorem Device.setCore_mods (d : Device) (k : Nat) (c : Core) : (d.setCore k c).mods = d.mods := rfl
@[simp] theorem Device.setCore_fab (d : Device) (k : Nat) (c : Core) : (d.setCore k c).fab = d.fab := rfl
@[simp] theorem Device.setCore_host (d : Device) (k : Nat) (c : Core) : (d.setCore k c).host = d.host := rfl
@[simp] theorem Device.setCore_mbx (d : Device) (k : Nat) (c : Core) : (d.setCore k c).mbx = d.mbx := rfl
@[simp] theorem Device.setCore_lpd (d : Device) (k : Nat) (c : Core) : (d.setCore k c).lpd = d.lpd := rfl
@[simp] theorem Device.setCore_mgmt (d : Device) (k : Nat) (c : Core) : (d.setCore k c).mgmt = d.mgmt := rfl
@[simp] theorem Device.setCore_thm (d : Device) (k : Nat) (c : Core) : (d.setCore k c).thm = d.thm := rfl
@[simp] theorem Device.setCore_pins (d : Device) (k : Nat) (c : Core) : (d.setCore k c).pins = d.pins := rfl
@[simp] theorem Device.setCore_start (d : Device) (k : Nat) (c : Core) : (d.setCore k c).start = d.start := rfl
@[simp] theorem Device.setCore_sec (d : Device) (k : Nat) (c : Core) : (d.setCore k c).sec = d.sec := rfl
@[simp] theorem Device.setCore_tst (d : Device) (k : Nat) (c : Core) : (d.setCore k c).tst = d.tst := rfl
@[simp] theorem Device.setCore_retire (d : Device) (k : Nat) (c : Core) : (d.setCore k c).retire = d.retire := rfl
@[simp] theorem Device.setCore_kept (d : Device) (k : Nat) (c : Core) : (d.setCore k c).kept = d.kept := rfl
@[simp] theorem Device.setCore_out (d : Device) (k : Nat) (c : Core) : (d.setCore k c).out = d.out := rfl
@[simp] theorem Device.setCore_freeCtr (d : Device) (k : Nat) (c : Core) : (d.setCore k c).freeCtr = d.freeCtr := rfl
@[simp] theorem Device.setCore_accesses (d : Device) (k : Nat) (c : Core) : (d.setCore k c).accesses = d.accesses := rfl
@[simp] theorem Device.setCore_accessNext (d : Device) (k : Nat) (c : Core) : (d.setCore k c).accessNext = d.accessNext := rfl
@[simp] theorem Device.setCore_blocked (d : Device) (k : Nat) (c : Core) : (d.setCore k c).blocked = d.blocked := rfl
@[simp] theorem Device.setCore_wanted (d : Device) (k : Nat) (c : Core) : (d.setCore k c).wanted = d.wanted := rfl
@[simp] theorem Device.setCore_cycle (d : Device) (k : Nat) (c : Core) : (d.setCore k c).cycle = d.cycle := rfl

/-! Device.modCore changes the field cores alone. -/

@[simp] theorem Device.modCore_fuses (d : Device) (k : Nat) (f : Core → Core) : (d.modCore k f).fuses = d.fuses := rfl
@[simp] theorem Device.modCore_now (d : Device) (k : Nat) (f : Core → Core) : (d.modCore k f).now = d.now := rfl
@[simp] theorem Device.modCore_regs (d : Device) (k : Nat) (f : Core → Core) : (d.modCore k f).regs = d.regs := rfl
@[simp] theorem Device.modCore_mem (d : Device) (k : Nat) (f : Core → Core) : (d.modCore k f).mem = d.mem := rfl
@[simp] theorem Device.modCore_hostMem (d : Device) (k : Nat) (f : Core → Core) : (d.modCore k f).hostMem = d.hostMem := rfl
@[simp] theorem Device.modCore_flash (d : Device) (k : Nat) (f : Core → Core) : (d.modCore k f).flash = d.flash := rfl
@[simp] theorem Device.modCore_sites (d : Device) (k : Nat) (f : Core → Core) : (d.modCore k f).sites = d.sites := rfl
@[simp] theorem Device.modCore_towers (d : Device) (k : Nat) (f : Core → Core) : (d.modCore k f).towers = d.towers := rfl
@[simp] theorem Device.modCore_halves (d : Device) (k : Nat) (f : Core → Core) : (d.modCore k f).halves = d.halves := rfl
@[simp] theorem Device.modCore_take (d : Device) (k : Nat) (f : Core → Core) : (d.modCore k f).take = d.take := rfl
@[simp] theorem Device.modCore_clap (d : Device) (k : Nat) (f : Core → Core) : (d.modCore k f).clap = d.clap := rfl
@[simp] theorem Device.modCore_cont (d : Device) (k : Nat) (f : Core → Core) : (d.modCore k f).cont = d.cont := rfl
@[simp] theorem Device.modCore_mods (d : Device) (k : Nat) (f : Core → Core) : (d.modCore k f).mods = d.mods := rfl
@[simp] theorem Device.modCore_fab (d : Device) (k : Nat) (f : Core → Core) : (d.modCore k f).fab = d.fab := rfl
@[simp] theorem Device.modCore_host (d : Device) (k : Nat) (f : Core → Core) : (d.modCore k f).host = d.host := rfl
@[simp] theorem Device.modCore_mbx (d : Device) (k : Nat) (f : Core → Core) : (d.modCore k f).mbx = d.mbx := rfl
@[simp] theorem Device.modCore_lpd (d : Device) (k : Nat) (f : Core → Core) : (d.modCore k f).lpd = d.lpd := rfl
@[simp] theorem Device.modCore_mgmt (d : Device) (k : Nat) (f : Core → Core) : (d.modCore k f).mgmt = d.mgmt := rfl
@[simp] theorem Device.modCore_thm (d : Device) (k : Nat) (f : Core → Core) : (d.modCore k f).thm = d.thm := rfl
@[simp] theorem Device.modCore_pins (d : Device) (k : Nat) (f : Core → Core) : (d.modCore k f).pins = d.pins := rfl
@[simp] theorem Device.modCore_start (d : Device) (k : Nat) (f : Core → Core) : (d.modCore k f).start = d.start := rfl
@[simp] theorem Device.modCore_sec (d : Device) (k : Nat) (f : Core → Core) : (d.modCore k f).sec = d.sec := rfl
@[simp] theorem Device.modCore_tst (d : Device) (k : Nat) (f : Core → Core) : (d.modCore k f).tst = d.tst := rfl
@[simp] theorem Device.modCore_retire (d : Device) (k : Nat) (f : Core → Core) : (d.modCore k f).retire = d.retire := rfl
@[simp] theorem Device.modCore_kept (d : Device) (k : Nat) (f : Core → Core) : (d.modCore k f).kept = d.kept := rfl
@[simp] theorem Device.modCore_out (d : Device) (k : Nat) (f : Core → Core) : (d.modCore k f).out = d.out := rfl
@[simp] theorem Device.modCore_freeCtr (d : Device) (k : Nat) (f : Core → Core) : (d.modCore k f).freeCtr = d.freeCtr := rfl
@[simp] theorem Device.modCore_accesses (d : Device) (k : Nat) (f : Core → Core) : (d.modCore k f).accesses = d.accesses := rfl
@[simp] theorem Device.modCore_accessNext (d : Device) (k : Nat) (f : Core → Core) : (d.modCore k f).accessNext = d.accessNext := rfl
@[simp] theorem Device.modCore_blocked (d : Device) (k : Nat) (f : Core → Core) : (d.modCore k f).blocked = d.blocked := rfl
@[simp] theorem Device.modCore_wanted (d : Device) (k : Nat) (f : Core → Core) : (d.modCore k f).wanted = d.wanted := rfl
@[simp] theorem Device.modCore_cycle (d : Device) (k : Nat) (f : Core → Core) : (d.modCore k f).cycle = d.cycle := rfl

/-! Device.modSite changes the field sites alone. -/

@[simp] theorem Device.modSite_fuses (d : Device) (k : Nat) (f : Site → Site) : (d.modSite k f).fuses = d.fuses := rfl
@[simp] theorem Device.modSite_now (d : Device) (k : Nat) (f : Site → Site) : (d.modSite k f).now = d.now := rfl
@[simp] theorem Device.modSite_regs (d : Device) (k : Nat) (f : Site → Site) : (d.modSite k f).regs = d.regs := rfl
@[simp] theorem Device.modSite_mem (d : Device) (k : Nat) (f : Site → Site) : (d.modSite k f).mem = d.mem := rfl
@[simp] theorem Device.modSite_hostMem (d : Device) (k : Nat) (f : Site → Site) : (d.modSite k f).hostMem = d.hostMem := rfl
@[simp] theorem Device.modSite_flash (d : Device) (k : Nat) (f : Site → Site) : (d.modSite k f).flash = d.flash := rfl
@[simp] theorem Device.modSite_cores (d : Device) (k : Nat) (f : Site → Site) : (d.modSite k f).cores = d.cores := rfl
@[simp] theorem Device.modSite_towers (d : Device) (k : Nat) (f : Site → Site) : (d.modSite k f).towers = d.towers := rfl
@[simp] theorem Device.modSite_halves (d : Device) (k : Nat) (f : Site → Site) : (d.modSite k f).halves = d.halves := rfl
@[simp] theorem Device.modSite_take (d : Device) (k : Nat) (f : Site → Site) : (d.modSite k f).take = d.take := rfl
@[simp] theorem Device.modSite_clap (d : Device) (k : Nat) (f : Site → Site) : (d.modSite k f).clap = d.clap := rfl
@[simp] theorem Device.modSite_cont (d : Device) (k : Nat) (f : Site → Site) : (d.modSite k f).cont = d.cont := rfl
@[simp] theorem Device.modSite_mods (d : Device) (k : Nat) (f : Site → Site) : (d.modSite k f).mods = d.mods := rfl
@[simp] theorem Device.modSite_fab (d : Device) (k : Nat) (f : Site → Site) : (d.modSite k f).fab = d.fab := rfl
@[simp] theorem Device.modSite_host (d : Device) (k : Nat) (f : Site → Site) : (d.modSite k f).host = d.host := rfl
@[simp] theorem Device.modSite_mbx (d : Device) (k : Nat) (f : Site → Site) : (d.modSite k f).mbx = d.mbx := rfl
@[simp] theorem Device.modSite_lpd (d : Device) (k : Nat) (f : Site → Site) : (d.modSite k f).lpd = d.lpd := rfl
@[simp] theorem Device.modSite_mgmt (d : Device) (k : Nat) (f : Site → Site) : (d.modSite k f).mgmt = d.mgmt := rfl
@[simp] theorem Device.modSite_thm (d : Device) (k : Nat) (f : Site → Site) : (d.modSite k f).thm = d.thm := rfl
@[simp] theorem Device.modSite_pins (d : Device) (k : Nat) (f : Site → Site) : (d.modSite k f).pins = d.pins := rfl
@[simp] theorem Device.modSite_start (d : Device) (k : Nat) (f : Site → Site) : (d.modSite k f).start = d.start := rfl
@[simp] theorem Device.modSite_sec (d : Device) (k : Nat) (f : Site → Site) : (d.modSite k f).sec = d.sec := rfl
@[simp] theorem Device.modSite_tst (d : Device) (k : Nat) (f : Site → Site) : (d.modSite k f).tst = d.tst := rfl
@[simp] theorem Device.modSite_retire (d : Device) (k : Nat) (f : Site → Site) : (d.modSite k f).retire = d.retire := rfl
@[simp] theorem Device.modSite_kept (d : Device) (k : Nat) (f : Site → Site) : (d.modSite k f).kept = d.kept := rfl
@[simp] theorem Device.modSite_out (d : Device) (k : Nat) (f : Site → Site) : (d.modSite k f).out = d.out := rfl
@[simp] theorem Device.modSite_freeCtr (d : Device) (k : Nat) (f : Site → Site) : (d.modSite k f).freeCtr = d.freeCtr := rfl
@[simp] theorem Device.modSite_accesses (d : Device) (k : Nat) (f : Site → Site) : (d.modSite k f).accesses = d.accesses := rfl
@[simp] theorem Device.modSite_accessNext (d : Device) (k : Nat) (f : Site → Site) : (d.modSite k f).accessNext = d.accessNext := rfl
@[simp] theorem Device.modSite_blocked (d : Device) (k : Nat) (f : Site → Site) : (d.modSite k f).blocked = d.blocked := rfl
@[simp] theorem Device.modSite_wanted (d : Device) (k : Nat) (f : Site → Site) : (d.modSite k f).wanted = d.wanted := rfl
@[simp] theorem Device.modSite_cycle (d : Device) (k : Nat) (f : Site → Site) : (d.modSite k f).cycle = d.cycle := rfl

/-! Device.modChan changes the field sites alone. -/

@[simp] theorem Device.modChan_fuses (d : Device) (k ch : Nat) (f : Channel → Channel) : (d.modChan k ch f).fuses = d.fuses := rfl
@[simp] theorem Device.modChan_now (d : Device) (k ch : Nat) (f : Channel → Channel) : (d.modChan k ch f).now = d.now := rfl
@[simp] theorem Device.modChan_regs (d : Device) (k ch : Nat) (f : Channel → Channel) : (d.modChan k ch f).regs = d.regs := rfl
@[simp] theorem Device.modChan_mem (d : Device) (k ch : Nat) (f : Channel → Channel) : (d.modChan k ch f).mem = d.mem := rfl
@[simp] theorem Device.modChan_hostMem (d : Device) (k ch : Nat) (f : Channel → Channel) : (d.modChan k ch f).hostMem = d.hostMem := rfl
@[simp] theorem Device.modChan_flash (d : Device) (k ch : Nat) (f : Channel → Channel) : (d.modChan k ch f).flash = d.flash := rfl
@[simp] theorem Device.modChan_cores (d : Device) (k ch : Nat) (f : Channel → Channel) : (d.modChan k ch f).cores = d.cores := rfl
@[simp] theorem Device.modChan_towers (d : Device) (k ch : Nat) (f : Channel → Channel) : (d.modChan k ch f).towers = d.towers := rfl
@[simp] theorem Device.modChan_halves (d : Device) (k ch : Nat) (f : Channel → Channel) : (d.modChan k ch f).halves = d.halves := rfl
@[simp] theorem Device.modChan_take (d : Device) (k ch : Nat) (f : Channel → Channel) : (d.modChan k ch f).take = d.take := rfl
@[simp] theorem Device.modChan_clap (d : Device) (k ch : Nat) (f : Channel → Channel) : (d.modChan k ch f).clap = d.clap := rfl
@[simp] theorem Device.modChan_cont (d : Device) (k ch : Nat) (f : Channel → Channel) : (d.modChan k ch f).cont = d.cont := rfl
@[simp] theorem Device.modChan_mods (d : Device) (k ch : Nat) (f : Channel → Channel) : (d.modChan k ch f).mods = d.mods := rfl
@[simp] theorem Device.modChan_fab (d : Device) (k ch : Nat) (f : Channel → Channel) : (d.modChan k ch f).fab = d.fab := rfl
@[simp] theorem Device.modChan_host (d : Device) (k ch : Nat) (f : Channel → Channel) : (d.modChan k ch f).host = d.host := rfl
@[simp] theorem Device.modChan_mbx (d : Device) (k ch : Nat) (f : Channel → Channel) : (d.modChan k ch f).mbx = d.mbx := rfl
@[simp] theorem Device.modChan_lpd (d : Device) (k ch : Nat) (f : Channel → Channel) : (d.modChan k ch f).lpd = d.lpd := rfl
@[simp] theorem Device.modChan_mgmt (d : Device) (k ch : Nat) (f : Channel → Channel) : (d.modChan k ch f).mgmt = d.mgmt := rfl
@[simp] theorem Device.modChan_thm (d : Device) (k ch : Nat) (f : Channel → Channel) : (d.modChan k ch f).thm = d.thm := rfl
@[simp] theorem Device.modChan_pins (d : Device) (k ch : Nat) (f : Channel → Channel) : (d.modChan k ch f).pins = d.pins := rfl
@[simp] theorem Device.modChan_start (d : Device) (k ch : Nat) (f : Channel → Channel) : (d.modChan k ch f).start = d.start := rfl
@[simp] theorem Device.modChan_sec (d : Device) (k ch : Nat) (f : Channel → Channel) : (d.modChan k ch f).sec = d.sec := rfl
@[simp] theorem Device.modChan_tst (d : Device) (k ch : Nat) (f : Channel → Channel) : (d.modChan k ch f).tst = d.tst := rfl
@[simp] theorem Device.modChan_retire (d : Device) (k ch : Nat) (f : Channel → Channel) : (d.modChan k ch f).retire = d.retire := rfl
@[simp] theorem Device.modChan_kept (d : Device) (k ch : Nat) (f : Channel → Channel) : (d.modChan k ch f).kept = d.kept := rfl
@[simp] theorem Device.modChan_out (d : Device) (k ch : Nat) (f : Channel → Channel) : (d.modChan k ch f).out = d.out := rfl
@[simp] theorem Device.modChan_freeCtr (d : Device) (k ch : Nat) (f : Channel → Channel) : (d.modChan k ch f).freeCtr = d.freeCtr := rfl
@[simp] theorem Device.modChan_accesses (d : Device) (k ch : Nat) (f : Channel → Channel) : (d.modChan k ch f).accesses = d.accesses := rfl
@[simp] theorem Device.modChan_accessNext (d : Device) (k ch : Nat) (f : Channel → Channel) : (d.modChan k ch f).accessNext = d.accessNext := rfl
@[simp] theorem Device.modChan_blocked (d : Device) (k ch : Nat) (f : Channel → Channel) : (d.modChan k ch f).blocked = d.blocked := rfl
@[simp] theorem Device.modChan_wanted (d : Device) (k ch : Nat) (f : Channel → Channel) : (d.modChan k ch f).wanted = d.wanted := rfl
@[simp] theorem Device.modChan_cycle (d : Device) (k ch : Nat) (f : Channel → Channel) : (d.modChan k ch f).cycle = d.cycle := rfl

/-! Device.modTower changes the field towers alone. -/

@[simp] theorem Device.modTower_fuses (d : Device) (t : Nat) (f : Tower → Tower) : (d.modTower t f).fuses = d.fuses := rfl
@[simp] theorem Device.modTower_now (d : Device) (t : Nat) (f : Tower → Tower) : (d.modTower t f).now = d.now := rfl
@[simp] theorem Device.modTower_regs (d : Device) (t : Nat) (f : Tower → Tower) : (d.modTower t f).regs = d.regs := rfl
@[simp] theorem Device.modTower_mem (d : Device) (t : Nat) (f : Tower → Tower) : (d.modTower t f).mem = d.mem := rfl
@[simp] theorem Device.modTower_hostMem (d : Device) (t : Nat) (f : Tower → Tower) : (d.modTower t f).hostMem = d.hostMem := rfl
@[simp] theorem Device.modTower_flash (d : Device) (t : Nat) (f : Tower → Tower) : (d.modTower t f).flash = d.flash := rfl
@[simp] theorem Device.modTower_cores (d : Device) (t : Nat) (f : Tower → Tower) : (d.modTower t f).cores = d.cores := rfl
@[simp] theorem Device.modTower_sites (d : Device) (t : Nat) (f : Tower → Tower) : (d.modTower t f).sites = d.sites := rfl
@[simp] theorem Device.modTower_halves (d : Device) (t : Nat) (f : Tower → Tower) : (d.modTower t f).halves = d.halves := rfl
@[simp] theorem Device.modTower_take (d : Device) (t : Nat) (f : Tower → Tower) : (d.modTower t f).take = d.take := rfl
@[simp] theorem Device.modTower_clap (d : Device) (t : Nat) (f : Tower → Tower) : (d.modTower t f).clap = d.clap := rfl
@[simp] theorem Device.modTower_cont (d : Device) (t : Nat) (f : Tower → Tower) : (d.modTower t f).cont = d.cont := rfl
@[simp] theorem Device.modTower_mods (d : Device) (t : Nat) (f : Tower → Tower) : (d.modTower t f).mods = d.mods := rfl
@[simp] theorem Device.modTower_fab (d : Device) (t : Nat) (f : Tower → Tower) : (d.modTower t f).fab = d.fab := rfl
@[simp] theorem Device.modTower_host (d : Device) (t : Nat) (f : Tower → Tower) : (d.modTower t f).host = d.host := rfl
@[simp] theorem Device.modTower_mbx (d : Device) (t : Nat) (f : Tower → Tower) : (d.modTower t f).mbx = d.mbx := rfl
@[simp] theorem Device.modTower_lpd (d : Device) (t : Nat) (f : Tower → Tower) : (d.modTower t f).lpd = d.lpd := rfl
@[simp] theorem Device.modTower_mgmt (d : Device) (t : Nat) (f : Tower → Tower) : (d.modTower t f).mgmt = d.mgmt := rfl
@[simp] theorem Device.modTower_thm (d : Device) (t : Nat) (f : Tower → Tower) : (d.modTower t f).thm = d.thm := rfl
@[simp] theorem Device.modTower_pins (d : Device) (t : Nat) (f : Tower → Tower) : (d.modTower t f).pins = d.pins := rfl
@[simp] theorem Device.modTower_start (d : Device) (t : Nat) (f : Tower → Tower) : (d.modTower t f).start = d.start := rfl
@[simp] theorem Device.modTower_sec (d : Device) (t : Nat) (f : Tower → Tower) : (d.modTower t f).sec = d.sec := rfl
@[simp] theorem Device.modTower_tst (d : Device) (t : Nat) (f : Tower → Tower) : (d.modTower t f).tst = d.tst := rfl
@[simp] theorem Device.modTower_retire (d : Device) (t : Nat) (f : Tower → Tower) : (d.modTower t f).retire = d.retire := rfl
@[simp] theorem Device.modTower_kept (d : Device) (t : Nat) (f : Tower → Tower) : (d.modTower t f).kept = d.kept := rfl
@[simp] theorem Device.modTower_out (d : Device) (t : Nat) (f : Tower → Tower) : (d.modTower t f).out = d.out := rfl
@[simp] theorem Device.modTower_freeCtr (d : Device) (t : Nat) (f : Tower → Tower) : (d.modTower t f).freeCtr = d.freeCtr := rfl
@[simp] theorem Device.modTower_accesses (d : Device) (t : Nat) (f : Tower → Tower) : (d.modTower t f).accesses = d.accesses := rfl
@[simp] theorem Device.modTower_accessNext (d : Device) (t : Nat) (f : Tower → Tower) : (d.modTower t f).accessNext = d.accessNext := rfl
@[simp] theorem Device.modTower_blocked (d : Device) (t : Nat) (f : Tower → Tower) : (d.modTower t f).blocked = d.blocked := rfl
@[simp] theorem Device.modTower_wanted (d : Device) (t : Nat) (f : Tower → Tower) : (d.modTower t f).wanted = d.wanted := rfl
@[simp] theorem Device.modTower_cycle (d : Device) (t : Nat) (f : Tower → Tower) : (d.modTower t f).cycle = d.cycle := rfl

/-! Device.modHalf changes the field halves alone. -/

@[simp] theorem Device.modHalf_fuses (d : Device) (h : Nat) (f : HalfState → HalfState) : (d.modHalf h f).fuses = d.fuses := rfl
@[simp] theorem Device.modHalf_now (d : Device) (h : Nat) (f : HalfState → HalfState) : (d.modHalf h f).now = d.now := rfl
@[simp] theorem Device.modHalf_regs (d : Device) (h : Nat) (f : HalfState → HalfState) : (d.modHalf h f).regs = d.regs := rfl
@[simp] theorem Device.modHalf_mem (d : Device) (h : Nat) (f : HalfState → HalfState) : (d.modHalf h f).mem = d.mem := rfl
@[simp] theorem Device.modHalf_hostMem (d : Device) (h : Nat) (f : HalfState → HalfState) : (d.modHalf h f).hostMem = d.hostMem := rfl
@[simp] theorem Device.modHalf_flash (d : Device) (h : Nat) (f : HalfState → HalfState) : (d.modHalf h f).flash = d.flash := rfl
@[simp] theorem Device.modHalf_cores (d : Device) (h : Nat) (f : HalfState → HalfState) : (d.modHalf h f).cores = d.cores := rfl
@[simp] theorem Device.modHalf_sites (d : Device) (h : Nat) (f : HalfState → HalfState) : (d.modHalf h f).sites = d.sites := rfl
@[simp] theorem Device.modHalf_towers (d : Device) (h : Nat) (f : HalfState → HalfState) : (d.modHalf h f).towers = d.towers := rfl
@[simp] theorem Device.modHalf_take (d : Device) (h : Nat) (f : HalfState → HalfState) : (d.modHalf h f).take = d.take := rfl
@[simp] theorem Device.modHalf_clap (d : Device) (h : Nat) (f : HalfState → HalfState) : (d.modHalf h f).clap = d.clap := rfl
@[simp] theorem Device.modHalf_cont (d : Device) (h : Nat) (f : HalfState → HalfState) : (d.modHalf h f).cont = d.cont := rfl
@[simp] theorem Device.modHalf_mods (d : Device) (h : Nat) (f : HalfState → HalfState) : (d.modHalf h f).mods = d.mods := rfl
@[simp] theorem Device.modHalf_fab (d : Device) (h : Nat) (f : HalfState → HalfState) : (d.modHalf h f).fab = d.fab := rfl
@[simp] theorem Device.modHalf_host (d : Device) (h : Nat) (f : HalfState → HalfState) : (d.modHalf h f).host = d.host := rfl
@[simp] theorem Device.modHalf_mbx (d : Device) (h : Nat) (f : HalfState → HalfState) : (d.modHalf h f).mbx = d.mbx := rfl
@[simp] theorem Device.modHalf_lpd (d : Device) (h : Nat) (f : HalfState → HalfState) : (d.modHalf h f).lpd = d.lpd := rfl
@[simp] theorem Device.modHalf_mgmt (d : Device) (h : Nat) (f : HalfState → HalfState) : (d.modHalf h f).mgmt = d.mgmt := rfl
@[simp] theorem Device.modHalf_thm (d : Device) (h : Nat) (f : HalfState → HalfState) : (d.modHalf h f).thm = d.thm := rfl
@[simp] theorem Device.modHalf_pins (d : Device) (h : Nat) (f : HalfState → HalfState) : (d.modHalf h f).pins = d.pins := rfl
@[simp] theorem Device.modHalf_start (d : Device) (h : Nat) (f : HalfState → HalfState) : (d.modHalf h f).start = d.start := rfl
@[simp] theorem Device.modHalf_sec (d : Device) (h : Nat) (f : HalfState → HalfState) : (d.modHalf h f).sec = d.sec := rfl
@[simp] theorem Device.modHalf_tst (d : Device) (h : Nat) (f : HalfState → HalfState) : (d.modHalf h f).tst = d.tst := rfl
@[simp] theorem Device.modHalf_retire (d : Device) (h : Nat) (f : HalfState → HalfState) : (d.modHalf h f).retire = d.retire := rfl
@[simp] theorem Device.modHalf_kept (d : Device) (h : Nat) (f : HalfState → HalfState) : (d.modHalf h f).kept = d.kept := rfl
@[simp] theorem Device.modHalf_out (d : Device) (h : Nat) (f : HalfState → HalfState) : (d.modHalf h f).out = d.out := rfl
@[simp] theorem Device.modHalf_freeCtr (d : Device) (h : Nat) (f : HalfState → HalfState) : (d.modHalf h f).freeCtr = d.freeCtr := rfl
@[simp] theorem Device.modHalf_accesses (d : Device) (h : Nat) (f : HalfState → HalfState) : (d.modHalf h f).accesses = d.accesses := rfl
@[simp] theorem Device.modHalf_accessNext (d : Device) (h : Nat) (f : HalfState → HalfState) : (d.modHalf h f).accessNext = d.accessNext := rfl
@[simp] theorem Device.modHalf_blocked (d : Device) (h : Nat) (f : HalfState → HalfState) : (d.modHalf h f).blocked = d.blocked := rfl
@[simp] theorem Device.modHalf_wanted (d : Device) (h : Nat) (f : HalfState → HalfState) : (d.modHalf h f).wanted = d.wanted := rfl
@[simp] theorem Device.modHalf_cycle (d : Device) (h : Nat) (f : HalfState → HalfState) : (d.modHalf h f).cycle = d.cycle := rfl

/-! Device.modPort changes the field fab alone. -/

@[simp] theorem Device.modPort_fuses (d : Device) (p : Nat) (f : Port → Port) : (d.modPort p f).fuses = d.fuses := rfl
@[simp] theorem Device.modPort_now (d : Device) (p : Nat) (f : Port → Port) : (d.modPort p f).now = d.now := rfl
@[simp] theorem Device.modPort_regs (d : Device) (p : Nat) (f : Port → Port) : (d.modPort p f).regs = d.regs := rfl
@[simp] theorem Device.modPort_mem (d : Device) (p : Nat) (f : Port → Port) : (d.modPort p f).mem = d.mem := rfl
@[simp] theorem Device.modPort_hostMem (d : Device) (p : Nat) (f : Port → Port) : (d.modPort p f).hostMem = d.hostMem := rfl
@[simp] theorem Device.modPort_flash (d : Device) (p : Nat) (f : Port → Port) : (d.modPort p f).flash = d.flash := rfl
@[simp] theorem Device.modPort_cores (d : Device) (p : Nat) (f : Port → Port) : (d.modPort p f).cores = d.cores := rfl
@[simp] theorem Device.modPort_sites (d : Device) (p : Nat) (f : Port → Port) : (d.modPort p f).sites = d.sites := rfl
@[simp] theorem Device.modPort_towers (d : Device) (p : Nat) (f : Port → Port) : (d.modPort p f).towers = d.towers := rfl
@[simp] theorem Device.modPort_halves (d : Device) (p : Nat) (f : Port → Port) : (d.modPort p f).halves = d.halves := rfl
@[simp] theorem Device.modPort_take (d : Device) (p : Nat) (f : Port → Port) : (d.modPort p f).take = d.take := rfl
@[simp] theorem Device.modPort_clap (d : Device) (p : Nat) (f : Port → Port) : (d.modPort p f).clap = d.clap := rfl
@[simp] theorem Device.modPort_cont (d : Device) (p : Nat) (f : Port → Port) : (d.modPort p f).cont = d.cont := rfl
@[simp] theorem Device.modPort_mods (d : Device) (p : Nat) (f : Port → Port) : (d.modPort p f).mods = d.mods := rfl
@[simp] theorem Device.modPort_host (d : Device) (p : Nat) (f : Port → Port) : (d.modPort p f).host = d.host := rfl
@[simp] theorem Device.modPort_mbx (d : Device) (p : Nat) (f : Port → Port) : (d.modPort p f).mbx = d.mbx := rfl
@[simp] theorem Device.modPort_lpd (d : Device) (p : Nat) (f : Port → Port) : (d.modPort p f).lpd = d.lpd := rfl
@[simp] theorem Device.modPort_mgmt (d : Device) (p : Nat) (f : Port → Port) : (d.modPort p f).mgmt = d.mgmt := rfl
@[simp] theorem Device.modPort_thm (d : Device) (p : Nat) (f : Port → Port) : (d.modPort p f).thm = d.thm := rfl
@[simp] theorem Device.modPort_pins (d : Device) (p : Nat) (f : Port → Port) : (d.modPort p f).pins = d.pins := rfl
@[simp] theorem Device.modPort_start (d : Device) (p : Nat) (f : Port → Port) : (d.modPort p f).start = d.start := rfl
@[simp] theorem Device.modPort_sec (d : Device) (p : Nat) (f : Port → Port) : (d.modPort p f).sec = d.sec := rfl
@[simp] theorem Device.modPort_tst (d : Device) (p : Nat) (f : Port → Port) : (d.modPort p f).tst = d.tst := rfl
@[simp] theorem Device.modPort_retire (d : Device) (p : Nat) (f : Port → Port) : (d.modPort p f).retire = d.retire := rfl
@[simp] theorem Device.modPort_kept (d : Device) (p : Nat) (f : Port → Port) : (d.modPort p f).kept = d.kept := rfl
@[simp] theorem Device.modPort_out (d : Device) (p : Nat) (f : Port → Port) : (d.modPort p f).out = d.out := rfl
@[simp] theorem Device.modPort_freeCtr (d : Device) (p : Nat) (f : Port → Port) : (d.modPort p f).freeCtr = d.freeCtr := rfl
@[simp] theorem Device.modPort_accesses (d : Device) (p : Nat) (f : Port → Port) : (d.modPort p f).accesses = d.accesses := rfl
@[simp] theorem Device.modPort_accessNext (d : Device) (p : Nat) (f : Port → Port) : (d.modPort p f).accessNext = d.accessNext := rfl
@[simp] theorem Device.modPort_blocked (d : Device) (p : Nat) (f : Port → Port) : (d.modPort p f).blocked = d.blocked := rfl
@[simp] theorem Device.modPort_wanted (d : Device) (p : Nat) (f : Port → Port) : (d.modPort p f).wanted = d.wanted := rfl
@[simp] theorem Device.modPort_cycle (d : Device) (p : Nat) (f : Port → Port) : (d.modPort p f).cycle = d.cycle := rfl

/-! Device.modTake changes the field take alone. -/

@[simp] theorem Device.modTake_fuses (d : Device) (f : Take → Take) : (d.modTake f).fuses = d.fuses := rfl
@[simp] theorem Device.modTake_now (d : Device) (f : Take → Take) : (d.modTake f).now = d.now := rfl
@[simp] theorem Device.modTake_regs (d : Device) (f : Take → Take) : (d.modTake f).regs = d.regs := rfl
@[simp] theorem Device.modTake_mem (d : Device) (f : Take → Take) : (d.modTake f).mem = d.mem := rfl
@[simp] theorem Device.modTake_hostMem (d : Device) (f : Take → Take) : (d.modTake f).hostMem = d.hostMem := rfl
@[simp] theorem Device.modTake_flash (d : Device) (f : Take → Take) : (d.modTake f).flash = d.flash := rfl
@[simp] theorem Device.modTake_cores (d : Device) (f : Take → Take) : (d.modTake f).cores = d.cores := rfl
@[simp] theorem Device.modTake_sites (d : Device) (f : Take → Take) : (d.modTake f).sites = d.sites := rfl
@[simp] theorem Device.modTake_towers (d : Device) (f : Take → Take) : (d.modTake f).towers = d.towers := rfl
@[simp] theorem Device.modTake_halves (d : Device) (f : Take → Take) : (d.modTake f).halves = d.halves := rfl
@[simp] theorem Device.modTake_clap (d : Device) (f : Take → Take) : (d.modTake f).clap = d.clap := rfl
@[simp] theorem Device.modTake_cont (d : Device) (f : Take → Take) : (d.modTake f).cont = d.cont := rfl
@[simp] theorem Device.modTake_mods (d : Device) (f : Take → Take) : (d.modTake f).mods = d.mods := rfl
@[simp] theorem Device.modTake_fab (d : Device) (f : Take → Take) : (d.modTake f).fab = d.fab := rfl
@[simp] theorem Device.modTake_host (d : Device) (f : Take → Take) : (d.modTake f).host = d.host := rfl
@[simp] theorem Device.modTake_mbx (d : Device) (f : Take → Take) : (d.modTake f).mbx = d.mbx := rfl
@[simp] theorem Device.modTake_lpd (d : Device) (f : Take → Take) : (d.modTake f).lpd = d.lpd := rfl
@[simp] theorem Device.modTake_mgmt (d : Device) (f : Take → Take) : (d.modTake f).mgmt = d.mgmt := rfl
@[simp] theorem Device.modTake_thm (d : Device) (f : Take → Take) : (d.modTake f).thm = d.thm := rfl
@[simp] theorem Device.modTake_pins (d : Device) (f : Take → Take) : (d.modTake f).pins = d.pins := rfl
@[simp] theorem Device.modTake_start (d : Device) (f : Take → Take) : (d.modTake f).start = d.start := rfl
@[simp] theorem Device.modTake_sec (d : Device) (f : Take → Take) : (d.modTake f).sec = d.sec := rfl
@[simp] theorem Device.modTake_tst (d : Device) (f : Take → Take) : (d.modTake f).tst = d.tst := rfl
@[simp] theorem Device.modTake_retire (d : Device) (f : Take → Take) : (d.modTake f).retire = d.retire := rfl
@[simp] theorem Device.modTake_kept (d : Device) (f : Take → Take) : (d.modTake f).kept = d.kept := rfl
@[simp] theorem Device.modTake_out (d : Device) (f : Take → Take) : (d.modTake f).out = d.out := rfl
@[simp] theorem Device.modTake_freeCtr (d : Device) (f : Take → Take) : (d.modTake f).freeCtr = d.freeCtr := rfl
@[simp] theorem Device.modTake_accesses (d : Device) (f : Take → Take) : (d.modTake f).accesses = d.accesses := rfl
@[simp] theorem Device.modTake_accessNext (d : Device) (f : Take → Take) : (d.modTake f).accessNext = d.accessNext := rfl
@[simp] theorem Device.modTake_blocked (d : Device) (f : Take → Take) : (d.modTake f).blocked = d.blocked := rfl
@[simp] theorem Device.modTake_wanted (d : Device) (f : Take → Take) : (d.modTake f).wanted = d.wanted := rfl
@[simp] theorem Device.modTake_cycle (d : Device) (f : Take → Take) : (d.modTake f).cycle = d.cycle := rfl

/-! Device.emit changes the field out alone. -/

@[simp] theorem Device.emit_fuses (d : Device) (o : Output) : (d.emit o).fuses = d.fuses := rfl
@[simp] theorem Device.emit_now (d : Device) (o : Output) : (d.emit o).now = d.now := rfl
@[simp] theorem Device.emit_regs (d : Device) (o : Output) : (d.emit o).regs = d.regs := rfl
@[simp] theorem Device.emit_mem (d : Device) (o : Output) : (d.emit o).mem = d.mem := rfl
@[simp] theorem Device.emit_hostMem (d : Device) (o : Output) : (d.emit o).hostMem = d.hostMem := rfl
@[simp] theorem Device.emit_flash (d : Device) (o : Output) : (d.emit o).flash = d.flash := rfl
@[simp] theorem Device.emit_cores (d : Device) (o : Output) : (d.emit o).cores = d.cores := rfl
@[simp] theorem Device.emit_sites (d : Device) (o : Output) : (d.emit o).sites = d.sites := rfl
@[simp] theorem Device.emit_towers (d : Device) (o : Output) : (d.emit o).towers = d.towers := rfl
@[simp] theorem Device.emit_halves (d : Device) (o : Output) : (d.emit o).halves = d.halves := rfl
@[simp] theorem Device.emit_take (d : Device) (o : Output) : (d.emit o).take = d.take := rfl
@[simp] theorem Device.emit_clap (d : Device) (o : Output) : (d.emit o).clap = d.clap := rfl
@[simp] theorem Device.emit_cont (d : Device) (o : Output) : (d.emit o).cont = d.cont := rfl
@[simp] theorem Device.emit_mods (d : Device) (o : Output) : (d.emit o).mods = d.mods := rfl
@[simp] theorem Device.emit_fab (d : Device) (o : Output) : (d.emit o).fab = d.fab := rfl
@[simp] theorem Device.emit_host (d : Device) (o : Output) : (d.emit o).host = d.host := rfl
@[simp] theorem Device.emit_mbx (d : Device) (o : Output) : (d.emit o).mbx = d.mbx := rfl
@[simp] theorem Device.emit_lpd (d : Device) (o : Output) : (d.emit o).lpd = d.lpd := rfl
@[simp] theorem Device.emit_mgmt (d : Device) (o : Output) : (d.emit o).mgmt = d.mgmt := rfl
@[simp] theorem Device.emit_thm (d : Device) (o : Output) : (d.emit o).thm = d.thm := rfl
@[simp] theorem Device.emit_pins (d : Device) (o : Output) : (d.emit o).pins = d.pins := rfl
@[simp] theorem Device.emit_start (d : Device) (o : Output) : (d.emit o).start = d.start := rfl
@[simp] theorem Device.emit_sec (d : Device) (o : Output) : (d.emit o).sec = d.sec := rfl
@[simp] theorem Device.emit_tst (d : Device) (o : Output) : (d.emit o).tst = d.tst := rfl
@[simp] theorem Device.emit_retire (d : Device) (o : Output) : (d.emit o).retire = d.retire := rfl
@[simp] theorem Device.emit_kept (d : Device) (o : Output) : (d.emit o).kept = d.kept := rfl
@[simp] theorem Device.emit_freeCtr (d : Device) (o : Output) : (d.emit o).freeCtr = d.freeCtr := rfl
@[simp] theorem Device.emit_accesses (d : Device) (o : Output) : (d.emit o).accesses = d.accesses := rfl
@[simp] theorem Device.emit_accessNext (d : Device) (o : Output) : (d.emit o).accessNext = d.accessNext := rfl
@[simp] theorem Device.emit_blocked (d : Device) (o : Output) : (d.emit o).blocked = d.blocked := rfl
@[simp] theorem Device.emit_wanted (d : Device) (o : Output) : (d.emit o).wanted = d.wanted := rfl
@[simp] theorem Device.emit_cycle (d : Device) (o : Output) : (d.emit o).cycle = d.cycle := rfl

/-! Device.setMerge changes the field halves alone. -/

@[simp] theorem Device.setMerge_fuses (d : Device) (h s : Nat) (l : List MergeEntry) : (d.setMerge h s l).fuses = d.fuses := rfl
@[simp] theorem Device.setMerge_now (d : Device) (h s : Nat) (l : List MergeEntry) : (d.setMerge h s l).now = d.now := rfl
@[simp] theorem Device.setMerge_regs (d : Device) (h s : Nat) (l : List MergeEntry) : (d.setMerge h s l).regs = d.regs := rfl
@[simp] theorem Device.setMerge_mem (d : Device) (h s : Nat) (l : List MergeEntry) : (d.setMerge h s l).mem = d.mem := rfl
@[simp] theorem Device.setMerge_hostMem (d : Device) (h s : Nat) (l : List MergeEntry) : (d.setMerge h s l).hostMem = d.hostMem := rfl
@[simp] theorem Device.setMerge_flash (d : Device) (h s : Nat) (l : List MergeEntry) : (d.setMerge h s l).flash = d.flash := rfl
@[simp] theorem Device.setMerge_cores (d : Device) (h s : Nat) (l : List MergeEntry) : (d.setMerge h s l).cores = d.cores := rfl
@[simp] theorem Device.setMerge_sites (d : Device) (h s : Nat) (l : List MergeEntry) : (d.setMerge h s l).sites = d.sites := rfl
@[simp] theorem Device.setMerge_towers (d : Device) (h s : Nat) (l : List MergeEntry) : (d.setMerge h s l).towers = d.towers := rfl
@[simp] theorem Device.setMerge_take (d : Device) (h s : Nat) (l : List MergeEntry) : (d.setMerge h s l).take = d.take := rfl
@[simp] theorem Device.setMerge_clap (d : Device) (h s : Nat) (l : List MergeEntry) : (d.setMerge h s l).clap = d.clap := rfl
@[simp] theorem Device.setMerge_cont (d : Device) (h s : Nat) (l : List MergeEntry) : (d.setMerge h s l).cont = d.cont := rfl
@[simp] theorem Device.setMerge_mods (d : Device) (h s : Nat) (l : List MergeEntry) : (d.setMerge h s l).mods = d.mods := rfl
@[simp] theorem Device.setMerge_fab (d : Device) (h s : Nat) (l : List MergeEntry) : (d.setMerge h s l).fab = d.fab := rfl
@[simp] theorem Device.setMerge_host (d : Device) (h s : Nat) (l : List MergeEntry) : (d.setMerge h s l).host = d.host := rfl
@[simp] theorem Device.setMerge_mbx (d : Device) (h s : Nat) (l : List MergeEntry) : (d.setMerge h s l).mbx = d.mbx := rfl
@[simp] theorem Device.setMerge_lpd (d : Device) (h s : Nat) (l : List MergeEntry) : (d.setMerge h s l).lpd = d.lpd := rfl
@[simp] theorem Device.setMerge_mgmt (d : Device) (h s : Nat) (l : List MergeEntry) : (d.setMerge h s l).mgmt = d.mgmt := rfl
@[simp] theorem Device.setMerge_thm (d : Device) (h s : Nat) (l : List MergeEntry) : (d.setMerge h s l).thm = d.thm := rfl
@[simp] theorem Device.setMerge_pins (d : Device) (h s : Nat) (l : List MergeEntry) : (d.setMerge h s l).pins = d.pins := rfl
@[simp] theorem Device.setMerge_start (d : Device) (h s : Nat) (l : List MergeEntry) : (d.setMerge h s l).start = d.start := rfl
@[simp] theorem Device.setMerge_sec (d : Device) (h s : Nat) (l : List MergeEntry) : (d.setMerge h s l).sec = d.sec := rfl
@[simp] theorem Device.setMerge_tst (d : Device) (h s : Nat) (l : List MergeEntry) : (d.setMerge h s l).tst = d.tst := rfl
@[simp] theorem Device.setMerge_retire (d : Device) (h s : Nat) (l : List MergeEntry) : (d.setMerge h s l).retire = d.retire := rfl
@[simp] theorem Device.setMerge_kept (d : Device) (h s : Nat) (l : List MergeEntry) : (d.setMerge h s l).kept = d.kept := rfl
@[simp] theorem Device.setMerge_out (d : Device) (h s : Nat) (l : List MergeEntry) : (d.setMerge h s l).out = d.out := rfl
@[simp] theorem Device.setMerge_freeCtr (d : Device) (h s : Nat) (l : List MergeEntry) : (d.setMerge h s l).freeCtr = d.freeCtr := rfl
@[simp] theorem Device.setMerge_accesses (d : Device) (h s : Nat) (l : List MergeEntry) : (d.setMerge h s l).accesses = d.accesses := rfl
@[simp] theorem Device.setMerge_accessNext (d : Device) (h s : Nat) (l : List MergeEntry) : (d.setMerge h s l).accessNext = d.accessNext := rfl
@[simp] theorem Device.setMerge_blocked (d : Device) (h s : Nat) (l : List MergeEntry) : (d.setMerge h s l).blocked = d.blocked := rfl
@[simp] theorem Device.setMerge_wanted (d : Device) (h s : Nat) (l : List MergeEntry) : (d.setMerge h s l).wanted = d.wanted := rfl
@[simp] theorem Device.setMerge_cycle (d : Device) (h s : Nat) (l : List MergeEntry) : (d.setMerge h s l).cycle = d.cycle := rfl

@[simp] theorem Device.idle_fuses (d : Device) : d.idle.fuses = d.fuses := rfl
@[simp] theorem Device.idle_regs (d : Device) : d.idle.regs = d.regs := rfl
@[simp] theorem Device.idle_mem (d : Device) : d.idle.mem = d.mem := rfl
@[simp] theorem Device.idle_hostMem (d : Device) : d.idle.hostMem = d.hostMem := rfl
@[simp] theorem Device.idle_flash (d : Device) : d.idle.flash = d.flash := rfl
@[simp] theorem Device.idle_cores (d : Device) : d.idle.cores = d.cores := rfl
@[simp] theorem Device.idle_sites (d : Device) : d.idle.sites = d.sites := rfl
@[simp] theorem Device.idle_towers (d : Device) : d.idle.towers = d.towers := rfl
@[simp] theorem Device.idle_halves (d : Device) : d.idle.halves = d.halves := rfl
@[simp] theorem Device.idle_take (d : Device) : d.idle.take = d.take := rfl
@[simp] theorem Device.idle_clap (d : Device) : d.idle.clap = d.clap := rfl
@[simp] theorem Device.idle_cont (d : Device) : d.idle.cont = d.cont := rfl
@[simp] theorem Device.idle_mods (d : Device) : d.idle.mods = d.mods := rfl
@[simp] theorem Device.idle_fab (d : Device) : d.idle.fab = d.fab := rfl
@[simp] theorem Device.idle_host (d : Device) : d.idle.host = d.host := rfl
@[simp] theorem Device.idle_mbx (d : Device) : d.idle.mbx = d.mbx := rfl
@[simp] theorem Device.idle_lpd (d : Device) : d.idle.lpd = d.lpd := rfl
@[simp] theorem Device.idle_mgmt (d : Device) : d.idle.mgmt = d.mgmt := rfl
@[simp] theorem Device.idle_thm (d : Device) : d.idle.thm = d.thm := rfl
@[simp] theorem Device.idle_pins (d : Device) : d.idle.pins = d.pins := rfl
@[simp] theorem Device.idle_start (d : Device) : d.idle.start = d.start := rfl
@[simp] theorem Device.idle_sec (d : Device) : d.idle.sec = d.sec := rfl
@[simp] theorem Device.idle_tst (d : Device) : d.idle.tst = d.tst := rfl
@[simp] theorem Device.idle_retire (d : Device) : d.idle.retire = d.retire := rfl
@[simp] theorem Device.idle_kept (d : Device) : d.idle.kept = d.kept := rfl
@[simp] theorem Device.idle_out (d : Device) : d.idle.out = d.out := rfl
@[simp] theorem Device.idle_freeCtr (d : Device) : d.idle.freeCtr = d.freeCtr := rfl
@[simp] theorem Device.idle_accesses (d : Device) : d.idle.accesses = d.accesses := rfl
@[simp] theorem Device.idle_accessNext (d : Device) : d.idle.accessNext = d.accessNext := rfl
@[simp] theorem Device.idle_blocked (d : Device) : d.idle.blocked = d.blocked := rfl
@[simp] theorem Device.idle_wanted (d : Device) : d.idle.wanted = d.wanted := rfl
@[simp] theorem Device.idle_now (d : Device) : d.idle.now = d.now + 1 := rfl
@[simp] theorem Device.idle_cycle (d : Device) : d.idle.cycle = Cycle.reset := rfl
@[simp] theorem Device.setBit_reg (d : Device) (a i b : Nat) : (d.setBit a i).reg b = (d.setField a i 1 1).reg b := rfl
@[simp] theorem Device.emit_out (d : Device) (o : Output) : (d.emit o).out = d.out ++ [o] := rfl
@[simp] theorem Device.modTake_take (d : Device) (f : Take → Take) : (d.modTake f).take = f d.take := rfl

end Sys2Proof.Machine
end

