-- ==== Sys2Proof/Laws/Steps.lean ====
section
/-! SUPPORT. How a statement about the whole effect of a command is reached: from its meaning's function on the device; and the cue at
the head of issue, once for every row that issues one. -/
namespace Sys2Proof.Machine

open Sys2Proof

theorem does_run {f : Device → Device} {s : State} {i : Instr} {e : Device} (h : s.dev.awake = true) (hx : exec i s = s.run f)
    (he : f s.dev = e) : Does i s e := by
  subst he; unfold Does; rw [hx, State.run_awake f s h]

theorem does_onClock {f : Device → Device} {s : State} {i : Instr} {e : Device} (h : s.dev.clocked = true) (hx : exec i s = s.onClock f)
    (he : f s.dev = e) : Does i s e := by
  subst he; unfold Does; rw [hx]; simp [State.onClock, State.always, h]

theorem does_inTower {f : Device → Device} {s : State} {i : Instr} {e : Device} (h : s.dev.towersRun = true) (hx : exec i s = s.inTower f)
    (he : f s.dev = e) : Does i s e := by
  subst he; unfold Does; rw [hx]; simp [State.inTower, State.always, h]

theorem does_always {f : Device → Device} {s : State} {i : Instr} {e : Device} (hx : exec i s = s.always f) (he : f s.dev = e) :
    Does i s e := by
  subst he; unfold Does; rw [hx]; rfl

theorem idles_run {f : Device → Device} {s : State} {i : Instr} (hx : exec i s = s.run f) (h : s.dev.awake = true)
    (he : f s.dev = s.dev) : Idles i s := does_run h hx he

/-- The bytes of a number name it again. -/
theorem leNat_leBytes (n v : Nat) (h : v < 256 ^ n) : leNat (leBytes n v) = v := by
  induction n generalizing v with
  | zero => simp at h; subst h; rfl
  | succ n ih =>
    rw [leBytes, leNat, ih (v / 256) (by rw [pow_succ] at h; omega)]
    simp only [BitVec.toNat_ofNat]
    omega

theorem length_leBytes (n v : Nat) : (leBytes n v).length = n := by
  induction n generalizing v with
  | zero => rfl
  | succ n ih => simp [leBytes, ih]

/-- A word whose syndrome is zero reads as it was stored. -/
theorem eccReceive_clean (l : List Byte) : eccReceive l 0 = { data := l, bad := false, cls := .clean, syn := 0 } := rfl

theorem noteCore_clean (d : Device) (k unit addr : Nat) (l : List Byte) :
    d.noteCore k unit addr { data := l, bad := false, cls := .clean, syn := 0 } = d := rfl

/-- Issue of an intact cue: skipped by its predicate, else performed or queued. -/
theorem issueNext_intact (sel : BitVec 128 → Bool) (k : Nat) (d : Device) (q : BitVec 128) (h : d.issues k q) (hs : sel q = true) :
    Device.issueNext sel k d =
      if predTrue (d.core k) q = true then (if cf q 4 4 = 0 then d.issueSync k q else d.issueUnit k q)
      else d.modCore k fun c => c.goto (c.pc + 1 + (if cf q 0 8 = 4 then cf q 56 12 else 0)) := by
  have hq : BitVec.ofNat 128 (leNat (leBytes 16 q.toNat)) = q := by
    rw [leNat_leBytes 16 q.toNat (by have := q.isLt; omega)]; simp
  unfold Device.issueNext
  simp only [h.1, h.2, eccReceive_clean, noteCore_clean, hq, hs]
  by_cases hp : predTrue (d.core k) q = true
  · simp [hp]
  · simp [hp]

end Sys2Proof.Machine
end

