-- ==== Sys2Proof/Tests/Slice0.lean ====
section
/-! SUPPORT. Tests: an ill-formed operand for each check of WellFormed, which the check refuses; and for each statement of
Certificates/Slice0/Obligations.lean that has hypotheses, states and operands that meet them, clause by clause, at the ends of
the clauses' ranges. -/
namespace Sys2Proof.Tests

open Sys2Proof Sys2Proof.Machine

set_option Elab.async false

/-! WellFormed refuses. -/

/-- A packet of n payload bytes. -/
def pkt (dest kind cls : Nat) (payload : List Byte) : Packet :=
  { dest := BitVec.ofNat 16 dest, src := 1, kind := BitVec.ofNat 8 kind, cls := BitVec.ofNat 8 cls, hops := 0, gen := 0, tag := 0,
    landing := 0, addr := 0, stamp := 0, payload := payload, poison := [] }

/-- A codeword's read of a DRAM line. -/
def lineRead (addr : Nat) : DramReq :=
  { write := false, addr := BitVec.ofNat 48 addr, len := 4, data := [], mask := [], poison := false, src := 0, small := false }

/-- A report of a start-up phase in which nothing failed. -/
def clean (phase : Nat) : PhaseReport :=
  { phase := phase, flashOk := true, badSlicesW := [], badSlicesE := [], baseBad := false, modules := List.replicate 28 3, latency := 16,
    bridgeLanes := [], badPhases := [], badLpd := [], darkTowers := [], badRows := [], badSpares := [], groups := [], eyes := [],
    badSensors := [],
    badPositions := [], ports := [], durations := [] }

/-- No reading. -/
def noSample : SensorSample := { towers := [], base := [], lid := [], press := none, board := none }

theorem test_wf_dram : (lineRead 0).wf = true ∧ ({ lineRead 0 with len := 0 } : DramReq).wf = false ∧
    ({ lineRead 0 with len := 5 } : DramReq).wf = false ∧ ({ lineRead 0 with small := true } : DramReq).wf = false ∧
    ({ lineRead 0 with src := 27 } : DramReq).wf = false ∧ ({ lineRead 0 with data := [(0 : Byte)] } : DramReq).wf = false ∧
    ({ lineRead 0 with write := true } : DramReq).wf = false ∧ ({ lineRead 0 with mask := [true] } : DramReq).wf = false := by decide

theorem test_wf_packet : (pkt 0 1 0 (List.replicate 4096 0)).wf = true ∧ (pkt 0 1 0 (List.replicate 4097 0)).wf = false ∧
    ({ pkt 0 1 0 (List.replicate 16 0) with poison := [0] } : Packet).wf = true ∧
    ({ pkt 0 1 0 (List.replicate 16 0) with poison := [1] } : Packet).wf = false := by decide +kernel

theorem test_wf_phase : (clean 2).wf = true ∧ (clean 7).wf = true ∧ (clean 1).wf = false ∧ (clean 8).wf = false ∧
    ({ clean 4 with modules := [] } : PhaseReport).wf = false ∧ ({ clean 4 with latency := 15 } : PhaseReport).wf = false ∧
    ({ clean 4 with latency := 96 } : PhaseReport).wf = true ∧ ({ clean 4 with latency := 97 } : PhaseReport).wf = false := by decide

/-- The device after a command; the part as it resets where the command stopped. -/
def after (i : Instr) (s : State) : Device :=
  match exec i s with
  | .next t => t.dev
  | _ => State.reset.dev

/-! States. -/

/-- The part awake, changed by f. -/
def on (f : Device → Device) : State :=
  { dev := f { State.reset.dev with pins := { State.reset.dev.pins with powered := true, inReset := false } }, pending := [] }

/-- The part unpowered and in reset, changed by f. -/
def off (f : Device → Device) : State :=
  { dev := f { State.reset.dev with pins := { State.reset.dev.pins with powered := false, inReset := true } }, pending := [] }

/-- A command that names nothing of the part, one that a part in reset cannot obey, and two whose clocks are stopped. -/
theorem witness_EveryCommandAnswersANextState : (Instr.startUpPhase (clean 1)).wf = false ∧
    (clockOf (.nop 0)).runs (off id).dev = false ∧
    (clockOf (.storeRead .west 0)).runs (on fun d => { d with thm := { d.thm with stopped := true } }).dev = false ∧
    (clockOf (.nop 0)).runs (on fun d => d.setReg (gafReg 0x18) 0x200).dev = false := by and_intros <;> decide +kernel

/-- A start-up phase that names no phase changes nothing. -/
theorem test_ill_formed_changes_nothing : after (.startUpPhase (clean 1)) (on id) = (on id).dev := by decide +kernel

/-- A frame of a take runs. -/
def rolling (d : Device) : Device := d.modTake fun t => { t with state := 2, frameRuns := true }

/-- The number that fields (place, value) spell. -/
def spell (fs : List (Nat × Nat)) : Nat := fs.foldl (fun a p => a + p.2 * 2 ^ p.1) 0

/-- A cue spelled by its fields. -/
def cue (fs : List (Nat × Nat)) : BitVec 128 := BitVec.ofNat 128 (spell fs)

/-- Core 0 changed. -/
def core0 (f : Core → Core) (d : Device) : Device := d.modCore 0 f

/-- Core 0 runs a list of one cue, in a running frame. -/
def lists (q : BitVec 128) (d : Device) : Device :=
  core0 (fun c => { c with list := [Codeword.mk q 0], cueState := 1 }) (rolling d)

/-- A queued cue. -/
def queued (q : BitVec 128) : QCue :=
  { cue := q, index := 0, home := 0, order := 0, refs := [], param := [], started := false, done := false, work := none, tilesFed := 0, sent := 0 }

/-- Core 0 with one cue in the queue of unit u. -/
def inUnit (u : Nat) (q : QCue) (d : Device) : Device := core0 (fun c => c.setQueue u [q]) d

/-- What the statements about issue ask of a cue at the head of core 0. -/
def issuesFrom (s : State) (q : BitVec 128) : Bool :=
  s.dev.towersRun && s.dev.canIssue 0 && (s.dev.core 0).list[(s.dev.core 0).pc]? == some (Codeword.mk q 0)

theorem witness_issues (s : State) (q : BitVec 128) (h : issuesFrom s q = true) : s.dev.towersRun = true ∧ s.dev.issues 0 q := by
  simp only [issuesFrom, Bool.and_eq_true, beq_iff_eq] at h
  exact ⟨h.1.1, h.1.2, h.2⟩

/-- Counter 1 of core 0 stands at v. -/
def evt1 (v : Nat) (d : Device) : Device := core0 (fun c => { c with evt := mset 0 c.evt 1 (BitVec.ofNat 32 v) }) d

/-- What the clauses about synchronisation cues share. -/
def syncHyps (s : State) (q : BitVec 128) (op : Nat) : Bool :=
  issuesFrom s q && predTrue (s.dev.core 0) q && hdrCodes q == [] && cf q 0 8 == op

/-- Tower 0 has an array at core 0. -/
def arrays (d : Device) : Device := d.modTower 0 fun t => { t with lit := true, lumap := [(0, 0)] }

theorem witness_CuesIssueAndQueue :
    (∀ v ∈ [0, 5, 6, 2 ^ 32 - 1], ∀ w ∈ [0, 5, 2 ^ 32 - 1],
      syncHyps (on fun d => evt1 v (lists (cue [(40, 1), (46, w)]) d)) (cue [(40, 1), (46, w)]) 0 = true) ∧
    (∀ n ∈ [1, 255], let q := cue [(0, 1), (46, n)]; syncHyps (on (lists q)) q 1 = true ∧ cf q 46 8 ≠ 0) ∧
    (∀ n ∈ [1, 255], let q := cue [(0, 2), (40, 0), (55, n)]; syncHyps (on fun d => arrays (lists q d)) q 2 = true ∧
      cf q 40 9 < 480 ∧ (on fun d => arrays (lists q d)).dev.hasArray (cf q 40 9) = true ∧ cf q 55 8 ≠ 0) ∧
    (∀ m ∈ [0, 127], let q := cue [(0, 3), (40, m)]; syncHyps (on (lists q)) q 3 = true) ∧
    (let q := cue [(0, 4), (56, 1)]; syncHyps (on (lists q)) q 4 = true ∧ ((on (lists q)).dev.core 0).loops.length < 4 ∧
      let s := on fun d => core0 (fun c => { c with loops := List.replicate 3 (LoopLevel.mk 0 1 2 0) }) (lists q d)
      syncHyps s q 4 = true ∧ (s.dev.core 0).loops.length < 4) ∧
    (∀ j ∈ [0, 4095, 4096, 8191], let q := cue [(0, 5), (40, j)]; syncHyps (on (lists q)) q 5 = true) ∧
    (let q := cue [(0, 6)]; syncHyps (on (lists q)) q 6 = true) ∧
    (∀ e ∈ [0, 765], let q := cue [(0, 7), (40, e)]; syncHyps (on (lists q)) q 7 = true ∧ cf q 40 10 ≠ 766 ∧ cf q 40 10 ≠ 767 ∧
      ((on (lists q)).dev.readCore 0 0 .scratch (32 * cf q 50 17) 32).bad = []) ∧
    (let q := cue [(0, 8)]; syncHyps (on (lists q)) q 8 = true) := by and_intros <;> decide +kernel

/-- A MATRIX cue that every check passes: E4M3 by E4M3, the shape of 128 by 32. -/
def aMatrix : BitVec 128 := cue [(4, 1), (43, 2), (47, 2)]

theorem witness_CuesIssueAndQueue_units :
    (∀ n ∈ [0, 15, 16], let s := on fun d => core0 (fun c => c.setQueue 1 (List.replicate n (queued aMatrix))) (lists aMatrix d)
      issuesFrom s aMatrix = true ∧ predTrue (s.dev.core 0) aMatrix = true ∧ cf aMatrix 4 4 ≠ 0 ∧ ((s.dev.core 0).queue 1).length = n ∧
      (∀ w ∈ (s.dev.core 0).refWords (cueRefs aMatrix), w.2.bad = false) ∧
      ((s.dev.noteRefs 0 aMatrix).issueChk 0 aMatrix).codes = [] ∧ ((s.dev.noteRefs 0 aMatrix).nbParam 0 aMatrix).bad = []) ∧
    (let q := cue [(4, 7)]; let s := on (lists q); let e := s.dev.noteRefs 0 q
      issuesFrom s q = true ∧ predTrue (s.dev.core 0) q = true ∧ cf q 4 4 = 7 ∧
      (∀ w ∈ (s.dev.core 0).refWords (cueRefs q), w.2.bad = false) ∧
      (e.issueChk 0 q).codes = [] ∧ (e.nbParam 0 q).bad = [] ∧ nbParamBad (cf q 40 5) (e.nbParam 0 q).bytes = false) := by
  and_intros <;> decide +kernel

theorem witness_FalsePredicateSkips : ∀ f ∈ [[(0, 4), (15, 1), (24, 1), (56, 7)], [(4, 1), (15, 1), (24, 1)]],
    issuesFrom (on (lists (cue f))) (cue f) = true ∧ predTrue ((on (lists (cue f))).dev.core 0) (cue f) = false := by decide +kernel

theorem witness_IssueChecksStopTheList : let q := cue [(4, 1), (43, 2), (47, 2), (9, 1)]; let s := on (lists q)
    issuesFrom s q = true ∧ predTrue (s.dev.core 0) q = true ∧ cf q 4 4 = 1 ∧ ((s.dev.core 0).queue 1).length < 16 ∧
    (∀ w ∈ (s.dev.core 0).refWords (cueRefs q), w.2.bad = false) ∧ 0x11 ∈ ((s.dev.noteRefs 0 q).issueChk 0 q).codes ∧
    (∀ f ∈ ((s.dev.noteRefs 0 q).issueChk 0 q).codes, 0x11 ≤ f) ∧ s.dev.formed = true ∧ s.dev.bitOf (corReg 0 0x308) 0 = false := by and_intros <;> decide +kernel

/-- A signal of core 0 to counter 3 of core 1. -/
def aSignal (mask order : Nat) : Signal := { sender := 0, home := 1, cnt := 3, inc := 1, mask := mask, order := order, crossing := false }

theorem witness_HoldsSignalsAndEndsOfCues :
    (∀ w ∈ [5, 6], let q := cue [(40, 1), (46, w)]
      let s := on fun d => evt1 5 (core0 (fun c => { c with held := some q, cueState := 2 }) (lists q d));
      s.dev.towersRun = true ∧ (s.dev.core 0).held = some q ∧ cf q 0 4 = 0 ∧
      (decide (cf q 46 32 ≤ (mget 0 (s.dev.core 0).evt (cf q 40 6)).toNat)) = (w == 5)) ∧
    (∀ l ∈ [[], [queued aMatrix]], let q := cue [(0, 3), (40, 127)]
      let s := on fun d => core0 (fun c => { c.setQueue 1 l with held := some q, cueState := 2 }) (lists q d);
      (s.dev.core 0).held = some q ∧ cf q 0 4 = 3 ∧ (s.dev.core 0).unitsDone (cf q 40 7) = (l == [])) ∧
    ((on id).dev.core 0).held = none ∧
    (let s := on fun d => d.modTake fun t => { t with signals := [aSignal 127 0, { aSignal 127 0 with home := 240 }, { aSignal 127 0 with home := 240, crossing := true }] };
      s.dev.towersRun = true ∧ s.dev.take.signals[0]? = some (aSignal 127 0) ∧ s.dev.sigReady (aSignal 127 0) = true ∧
      halfOf (towerOf (s.dev.runsOn 1)) = 0 ∧ halfOf (towerOf (s.dev.runsOn 240)) ≠ 0 ∧
      s.dev.take.signals[1]? = some { aSignal 127 0 with home := 240 } ∧
      s.dev.take.signals[2]? = some { aSignal 127 0 with home := 240, crossing := true } ∧ s.dev.take.signals[3]? = none) ∧
    (let s := on fun d => inUnit 1 (queued aMatrix) (d.modTake fun t => { t with signals := [aSignal 1 1] });
      s.dev.towersRun = true ∧ s.dev.take.signals[0]? = some (aSignal 1 1) ∧ s.dev.sigReady (aSignal 1 1) = false) ∧
    (let s := on (core0 fun c => { c with ending := true })
      let x := s.dev.core 0
      s.dev.towersRun = true ∧ x.ending = true ∧ (∀ u < 7, x.queue (u + 1) = []) ∧ (∀ g ∈ s.dev.take.signals, g.sender ≠ 0) ∧
      x.set0 = none ∧ x.set1 = none) ∧
    (let s := on (core0 fun c => { c with ending := true, set1 := some (Tile.mk 0 2 2 [] false 1 false 0 0 0 false) })
      let x := s.dev.core 0
      s.dev.towersRun = true ∧ x.ending = true ∧ (∀ u < 7, x.queue (u + 1) = []) ∧ x.set1.isSome = true) := by and_intros <;> decide +kernel

theorem witness_HoldsSignalsAndEndsOfCues_completions :
    (∀ u ∈ [ExecUnit.array, .nearBank], let q := { queued aMatrix with done := true }
      let s := on (inUnit (unitNum u) q)
      s.dev.towersRun = true ∧ (s.dev.core 0).queue (unitNum u) = [q] ∧ q.done = true ∧ readBank q = none) ∧
    (∀ b ∈ [0, 3], let q := { queued (cue [(4, 5), (88, b + 1)]) with done := true }
      let s := on (inUnit 5 q)
      s.dev.towersRun = true ∧ (s.dev.core 0).queue (unitNum .storeDma) = [q] ∧ q.done = true ∧ readBank q = some b) := by and_intros <;> decide +kernel

theorem witness_EventCountersStick : State.reset.dev.formed = true ∧ (on (evt1 (2 ^ 32 - 1))).dev.formed = true ∧ (1 : Nat) ≤ 1 ∧
    2 ^ 32 - 1 < (mget 0 ((on (evt1 (2 ^ 32 - 1))).dev.core 0).evt 1).toNat + 1 := by and_intros <;> decide +kernel

/-- A matrix tile of one row of cells. -/
def aTile (shape : Nat) : Tile := Tile.mk shape 2 2 [] true 1 false 0 0 0 true

theorem witness_ArrayRampsFeedsAndUnloads :
    (∀ p ∈ [(1, 7), (1, 8), (1, 0), (3, 1), (3, 7), (2, 8)], let s := on (core0 fun c => { c with phase := p.1, level := p.2 })
      s.dev.towersRun = true ∧ (s.dev.core 0).phase = p.1 ∧ (s.dev.core 0).level = p.2 ∧ (s.dev.core 0).arrayCue = none) ∧
    (∀ p ∈ [1, 2], ∀ n ∈ [0, 1], let q := { queued (cue [(4, 1), (43, 2), (47, 2), (58, 1)]) with started := true, tilesFed := n }
      let s := on fun d => core0 (fun c => { c with phase := p, level := 8 }) (inUnit 1 q d)
      s.dev.towersRun = true ∧ (s.dev.core 0).phase = p ∧ (s.dev.core 0).arrayCue = some q) ∧
    (∀ p ∈ [(0, 0, 0), (2, 8, 0), (2, 8, 21), (2, 8, 22), (3, 7, 18), (3, 7, 19)], let q := queued aMatrix; let m := matrixOf q.cue
      let s := on fun d => core0 (fun c => { (c.modBank 0 fun b => { b with st := 2 }).modBank 2 fun b => { b with st := 2 } with
        phase := p.1, level := p.2.1, clock := { c.clock with set0 := p.2.2 } }) (inUnit 1 q d)
      let x := s.dev.core 0
      s.dev.towersRun = true ∧ x.arrayCue = some q ∧ matrixUnitCodes x m = [] ∧ (x.bank m.abank).st = 2 ∧ (x.bank m.bbank).st = 2 ∧
      m.opens = true ∧ x.accSet m.s0 = none ∧ s.dev.attendFirst 0 q.order = false ∧
      (p.1 = 2 → (decide (s.dev.chainAt 0 q ≤ x.clock.next + 11)) = (p.2.2 != 22)) ∧
      (p.1 ≠ 2 → s.dev.rampOk 0 m = (p.2.2 != 19))) ∧
    (let q := queued (cue [(4, 1), (43, 2), (47, 1)]); let s := on (inUnit 1 q)
      s.dev.towersRun = true ∧ (s.dev.core 0).arrayCue = some q ∧ minCode (matrixUnitCodes (s.dev.core 0) (matrixOf q.cue)) = some 6) ∧
    (∀ sh ∈ [0, 6], let s := on (core0 fun c => { c with unloads := [1], set1 := some (aTile sh) })
      s.dev.towersRun = true ∧ (s.dev.core 0).unloads = [1] ∧ (s.dev.core 0).accSet 1 = some (aTile sh) ∧ (shapeDims sh).isSome = true) := by
  and_intros <;> decide +kernel

/-- The least of the shapes by its lanes: 64 by 32, of E4M3 elements. -/
def smallMatrix : BitVec 128 := cue [(4, 1), (40, 3), (43, 2), (47, 2)]

theorem witness_FeedingATileAccumulates : let d := State.reset.dev
    let m := matrixOf smallMatrix
    d.formed = true ∧ shapeDims m.shape = some (64, 32) ∧ pairDepth m.af m.bf = some 4 ∧
    (d.readLanes 0 m.abank m.af (m.k0 + m.kn) m.k0 m.kn 0 64).2.2 = [] ∧
    ((d.readLanes 0 m.abank m.af (m.k0 + m.kn) m.k0 m.kn 0 64).1.readLanes 0 m.bbank m.bf (m.k0 + m.kn) m.k0 m.kn 0 32).2.2 = [] := by
  and_intros <;> decide +kernel

/-- Two orders of the products of a step; a cell with both marks. -/
theorem witness_array_cells : [(FV.nan, FV.inf false), (.fin false 1 0, .nan)].Perm [(.fin false 1 0, .nan), (.nan, .inf false)] ∧
    (Cell.mk 0 0 true true).nan = true ∧ (Cell.mk 0 0 true true).sat = true := ⟨.swap _ _ _, rfl, rfl⟩

/-- A descriptor's copy spelled by its fields. -/
def dcopy (fs : List (Nat × Nat)) : DescCopy := { bits := BitVec.ofNat 256 (spell fs), sel := none }

/-- The 32-bit words of a record, from address 0. -/
def words (ws : List Nat) : Memory := Memory.empty.put 0 (ws.flatMap fun w => leBytes 4 w)

/-- A vector of n elements of a format in scratch memory. -/
def vec (fmt n base : Nat) : DescCopy := dcopy [(0, base), (64, fmt), (70, 1), (71, 1), (81, n), (100, 1), (116, 1), (132, 1)]

/-- The vector unit of core 0 at work on a cue: operation, its other fields, its descriptors. -/
def vecCue (op : Nat) (fs : List (Nat × Nat)) (rs : List DescCopy) : QCue :=
  { queued (cue ((0, op) :: (4, 2) :: fs)) with refs := rs }

/-- What the statement asks of a vector cue with its sources in memory. -/
def vecReady (s : State) (q : QCue) (op : Nat) : Bool :=
  let oa := opndOf (refAt q.refs 0)
  let od := opndOf (refAt q.refs (1 + if vecUsesB op then 1 else 0))
  let a := s.dev.fresh.readTensor 0 2 oa
  let b := if vecUsesB op then a.dev.readTensor 0 2 (opndOf (refAt q.refs 1)) else TensorRes.mk a.dev [] []
  let o := if op = 4 then b.dev.readTensor 0 2 od else TensorRes.mk b.dev [] []
  s.dev.towersRun && ((s.dev.core 0).queue 2).head? == some q && !q.done && cf q.cue 0 4 == op && cf q.cue 112 1 == 0 &&
    a.bad == [] && b.bad == [] && o.bad == [] && (op != 0 || widenOk oa.fmt od.fmt a.elems)

/-- What the statement asks of a vector cue that takes a tile. -/
def vecTile (s : State) (q : QCue) (op : Nat) (t : StreamTile) : Bool :=
  let od := opndOf (refAt q.refs (if vecUsesB op then 1 else 0))
  let b := if vecUsesB op then s.dev.fresh.readTensor 0 2 (opndOf (refAt q.refs 0)) else TensorRes.mk s.dev.fresh [] []
  let o := if op = 4 then b.dev.readTensor 0 2 od else TensorRes.mk b.dev [] []
  s.dev.towersRun && ((s.dev.core 0).queue 2).head? == some q && !q.done && cf q.cue 0 4 == op && cf q.cue 112 1 == 1 &&
    (s.dev.core 0).stream == [t] && vecFmt t.fmt && vecShape op (tileOpnd t) od && (op != 0 || widenOk (tileOpnd t).fmt od.fmt (tileElems t)) && b.bad == [] && o.bad == []

/-- A tile of one element. -/
def oneTile (fmt : Nat) : StreamTile := StreamTile.mk fmt 1 1 [0]

theorem witness_VectorCuesWriteTheirResults :
    (∀ op ∈ List.range 12, let q := vecCue op [] [vec 0 32 0, vec 0 32 128, vec 0 32 256]
      vecReady (on (inUnit 2 q)) q op = true) ∧
    (∀ op ∈ List.range 12, let q := vecCue op [(112, 1)] [vec 0 1 0, vec 0 1 128]
      (on (inUnit 2 q)).dev.towersRun = true ∧ cf q.cue 112 1 = 1 ∧ ((on (inUnit 2 q)).dev.core 0).stream = []) ∧
    (∀ op ∈ List.range 10, let q := vecCue op [(112, 1)] [dcopy [(71, 1), (81, 1), (100, 1), (116, 1), (132, 1)], vec 0 1 128]
      vecTile (on fun d => core0 (fun c => { c with stream := [oneTile 0] }) (inUnit 2 q d)) q op (oneTile 0) = true) ∧
    (let q := vecCue 10 [(112, 1)] [vec 10 32 0]; let t := StreamTile.mk 0 32 1 (List.replicate 32 0)
      vecTile (on fun d => core0 (fun c => { c with stream := [t] }) (inUnit 2 q d)) q 10 t = true) := by
  and_intros <;> decide +kernel

theorem witness_FunctionCuesComplete :
    (∀ op ∈ List.range 6, let q := { queued (cue [(0, op), (4, 3)]) with refs := [vec 0 32 0, vec 0 32 128] }
      let s := on (inUnit 3 q)
      s.dev.towersRun = true ∧ ((s.dev.core 0).queue 3).head? = some q ∧ q.done = false ∧ cf q.cue 0 4 = op ∧ cf q.cue 88 1 = 0 ∧
      (s.dev.fresh.readTensor 0 3 (opndOf (refAt q.refs 0))).bad = []) ∧
    (∀ fmt ∈ [0, 1], let q := { queued (cue [(4, 3), (88, 1)]) with refs := [vec 0 1 0] }
      let s := on fun d => core0 (fun c => { c with stream := [oneTile fmt] }) (inUnit 3 q d)
      s.dev.towersRun = true ∧ ((s.dev.core 0).queue 3).head? = some q ∧ cf q.cue 88 1 = 1 ∧ (s.dev.core 0).stream = [oneTile fmt] ∧
      shapeOk (tileOpnd (oneTile fmt)) (opndOf (refAt q.refs 0)) = true) := by and_intros <;> decide +kernel

/-- An attention record's descriptor: `n` 4-byte words of scratch memory at 0. -/
def recordDesc (n : Nat) : DescCopy := vec 0 n 0

/-- The queries of an ATTEND: one row of 64 FP32 elements, beyond the record. -/
def queries : DescCopy := dcopy [(0, 65536), (64, 0), (68, 1), (70, 1), (71, 1), (81, 64), (100, 1), (116, 1), (132, 1), (148, 16)]

/-- The same queries in device memory, in bank 0 of channel 0 of core 0's site. -/
def deviceQueries : DescCopy := dcopy [(0, 0), (64, 0), (68, 1), (70, 1), (81, 64), (100, 1), (116, 1), (132, 1), (148, 16)]

/-- Tower 0 is lit, and a near-bank step holds bank 0 of channel 0 of core 0's site. -/
def bankZeroHeld (d : Device) : Device :=
  (d.modTower 0 fun t => { t with lit := true }).modSite 0 fun y =>
    { y with cmds := [(NbCmd.mk 0 (queued 0) [] [] []).setBank 0 ⟨0, true, false⟩] }

/-- Core 0 with a legal attention record: one row of dimension 64, its sum at 1.0. -/
def recorded (d : Device) : Device :=
  core0 (fun c => { c with scratch := (words [1, 64, 0x3F800000]).put 0x440 (leBytes 4 0x3F800000) }) d

/-- An ATTEND that initialises its record, over nothing. -/
def attend0 (fs : List (Nat × Nat)) : QCue := { queued (cue ((4, 4) :: fs)) with refs := [queries, recordDesc 464] }

theorem witness_AttentionUnitRunsItsCues_attend :
    (∀ i ∈ [0, 1],
      let q := attend0 [(112, i)]
      let s := on fun d => recorded (inUnit 4 q d)
      let d := s.dev.fresh
      let os := opndOf (refAt q.refs 1)
      let hd := d.readCore 0 4 .scratch os.base 0x240
      let l := hd.dev.attLoad 0 q (leAt hd.bytes 0 4) (leAt hd.bytes 4 4)
      let inp := attInputs 0 q hd.bytes (leAt hd.bytes 0 4) (leAt hd.bytes 4 4) l
      let r := attBlocks q inp l (attStart (cf q.cue 112 1 == 1) 1 64 l.body)
      d.towersRun = true ∧ ((d.core 0).queue 4).head? = some q ∧ q.done = false ∧ cf q.cue 0 4 = 0 ∧ d.attHasBlock 0 q = false ∧ hd.bad = [] ∧
      recordCodes (leAt hd.bytes 0 4) (leAt hd.bytes 4 4) os (opndOf (refAt q.refs 0)) = [] ∧ l.bad = [] ∧ r.bad = [] ∧ r.err = none ∧
      (((r.dev.attFlags 0 r).attWrite q inp hd.bytes l (attTokens d 0 q l) r).attScores 0 r.masses).bad = []) ∧
    (let q := attend0 [(112, 1), (113, 1)]
      let s := on fun d => core0 (fun c => { c with
        set0 := some (Tile.mk 0 2 2 [] false 1 false 0 0 0 false)
        groups := mset KvGroup.reset c.groups 0 (KvGroup.mk 1 0 64 0 0 []) }) (inUnit 4 q d)
      s.dev.towersRun = true ∧ ((s.dev.core 0).queue 4).head? = some q ∧ s.dev.attHasBlock 0 q = true ∧ (s.dev.core 0).arrayFree q.order = false) := by
  and_intros <;> decide +kernel

/-- An ATTEND whose queries have to wait for their bank. -/
theorem witness_AttentionUnitRunsItsCues_attend_waits :
    (let q := { attend0 [(112, 1)] with refs := [deviceQueries, recordDesc 464] }
      let s := on fun d => bankZeroHeld (recorded (inUnit 4 q d))
      let d := s.dev.fresh
      let os := opndOf (refAt q.refs 1)
      let hd := d.readCore 0 4 .scratch os.base 0x240
      let l := hd.dev.attLoad 0 q (leAt hd.bytes 0 4) (leAt hd.bytes 4 4)
      let inp := attInputs 0 q hd.bytes (leAt hd.bytes 0 4) (leAt hd.bytes 4 4) l
      let r := attBlocks q inp l (attStart (cf q.cue 112 1 == 1) 1 64 l.body)
      let u := ((r.dev.attFlags 0 r).attWrite q inp hd.bytes l (attTokens d 0 q l) r).attScores 0 r.masses
      d.towersRun = true ∧ ((d.core 0).queue 4).head? = some q ∧ q.done = false ∧ cf q.cue 0 4 = 0 ∧ d.attHasBlock 0 q = false ∧ hd.bad = [] ∧
      recordCodes (leAt hd.bytes 0 4) (leAt hd.bytes 4 4) os (opndOf (refAt q.refs 0)) = [] ∧ l.bad = [] ∧ r.bad = [] ∧ r.err = none ∧
      u.bad = [] ∧ (r.dev.attFlags 0 r).blocked = true) := by decide +kernel

theorem witness_AttentionUnitRunsItsCues :
    (let q := { queued (cue [(0, 1), (4, 4)]) with refs := [recordDesc 464, queries] }
      let s := on fun d => recorded (inUnit 4 q d)
      let d := s.dev.fresh
      let os := opndOf (refAt q.refs 0)
      let hd := d.readCore 0 4 .scratch os.base 0x10
      d.towersRun = true ∧ ((d.core 0).queue 4).head? = some q ∧ q.done = false ∧ cf q.cue 0 4 = 1 ∧ hd.bad = [] ∧
      recordCodes (leAt hd.bytes 0 4) (leAt hd.bytes 4 4) os (opndOf (refAt q.refs 1)) = [] ∧
      (hd.dev.readCore 0 4 .scratch (os.base + 0x440) (0x200 + 4 * 64)).bad = []) ∧
    (let q := { queued (cue [(0, 2), (4, 4)]) with refs := [queries, queries] }
      let s := on fun d => core0 (fun c => { c with pool := some (dcopy [(81, 33000), (100, 2), (116, 1), (132, 1)]).bits }) (inUnit 4 q d)
      let d := s.dev.fresh
      let ok := opndOf (refAt q.refs 0)
      let room := d.roomFor 0 (if d.kvGroups 0 ≤ 0 then 0 else (((d.core 0).group 0).fill + ok.count / max 1 ok.ext0) / 128)
      let rk := room.1.dev.readTensor 0 4 ok
      let rv := rk.dev.readTensor 0 4 ok
      let input := (((chunksOf (max 1 ok.ext0) (rk.elems.map (Elem.val ok.fmt))).zip
        (chunksOf (max 1 ok.ext0) (rv.elems.map (Elem.val ok.fmt)))).zip (ok.rows.map fun x => x.2)).map fun p => (p.1.1, p.1.2, p.2)
      d.towersRun = true ∧ ((d.core 0).queue 4).head? = some q ∧ cf q.cue 0 4 = 2 ∧ d.appendCodes 0 q = [] ∧ room.1.bad = [] ∧ room.2 = true ∧
      rk.bad = [] ∧ rv.bad = [] ∧
      (Device.placeRows 0 0 0 ok.ext0 q.home (d.rnd q.home false 0) input (AppendRes.mk rv.dev false false [])).bad = []) ∧
    (let q := queued (cue [(0, 3), (4, 4), (40, 65535)]); let s := on (inUnit 4 q)
      s.dev.towersRun = true ∧ ((s.dev.core 0).queue 4).head? = some q ∧ cf q.cue 0 4 = 3 ∧ (s.dev.fresh.evictPages 0 65535 false).bad = []) := by
  and_intros <;> decide +kernel

theorem witness_PrefixCuesAnswer : ∀ p ∈ [(4, 0), (4, 1), (4, 2), (5, 0), (5, 1), (5, 3)],
    let q := { queued (cue [(0, p.1), (4, 4)]) with refs := [vec 0 144 0, vec 0 16 1024] }
    let s := on fun d => core0 (fun c => { c with scratch := words [p.2] }) (inUnit 4 q d)
    let r := s.dev.fresh.readSpace 0 4 1 0 576
    let x := r.dev.pfxDo 0 0 (pfxAct p.1 p.2) (prefixKey r.bytes) r.bytes
    s.dev.towersRun = true ∧ ((s.dev.core 0).queue 4).head? = some q ∧ q.done = false ∧ cf q.cue 0 4 = p.1 ∧
    (opndOf (refAt q.refs 0)).space = 1 ∧ pfxAct p.1 (leAt r.bytes 0 4) = pfxAct p.1 p.2 ∧ r.bad = [] ∧ x.bad = none := by decide +kernel

/-- A request record that names page frame 0 at generation 1, RELEASE's action in front. -/
def releaseReq : List Byte := leBytes 4 2 ++ List.replicate 28 0 ++ leBytes 4 (2 ^ 24)

theorem witness_PrefixCuesAnswer_release :
    let q := { queued (cue [(0, 5), (4, 4)]) with refs := [vec 0 144 0, vec 0 16 1024] }
    let s := on fun d => core0 (fun c => { c with scratch := Memory.empty.put 0 releaseReq }) (inUnit 4 q d)
    let r := s.dev.fresh.readSpace 0 4 1 0 576
    s.dev.towersRun = true ∧ ((s.dev.core 0).queue 4).head? = some q ∧ cf q.cue 0 4 = 5 ∧ pfxAct 5 (leAt r.bytes 0 4) = some .release ∧ r.bad = [] ∧
    (r.dev.pfxDo 0 0 (some .release) (List.replicate 16 0) r.bytes).bad = none := by and_intros <;> decide +kernel

/-- Core 0's pool of one page frame at address 0, whose header says valid, page 0, generation 1 and the count n, in a lit tower. -/
def paged (n : Nat) (d : Device) : Device :=
  let e := core0 (fun c => { c with pool := some (dcopy [(81, 33000), (100, 1), (116, 1), (132, 1)]).bits }) d
  { e.modTower 0 fun t => { t with lit := true } with mem := e.mem.put 0 (leBytes 16 (spell [(24, 1), (40, 1), (96, n)])) }

/-- Half 0 presents its store. -/
def ready (d : Device) : Device := d.setReg (stoReg 0 0) 1

/-- The base of half 0's store. -/
def storeBase : Nat := 0x040000000000

/-- The prefix table of half 0 on, with its control word, at the start of the half's store, with the given bytes in bucket 0. -/
def tableOn (ctl : Nat) (bucket : List Byte) (d : Device) : Device :=
  let e := ((ready d).setReg (stoReg 0 0x40000) (BitVec.ofNat 64 ctl)).setReg (stoReg 0 0x40008) (BitVec.ofNat 64 storeBase)
  { e with mem := e.mem.put storeBase bucket }

/-- An entry of the key of 16 zero bytes that names page 0 at generation 1. -/
def keyEntry (core tok : Nat) : List Byte := List.replicate 16 0 ++ leBytes 4 (2 ^ 24) ++ leBytes 2 core ++ leBytes 2 1 ++ leBytes 8 tok

/-- The key of 16 zero bytes. -/
def zeroKey : List Byte := List.replicate 16 0

/-- The bucket of the key as the prefix engine reads it. -/
def bucketOf (d : Device) : ReadRes := (d.pfxRead 0 (d.bucketAddr 0 zeroKey) 128).1

theorem witness_PrefixStatusesFollowTheTable :
    State.reset.dev.bitOf (stoReg (halfOf (towerOf 0)) 0x40000) 0 = false ∧
    (∀ n ∈ [0, 1, 65535], let d := tableOn 1 [] (paged n State.reset.dev)
      let p := d.resolvePage 0 (leAt releaseReq 0x20 4)
      d.bitOf (stoReg (halfOf (towerOf 0)) 0x40000) 0 = true ∧ p.bad = [] ∧ p.stale = false ∧ p.hdr.f 0xC 2 = n) ∧
    (let p := (tableOn 1 [] State.reset.dev).resolvePage 0 (leAt releaseReq 0x20 4); p.bad = [] ∧ p.stale = true) ∧
    (let b := bucketOf (tableOn 1 [] State.reset.dev); b.bad = [] ∧ pfxFind b.bytes zeroKey = none) ∧
    (∀ c ∈ [0, 1], let b := bucketOf (tableOn 1 (keyEntry c 0) State.reset.dev)
      b.bad = [] ∧ pfxFind b.bytes zeroKey = some (PfxEntry.mk 0 (2 ^ 24) c 0)) := by and_intros <;> decide +kernel

theorem witness_PrefixStatusesFollowTheTable_tokens :
    ∀ tok ∈ [0, storeBase + 0x1000], let b := bucketOf (tableOn 3 (keyEntry 1 tok) State.reset.dev)
      b.bad = [] ∧ pfxFind b.bytes zeroKey = some (PfxEntry.mk 0 (2 ^ 24) 1 tok) ∧
      (tok ≠ 0 → let t := b.dev.pfxRead 0 tok 512
        t.2 = true ∧ t.1.bad = [] ∧ t.1.bytes = sliceBytes (List.replicate 576 0) 0x40 512 ∧
        t.1.bytes ≠ sliceBytes (List.replicate 64 0 ++ List.replicate 512 1) 0x40 512) := by decide +kernel

/-- ACQUIRE of an own entry meets a stale page, and one at each end of its count; REMOVE of it meets an intact page. -/
theorem witness_PrefixStatusesFollowTheTable_own :
    (let b := bucketOf (tableOn 1 (keyEntry 0 0) State.reset.dev);
      (b.dev.resolvePage 0 (2 ^ 24)).bad = [] ∧ (b.dev.resolvePage 0 (2 ^ 24)).stale = true) ∧
    (∀ n ∈ [0, 65534, 65535], let b := bucketOf (tableOn 1 (keyEntry 0 0) (paged n State.reset.dev)); let r := b.dev.resolvePage 0 (2 ^ 24)
      r.bad = [] ∧ r.stale = false ∧ r.hdr.f 0xC 2 = n) ∧
    (let b := bucketOf (tableOn 1 (keyEntry 0 0) (paged 1 State.reset.dev));
      ((b.dev.pfxWrite 0 (storeBase + 0x16) (leBytes 2 (withField (leAt b.bytes 0x16 2) 0 1 0))).resolvePage 0 (2 ^ 24)).bad = []) := by
  and_intros <;> decide +kernel

/-- INSERT of another key finds the bucket full, or a free way after n full ones. -/
theorem witness_PrefixStatusesFollowTheTable_ways : ∀ n ∈ [0, 3, 4],
    let other := (1 : Byte) :: List.replicate 15 0
    let d := tableOn 1 ((List.replicate n ((2 : Byte) :: (keyEntry 1 0).drop 1)).flatMap id) (paged 1 State.reset.dev)
    let p := d.resolvePage 0 (leAt releaseReq 0x20 4)
    let x := p.dev.pfxRead 0 storeBase 128
    p.bad = [] ∧ p.stale = false ∧ x.1.bad = [] ∧ x.2 = true ∧ pfxFind x.1.bytes other = none ∧
    (n < 4 → pfxValid x.1.bytes n = false) ∧ (∀ v < n, pfxValid x.1.bytes v = true) := by decide +kernel

/-- A DMA cue of unit u: operation, fields, descriptors. -/
def dmaCue (op u : Nat) (fs : List (Nat × Nat)) (rs : List DescCopy) : QCue := { queued (cue ((0, op) :: (4, u) :: fs)) with refs := rs }

/-- Elements of device memory at a base. -/
def devVec (fmt n base : Nat) : DescCopy := dcopy [(0, base), (64, fmt), (70, 1), (81, n), (100, 1), (116, 1), (132, 1)]

/-- The unit's cue is at the head of its queue, unfinished. -/
def atHead (s : State) (u : Nat) (q : QCue) : Bool := s.dev.towersRun && ((s.dev.core 0).queue u).head? == some q && !q.done

/-- A piece of one line. -/
def onePiece : Piece := { src := 0, dst := 0, len := 64, scale := false, esz := 0, step := 0 }

/-- Core 0 as the one member of group 0 of half 0. -/
def member0 (d : Device) : Device := (arraysAt d).setReg (stoReg 0 0x10000) 1
where arraysAt (d : Device) : Device := d.modTower 0 fun t => { t with lit := true, lumap := [(0, 0)] }

theorem witness_DmaCuesTakeDestinationsAndGoOn :
    (∀ u ∈ [5, 6], ∀ st ∈ [true, false], ∀ op ∈ [0, 1], let q := { dmaCue op u [] [devVec 0 16 0, vec 0 16 0] with started := st }
      let s := on (inUnit u q)
      let w := s.dev.readWork 0 q
      atHead s u q = true ∧ cf q.cue 0 4 = op ∧ q.started = st ∧ loadCodes q.cue (opndOf (refAt q.refs 0)) = [] ∧ w.members = [] ∧
      ((s.dev.core 0).admission w.toPlace (0, u, q.order) false).isSome = true) ∧
    (∀ b ∈ [1, 4], let q := dmaCue 0 5 [(88, b)] [devVec 0 16 0]
      let s := on fun d => core0 (fun c => c.modBank (b - 1) fun k => { k with st := 3 }) (inUnit 5 q d)
      let w := s.dev.readWork 0 q
      atHead s 5 q = true ∧ loadCodes q.cue (opndOf (refAt q.refs 0)) = [] ∧ w.members = [] ∧
      (s.dev.core 0).admission w.toPlace (0, 5, q.order) (cf q.cue 105 1 == 1) = none) ∧
    (let q := dmaCue 0 5 [(88, 1), (107, 1)] [devVec 0 16 0]
      let s := on fun d => member0 (inUnit 5 q d)
      atHead s 5 q = true ∧ q.started = false ∧ loadCodes q.cue (opndOf (refAt q.refs 0)) = [] ∧ (s.dev.readWork 0 q).members = [0]) ∧
    (∀ st ∈ [true, false], let q := { dmaCue 2 6 [] [dcopy [(64, 0), (68, 1), (70, 1), (81, 16), (100, 4), (116, 1), (132, 1), (148, 4)],
        vec 14 4 0, dcopy [(0, 1024), (64, 0), (68, 1), (70, 1), (71, 1), (81, 16), (100, 4), (116, 1), (132, 1), (148, 4)]] with started := st }
      let s := on fun d => core0 (fun c => { c with scratch := words [0, 3, 1, 2] }) (inUnit 6 q d)
      let r := s.dev.readTensor 0 6 (opndOf (refAt q.refs 1))
      atHead s 6 q = true ∧ cf q.cue 0 4 = 2 ∧ q.started = st ∧ r.bad = [] ∧ tableRows (opndOf (refAt q.refs 0)) = 4 ∧
      ∀ e ∈ r.elems, 0 ≤ signedOf 32 e.code ∧ signedOf 32 e.code < (tableRows (opndOf (refAt q.refs 0)) : Int)) ∧
    (∀ rest ∈ [[], [onePiece]], ∀ acc ∈ [[], [0]],
      let w := DmaWork.mk .device (.bank 0) [] [] 0 [0]
      let q := { dmaCue 0 5 [(88, 1), (107, 1)] [devVec 0 16 0] with started := true, work := some w }
      let x : Mcast := { core := 0, accepted := acc, missed := [(0, onePiece :: rest)], catching := [], ended := true }
      let s := on fun d => (member0 (inUnit 5 q d)).modHalf 0 fun h => { h with mcasts := [x] }
      s.dev.clocked = true ∧
      (s.dev.half 0).mcasts.find? (fun z => !(mget [] z.missed 0).isEmpty && !z.catching.contains 0 && !s.dev.dmaStopped z.core) = some x ∧
      mget [] x.missed 0 = onePiece :: rest ∧ (s.dev.core 0).headWork 5 = some w ∧ ((s.dev.core 0).queue 5).head? = some q ∧
      (x.accepted.contains 0 || ((s.dev.core 0).admission w.toPlace (0, 5, q.order) (cf q.cue 105 1 == 1)).isSome) = true ∧
      (s.dev.coreTxn 0 (readTag onePiece.src onePiece.len (.catchup 0 0 onePiece))).isSome = true) ∧
    (∀ full ∈ [true, false],
      let w := DmaWork.mk .device (.bank 0) [] [] 0 [0]
      let q := { dmaCue 0 5 [(88, 1), (107, 1)] [devVec 0 16 0] with started := true, work := some w }
      let x : Mcast := { core := 0, accepted := [], missed := [(0, [onePiece])], catching := [], ended := true }
      let s := on fun d => core0 (fun c => if full then c else c.modBank 0 fun k => { k with st := 3 }) ((member0 (inUnit 5 q d)).modHalf 0 fun h =>
        { h with mcasts := [x], tags := (List.range (if full then 96 else 0)).map fun i => (i, { Tag.reset with st := .requested }) })
      (s.dev.half 0).mcasts.find? (fun z => !(mget [] z.missed 0).isEmpty && !z.catching.contains 0 && !s.dev.dmaStopped z.core) = some x ∧
      (s.dev.core 0).headWork 5 = some w ∧ ((s.dev.core 0).queue 5).head? = some q ∧
      ((s.dev.core 0).admission w.toPlace (0, 5, q.order) (cf q.cue 105 1 == 1)).isSome = full ∧
      (full = true → (s.dev.coreTxn 0 (readTag onePiece.src onePiece.len (.catchup 0 0 onePiece))).isNone = true)) ∧
    (on id).dev.halves = [] := by
  and_intros <;> decide +kernel

/-- Half 0 with tag 5 as given. -/
def tag5 (t : Tag) (d : Device) : Device := d.setTag 0 5 t

/-- A request at a store line. -/
def asked (write : Bool) : Tag := { Tag.reset with
  gen := 7, st := .requested, write := write, addr := 0x040000000000, bytes := List.replicate 64 1, seq := 1 }

/-- The request enters the network; the answer enters it. -/
def enters (t : Tag) (d : Device) : Device := (tag5 t (ready d)).enter 0 5

/-- A tag that has been served. -/
def answered (t : Tag) (d : Device) : Device := (tag5 t d).served 0 5 t

theorem witness_StoreServesTagsAndMergeBuffers :
    (∀ w ∈ [true, false], let s := on (enters (asked w));
      s.dev.clocked = true ∧ (s.dev.tag 0 5).st = .requested ∧ (s.dev.tag 0 5).write = w ∧ s.dev.legal (s.dev.tag 0 5).addr = true ∧
      (s.dev.requestOut 0 5).isSome = true ∧ ((on (tag5 (asked w))).dev.requestOut 0 5).isNone = true) ∧
    (∀ w ∈ [true, false], let s := on (answered (asked w));
      s.dev.clocked = true ∧ (s.dev.tag 0 5).gen = 7 ∧ (6 : BitVec 4) ≠ 7 ∧ (s.dev.tag 0 5).st = .served ∧ (s.dev.tag 0 5).owner = .none ∧
      (s.dev.tag 0 5).write = w ∧ (s.dev.responseOut 0 5).isSome = true ∧ (5#15).toNat < 23040 ∧ 23040 ≤ (23040#15).toNat ∧
      ((on (tag5 { asked w with st := .served })).dev.responseOut 0 5).isNone = true) ∧
    (let s := on (answered { asked false with owner := .mcast 0 onePiece }); (s.dev.tag 0 5).shared = true ∧ (s.dev.responseOut 0 5).isSome = true) ∧
    (on fun d => tag5 { asked true with addr := 0x0C0000000000 } d).dev.legal 0x0C0000000000 = false ∧
    (let s := on (answered { asked false with owner := .bridge 27 1 9 });
      s.dev.clocked = true ∧ (s.dev.tag 0 5).gen = 7 ∧ (s.dev.tag 0 5).st = .served ∧ (s.dev.tag 0 5).owner = .bridge 27 1 9 ∧
      (s.dev.responseOut 0 5).isSome = true) ∧
    (∀ st ∈ [TagState.requested, .served, .bridging], ∀ o ∈ [TxnOwner.none, .bridge 0 0 0],
      let s := on (tag5 { asked true with st := st, owner := o })
      s.dev.clocked = true ∧ (s.dev.tag 0 5).st = st ∧ (s.dev.tag 0 5).bane = false ∧ (s.dev.tag 0 5).owner = o) ∧
    (let s := on (tag5 { Tag.reset with st := .timedOut }); (s.dev.tag 0 5).st = .timedOut ∧ (s.dev.tag 0 4).st = .free) ∧
    (∀ l ∈ [[], [MergeEntry.mk 4 (Codeword.mk 0 0) 1 false]], let s := on fun d => d.setMerge 0 255 l;
      s.dev.clocked = true ∧ s.dev.mergeBuf 0 255 = l) := by and_intros <;> decide +kernel

theorem witness_StoreServesTagsAndMergeBuffers_poison :
    let s := on (tag5 { asked true with bane := true })
    let t := s.dev.tag 0 5
    let noted := ((s.dev.count (stoReg 0 0x28) 1).setBit (stoReg 0 8) 4).log 20 0x06 11 (t.addr / 64 * 64) 0 (5 + 2 ^ 16)
    t.bane = true ∧ t.write = true ∧
    ((((noted.leave 0 5).setTag 0 5 { Tag.reset with gen := t.gen, st := .timedOut, owner := t.bridgeOwner }).timedOut 0 5 t).tag 0 5).st = .timedOut := by
  and_intros <;> decide +kernel

/-- Tower 0 lit, its scrubber and half 0's enabled, capacity channel 0 populated. -/
def scrubs (d : Device) : Device :=
  (((d.modTower 0 fun t => { t with lit := true }).setReg (twrReg 0 0x301220) 1).setReg (stoReg 0 0x40) 1).setReg (lpdReg 0x100) 2

theorem witness_ScrubbersReadLineByLine : (on scrubs).dev.clocked = true ∧ (on scrubs).dev.bitOf (twrReg (towerOf 0) 0x301220) 0 = true ∧
    (on scrubs).dev.chanUp 0 0 = true ∧ (match (on scrubs).dev.grant 0 0 with | .none => true | _ => false) = true ∧
    (on scrubs).dev.bankHeld 0 0 (dramPlace ((on scrubs).dev.nextScrub 0 0)).bank = false ∧
    (on scrubs).dev.bitOf (stoReg 0 0x40) 0 = true ∧ ((on scrubs).dev.half 0).lost = false ∧
    (on scrubs).dev.sliceQuiet 0 0 = true ∧ (on scrubs).dev.sliceQuiet 0 255 = true ∧ (on scrubs).dev.fieldOf (lpdReg 0x100) 0 2 = 2 ∧
    (on fun d => d.setReg (twrReg 0 0x301220) 0).dev.bitOf (twrReg (towerOf 0) 0x301220) 0 = false ∧
    (on fun d => d.setReg (stoReg 0 0x40) 0).dev.bitOf (stoReg 0 0x40) 0 = false := by
  and_intros <;> decide +kernel

/-- A memory whose codeword 0 has a check difference. -/
def flawed (x : BitVec 16) : Device := { State.reset.dev with mem := Memory.empty.setSyn 0 x }

theorem witness_ScrubbingCorrectsACodeword :
    ((flawed 1).formed = true ∧ (match ((flawed 1).mem.cw 0).cls with | .corrected _ => true | _ => false) = true) ∧
    ((flawed 3).formed = true ∧ ((flawed 3).mem.cw 0).cls = .uncorrectable) ∧
    ((flawed 0x0F0F).formed = true ∧ ((flawed 0x0F0F).mem.cw 0).cls = .poison none) ∧
    ((flawed 0).formed = true ∧ ((flawed 0).mem.cw 0).cls = .clean) := by and_intros <;> decide +kernel

/-- Tower 0 lit. -/
def lit0 (d : Device) : Device := d.modTower 0 fun t => { t with lit := true }

/-- A full native queue. -/
def fullQueue : List QReq := List.replicate 64 (QReq.mk (lineRead 0) .none 0)

theorem witness_DramControllersServeAndRefresh :
    ((lineRead 0).wf = true ∧ reqBelongs 0 0 (lineRead 0) = true ∧ reqBelongs 1 0 (lineRead 0) = false ∧ (on lit0).dev.legal 0 = true ∧
      (on id).dev.legal 0 = false ∧ ((on lit0).dev.pushReq 0 0 (routedReq (lineRead 0)) .none).isSome = true ∧
      ((on lit0).dev.chan 0 0).atSource = [] ∧ ({ lineRead 0 with src := 26 } : DramReq).wf = true ∧ (lineRead 0).src ≠ 26) ∧
    (let s := on fun d => (lit0 d).modChan 0 0 fun c => { c with native := fullQueue };
      s.dev.towersRun = true ∧ s.dev.pushReq 0 0 (routedReq (lineRead 0)) .none = none ∧
      s.dev.chanUp 0 0 = true ∧ (match s.dev.grant 0 0 with | .access _ => true | _ => false) = true) ∧
    (let s := on fun d => (lit0 d).modChan 0 0 fun c => { c with atSource := [QReq.mk (lineRead 0) .none 0] };
      ((s.dev.chan 0 0).atSource.any fun q => q.req.small == (routedReq (lineRead 0)).small) = true) ∧
    (let s := on fun d => (lit0 d).modChan 0 0 fun c => c.modBank 47 fun b => { b with debt := 4 };
      s.dev.chanUp 0 0 = true ∧ (match s.dev.grant 0 0 with | .refresh _ f => f | _ => false) = true) ∧
    ((on lit0).dev.chanUp 0 0 = true ∧ (match (on lit0).dev.grant 0 0 with | .none => true | _ => false) = true) ∧
    ((on lit0).dev.bankWindow 0 0 0 ≠ 3 ∧ (on lit0).dev.bankWindow 0 0 47 ≠ 3 ∧
      (on fun d => (lit0 d).setReg (corReg 0 0x1040) (2 ^ 31)).dev.bankWindow 0 0 51 ≠ 3 ∧ (on id).dev.chanUp 0 0 = false) ∧
    ((on lit0).dev.inTake = false ∧ ((on lit0).dev.chan 0 0).native = [] ∧ ((on lit0).dev.chan 0 0).narrow = [] ∧
      (on fun d => rolling (lit0 d)).dev.inTake = true ∧ (on scrubs).dev.accesses = []) ∧
    (let e := BitVec.ofNat 64 (6 + 256 * bankTarget 0 0 47)
      let s := on fun d => { lit0 d with retire := ⟨[e]⟩ }
      s.dev.inTake = false ∧ s.dev.retire.entries.find? (fun x => field x.toNat 0 3 == 6 && field x.toNat 8 32 == bankTarget 0 0 47) = some e ∧
      s.dev.freeSpare 0 0 = some 0) := by and_intros <;> decide +kernel

/-- A near-bank cue of core 0 on bank b of channel 0. -/
def nbCue (op b : Nat) : QCue := { queued (cue [(4, 7), (40, op), (50, 1), (58, 2 ^ b)]) with param := List.replicate 64 0 }

/-- A near-bank command accepted at site 0. -/
def atSite (q : QCue) (x : NbBank) (d : Device) : Device :=
  (lit0 d).modSite 0 fun y => { y with cmds := [(NbCmd.mk 0 q [] [] []).setBank 47 x] }

theorem witness_NearBankCommandsRunTheirSteps :
    (∀ op ∈ List.range 18, let q := nbCue op 47; let s := on (inUnit 7 q)
      atHead s 7 q = true ∧ nbOp q.cue = op ∧ q.started = false ∧ s.dev.nbMaskBad q.cue = false) ∧
    (let q := queued (cue [(4, 7)]); let s := on (inUnit 7 q); atHead s 7 q = true ∧ s.dev.nbMaskBad q.cue = true) ∧
    (let q := { nbCue 1 47 with started := true }; let s := on fun d => atSite q ⟨0, true, false⟩ (inUnit 7 q d)
      atHead s 7 q = true ∧ q.started = true ∧ ((s.dev.site 0).cmds.find? fun m => m.core == 0 && m.cue.order == q.order).isSome = true ∧
      ((s.dev.site 0).cmds.find? fun m => (m.bank 47).inStep).isSome = true) ∧
    (let q := { nbCue 1 47 with started := true }; let s := on fun d => atSite q NbBank.reset (inUnit 7 q d)
      ((s.dev.site 0).nextCmd 47).isSome = true ∧ s.dev.chanUp 0 0 = true ∧ s.dev.take.aborting = false ∧
      (∀ m ∈ (s.dev.site 0).cmds, (m.bank 47).inStep = false) ∧ (s.dev.site 0).running 0 < 8 ∧
      (s.dev.site 0).startsFirst 0 47 = true) ∧
    (on lit0).dev.up 0 = true := by and_intros <;> decide +kernel

/-- A loaded reel at device address 0 whose frame table lies at `table`. -/
def reelAt (table frames loop : Nat) : Reel :=
  { base := 0, takeKey := 0, flags := 0, frames := frames, srEnable := false, loopStart := loop, frameTable := table, descIndex := 0, bytes := 4096,
    numeric := 0, identity := [], towerMask := 0 }

/-- A reel is loaded, in a take state. -/
def withReel (st : Nat) (r : Reel) (d : Device) : Device := d.modTake fun t => { t with state := st, reel := some r }

/-- Fabric port p in a state and a role. -/
def portAt (p state role : Nat) (d : Device) : Device := (d.setField (portReg p) 0 3 state).setField (portReg p) 3 2 role

/-- A clapper message of the default period. -/
def clapMsg (epoch tick hops ttt : Nat) : ClapperMsg :=
  { hops := BitVec.ofNat 8 hops, periodUs := BitVec.ofNat 16 State.reset.dev.period, epoch := BitVec.ofNat 32 epoch, master := 0,
    tick := BitVec.ofNat 48 tick, ttt := BitVec.ofNat 32 ttt }

/-- A bit of a register set or cleared. -/
def bitTo (a i v : Nat) (d : Device) : Device := d.setField a i 1 v

theorem witness_TicksClapperContinuityAndLandings :
    ((on id).dev.clocked = true ∧ (on id).dev.fresh.recordFlow.setBudgets.take.reel = none ∧ (on id).dev.take.decision = none) ∧
    (∀ f ∈ [(0, 1, 1), (5, 1, 0), (0, 2, 1)], let r := reelAt 0 f.2.1 f.2.2;
      let s := on fun d => (withReel 2 r d).setField (gafReg 0x28) 0 48 f.1
      let e := s.dev.fresh.recordFlow.setBudgets
      e.take.reel = some r ∧ e.take.state = 2 ∧ e.take.stopping = false ∧ (r.entryIndex e.nextFrame).isSome = true) ∧
    (∀ b ∈ [true, false], let s := on fun d => d.modTake fun t => { t with decision := some ⟨0, 0, 0, 0⟩, eastResults := b, eastOutcome := !b };
      s.dev.clocked = true ∧ s.dev.take.decision.isSome = true ∧ s.dev.take.eastResults = b ∧ s.dev.take.eastOutcome = !b) ∧
    (∀ l ∈ [[], [pkt 0xFFFF 0x12 4 []]], let s := on fun d => { d with fab := { d.fab with epochSeen := 5 } }.modPort 0 fun x => { x with rx := [(4, l)] }
      let m := clapMsg 5 0 0 0
      let e := s.dev.takeHead 0 4
      (s.dev.rxNext 0 4 fun k => k.kind.toNat == 0x12 && clapperOf k.payload == m) = (l == []) ∧
      (clapMsg 4 0 0 0).epoch.toNat < e.fab.epochSeen ∧ e.fab.epochSeen ≤ m.epoch.toNat ∧ e.carries 0 = true ∧
      ({ m with periodUs := 0 } : ClapperMsg).periodUs.toNat ≠ e.period ∧ (s.dev.setBit (fabReg 0) 3).carries 0 = false) ∧
    (∀ n ∈ [3, 4], let s := on fun d => bitTo (gafReg 0x18) 1 0 (bitTo (gafReg 0x18) 3 0 { d with clap := { d.clap with missed := n } });
      s.dev.bitOf (gafReg 0x18) 1 = false ∧ s.dev.bitOf (gafReg 0x18) 3 = false ∧ s.dev.clap.missed = n) ∧
    (∀ n ∈ [68, 69], let s := on fun d => bitTo (gafReg 0x18) 3 1 { rolling d with clap := { d.clap with missed := n } };
      s.dev.bitOf (gafReg 0x18) 3 = true ∧ s.dev.take.state = 2 ∧ s.dev.clap.missed = n) := by and_intros <;> decide +kernel

/-- Continuity is enabled. -/
def contOn (d : Device) : Device := bitTo (svcReg 0x9100) 0 1 d

theorem witness_TicksClapperContinuityAndLandings_more :
    ((on contOn).dev.bitOf (svcReg 0x9100) 0 = true ∧ (on contOn).dev.inTake = false ∧ (on contOn).dev.mirrorPort = none) ∧
    (∀ l ∈ [[], [pkt 0xFFFF 0x20 0 []]], let s := on fun d => contOn (portAt 3 3 3 (d.modPort 3 fun x => { x with rx := [(0, l)] }));
      s.dev.mirrorPort = some 3 ∧ (s.dev.takeHead 3 0).bitOf (svcReg 0x9100) 0 = true ∧
      ∀ m ∈ [helloMessage [] [], contOutcomeMessage 1 true, signatureMessage 1 ((List.range 480).map fun h => (h, mget 0 [] h))],
        (s.dev.rxNext 3 0 fun k => k.kind.toNat == 0x20 && k.payload.take m.length == m) = (l == [])) ∧
    (let s := on fun d => contOn ({ (rolling d).modTake fun t => { t with decision := some ⟨0, 0, 0, 0⟩ } with
        cont := { d.cont with mine := [(0, [])] } }.setField (gafReg 0x28) 0 48 2);
      s.dev.inContinuity = true ∧ s.dev.contOn = true ∧ s.dev.take.decision.isSome = true ∧ s.dev.partnerSays = none ∧
      (∀ p ∈ s.dev.cont.mine, p.1 + 2 ≤ s.dev.nextFrame) ∧ s.dev.cont.mine ≠ []) ∧
    (∀ b ∈ [true, false], let s := on fun d => d.modTake fun t => { t with landed := (if b then [(511, 10, 64)] else []), landing := [(511, [(10, 2 ^ 32 - 2)])] };
      s.dev.take.landed.contains (511, 10, 64) = b ∧ (mget [] s.dev.take.landing 511).find? (fun x => x.1 == 10) = some (10, 2 ^ 32 - 2) ∧
      (mget [] s.dev.take.landing 511).find? (fun x => x.1 == 11) = none ∧ (mget [] s.dev.take.landing 511).length < 8) ∧
    (let slots := (List.range 8).map fun i => (i + 10, 0);
      slots = (10, 0) :: slots.tail ∧ 8 ≤ slots.length ∧ slots.find? (fun x => x.1 == 9) = none ∧ 9 < 10 ∧
      slots.find? (fun x => x.1 == 18) = none ∧ 10 < 18) := by and_intros <;> decide +kernel

theorem witness_ReleaseChecksInOrder :
    (bitTo (gafReg 0x10) 0 1 State.reset.dev).bitOf (gafReg 0x10) 0 = true ∧
    (let d := bitTo (gafReg 0x18) 1 0 (bitTo (gafReg 0x18) 2 0 (bitTo (gafReg 0x18) 3 0 State.reset.dev));
      d.bitOf (gafReg 0x10) 0 = false ∧ d.bitOf (gafReg 0x18) 1 = false ∧ d.bitOf (gafReg 0x18) 2 = false ∧ d.bitOf (gafReg 0x18) 3 = false) ∧
    (let d := bitTo (gafReg 0x18) 1 1 State.reset.dev
      let gate : List Byte := [1, 0, 0, 0, 1, 0, 0, 0]
      d.bitOf (gafReg 0x10) 0 = false ∧ d.bitOf (gafReg 0x18) 1 = true ∧ d.lackingList 0 [] [] = none ∧ d.gateOk gate 0 = false ∧
      (d.budget 0).1 < 1 + d.excess 0 ∧ (∀ t < 20, ¬ (d.budget t).1 < 0 + d.excess t) ∧ d.packageOk [] = true ∧
      d.take.overcurrent = false ∧ d.take.guardForced = false ∧ d.take.guardRun < 64 ∧ (d.outcomeOf 0 [] [] [] []).reason = 0) ∧
    (let d := bitTo (gafReg 0x18) 1 1 (arrays State.reset.dev);
      (d.bitOf (gafReg 0x18) 1 || d.bitOf (gafReg 0x18) 2 || d.bitOf (gafReg 0x18) 3) = true ∧ d.lackingList 0 [] [] = some 0) := by
  and_intros <;> decide +kernel

theorem witness_BudgetIsTheLowestLimit : State.reset.dev.budgetForced 0 = false ∧
    (State.reset.dev.modTower 19 fun t => { t with throttle := [14] }).budgetForced 19 = true := by and_intros <;> decide +kernel

theorem witness_GuardBandsAndLosses :
    (∀ e ∈ [EyeMeas.mk 0 0 0 4, EyeMeas.mk 0 0 60 68], let s := on fun d => d.modTower 0 fun t => { t with lit := true, taps := [(0, 64 - 62 * (1 - e.lo / 60))] };
      (∀ t < 20, s.dev.towerBusy t = false) ∧ s.dev.up e.tower.val = true ∧
      2 ≤ (recheck (mget 0 (s.dev.tower e.tower).taps e.group) e).2) ∧
    (∀ n ∈ [63, 64], (on fun d => d.modTake fun t => { t with guardRun := n }).dev.take.guardRun = n) ∧
    (let s := on fun d => d.modTower 19 fun t => { t with lit := true };
      (bitsOf 20 (0x80000#20).toNat).filter s.dev.up = [19] ∧ (bitsOf 20 (0x00001#20).toNat).filter s.dev.up = []) ∧
    (∀ b ∈ [true, false], let s := on fun d => d.modHalf 1 fun x => { x with lost := b }; (s.dev.half 1).lost = b ∧ s.dev.formed = true) ∧
    (∀ b ∈ [true, false], let s := on fun d => d.modTower 0 fun x => { x with rejoining := b }; (s.dev.tower 0).rejoining = b) ∧
    (let s := on fun d => d.modTake fun t => { t with state := 3, aborting := true }; s.dev.take.state = 3 ∧ s.dev.take.aborting = true ∧
      (on id).dev.take.state ≠ 3) := by and_intros <;> decide +kernel

/-- A reel of one frame at address 0 in a running take: its frame table at 256 names a core index at 512, whose first entry is w; codeword
16 of memory holds check difference x and codeword 32 check difference y. -/
def listComes (w : Nat) (x y : BitVec 16) : State := on fun d =>
  { withReel 2 (reelAt 256 1 1) (d.modTower 0 fun t => { t with lit := true, lumap := [(0, 0)] }) with
    mem := (((Memory.empty.put 256 (leBytes 8 512)).put 512 (leBytes 8 w)).setSyn 16 x).setSyn 32 y }

theorem witness_GuardBandsAndLosses_lists :
    (∀ w ∈ [0, 2 ^ 61 + 1], let d := (listComes w 0 0).dev
      let r := reelAt 256 1 1
      let t := d.fresh.serviceRead (r.base + r.frameTable) 8
      let x := t.dev.serviceRead (r.base + leAt t.bytes 0 8) 48
      let es := coreEntries x.bytes
      d.take.state = 2 ∧ d.take.decision = none ∧ d.hasArray 0 = true ∧ d.take.reel = some r ∧ r.entryIndex d.comingFrame = some 0 ∧
      t.bad = [] ∧ x.bad = [] ∧ (es[homeAt (d.fresh.ringRotates r 0 es) d.comingFrame 0 % 6]?).map CoreEntry.empty = some (w != 0)) ∧
    (let d := (listComes 0 0x0F0F 0).dev; (d.fresh.serviceRead 256 8).bad ≠ []) ∧
    (let d := (listComes 0 0 0x0F0F).dev; let t := d.fresh.serviceRead 256 8; t.bad = [] ∧ (t.dev.serviceRead 512 48).bad ≠ []) := by
  and_intros <;> decide +kernel

theorem witness_FaultsAbortTheTakeOnce :
    (rolling State.reset.dev).formed = true ∧ (rolling State.reset.dev).take.state = 2 ∧
    (rolling State.reset.dev).engaged = true ∧
    (let d := State.reset.dev.modTake fun t => { t with state := 1, starting := true }; d.formed = true ∧ d.engaged = true ∧ d.take.state ≠ 3) ∧
    (rolling State.reset.dev).bitOf (svcReg 0xD008) 0 = false ∧ 255 < 2 ^ 8 ∧ 31 < 2 ^ 5 ∧ 511 < 2 ^ 9 ∧
    (let d := bitTo (svcReg 0xD008) 0 1 (rolling State.reset.dev); d.formed = true ∧ d.bitOf (svcReg 0xD008) 0 = true ∧ d.take.state = 2) ∧
    State.reset.dev.engaged = false ∧ (rolling State.reset.dev).cycle.fatal = false ∧
    (rolling State.reset.dev).cycle.fault = none ∧
    (let d := (rolling State.reset.dev).fault 5 0 0 0 0 0;
      d.formed = true ∧ d.take.state = 3 ∧ (d.cycle.fault.map fun n => (n.cause, n.recorded)) = some (5, true)) ∧
    { (rolling State.reset.dev) with cycle := { Cycle.reset with fatal := true } }.cycle.fatal = true := by and_intros <;> decide +kernel

/-- The part serves the host: start-up is complete. -/
def served (d : Device) : Device := bitTo (svcReg 0xB000) 3 1 d

/-- A command accepted by the mailbox. -/
def busy (op : Nat) (d : Device) : Device := { d.setField (hstReg 0x108) 0 1 1 with mbx := Mailbox.mk op none none }

/-- An argument of the mailbox. -/
def arg (i v : Nat) (d : Device) : Device := d.setReg (hstReg (0x110 + 8 * i)) (BitVec.ofNat 64 v)

/-- The host answers. -/
def reaches (d : Device) : Device := bitTo (hstReg 0) 11 1 (bitTo (hstReg 0) 10 0 d)

/-- The mailbox is free before a command and serves it. -/
def mbxOk (s : State) (op : Nat) : Bool :=
  s.dev.awake && !s.dev.bitOf (hstReg 0x108) 0 && (busy op s.dev).serving && !(busy op s.dev).bitOf (svcReg 0xB000) 18

theorem witness_MailboxRunsOneCommandToItsResult :
    ((on (busy 1)).dev.awake = true ∧ (on (busy 1)).dev.bitOf (hstReg 0x108) 0 = true) ∧
    ((on id).dev.bitOf (hstReg 0x108) 0 = false ∧ (busy 1 (on id).dev).serving = false) ∧
    (let s := on served;
      mbxOk s 1 = true ∧ (busy 1 s.dev).idleTake = true ∧ bit ((busy 1 s.dev).mbxArg 1) 0 = false ∧ mbxOk s 8 = true ∧
      (busy 8 s.dev).idleTake = true ∧ mbxOk s 9 = true ∧ (busy 9 s.dev).idleTake = true) ∧
    (let s := on fun d => withReel 1 (reelAt 0 1 1) (served d);
      mbxOk s 2 = true ∧ (busy 2 s.dev).idleTake = true ∧ s.dev.take.state = 1 ∧ (busy 2 s.dev).survival = false ∧ (busy 2 s.dev).unlocked = false) ∧
    (∀ st ∈ [2, 3], let s := on fun d => withReel st (reelAt 0 1 1) (served d); mbxOk s 3 = true ∧ s.dev.take.state = st) ∧
    (∀ t ∈ [0, 19, 20], ∀ b ∈ [true, false], let s := on fun d => arg 0 t (served (d.modTower t fun x => { x with lit := true, fenced := b }));
      mbxOk s 6 = true ∧ (busy 6 s.dev).idleTake = true ∧ (busy 6 s.dev).mbxArg 0 = t ∧ ((busy 6 s.dev).tower t).fenced = b ∧
      mbxOk s 7 = true ∧ (busy 7 s.dev).idleTake = true ∧ (busy 7 s.dev).mbxArg 0 = t ∧ (busy 7 s.dev).up t = !b) := by
  and_intros <;> decide +kernel

/-- A take is held, with the drain done when n is 1, and the mailbox takes SAVE_DRAIN or SAVE_CAPTURE. -/
def drained (n v : Nat) (f : Device → Device) (d : Device) : Device :=
  bitTo (gafReg 0x10) 0 1 (bitTo (svcReg 0x9118) 0 n (bitTo (hstReg 0x3E8) 0 0 (withReel 2 (reelAt 0 1 1) (served (arg 2 v (f d))))))

theorem witness_MailboxRunsOneCommandToItsResult_drain : ∀ n ∈ [0, 1], ∀ st ∈ [0, 2],
    let s := on (drained n 0 fun d => arrays (core0 (fun c => c.modBank 0 fun b => { b with st := st }) d))
    let b := busy 4 s.dev
    mbxOk s 4 = true ∧ b.heldTake = true ∧ b.bitOf (hstReg 0x3E8) 0 = false ∧
    (b.arrays.any fun k => (List.range 4).any fun n => (mget Bank.reset (b.core k).banks n).st != 0) = (st == 2) ∧
    b.bitOf (svcReg 0x9118) 0 = (n == 1) ∧ s.dev.take.reel = some (reelAt 0 1 1) := by decide +kernel

theorem witness_MailboxRunsOneCommandToItsResult_capture : ∀ v ∈ [0, 2 ^ 40], ∀ r ∈ [true, false],
    let s := on (drained 1 v (if r then reaches else id))
    let b := busy 4 s.dev
    mbxOk s 4 = true ∧ b.heldTake = true ∧ b.bitOf (svcReg 0x9118) 0 = true ∧ s.dev.take.reel = some (reelAt 0 1 1) ∧
    decide (b.imageBytes ≤ b.mbxArg 2) = (v != 0) ∧ b.hostReach = r := by decide +kernel

theorem witness_MailboxRunsOneCommandToItsResult_calibrate :
    (∀ n ∈ [calSize, calSize - 1], ∀ l ∈ [[], [0]], ∀ b ∈ [true, false],
      let s := on fun d => (if b then reaches else id) (arg 1 n (served { d with start := { d.start with cal := l } }));
      mbxOk s 0x10 = true ∧ (busy 0x10 s.dev).mbxArg 1 = n ∧ s.dev.start.cal = l ∧ (busy 0x10 s.dev).hostReach = b ∧
      mbxOk s 0x11 = true ∧ (busy 0x11 s.dev).idleTake = true ∧ (busy 0x11 s.dev).mbxArg 1 = n ∧ (busy 0x11 s.dev).hostReach = b) := by decide +kernel

theorem witness_MailboxRunsOneCommandToItsResult_flash :
    (∀ n ∈ [6783, 6784], ∀ b ∈ [true, false], ∀ r ∈ [true, false],
      let s := on fun d => (if r then reaches else id) (bitTo (secReg 0) 1 (if b then 1 else 0) (bitTo (secReg 0) 2 0
        (arg 1 n (served { d with sec := { d.sec with keyReady := true } }))))
      let k := (busy 0x20 s.dev).deriveKey
      (busy 0x20 s.dev).mbxArg 1 = n ∧ (k.bitOf (secReg 0) 1 || k.bitOf (secReg 0) 2) = b ∧ k.hostReach = r) := by decide +kernel

theorem witness_MailboxRunsOneCommandToItsResult_busy :
    (∀ r ∈ [none, some 0], ∀ a ∈ [0, 1], let s := on fun d => { busy 4 d with
        mbx := Mailbox.mk 4 r (if a = 0 then none else some 1), fab := { d.fab with ring := if a = 0 then [] else [(0, pkt 0 1 0 [])] } };
      s.dev.awake = true ∧ s.dev.bitOf (hstReg 0x108) 0 = true ∧ s.dev.mbx.result = r ∧ s.dev.mbx.op = 4 ∧
      ((s.dev.fab.ports.all fun p => p.2.drained) && s.dev.fab.ring.isEmpty && s.dev.ringQuiet) = (a == 0)) := by decide +kernel

/-- The digest that FIPS 202 gives SHAKE256 of no bytes. -/
def shakeOfNothing : List Byte :=
  [0x46, 0xb9, 0xdd, 0x2b, 0x0b, 0xa8, 0x8d, 0x13, 0x23, 0x3b, 0x3f, 0xeb, 0x74, 0x3e, 0xeb, 0x24, 0x3f, 0xcd, 0x52, 0xea, 0x62, 0xb8, 0x1b, 0x82,
    0xb5, 0x0c, 0x27, 0x64, 0x6e, 0xd5, 0x76, 0x2f]

theorem test_shake256_of_nothing : shake256 [] 32 = shakeOfNothing := by decide +kernel

/-- A directory entry. -/
def entryOf (kind index addr len off : Nat) : List Byte :=
  leBytes 2 kind ++ leBytes 2 index ++ leBytes 4 0 ++ leBytes 8 addr ++ leBytes 8 len ++ leBytes 8 off

/-- The least image: a header at 0 and at 256 the directory of an empty STATE section and of the stores of both halves. -/
def leastImage : Memory :=
  let n := cwForm 0xC0000000
  (((Memory.empty.put 0 (leBytes 4 0x53415645 ++ leBytes 2 0x0501)).put 0x56 (leBytes 2 0xFFFF ++ leBytes 4 3)).put 0x60 (leBytes 8 256)).put 0x68 shakeOfNothing
    |>.put 256 (entryOf 1 0 0 0 352 ++ entryOf 2 0 0x040000000000 n 352 ++ entryOf 2 1 0x040100000000 n (352 + n))

/-- The part ready for RESUME, with the image m in the host's memory. -/
def resumes (m : Memory) : State := on fun d => { withReel 1 (reelAt 0 1 1) (served (reaches d)) with hostMem := m }

theorem witness_MailboxRunsOneCommandToItsResult_resume_alone : (busy 5 (on (withReel 1 (reelAt 0 1 1) ∘ served)).dev).hostReach = false := by decide +kernel

theorem witness_MailboxRunsOneCommandToItsResult_resume :
    (∀ m ∈ [Memory.empty, leastImage], let s := resumes m;
      let b := busy 5 s.dev
      mbxOk s 5 = true ∧ b.hostReach = true ∧ b.idleTake = true ∧ b.take.state = 1 ∧ b.survival = false ∧ b.unlocked = false ∧
      (b.judgeImage (b.mbxArg 0) (b.mbxArg 1) (b.hostGet 0 256).1
        (b.hostGet (leAt (b.hostGet 0 256).1 0x60 8) (32 * leAt (b.hostGet 0 256).1 0x58 4)).1 == 0) = (m == leastImage)) := by
  decide +kernel

theorem reg_eachSet (l : List (Nat × Nat)) (a : Nat) (h : ∀ p ∈ l, p.1 ≠ a) (d : Device) :
    (d.each l fun p d => d.setReg p.1 (BitVec.ofNat 64 p.2)).reg a = d.reg a := by
  induction l generalizing d with
  | nil => rfl
  | cons p r ih =>
    exact (ih (fun q hq => h q (by simp [hq])) _).trans (Device.reg_setReg_other _ (fun e => h p (by simp) e.symm) _)

theorem reg_landings (l : List Nat) (p : Device × List Byte) (a : Nat) : (l.foldl takeLanding p).1.reg a = p.1.reg a := by
  induction l generalizing p with
  | nil => rfl
  | cons c r ih => exact (ih _).trans rfl

/-- Where no core is in use, restoring a STATE section writes the registers of the settings alone. -/
theorem reg_restoreState (d : Device) (bs : List Byte) (h : d.arrays = []) (a : Nat) (ha : a ∉ settingsRegs) :
    (d.restoreState bs).reg a = d.reg a := by
  unfold Device.restoreState
  simp only [h, List.foldl_nil]
  rw [reg_landings]
  generalize settingsRegs = l at ha ⊢
  exact reg_eachSet _ a (fun p hp e => ha (e ▸ (List.of_mem_zip (a := p.1) (b := p.2) hp).1)) d

/-- A register and the towers are as before. -/
def Stays (a : Nat) (d e : Device) : Prop := e.reg a = d.reg a ∧ e.towers = d.towers

theorem stays_each {α : Type} {a : Nat} (l : List α) {f : α → Device → Device} (h : ∀ x ∈ l, ∀ d, Stays a d (f x d)) (d : Device) :
    Stays a d (d.each l f) := by
  induction l generalizing d with
  | nil => exact ⟨rfl, rfl⟩
  | cons x r ih =>
    have p := h x (by simp) d
    have q := ih (fun y hy => h y (by simp [hy])) (f x d)
    exact ⟨q.1.trans p.1, q.2.trans p.2⟩

theorem Stays.trans {a : Nat} {d e f : Device} (h : Stays a d e) (k : Stays a e f) : Stays a d f := ⟨k.1.trans h.1, k.2.trans h.2⟩

/-- Preparing a take over from an image touches no register of continuity and no tower. -/
theorem prepareTake_stays (d : Device) (n parts : Nat) : Stays (svcReg 0x9100) d (d.prepareTake n parts false) := by
  have hc : ∀ k ∈ List.range 480, ∀ o ∈ [0x200, 0x208, 0x600, 0x608], svcReg 0x9100 ≠ corReg k o := by decide +kernel
  have hl : ∀ k ∈ List.range 12, svcReg 0x9100 ≠ lpdReg (0x100 + 8 * k) := by decide +kernel
  have h1 : Stays (svcReg 0x9100) d (d.each (List.range 480) fun k d => if d.up (towerOf k) then d.modSite k Site.wake else d) :=
    stays_each _ (fun k _ e => by split <;> exact ⟨rfl, rfl⟩) d
  have h2 : ∀ e : Device, Stays (svcReg 0x9100) e e.wakeLpd := stays_each _ fun k hk e => by
    split
    · exact ⟨e.reg_setField_other (hl k hk) _ _ _, rfl⟩
    · exact ⟨rfl, rfl⟩
  have h3 : ∀ e : Device, Stays (svcReg 0x9100) e
      (e.each (List.range 480) fun k d => d.each [0x200, 0x208, 0x600, 0x608] fun o d => d.setReg (corReg k o) 0) :=
    stays_each _ fun k hk e => stays_each _ (fun o ho e => ⟨e.reg_setReg_other (hc k hk o ho) _, rfl⟩) e
  have h4 : ∀ e : Device, Stays (svcReg 0x9100) e (e.each e.arrays fun k d => d.modCore k fun c => { c with next := none, list := [] }) :=
    fun e => by refine stays_each _ ?_ e; intro k _ e; exact ⟨rfl, rfl⟩
  have h5 : ∀ e : Device, Stays (svcReg 0x9100) e (((e.setField (gafReg 0x28) 0 48 n).setField (gafReg 0x40) 24 24 0xFFFFFF).setBit (fabReg 0) 3) :=
    fun e => ⟨by rw [Device.reg_setBit_other _ (by decide), Device.reg_setField_other _ (by decide), Device.reg_setField_other _ (by decide)], rfl⟩
  have key := ((((h1.trans (h2 _)).trans (h3 _)).trans (h4 _)).trans (h5 _))
  unfold Stays Device.prepareTake at *
  simp only [Bool.false_eq_true, if_false, Device.reg, Device.modTake_regs, Device.modTake_towers] at key ⊢
  exact key

theorem witness_MailboxRunsOneCommandToItsResult_restored : ∀ c ∈ [true, false],
    let s := (resumes leastImage).dev
    let b := (busy 5 (if c then contOn s else s)).setField (svcReg 0x9118) 5 3 0
    let f := ({ b with host := { b.host with doorbells := [] } } : Device).prepareTake 0 0 false
    (f.restoreState (f.hostGet 352 0).1).bitOf (svcReg 0x9100) 0 = c := by
  intro c _ s b f
  have h := prepareTake_stays ({ b with host := { b.host with doorbells := [] } } : Device) 0 0
  have z : f.arrays = [] := by
    have t : f.towers = [] := h.2.trans (by cases c <;> decide +kernel)
    simp [Device.arrays, Device.hasArray, Device.up, Device.tower, t, mget, Tower.reset]
  rw [Device.bitOf, reg_restoreState f _ z _ (by decide +kernel), h.1]
  cases c <;> decide +kernel

theorem witness_SlateStartUpAndRollback :
    (let s := on fun d => { d with start := { d.start with writing := some (.cal 1 []) } };
      s.dev.start.writing = some (.cal 1 []) ∧ (s.dev.commitWrite (.cal 1 [])).2.isSome = true) ∧
    (let s := on fun d => { d with start := { d.start with writing := some (.cal 4 []) } };
      (s.dev.commitWrite (.cal 4 [])).2 = none ∧ s.dev.start.held.any (fun h => h.bit == (SlateWrite.cal 4 []).bit) = false) ∧
    (let s := on fun d => { d with start := { d.start with writing := some (.cal 4 []), held := [.cal 1 []] } };
      (s.dev.commitWrite (.cal 4 [])).2 = none ∧ s.dev.start.held.any (fun h => h.bit == (SlateWrite.cal 4 []).bit) = true) ∧
    ((on id).dev.start.writing = none ∧ (on id).dev.slateOpen = false ∧ (on id).dev.advBusy = false ∧ (on id).dev.bitOf (svcReg 0xB000) 3 = false) ∧
    (let s := on fun d => { d with
        start := { d.start with held := [.defect []] }, thm := { d.thm with board := 200 },
        halves := [(0, { HalfState.reset with value := some 200 }), (1, { HalfState.reset with value := some 200 })] };
      s.dev.start.held = [.defect []] ∧ s.dev.slateOpen = true ∧ s.dev.start.writing = none) ∧
    (∀ p ∈ [2, 7], let s := on fun d => { d with start := { d.start with phaseDone := p - 1 } };
      (clean p).wf = true ∧ s.dev.phaseDue p = true ∧ (clean 5).wf = true ∧ s.dev.phaseDue (clean 5).phase = false) ∧
    (let s := on fun d => { d.modTower 0 (fun t => { t with sens := (List.range 112).map fun i => (i, 200), layer := (List.range 15).map fun l => (l, 200) }) with
        start := { d.start with phaseDone := 6, heldDark := [0] } };
      s.dev.start.heldDark.contains 0 = true ∧ (s.dev.tower 0).lit = false ∧ s.dev.inTake = false ∧ 6 ≤ s.dev.start.phaseDone ∧
      s.dev.coolTower 0 = true ∧ s.dev.bitOf (svcReg 0xB000) 5 = false ∧ ((on lit0).dev.tower 0).lit = true) ∧
    (let s := on fun d => served { d with start := { d.start with rollbacks := [1] } };
      (0x5EC0 : BitVec 16) ≠ 0x5EC1 ∧ s.dev.advBusy = false ∧ s.dev.inTake = false ∧ s.dev.bitOf (svcReg 0xB000) 3 = true ∧
      s.dev.fuses.counter < s.dev.rollbackTarget ∧ (on rolling).dev.advBusy = false ∧ (on rolling).dev.inTake = true) ∧
    (let s := on fun d => served { d with start := { d.start with rollbacks := [0] } }; s.dev.rollbackTarget ≤ s.dev.fuses.counter) ∧
    (∀ a ∈ [0, 1, 2, 3], let s := on fun d => bitTo (secReg 0) 11 1 { d with sec := { d.sec with advStep := 1, advTarget := 1 + a % 2, attempts := a } };
      s.dev.advBusy = true ∧ (s.dev.sec.advTarget ≤ s.dev.sec.advStep ∨ s.dev.sec.advStep < s.dev.sec.advTarget) ∧
      ({ s.dev.fuses with steps := mset 0 s.dev.fuses.steps 1 (mget 0 s.dev.fuses.steps 1 ||| 3) } : Fuses).stepBlown 1 = true ∧
      ({ s.dev.fuses with steps := mset 0 s.dev.fuses.steps 1 (mget 0 s.dev.fuses.steps 1 ||| 1) } : Fuses).stepBlown 1 = false) := by
  and_intros <;> decide +kernel

theorem witness_FlashBitsFallOnlyUntilErased : State.reset.dev.formed = true := by decide +kernel

/-- All that drives the part is good, and it is held in reset. -/
def goodPins (p : Pins) : Pins := { p with powered := true, pwrgd := true, resetN := true, inReset := true }

theorem witness_PowerResetsAndRegulators :
    (∀ b ∈ [true, false], let s := off fun d => { d with pins := { d.pins with pwrgd := b, resetN := b, powered := b, resetDue := b } };
      s.dev.pins.pwrgd = b ∧ s.dev.pins.resetN = b ∧ s.dev.pins.powered = b ∧ s.dev.pins.resetDue = b) ∧
    (let s := off fun d => { d with pins := { goodPins d.pins with releaseDue := true } };
      s.dev.pins.releaseDue = true ∧ s.dev.pins.mayRelease = true) ∧
    (let s := off fun d => { d with pins := { goodPins d.pins with resetDue := false } };
      s.dev.pins.resetDue = false ∧ s.dev.pins.pwrgd = true ∧ s.dev.pins.powered = true ∧ s.dev.pins.releaseDue = false) ∧
    ((on id).dev.awake = true ∧ (0xD504 : BitVec 16) ≠ 0xD505) ∧
    (∀ b ∈ [[17], [16, 17]], let s := on fun d => d.modTower 0 fun t => { t with lit := true, badPhases := b }
      let e := s.dev.modTower 0 fun x => { x with badPhases := insertAsc 0 x.badPhases }
      (s.dev.tower 0).badPhases.contains 17 = true ∧ (s.dev.tower 0).badPhases.contains 0 = false ∧ (s.dev.tower 0).inService.contains 0 = true ∧
      decide ((e.tower 0).inService.length = 16) = (b == [17]) ∧ s.dev.up 0 = true ∧ s.dev.up 1 = false) ∧
    ((on id).dev.tower 0).inService.contains 16 = false := by and_intros <;> decide +kernel

/-- A calibration set of n bytes 0 and then RAISE 20 and LOWER 30. -/
def marginCal (n : Nat) : List Byte := List.replicate n 0 ++ (leBytes 2 20 ++ leBytes 2 30)

theorem leAt_marginCal (n a : Nat) : leAt (marginCal n) (n + a) 2 = leAt (leBytes 2 20 ++ leBytes 2 30) a 2 := by
  have h : ∀ i, (marginCal n).getD (n + i) 0 = (leBytes 2 20 ++ leBytes 2 30).getD i 0 := fun i => by
    simp only [marginCal, List.getD_eq_getElem?_getD]
    rw [List.getElem?_append_right (by simp), List.length_replicate, Nat.add_sub_cancel_left]
  simp only [leAt, sliceBytes, Nat.add_assoc, h]

theorem witness_PowerResetsAndRegulators_margins :
    let d := (on fun d => lit0 { d with start := { d.start with cal := marginCal 0xC000 } }).dev
    d.up 0 = true ∧ (19 : BitVec 8).toNat < d.cpmRaise 0 ∧ (20 : BitVec 8).toNat = d.cpmRaise 0 ∧ (20 : BitVec 8).toNat ≤ d.cpmLower 0 ∧
      d.cpmRaise 0 < (21 : BitVec 8).toNat ∧ (30 : BitVec 8).toNat ≤ d.cpmLower 0 ∧ d.cpmLower 0 < (31 : BitVec 8).toNat := by
  intro d
  have r : d.cpmRaise 0 = 20 := by
    show leAt (marginCal 0xC000) (0xC000 + 0) 2 = 20; rw [leAt_marginCal]; decide
  have l : d.cpmLower 0 = 30 := by
    show leAt (marginCal 0xC000) (0xC000 + 2) 2 = 30; rw [leAt_marginCal]; decide
  rw [r, l]
  exact ⟨by decide +kernel, by decide⟩

/-- With LOWER below RAISE a margin at RAISE lies above LOWER. -/
theorem witness_PowerResetsAndRegulators_lower :
    let d := (on fun d => lit0 { d with start := { d.start with cal := List.replicate 0xC000 0 ++ leBytes 2 20 } }).dev
    (20 : BitVec 8).toNat = d.cpmRaise 0 ∧ d.cpmLower 0 < (20 : BitVec 8).toNat := by
  have g : ∀ (n i : Nat) (l : List Byte), (List.replicate n 0 ++ l).getD (n + i) 0 = l.getD i 0 := fun n i l => by
    rw [List.getD_append_right _ _ _ _ (by rw [List.length_replicate]; exact Nat.le_add_right n i), List.length_replicate, Nat.add_sub_cancel_left]
  have h : ∀ a, leAt (List.replicate 0xC000 0 ++ leBytes 2 20) (0xC000 + a) 2 = leAt (leBytes 2 20) a 2 := fun a => by
    simp only [leAt, sliceBytes, Nat.add_assoc, g]
  refine ⟨?_, ?_⟩
  · show 20 = leAt (List.replicate 0xC000 0 ++ leBytes 2 20) (0xC000 + 0) 2; rw [h]; decide
  · show leAt (List.replicate 0xC000 0 ++ leBytes 2 20) (0xC000 + 2) 2 < 20; rw [h]; decide

theorem witness_ResetKeepsFusesFlashAndHostMemory : 15 < 16 ∧ State.reset.dev.start.writing = none ∧
    State.reset.dev.advBusy = false := by and_intros <;> decide +kernel

theorem witness_SensorsCoolantAndModel :
    (on id).dev.awake = true ∧
    (let s := on fun d => d.modTower 19 fun t => { t with throttle := [14] };
      (s.dev.tower (299 / 15)).throttle.contains (299 % 15) = true ∧ (s.dev.tower (0 / 15)).throttle.contains (0 % 15) = false) ∧
    (∀ b ∈ [true, false], ((on fun d => d.modHalf 1 fun x => { x with throttle := b }).dev.half 1).throttle = b) ∧
    (∀ b ∈ [true, false], ∀ n ∈ [2, 3], let s := on fun d => { d with thm := { d.thm with lowSamples := n, flowOk := b } };
      2 ≤ s.dev.thm.lowSamples ∧ s.dev.thm.flowOk = b) ∧
    (∀ n ∈ [0, 1], let s := on fun d => { d with thm := { d.thm with lowSamples := n, flowOk := true } };
      s.dev.thm.lowSamples = n ∧ s.dev.thm.flowOk = true) ∧
    (let s := on fun d => bitTo (gafReg 0x18) 9 1 { d with thm := { d.thm with flowOk := true, stopped := false } };
      s.dev.survival = true ∧ s.dev.thm.flowOk = true ∧ s.dev.allCool = true ∧ s.dev.thm.stopped = false ∧ (on id).dev.survival = false) ∧
    (let s := on fun d => { d.modTower 0 (fun t => { t with lit := true, model := [(0, 0), (1, 0), (2, 0), (3, 0)] }) with
        thm := { d.thm with tin := some 160, tout := some 200 } };
      s.dev.up 0 = true ∧ s.dev.thm.tin = some 160 ∧ s.dev.thm.tout = some 200 ∧ (∀ k < 4, (s.dev.tower 0).node k ≠ noNode) ∧
      s.dev.up 1 = false) ∧
    ((on id).dev.tower 0).layerVal 0 = none ∧ 40 ≤ ((160 : Int) - 100).natAbs ∧ ((160 : Int) - 150).natAbs < 40 ∧ ((190 : Int) - 160).natAbs < 40 ∧
    (∀ w ∈ [none, some ((100 : Int), (200 : Int), (1 : Int)), some (100, 200, -1), some (100, 160, 0), some (150, 160, 0), some (100, 190, 1)],
      let s := on fun d => d.modTower 0 fun t => { t with layer := [(0, 160)], wear := w };
      (s.dev.tower 0).layerVal 0 = some 160 ∧ (s.dev.tower 0).wear = w ∧ 40 ≤ ((200 : Int) - 160).natAbs ∧ ¬ 0 < (1 : Int) * (160 - 200) ∧
      0 < (-1 : Int) * (160 - 200)) := by and_intros <;> decide +kernel

theorem witness_LayerMarksHaveHysteresis : ∀ v ∈ [599, 600, 759, 760],
    let d := State.reset.dev.modTower 0 fun t => { t with lit := true, sens := (List.range 112).map fun i => (i, BitVec.ofNat 16 v) }
    d.formed = true ∧ (d.tower 0).value 2 = some (v : Int) ∧ (v : Int) ≠ noReading := by decide +kernel

/-- The check value that catalogues of CRC polynomials list for 0x04C11DB7, unreflected, of the characters 1 to 9. -/
theorem test_crc32 : crc32 ((List.range 9).map fun i => BitVec.ofNat 8 (0x31 + i)) = 0xFC891918 := by decide +kernel

/-- A field that lies in what follows a list. -/
theorem leAt_after (x y : List Byte) (n : Nat) (h : n = x.length) (k : Nat) : leAt (x ++ y) n k = leAt y 0 k := by
  subst h
  simp only [leAt, sliceBytes, List.getD_eq_getElem?_getD, Nat.zero_add]
  congr 2; funext i
  rw [List.getElem?_append_right (Nat.le_add_right _ _), Nat.add_sub_cancel_left]

theorem leAt_crc (v : Nat) (h : v < 2 ^ 32) (r : List Byte) : leAt (leBytes 4 v ++ r) 0 4 = v := by
  have e : sliceBytes (leBytes 4 v ++ r) 0 4 = leBytes 4 v := by simp [sliceBytes, leBytes, List.range_succ]
  rw [leAt, e, leNat_leBytes 4 v (by omega)]

/-- A field that lies within the front of a list. -/
theorem leAt_front (x y : List Byte) (n k : Nat) (h : n + k ≤ x.length) : leAt (x ++ y) n k = leAt x n k := by
  simp only [leAt, sliceBytes, List.getD_eq_getElem?_getD]
  congr 1
  refine List.map_congr_left fun i hi => ?_
  rw [List.getElem?_append_left (by have := List.mem_range.mp hi; omega)]

/-- A bridge flit of zeros whose CRC is c more than the right one. -/
def flitB (c : Nat) : List Byte :=
  List.replicate 508 0 ++ leBytes 4 (((crc32 (List.replicate 508 0)).toNat + c) % 2 ^ 32)

theorem flitB_intact (c : Nat) (h : c < 2 ^ 32) : (flitB c).length = 512 ∧ bridgeIntact (flitB c) = (c == 0) := by
  have l : (flitB c).length = 512 := by
    rw [flitB, List.length_append, List.length_replicate, length_leBytes]
  have z : ∀ k < 7, flitCmd (flitB c) k = false := fun k hk => by
    rw [flitCmd, flitB, leAt_front _ _ _ _ (by rw [List.length_replicate]; decide)]
    revert k hk; decide +kernel
  have e : bridgeIntact (flitB c) = ((crc32 (List.replicate 508 0)).toNat == ((crc32 (List.replicate 508 0)).toNat + c) % 2 ^ 32) := by
    rw [bridgeIntact, l, beq_self_eq_true, Bool.true_and, (List.all_eq_true (p := fun k => !flitCmd (flitB c) k || _)).mpr fun k hk => by
      rw [z k (List.mem_range.mp hk)]; rfl]
    rw [Bool.and_true, flitB, List.take_left' (by rw [List.length_replicate]), leAt_after _ _ _ (by rw [List.length_replicate]),
      ← List.append_nil (leBytes _ _), leAt_crc _ (Nat.mod_lt _ (by decide))]
  refine ⟨l, e.trans ?_⟩
  have := (crc32 (List.replicate 508 0)).isLt
  generalize (crc32 (List.replicate 508 0)).toNat = v at *
  rw [Bool.eq_iff_iff, beq_iff_eq, beq_iff_eq]
  omega

/-- A fabric flit of zeros whose CRC is c more than the right one. -/
def flitF (c : Nat) : List Byte :=
  List.replicate 12 0 ++ (leBytes 4 (((crc32 (List.replicate 300 0)).toNat + c) % 2 ^ 32) ++ List.replicate 288 0)

theorem flitF_intact (c : Nat) (h : c < 2 ^ 32) : (flitF c).length = 304 ∧ fabIntact (flitF c) = (c == 0) := by
  have l : (flitF c).length = 304 := by
    rw [flitF, List.length_append, List.length_append, List.length_replicate, List.length_replicate, length_leBytes]
  have z : leAt (flitF c) 0 12 = 0 := by
    rw [flitF, leAt_front _ _ _ _ (by simp)]
    decide +kernel
  have t : (flitF c).take 12 ++ (flitF c).drop 16 = List.replicate 300 0 := by
    rw [flitF, List.take_left' (by rw [List.length_replicate]), show (16 : Nat) = 12 + 4 from rfl, ← List.drop_drop,
      List.drop_left' (by rw [List.length_replicate]), List.drop_left' (length_leBytes _ _), ← List.replicate_add]
  have e : fabIntact (flitF c) = ((crc32 (List.replicate 300 0)).toNat == ((crc32 (List.replicate 300 0)).toNat + c) % 2 ^ 32) := by
    rw [fabIntact, l, t, z, beq_self_eq_true, Bool.true_and, show (field 0 25 2 != 3) = true from rfl, show decide (field 0 37 3 ≤ 4) = true from rfl, Bool.and_true, Bool.and_true,
      flitF, leAt_after _ _ _ (by rw [List.length_replicate]), leAt_crc _ (Nat.mod_lt _ (by decide))]
  refine ⟨l, e.trans ?_⟩
  have := (crc32 (List.replicate 300 0)).isLt
  generalize (crc32 (List.replicate 300 0)).toNat = v at *
  rw [Bool.eq_iff_iff, beq_iff_eq, beq_iff_eq]
  omega

theorem witness_flits : ((flitB 0).length = 512 ∧ bridgeIntact (flitB 0) = true) ∧ ((flitB 1).length = 512 ∧ bridgeIntact (flitB 1) = false) ∧
    ((flitF 0).length = 304 ∧ fabIntact (flitF 0) = true) ∧ ((flitF 1).length = 304 ∧ fabIntact (flitF 1) = false) :=
  ⟨flitB_intact 0 (by decide), flitB_intact 1 (by decide), flitF_intact 0 (by decide), flitF_intact 1 (by decide)⟩

/-- Bridge module m at a width and role. -/
def moduleAt (m width role : Nat) (d : Device) : Device := (d.setField (brgReg (0x100 + 8 * m)) 2 2 width).setField (brgReg (0x100 + 8 * m)) 0 2 role

/-- A link that keeps one flit. -/
def keeping : Link := { Link.reset with kept := [(0, [])] }

theorem witness_BridgeLinksCarryReplayAndRepair :
    (∀ w ∈ [1, 3], ∀ b ∈ [true, false], let s := on fun d => moduleAt 27 w 0 (d.modModule 27 fun x => { x with retraining := b });
      s.dev.clocked = true ∧ s.dev.modWidth 27 ≠ 0 ∧ s.dev.bridgeDead 27 = false ∧ (s.dev.module 27).retraining = b) ∧
    (∀ n ∈ [31, 32], let s := on fun d => moduleAt 0 3 1 (d.modModule 0 fun x => { x with
        eastward := keeping, westward := { keeping with kept := [], replayAt := List.replicate n 0 } })
      let e := (s.dev.count (brgReg 0x208) 1).modModule 0 fun x => x.setLink true { keeping with replayAt := [0] }
      ((s.dev.module 0).link true).kept ≠ [] ∧ ((s.dev.module 0).link false).kept = [] ∧ s.dev.bridgeDead 0 = false ∧
      (s.dev.module 0).retraining = false ∧
      ((e.module 0).eastward.recent s.dev.now).length + ((e.module 0).westward.recent s.dev.now).length = n + 1) ∧
    (∀ n ∈ [0, 4], let d := (on fun d => (moduleAt 0 3 2 d).setField (brgReg 0x100) 4 3 n).dev;
      d.modWidth 0 = 3 ∧ d.modRole 0 = 2 ∧ d.fieldOf (brgReg (0x100 + 8 * 0)) 4 3 + (4 - n) ≤ 4 ∧
      d.fieldOf (brgReg (0x100 + 8 * 0)) 7 3 + 4 ≤ 4 ∧ 4 < d.fieldOf (brgReg (0x100 + 8 * 0)) 4 3 + (5 - n)) ∧
    (∀ p ∈ [0, 1], let d := (on fun d => moduleAt 1 3 3 (moduleAt 0 3 3 (bitTo (brgReg 0x100) 11 p d))).dev
      let e := (d.setField (brgReg (0x100 + 8 * 0)) 2 2 0).countModules
      d.modRole 0 = 3 ∧ e.tickModules = [1] ∧ d.bitOf (brgReg (0x100 + 8 * 0)) 11 = (p == 1)) ∧
    (let d := (on (moduleAt 0 3 3)).dev; ((d.setField (brgReg (0x100 + 8 * 0)) 2 2 0).countModules).tickModules = []) ∧
    (on (moduleAt 0 3 1)).dev.modRole 0 = 1 ∧ (on (moduleAt 0 3 0)).dev.modRole 0 = 0 ∧ (on id).dev.modWidth 0 = 0 := by and_intros <;> decide +kernel

/-- A SEND of one row. -/
def sendCue (started : Bool) : QCue :=
  { queued (cue [(0, 2), (4, 5)]) with
    refs := [devVec 0 16 0, devVec 0 16 0], started := started
    work := if started then some (DmaWork.mk .device .device [] [] 0 []) else none }

/-- A collective job of one rank and 4 bytes, whole, at the start of half 1's store, whose first codeword has check difference x, and
engine 7 busy with b outputs. -/
def jobAt (w : Nat) (x : BitVec 16) (b : Nat) (d : Device) : Device :=
  { d.setReg (stoReg 1 0) 1 with
    mem := (Memory.empty.put 0x040100000004 [1, 0, 0, 0, 4]).setSyn (0x040100000000 / 16) x
    fab := { d.fab with jobs := [(7, [CollJob.mk 0x040100000000 5 w 4 false])], leaving := mset 0 [] 7 b } }

theorem witness_SendAndCombineMoveTheirData :
    (∀ b ∈ [true, false], let s := on (inUnit 5 (sendCue b));
      s.dev.towersRun = true ∧ (s.dev.core 0).headCue 5 [2] = some (sendCue b)) ∧
    ((on id).dev.core 0).headCue 5 [2] = none ∧
    (∀ w ∈ [3, 4], ∀ y ∈ [0, 1], let s := on (jobAt w 0 y)
      let d := s.dev.fresh
      let c := CollJob.mk 0x040100000000 5 w 4 false
      let r := (d.setJobs 7 ((d.jobs 7).map fun x => if x = c then { x with begun := true } else x)).ringRead 7 c.job 0x140
      let j := jobRec r.bytes
      s.dev.clocked = true ∧ d.take.state ≠ 3 ∧ d.collBusy 7 = (y == 1) ∧ d.readyJob 7 = (if w = 4 then some c else none) ∧ r.bad = [] ∧
      (r.dev.ringRead 7 (c.job + 0x400) (j.ranks * j.len)).bad = []) ∧
    (let d := (on (jobAt 4 3 0)).dev.fresh
      let c := CollJob.mk 0x040100000000 5 4 4 false
      ((d.setJobs 7 ((d.jobs 7).map fun x => if x = c then { x with begun := true } else x)).ringRead 7 c.job 0x140).bad ≠ []) := by
  and_intros <;> decide +kernel

/-- The part has address 5. -/
def addressed (d : Device) : Device := d.setField (fabReg 0) 8 16 5

theorem witness_PacketsForThePartAndTheirTags :
    (∀ st ∈ [3, 4], ∀ b ∈ [true, false],
      let s := on fun d => addressed (portAt 15 st 1 (d.modPort 15 fun x => { x with rx := if b then [] else [(0, [pkt 6 1 0 []]), (4, [pkt 6 0x11 4 []])] }));
      s.dev.clocked = true ∧ s.dev.dataPort 15 = true ∧
      (∀ a ∈ [5, 0xFFFF], (pkt a 1 0 []).wf = true ∧ (pkt a 1 0 []).kind.toNat = 1 ∧ s.dev.isMine (pkt a 1 0 []) = true ∧
        s.dev.rxFirst 15 (pkt a 1 0 []) = b) ∧
      (pkt 5 2 0 []).wf = true ∧ (pkt 5 2 0 []).kind.toNat = 2 ∧ (pkt 5 2 0 []).dest.toNat = s.dev.fresh.fabAddr ∧
      s.dev.fresh.rxFirst 15 (pkt 5 2 0 []) = b ∧ s.dev.fresh.dataPort 15 = true ∧
      (pkt 5 0x10 4 (List.replicate 4 0)).wf = true ∧ (pkt 5 0x10 4 (List.replicate 4 0)).kind.toNat = 0x10 ∧
      s.dev.rxFirst 15 (pkt 5 0x10 4 (List.replicate 4 0)) = b ∧
      s.dev.isMine (pkt 6 1 0 []) = false ∧ (pkt 0xFFFF 2 0 []).dest.toNat ≠ s.dev.fabAddr) ∧
    (let s := on fun d => ready (addressed (portAt 15 3 1 d))
      let k := { pkt 5 1 0 (List.replicate 16 0) with addr := 0x040000000000 }
      (s.dev.takeRx 15 k).landable k = true ∧ (s.dev.takeRx 15 (pkt 5 1 0 [])).landable { k with addr := 8 } = false) ∧
    (on id).dev.dataPort 0 = false ∧ (on (portAt 0 3 3)).dev.dataPort 0 = false ∧
    (∀ st ∈ [TagState.free, .requested, .timedOut], let s := on fun d => d.setFabTag 0 4095 { FabTag.reset with st := st };
      s.dev.clocked = true ∧ (s.dev.fabTag 0 4095).st = st) := by and_intros <;> decide +kernel

/-- A packet in flight after h hops, of source a. -/
def hopped (dest h src : Nat) : Packet := { pkt dest 1 0 [] with hops := BitVec.ofNat 8 h, src := BitVec.ofNat 16 src }

theorem witness_FabricFlitsAndPacketsForOthers :
    (let s := on fun d => addressed (portAt 0 3 1 d);
      s.dev.dataPort 0 = true ∧ s.dev.fabAddr = 5 ∧ (∀ h ∈ [0, 15, 16], ∀ a ∈ [0, 0xFFFE, 0xFFFF],
        (hopped a h 1).wf = true ∧ (hopped a h 1).kind.toNat = 1 ∧ (hopped a h 1).dest.toNat ≠ s.dev.fabAddr ∧ (hopped a h 1).hops.toNat = h ∧
        s.dev.rxFirst 0 (hopped a h 1) = true ∧ s.dev.forwardPort 0 (hopped a h 1) = none) ∧
      ({ s.dev with fab := { s.dev.fab with routes := [(6, 0x01000001)] } }.forwardPort 0 (hopped 6 0 1)).isSome = true ∧
      ((s.dev.modPort 0 fun x => { x with rx := [(0, [hopped 7 0 1])] }).rxFirst 0 (hopped 6 0 1) = false) ∧
      (hopped 5 0 1).dest.toNat = s.dev.fabAddr) ∧
    (let s := on fun d => addressed (d.modPort 0 fun x => { x with tx := [hopped 6 0 1], rx := [(0, [hopped 7 0 1])] });
      (hopped 6 0 1).src.toNat ≠ s.dev.fabAddr ∧ (s.dev.port 0).tx.contains (hopped 6 0 1) = true ∧
      (s.dev.port 0).tx.contains (hopped 7 0 1) = false ∧ (mget [] (s.dev.port 0).rx (pktBuf (hopped 7 0 1))).contains (hopped 7 0 1) = true ∧
      (hopped 6 0 5).src.toNat = s.dev.fabAddr) ∧
    (let s := on fun d => portAt 0 4 1 (d.modPort 0 fun x => { x with link := keeping });
      s.dev.portUp 0 = true ∧ (s.dev.port 0).link.kept ≠ [] ∧ (on id).dev.portUp 0 = false ∧ ((on id).dev.port 0).link.kept = []) := by
  and_intros <;> decide +kernel

theorem witness_TreeReductionOrder : ([1, 2] : List Nat).length = 2 ^ 1 ∧ ([0] : List Nat).length = 2 ^ 0 := by decide

/-- Port 0 up and the part alone, its identity 9. -/
def alone (d : Device) : Device := portAt 0 3 1 { d with fab := { d.fab with identity := 9, cand := 9, electing := true } }

/-- A beacon of an identity that shows a candidate. -/
def beaconOf (ident cand : Nat) : List Byte := leBytes 8 ident ++ List.replicate 32 0 ++ leBytes 8 cand ++ List.replicate 16 0

theorem witness_DiscoveryAndPorts :
    (let s := on alone;
      s.dev.clocked = true ∧ s.dev.portUp 0 = true ∧ leAt (beaconOf 9 9) 0 8 = s.dev.fab.identity.toNat ∧
      leAt (beaconOf 8 9) 0 8 ≠ (s.dev.takeHead 0 4).fab.identity.toNat ∧ s.dev.portUp 1 = false ∧
      s.dev.rxNext 0 4 (fun k => k.kind.toNat == 0x11 && k.payload == beaconOf 9 9) = true ∧
      (s.dev.modPort 0 fun x => { x with rx := [(4, [pkt 1 0x13 4 []])] }).rxNext 0 4 (fun k => k.kind.toNat == 0x11 && k.payload == beaconOf 9 9) = false) ∧
    (let s := on fun d => { (alone d).modPort 0 fun x => { x with beacon := some (beaconOf 8 9) } with
        start := { d.start with settings := List.replicate 0x0F 0 ++ [1] } };
      s.dev.fab.electing = true ∧ s.dev.isFrozen = false ∧ s.dev.fab.cand = s.dev.fab.identity ∧ s.dev.joinPorts = [0] ∧
      (s.dev.port 0).beacon = some (beaconOf 8 9) ∧ leAt (beaconOf 8 9) 0x28 8 = s.dev.fab.identity.toNat) ∧
    ({ State.reset.dev.fab with cand := 1, identity := 2 } : Fabric).cand ≠ 2 ∧
    (on fun d => d.setBit (fabReg 0) 3).dev.isFrozen = true ∧
    (let s := on fun d => bitTo (fabReg 0) 1 0 (portAt 0 3 1 { d with fab := { d.fab with parent := some 0 } });
      (∀ n ∈ [0x14, 0x15, 0x16], (pkt 0xFFFF n 4 []).wf = true ∧ s.dev.fromParent 0 = true ∧ s.dev.rxFirst 0 (pkt 0xFFFF n 4 []) = true ∧
        s.dev.portUp 0 = true ∧ (pkt 0xFFFF n 4 []).kind.toNat = n) ∧ s.dev.fromParent 1 = false ∧
      s.dev.joins 0 = true ∧ s.dev.isFrozen = false ∧ (∀ a ∈ [0xFFFE, 5], (pkt a 0x13 4 []).wf = true ∧ (pkt a 0x13 4 []).kind.toNat = 0x13 ∧ s.dev.rxFirst 0 (pkt a 0x13 4 []) = true) ∧
      (pkt 0xFFFE 0x13 0 []).dest.toNat = 0xFFFE ∧ (pkt 5 0x13 0 []).dest.toNat ≠ 0xFFFE ∧ (pkt 5 0x13 0 []).hops.toNat < 16 ∧
      (s.dev.takeRx 0 (pkt 5 0x13 0 [])).fab.parent = some 0 ∧ (s.dev.takeRx 0 (pkt 5 0x13 0 [])).bitOf (fabReg 0) 1 = false) ∧
    (let s := on fun d => bitTo (fabReg 0) 1 1 (portAt 0 3 1 { d with fab := { d.fab with topo := [[]], electing := false } });
      s.dev.bitOf (fabReg 0) 1 = true ∧ s.dev.fab.electing = false ∧ s.dev.isFrozen = false ∧ s.dev.fab.topo ≠ [] ∧
      (s.dev.takeRx 0 (pkt 0xFFFE 0x13 0 [])).bitOf (fabReg 0) 1 = true) := by and_intros <;> decide +kernel

theorem witness_DiscoveryAndPorts_ports :
    (∀ st ∈ [1, 2, 3, 4, 5], let s := on (portAt 15 st 1);
      s.dev.clocked = true ∧ s.dev.portState 15 = st ∧ s.dev.portRole 15 ≠ 0 ∧ s.dev.portUp 15 = (st == 3 || st == 4)) ∧
    (let s := on (portAt 0 3 1);
      s.dev.portUp 0 = true ∧ (s.dev.port 0).badLanes = [] ∧ (bitTo (portReg 0) 5 0 s.dev).bitOf (portReg 0) 5 = false ∧ 7 ∈ s.dev.lanesInUse 0 ∧
      0 ∈ s.dev.lanesInUse 0 ∧ ((s.dev.modPort 0 fun x => { x with badLanes := [7] }).port 0).badLanes.contains 7 = true) ∧
    (on id).dev.eligible = bit ((on id).dev.setting 0x00F 1 1) 0 := by and_intros <;> decide +kernel

theorem witness_HostLinkResetsAndPowerStates :
    (∀ n ∈ [0, 6], let s := on fun d => bitTo (hstReg 0) 11 0 { d with
        pins := { d.pins with perstN := true }, start := { d.start with phaseDone := 2 } };
      s.dev.awake = true ∧ s.dev.linkUp = false ∧ s.dev.pins.perstN = true ∧ 2 ≤ s.dev.start.phaseDone ∧ (BitVec.ofNat 4 n).toNat ≤ 6) ∧
    ((1 : BitVec 5).toNat ∈ [1, 2, 4, 8, 16] ∧ (16 : BitVec 5).toNat ∈ [1, 2, 4, 8, 16]) ∧
    (∀ b ∈ [0, 1], let s := on fun d => bitTo (svcReg 0xB000) 3 b (bitTo (svcReg 0xB000) 5 0 (bitTo (hstReg 0) 10 b (bitTo (hstReg 0) 11 1 d)));
      s.dev.linkUp = true ∧ s.dev.cfgOpen = (b == 1) ∧ s.dev.bitOf (hstReg 0) 10 = (b == 1)) ∧
    (off id).dev.awake = false := by and_intros <;> decide +kernel

/-- The host port is open, its BAR2 of 2^46 bytes, and half 0 presents its store. -/
def opened (d : Device) : Device := ready <| bitTo (hstReg 0) 10 0 (bitTo (hstReg 0) 11 1 (served { d with host := { d.host with bar2Log2 := 46 } }))

theorem witness_HostAccessesDoorbellsAndVectors :
    ((on opened).dev.awake = true ∧ (on opened).dev.hostThere = true ∧ (on opened).dev.hostOpen = true) ∧
    (0x040000000000 + 64 ≤ 2 ^ (on opened).dev.host.bar2Log2 ∧ 2 ^ (on opened).dev.host.bar2Log2 < 2 ^ 46 - 63 + 64 ∧
      (on opened).dev.legalRun ((on opened).dev.bar2Addr 0x040000000000) 64 = true ∧
      (on opened).dev.legalRun ((on opened).dev.bar2Addr 0x030000000000) 64 = false) ∧
    (0xFFFF0 + 16 ≤ 0x100000 ∧ 0x1FFFFFF8 + 8 ≤ 0x20000000 ∧ 4 % 8 ≠ 0 ∧ (regLocate 0).isSome = true ∧
      (∀ l ∈ regLocate 0, (on opened).dev.answers l = true) ∧ regLocate 0x00400000 = none ∧ (4 = 4 ∨ 4 = 8) ∧ 8 % 4 = 0 ∧
      (∀ l ∈ regLocate 0, regThere l = true) ∧ regLocate 24 = some ⟨.svc, 0, 24⟩ ∧ regThere ⟨.svc, 0, 24⟩ = false ∧
      (regLocate 0x10000200).isSome = true ∧ ∀ l ∈ regLocate 0x10000200, regThere l = true ∧ (on opened).dev.answers l = false) ∧
    ((on id).dev.hostThere = false ∧ (on id).dev.hostOpen = false ∧
      (on fun d => bitTo (hstReg 0) 10 1 (opened d)).dev.hostThere = true ∧ (on fun d => bitTo (hstReg 0) 10 1 (opened d)).dev.hostOpen = false) := by
  and_intros <;> decide +kernel

/-- Events of vectors 0 and 7 are enabled; vector 7 is not masked in its entry. -/
def vectored (b : Bool) (d : Device) : Device :=
  { (bitTo (hstReg 0) 10 0 d).setReg (svcReg 0x108) 0x81 with
    host := { d.host with msixEnable := true, funcMask := b, msix := mset msixReset d.host.msix 7 0 } }

theorem witness_VectorsSendOrPend :
    (∀ b ∈ [true, false], let e := (vectored b State.reset.dev).setBit (svcReg 0x100) 7;
      e.bitOf (svcReg 0x108) 7 = true ∧ e.vectorOpen 7 = !b) ∧
    ((vectored false State.reset.dev).setBit (svcReg 0x100) 6).bitOf (svcReg 0x108) 6 = false := by and_intros <;> decide +kernel

/-- DMA engine 7 runs, with a ring of 16 entries in the host's memory at 0 and TAIL 1. -/
def ringed (f : DmaEngine → DmaEngine) (m : Memory) (d : Device) : Device :=
  let d := (bitTo (dmaReg 7 0x28) 0 1 (bitTo (dmaReg 7 0x28) 1 0 (reaches (ready d)))).setField (dmaReg 7 0x18) 0 16 1
  { d with hostMem := m }.modEngine 7 f

/-- A descriptor of 64 bytes for store address 0 of the west half. -/
def goodDesc : Memory := (Memory.empty.put 8 (leBytes 6 0x040000000000)).put 16 (leBytes 4 64)

/-- A started descriptor. -/
def started (b : Bool) : DmaDesc where
  host := 0
  dev := 0x040000000000
  len := 64
  flags := 0
  vector := 0
  db := 0
  moved := if b then 64 else 0
  done := b
  id := 0
  acked := 0
  cause := 0

theorem witness_DmaEnginesRunTheirRings :
    (∀ l ∈ [[], [started true]], let d := (on fun d => d.modEngine 7 fun x => { x with flight := l }).dev
      d.bitOf (dmaReg 7 0x28) 0 = false ∧ ((d.setBit (dmaReg 7 0x28) 0).engine 7).flight = l) ∧
    (∀ f ∈ [0, 1, 4], ∀ b ∈ [true, false], ∀ l ∈ [[], [started true]],
      let d := (on (ringed (fun x => { x with flight := l }) (if b then goodDesc.put 20 [BitVec.ofNat 8 f] else Memory.empty))).dev
      let p := parseDesc (d.hostGet ((d.reg (dmaReg 7 0)).toNat + 32 * (d.engine 7).startAt) 32).1
      d.clocked = true ∧ d.bitOf (dmaReg 7 0x28) 0 = true ∧ d.bitOf (dmaReg 7 0x28) 1 = false ∧ (d.engine 7).paused = false ∧ d.hostReach = true ∧
      (d.engine 7).startAt ≠ d.dmaTail 7 ∧ (d.engine 7).flight = l ∧ (d.descError p.1 p.2 == 0) = b ∧ (b = true → p.1.flags = f)) ∧
    (∀ b ∈ [true, false], let d := (on (ringed (fun x => { x with flight := [started b] }) goodDesc)).dev;
      d.clocked = true ∧ (d.engine 7).flight = [started b] ∧ (started b).done = b ∧ (started b).cause = 0 ∧
      (d.engine 7).wanting = (if b then none else some (started false)) ∧
      d.legalRun ((started b).dev + (started b).moved) (min 512 ((started false).len)) = true ∧ d.legalRun (0x030000000000 + 0) 64 = false) ∧
    ((on id).dev.engine 7).wanting = none := by
  and_intros <;> decide +kernel

/-- Capacity channel 0 fitted and in service, with 2^34 bytes. -/
def fitted (d : Device) : Device := (d.setField (lpdReg 0x100) 0 2 2).setField (lpdReg 0x100) 2 2 0

theorem witness_CapacityMemoryServes : (on fitted).dev.awake = true ∧
    (on fitted).dev.clocked = true ∧
    (∀ b ∈ [true, false], let d := (on fun d => { bitTo (lpdReg 0x100) 4 (if b then 1 else 0) (fitted d) with
        lpd := [(0, { LpdChan.reset with hot := [3] })] }).dev
      2 ≤ d.fieldOf (lpdReg (0x100 + 8 * 0)) 0 2 ∧ ((mget LpdChan.reset d.lpd 0).hot.contains 3 && d.bitOf (lpdReg (0x100 + 8 * 0)) 4) = b ∧
      (mget LpdChan.reset d.lpd 0).hot.contains 2 = false) ∧
    (regionOf (0x080000000000#48).toNat = .capacity 0 0 ∧ regionOf (0x080400000000#48).toNat = .capacity 0 (2 ^ 34) ∧
      (on fitted).dev.legalRun (0x080000000000#48).toNat 64 = true ∧ (on fitted).dev.legalRun (0x080400000000#48).toNat 64 = false ∧
      (match regionOf 0 with | .capacity _ _ => false | _ => true) = true) ∧
    ((on fitted).dev.fieldOf (lpdReg (0x100 + 8 * 0)) 0 2 = 2 ∧ (on id).dev.fieldOf (lpdReg (0x100 + 8 * 0)) 0 2 < 2) := by
  and_intros <;> decide +kernel

theorem witness_ManagementCommandsAnswer :
    (∀ n ∈ [0, 1, 2, 3, 4, 7], let s := on fun d => bitTo (svcReg 0xB000) 5 0 { d with start := { d.start with phaseDone := n } };
      s.dev.awake = true ∧ s.dev.start.phaseDone = n ∧ (s.dev.half 0).lost = false ∧ s.dev.bitOf (svcReg 0xB000) 5 = false) ∧
    (on fun d => bitTo (svcReg 0xB000) 5 1 { d with start := { d.start with phaseDone := 2 } }).dev.bitOf (svcReg 0xB000) 5 = true ∧
    (1 : Byte) ≠ 0 ∧ (1 : Byte) ≠ 0xFF ∧ (31 : BitVec 32).toNat ≤ 31 ∧ 1 ≤ (1 : BitVec 16).toNat ∧ (30 : BitVec 16).toNat ≤ 30 := by
  and_intros <;> decide +kernel

/-- Dies of both kinds in the chain, the given things released. -/
def chained (lock : Bool) (holds : Option Nat) (d : Device) : Device :=
  { d with tst := { d.tst with included := [151, 301], parHolds := holds }, fuses := { d.fuses with lock := lock } }

theorem witness_IdcodeNamesTheDie : (on (chained false none)).dev.awake = true ∧ (on (chained false none)).dev.tst.has 0 = true ∧
    ((on (chained false none)).dev.half 0).lost = false ∧
    (on (chained false none)).dev.tst.has 301 = true ∧ (on (chained false none)).dev.tst.has 300 = false := by and_intros <;> decide +kernel

theorem witness_TestAccessActsOnItsDies :
    (∀ l ∈ [true, false], ∀ h ∈ [none, some 301], let s := on (chained l h);
      s.dev.awake = true ∧ s.dev.tst.has (basePos true) = true ∧ s.dev.tst.has (basePos false) = true ∧ s.dev.tst.has 301 = true ∧
      s.dev.tst.has 1 = false ∧ s.dev.released 1 = !l ∧ s.dev.released 0 = !l ∧ s.dev.tst.parHolds = h) ∧
    (((on (chained true none)).dev.half 0).lost = false ∧ ((on fun d => d.modHalf 0 fun x => { x with lost := true }).dev.half 0).lost = true) ∧
    (∀ i ∈ [0, 301], ∀ c ∈ [0x03, 0x13, 0xFE, 0xFF], irSelects i c = 0xFF) ∧ irSelects 301 0x02 ≠ 0xFF ∧ irSelects 0 0x12 ≠ 0xFF ∧
    (∀ b ∈ [true, false], let d := (on fun d => { chained false none d with
        tst := { (chained false none d).tst with tapHolds := some (301, if b then d.now else d.now + 1) } }).dev
      d.released 2 = true ∧ d.bitOf (tstReg 0x100) 10 = false ∧ decide (d.tst.tapHolds = some (301, d.now)) = b) ∧
    (field (2 ^ 9 + 301) 11 5 = 0 ∧ field (2 ^ 9 + 301) 22 42 = 0 ∧ field (2 ^ 11) 11 5 ≠ 0 ∧ field (2 ^ 63) 22 42 ≠ 0) ∧
    ((on (bitTo (tstReg 0x100) 10 1)).dev.bitOf (tstReg 0x100) 10 = true ∧ (on (bitTo (tstReg 0x100) 10 0)).dev.bitOf (tstReg 0x100) 10 = false) := by
  and_intros <;> decide +kernel

theorem witness_ReservedBitsVoidARegisterWrite :
    let s := on id
    let l : RegLoc := ⟨.svc, 0, 0x108⟩
    s.dev.awake = true ∧ 0x108 % 8 = 0 ∧ regLocate 0x108 = some l ∧ s.dev.answers l = true ∧ (regDesc? l.blk 0x108).isSome = true ∧
    (∀ r ∈ regDesc? l.blk 0x108, (2 ^ 63).testBit 63 = true ∧ ∀ f ∈ regFields l r, 63 < f.lo ∨ f.lo + f.n ≤ 63) := by
  and_intros <;> decide +kernel

theorem witness_FieldsTakeTheirAccess : (2 ^ 64 - 1 : Nat) < 2 ^ 64 ∧ 63 + 1 ≤ 64 ∧ holds 32 32 63 1 = true ∧ holds 0 32 63 1 = false ∧
    holds 0 32 31 2 = false := by decide

theorem witness_RegisterCommandsAct :
    (4 % 8 ≠ 0 ∧ 0x108 % 8 = 0 ∧ regLocate 0x00400000 = none ∧ (regLocate 0x10C).isSome = true ∧
      regLocate 24 = some ⟨.svc, 0, 24⟩ ∧ regThere ⟨.svc, 0, 24⟩ = false ∧ regThere ⟨.svc, 0, 0x108⟩ = true ∧
      (∀ l ∈ regLocate 0x10000200, regThere l = true ∧ (on id).dev.answers l = false) ∧
      ∀ l ∈ regLocate 0x10C, (on id).dev.answers l = true) ∧
    ((on lit0).dev.up 0 = true ∧ (on lit0).dev.up 19 = false ∧ ((on lit0).dev.half 1).lost = false) ∧
    ((on lit0).dev.answers (flipLoc (.core 23)) = true ∧ (on lit0).dev.answers (flipLoc .host) = true) ∧
    (let s := on fun d => { d with start := { d.start with windowBlock := some 0 } };
      s.dev.start.windowBlock = some 0 ∧ 0 < 2 ^ (leNat (s.dev.flashRead 6 1) - 12) ∧ (on id).dev.start.windowBlock = none) := by
  and_intros <;> decide +kernel

/-- The premises of the invariants at a state. -/
theorem witness_invariants : State.reset.dev.formed = true ∧ State.reset.dev.heldBlank :=
  ⟨by decide +kernel, fun _ => ⟨rfl, rfl, rfl, rfl⟩⟩

theorem witness_heldBlank : (off id).dev.awake = false ∧ (off id).dev.heldBlank :=
  ⟨by decide +kernel, fun _ => ⟨by decide +kernel, rfl, rfl, rfl⟩⟩

theorem witness_steps_answer (s : State) (h : s.pending = []) : step s = .next { s with dev := s.dev.idle } := by
  simp only [step, h]

theorem witness_HeldPartIsInert : (off id).dev.awake = false ∧ (Instr.nop 0).wf = true ∧
    Instr.nop 0 ∉ [Instr.powerGood, .resetRelease, .coldReset, .deviceReset, .powerLoss, .powerReturn, .resetNRelease, .perstRelease] := by
  and_intros <;> decide +kernel

theorem witness_CodewordsAndStores : Memory.empty.wf = true ∧ (List.replicate 16 (0 : Byte)).length = 16 ∧ (143 : Nat) < 144 ∧
    2 ≤ popcount8 3 ∧ 2 ≤ popcount8 0xFF ∧ (((State.reset.dev.noteWord 0 (State.reset.dev.mem.cw 0) 0).dropBack 0).flipFor 0 false).1 = none ∧
    (State.reset.dev.wireMask 0).1 = none ∧
    (∀ c ∈ cwsOf 0 64, (match regionOf (16 * c) with | .store _ _ => false | _ => true) = true) := by and_intros <;> decide +kernel

theorem witness_LogEntriesTakeTheirPlaces : KeysRise 0 Log.reset.entries = true ∧ (4 : Nat) ≠ 0 ∧ (Log.reset.write 4 0 0 0 0 0).isSome = true ∧
    (let l : Log := { entries := (List.range 256).map fun i => (i, { LogEntry.reset with kind := 4, cls := 4, addr := i + 1 }), seq := 0 };
      KeysRise 0 l.entries = true ∧ (l.write 4 0 0 0 0 0).isNone = true) ∧
    (∀ c ∈ [0, 1], let l : Log := { entries := (List.range 256).map fun i => (i, { LogEntry.reset with kind := 4, cls := c, addr := i + 1 }), seq := 0 };
      KeysRise 0 l.entries = true ∧ (∀ i < 256, (mget LogEntry.reset l.entries i).kind ≠ 0) ∧
      (l.write 4 0 0 0 0 0).isSome = true ∧ (l.write 4 0 1 0 0 0).isSome = true ∧ (mget LogEntry.reset l.entries 0).addr = 1) := by and_intros <;> decide +kernel

/-! The worked examples of spec/. -/

/-- spec/12: the data bytes of the example. -/
def eccData : List Byte := [0x3C, 1, 0, 0, 0, 0x80, 0, 0, 0, 7, 0, 0, 0, 0, 0, 0]

theorem test_ecc_example : eccEncode eccData = 0x5FBA ∧ eccCheck 0x4204 = .corrected 42 ∧ eccCheck 0x0003 = .uncorrectable ∧
    eccCheck 0x4D0B = .poison (some 42) ∧ eccEncode (setAt eccData 5 0x84) ^^^ 0x5FBA = 0x4204 := by decide +kernel

/-- spec/02: the operands of the MXFP4 example, E2M1 codes with their scale bytes. -/
def fp4Vals (scale : Nat) (codes : List Nat) : List FV := codes.map fun c => scaledVal 8 c scale

theorem test_mxfp4_example :
    let a := fp4Vals 0x7E [7, 0xB, 1, 5, 0, 0, 0, 0]
    let b := fp4Vals 0x84 [6, 4, 0xF, 1, 0, 0, 0, 0]
    laneExp a = 1 ∧ laneExp b = 7 ∧
    (cellFeed false 8 (Cell.mk 0 29 false false, FeedFlags.none) a b).1.acc = 312 * 2 ^ 65 ∧
    (cellOut false 0 (.rne) (Cell.mk (312 * 2 ^ 65) 29 false false)).1 = 0x439C0000 ∧
    (cellFeed false 8 (Cell.mk 0 7 false false, FeedFlags.none) a b).1 = Cell.mk (2 ^ 95 - 1) 7 true false ∧
    (cellOut false 0 (.rne) (Cell.mk (2 ^ 95 - 1) 7 true false)).1 = 0x43800000 := by decide +kernel

theorem test_bf16_example :
    let a := [0x41C0, 0x2B80, 0x2AC0, 0xC200].map (elemVal 1)
    let b := [0x40A0, 0x2681, 0x2A80, 0x3F00].map (elemVal 1)
    let r := cellFeed false 2 (Cell.mk 0 10 false false, FeedFlags.none) a b
    r.1.acc = 0x068000000000000000000002 ∧ r.2.inexact = true ∧ r.2.lost = 1 ∧ (cellOut false 1 .rne r.1).1 = 0x42D0 ∧
    (cellFeed false 2 (Cell.mk 0 28 false false, FeedFlags.none) a b).2.lost = 2 := by decide +kernel

/-- spec/06: the entries of T and the exact points of the functions that the text gives. -/
theorem test_function_examples : tabT.getD 0 0 = 0x3F800000 ∧ tabT.getD 16 0 = 0x3F9837F0 ∧ tabT.getD 32 0 = 0x3FB504F3 ∧ tabT.getD 48 0 = 0x3FD744FD ∧
    log2Fn 0x3F800000 = 0 ∧ recipFn 0x40800000 = 0x3E800000 ∧ rsqrtFn 0x40800000 = 0x3F000000 ∧ siluFn 0xC3480000 = 0x80000000 ∧
    exp2Fn 0xC0000000 = 0x3E800000 ∧ recipFn 0x40000000 = 0x3F000000 := by decide +kernel

theorem test_store_place_example : storePlace 0x01234567 = (156, 0x12367) := by decide +kernel

/-- spec/05: the matrix cue and the remote signal. -/
theorem test_cue_examples :
    (let m := matrixOf 0x0000000000000F000001100000000510#128;
      m.shape = 0 ∧ m.af = 2 ∧ m.bf = 2 ∧ m.kn = 512 ∧ m.k0 = 0 ∧ m.tiles = 1 ∧ m.opens = true ∧ m.closes = true ∧ matrixUnitCodes Core.reset m = []) ∧
    leBytes 16 0x0000000000000F000001100000000510 = [0x10, 5, 0, 0, 0, 0x10, 1, 0, 0, 0x0F, 0, 0, 0, 0, 0, 0] ∧
    (let q := 0x00000000000000080094490000000002#128; cf q 40 9 = 73 ∧ cf q 49 6 = 10 ∧ cf q 55 8 = 1 ∧ cf q 63 7 = 0x10) := by
  and_intros <;> decide +kernel

/-- spec/03: the feed of a 256 by 16 FP8 cue of depth 512. -/
theorem test_feed_example : let m := matrixOf (cue [(4, 1), (40, 4), (43, 2), (47, 2), (72, 15)])
    stepNeed m 4 = 1088 ∧ feedCycles m 4 1 = 218 := by decide +kernel

/-- spec/08: the effective scores at frame 200. -/
theorem test_score_example :
    let d := State.reset.dev.setField (corReg 0 0x700) 4 4 4
    let hdr := fun (score stamp : Nat) => ({ bytes := List.replicate 16 0 ++ leBytes 4 score ++ leBytes 6 stamp } : PageHdr)
    d.effScore 0 200 (hdr 0x41400000 150) = 0x3FC00000 ∧ d.effScore 0 200 (hdr 0x42200000 100) = 0x3F200000 ∧
    d.effScore 0 200 (hdr 0x40400000 196) = 0x40400000 ∧ d.effScore 0 200 (hdr 0x40200000 120) = 0x3DA00000 := by decide +kernel

/-- spec/19: the supply limit of tower T4 at VCODE 9 with 16 and with 15 phases. -/
theorem test_supply_example :
    let d := fun n => ((State.reset.dev.setField (gafReg 0) 0 10 100).setField (twrReg 4 0x303000) 0 6 9).setField (twrReg 4 0x303000) 8 5 n
    ((d 16).supplyLimit 4).floor = 9788 ∧ ((d 15).supplyLimit 4).floor = 9177 := by decide +kernel

/-- spec/20: the maps of tower T6. -/
theorem test_unit_map_example :
    let usable := fun (bad : List Nat) => (List.range 26).filter fun p => !bad.contains p
    (unitMap (usable [5, 24]) 24).length = 24 ∧ (5, 25) ∈ unitMap (usable [5, 24]) 24 ∧ (unitMap (usable [5, 17, 24]) 24).length = 23 ∧
    (5, 23) ∈ unitMap (usable [5, 17, 24]) 24 ∧ (17, 25) ∈ unitMap (usable [5, 17, 24]) 24 := by decide +kernel

/-- spec/18: the swing from 35.0 to 98.0 °C is counted when the value has turned by 5 °C. -/
theorem test_wear_example :
    let s := on fun d => d.modTower 0 fun t => { t with layer := [(0, 744)], wear := some (280, 784, 1) }
    ((after (.wearSample 0) s).reg (thmReg 0x1038)).toNat = 254016 ∧ (after (.wearSample 0) s).fieldOf (thmReg 0x1030) 42 21 = 1 ∧
    ((after (.wearSample 0) (on fun d => d.modTower 0 fun t => { t with layer := [(0, 745)], wear := some (280, 784, 1) })).reg (thmReg 0x1038)).toNat
      = 0 := by decide +kernel

/-- spec/21: the advance target of the example. -/
theorem test_rollback_example : ({ State.reset.dev with start := { State.reset.dev.start with rollbacks := [3, 4, 3] } } : Device).rollbackTarget = 3 := by
  decide +kernel

/-! Single commands. -/

/-- The remote signal of the example leaves issue with its fields. -/
theorem test_sig_remote :
    let q := 0x00000000000000080094490000000002#128
    let s := on fun d => lists q (d.modTower 3 fun t => { t with lit := true, lumap := [(1, 1)] })
    (after (.cueIssue 0) s).take.signals = [Signal.mk 0 73 10 1 0x10 0 false] ∧ ((after (.sigRemote 0) s).core 0).pc = 1 := by decide +kernel

theorem test_sig_local_saturates : let s := on fun d => evt1 (2 ^ 32 - 1) (lists (cue [(0, 1), (40, 1), (46, 1)]) d)
    mget 0 ((after (.sigLocal 0) s).core 0).evt 1 = BitVec.allOnes 32 := by decide +kernel

theorem test_jump_back :
    let l := [Codeword.mk 0 0, Codeword.mk (cue [(0, 5), (40, 8191)]) 0]
    let s := on fun d => core0 (fun c => { c with pc := 1, list := l }) (lists 0 d)
    ((after (.jump 0) s).core 0).pc = 0 ∧ ((after (.loop 0) s).core 0).pc = 1 := by decide +kernel

theorem test_add_fp32 : let q := vecCue 1 [] [vec 0 1 0, vec 0 1 16, vec 0 1 32]
    let s := on fun d => core0 (fun c => { c with scratch := words [0x3F800000, 0, 0, 0, 0x40000000] }) (inUnit 2 q d)
    ((after (.add 0) s).core 0).scratch.read 32 4 = leBytes 4 0x40400000 ∧ ((after (.mul 0) s).core 0).scratch.read 32 4 = leBytes 4 0 := by
  decide +kernel

theorem test_recip_fp32 : let q := { queued (cue [(0, 2), (4, 3)]) with refs := [vec 0 1 0, vec 0 1 16] }
    let s := on fun d => core0 (fun c => { c with scratch := words [0x40800000] }) (inUnit 3 q d)
    ((after (.recip 0) s).core 0).scratch.read 16 4 = leBytes 4 0x3E800000 := by decide +kernel

theorem test_store_write_then_read : let s := on (enters (asked true))
    ((after (.storeWrite .west 5) s).mem.read 0x040000000000 64 = List.replicate 64 1) ∧
    ((after (.storeRead .west 5) { s with dev := enters (asked false) (after (.storeWrite .west 5) s) }).tag 0 5).resp = List.replicate 64 1 := by
  decide +kernel

theorem test_doorbell : let s := on opened
    (after .doorbellIncrement { s with dev := after (.doorbellWrite 0x1F 2) s }).host.doorbells = [(1, 1), (2, 1)] ∧
    (after (.doorbellWrite 0x1F 2) s).host.ringing = [(1, 0), (2, 0)] := by decide +kernel

theorem test_unaligned_register_write : ((after (.registerWrite 4 0 true) (on id)).bitOf (hstReg 0x10) 0) = true ∧
    (after (.registerWrite 0x108 0xFF true) (on id)).reg (svcReg 0x108) = 0xFF := by decide +kernel

theorem test_cold_reset_keeps_fuses : let s := on fun d => { d with fuses := { d.fuses with identity := 7 } }
    (after .coldReset s).fuses.identity = 7 ∧ (after .coldReset s).awake = false := by decide +kernel

theorem test_flash_bits_fall : let d := (State.reset.dev.flashProgram 0 [0xF0]).flashProgram 0 [0x3C]
    d.flashRead 0 1 = [0x30] ∧ (d.flashErase 0 4096).flashRead 0 1 = [0xFF] := by decide +kernel

theorem test_held_part_is_inert : (after (.doorbellWrite 0 1) (off id)).host.ringing = [] ∧ (after .tapReset (off id)) = (off id).dev := by
  decide +kernel

theorem test_endpoint_id : (after (.setEndpointId 9) (on fun d => { d with start := { d.start with phaseDone := 2 } })).mgmt.eid = some 9 ∧
    (after (.setEndpointId 9) (on id)).mgmt.eid = none := by decide +kernel

end Sys2Proof.Tests
end

section
/-! SUPPORT. Register writes: bits of a number after a field is set, the bits that the fields of a register name, and what a write of
the register space does, case by case; with the statements of the register space that rest on them. -/
namespace Sys2Proof

/-! ### Bits and fields -/

/-- A bit of a field is the bit of the number. -/
theorem testBit_field (w lo n b : Nat) : (field w lo n).testBit b = (decide (b < n) && w.testBit (lo + b)) := by
  rw [field, Nat.testBit_mod_two_pow, Nat.testBit_shiftRight]

/-- Outside the field set, every bit stays. -/
theorem testBit_withField_apart (w lo n v : Nat) {b : Nat} (h : b < lo ∨ lo + n ≤ b) :
    (withField w lo n v).testBit b = w.testBit b := by
  have hf : field (withField w lo n v) b 1 = field w b 1 := by
    rcases h with hb | hb
    · exact field_withField_below w lo n v b 1 hb
    · exact field_withField_above w lo n v b 1 hb
  have h0 := congrArg (Nat.testBit · 0) hf
  simp only [testBit_field] at h0
  simpa only [Nat.add_zero, Nat.lt_one_iff, decide_true, Bool.true_and] using h0

/-- In the field set, the bits are those of the value. -/
theorem testBit_withField_same (w lo n v : Nat) {b : Nat} (h : b < n) : (withField w lo n v).testBit (lo + b) = v.testBit b := by
  simpa [testBit_field, h] using congrArg (Nat.testBit · b) (field_withField w lo n v)

end Sys2Proof

namespace Sys2Proof.Machine

open Sys2Proof

/-! ### One field of a register written (R14) -/

section
variable {lo n : Nat} {f : RField} (v keep w : Nat)

theorem writeField_of_not_held (h : holds lo n f.lo f.n = false) : writeField lo n v keep w f = w := by
  simp [writeField, h]

theorem writeField_of_ro_or_wo (h : f.acc = .ro ∨ f.acc = .wo) : writeField lo n v keep w f = w := by
  rcases h with h | h <;> simp [writeField, h]

theorem writeField_rw (h : holds lo n f.lo f.n = true) (ha : f.acc = .rw) :
    writeField lo n v keep w f = withField w f.lo f.n (field v f.lo f.n) := by
  simp [writeField, h, ha]

theorem writeField_w1c (h : holds lo n f.lo f.n = true) (ha : f.acc = .w1c) :
    writeField lo n v keep w f = withField w f.lo f.n
      (field w f.lo f.n &&& (2 ^ f.n - 1 - (field v f.lo f.n &&& (2 ^ f.n - 1 - field keep f.lo f.n)))) := by
  simp [writeField, h, ha]

/-- A field write sets that field to some value or leaves the word. -/
theorem writeField_withField_or_same (lo n : Nat) (f : RField) :
    (∃ x, writeField lo n v keep w f = withField w f.lo f.n x) ∨ writeField lo n v keep w f = w := by
  cases hh : holds lo n f.lo f.n
  case false => exact .inr (writeField_of_not_held v keep w hh)
  case true =>
    cases ha : f.acc with
    | rw => exact .inl ⟨_, writeField_rw v keep w hh ha⟩
    | w1c => exact .inl ⟨_, writeField_w1c v keep w hh ha⟩
    | ro => exact .inr (writeField_of_ro_or_wo v keep w (.inl ha))
    | wo => exact .inr (writeField_of_ro_or_wo v keep w (.inr ha))

theorem testBit_writeField_apart {b : Nat} (h : b < f.lo ∨ f.lo + f.n ≤ b) : (writeField lo n v keep w f).testBit b = w.testBit b := by
  rcases writeField_withField_or_same v keep w lo n f with ⟨x, hx⟩ | hx
  · rw [hx, testBit_withField_apart w f.lo f.n x h]
  · rw [hx]

end

/-- A bit of a field's complement. -/
theorem testBit_field_compl {n : Nat} (w lo : Nat) {b : Nat} (h : b < n) :
    (2 ^ n - 1 - field w lo n).testBit b = !w.testBit (lo + b) := by
  rw [Nat.sub_sub, Nat.add_comm 1, Nat.testBit_two_pow_sub_succ (field_lt w lo n), testBit_field]
  simp [h]

/-- W1C (R14, R573): a bit stays set unless it is written 1 with its condition gone. -/
theorem testBit_writeField_w1c {lo n : Nat} {f : RField} (v keep w : Nat) (h : holds lo n f.lo f.n = true) (ha : f.acc = .w1c)
    {b : Nat} (hb : b < f.n) :
    (writeField lo n v keep w f).testBit (f.lo + b) =
      (w.testBit (f.lo + b) && (!v.testBit (f.lo + b) || keep.testBit (f.lo + b))) := by
  have hlt : field v f.lo f.n &&& (2 ^ f.n - 1 - field keep f.lo f.n) < 2 ^ f.n :=
    lt_of_le_of_lt Nat.and_le_left (field_lt v f.lo f.n)
  rw [writeField_w1c v keep w h ha, testBit_withField_same w f.lo f.n _ hb, Nat.testBit_and, Nat.sub_sub, Nat.add_comm 1,
    Nat.testBit_two_pow_sub_succ hlt, Nat.testBit_and, testBit_field_compl keep f.lo hb]
  simp [testBit_field, hb]

/-- Settles O50: the rules of one field, by its access. -/
theorem fieldsTakeTheirAccess : Obligations.FieldsTakeTheirAccess := by
  intro lo n v keep w f _ _ _
  refine ⟨writeField_of_not_held v keep w, writeField_of_ro_or_wo v keep w, fun hh ha => ?_,
    fun hh ha b hb => testBit_writeField_w1c v keep w hh ha hb, fun b hb => testBit_writeField_apart v keep w hb⟩
  rw [writeField_rw v keep w hh ha, field_withField, Nat.mod_eq_of_lt (field_lt v f.lo f.n)]

/-! ### The bits that fields name (R16) -/

/-- A bit position lies in a field. -/
def RField.covers (f : RField) (b : Nat) : Bool := decide (f.lo ≤ b) && decide (b < f.lo + f.n)

/-- The fields lie apart from bit `m` of a register on, in rising order. -/
def fieldsRise : Nat → List RField → Bool
  | m, [] => decide (m ≤ 64)
  | m, f :: fs => decide (m ≤ f.lo) && fieldsRise (f.lo + f.n) fs

/-- The fields of every register of the tables lie apart. -/
theorem fieldsRise_blockRegs (k : Blk) : (blockRegs k).all (fun r => fieldsRise 0 r.fields) = true := by
  cases k <;> decide

theorem fieldsRise_regFields {k : Blk} {o : Nat} {r : RegDesc} (h : regDesc? k o = some r) (l : RegLoc) :
    fieldsRise 0 (regFields l r) = true := by
  unfold regFields
  split
  · rfl
  · exact List.all_eq_true.mp (fieldsRise_blockRegs k) r (List.mem_of_find?_eq_some h)

/-- The bits of one more field, above all those named so far. -/
theorem testBit_addField {a : Nat} {f : RField} (ha : a < 2 ^ f.lo) (b : Nat) :
    (a + (2 ^ f.n - 1) * 2 ^ f.lo).testBit b = (a.testBit b || f.covers b) := by
  rw [Nat.add_comm, Nat.mul_comm, Nat.testBit_two_pow_mul_add _ ha]
  by_cases hb : b < f.lo
  · simp [RField.covers, hb]
  · have h0 : a.testBit b = false := Nat.testBit_lt_two_pow (ha.trans_le (Nat.pow_le_pow_right (by norm_num) (by omega)))
    rw [if_neg hb, h0, Nat.testBit_two_pow_sub_one, Bool.false_or, RField.covers, Bool.eq_iff_iff]
    simp only [Bool.and_eq_true, decide_eq_true_eq]
    omega

theorem addField_lt {a : Nat} {f : RField} (ha : a < 2 ^ f.lo) : a + (2 ^ f.n - 1) * 2 ^ f.lo < 2 ^ (f.lo + f.n) := by
  have h1 : 2 ^ f.lo ≤ 2 ^ f.n * 2 ^ f.lo := Nat.le_mul_of_pos_left _ (by positivity)
  rw [Nat.sub_mul, Nat.one_mul, Nat.pow_add, Nat.mul_comm (2 ^ f.lo)]
  omega

/-- The induction behind namedBits: `a` holds what the fields below bit `m` name. -/
theorem addFields_spec {m : Nat} {fs : List RField} (h : fieldsRise m fs = true) {a : Nat} (ha : a < 2 ^ m) :
    fs.foldl (fun a f => a + (2 ^ f.n - 1) * 2 ^ f.lo) a < 2 ^ 64 ∧
    ∀ b, (fs.foldl (fun a f => a + (2 ^ f.n - 1) * 2 ^ f.lo) a).testBit b = (a.testBit b || fs.any (·.covers b)) := by
  induction fs generalizing m a with
  | nil =>
    have hm : m ≤ 64 := by simpa [fieldsRise] using h
    exact ⟨ha.trans_le (Nat.pow_le_pow_right (by norm_num) hm), by simp⟩
  | cons f fs ih =>
    obtain ⟨hm, hfs⟩ : m ≤ f.lo ∧ fieldsRise (f.lo + f.n) fs = true := by simpa [fieldsRise] using h
    have hlo : a < 2 ^ f.lo := ha.trans_le (Nat.pow_le_pow_right (by norm_num) hm)
    obtain ⟨hlt, hbit⟩ := ih hfs (addField_lt hlo)
    exact ⟨hlt, fun b => by rw [List.foldl_cons, hbit, testBit_addField hlo, List.any_cons, Bool.or_assoc]⟩

theorem namedBits_lt {fs : List RField} (h : fieldsRise 0 fs = true) : namedBits fs < 2 ^ 64 :=
  (addFields_spec h (by norm_num)).1

theorem testBit_namedBits {fs : List RField} (h : fieldsRise 0 fs = true) (b : Nat) :
    (namedBits fs).testBit b = fs.any (·.covers b) := by
  rw [namedBits, (addFields_spec h (a := 0) (by norm_num)).2 b, Nat.zero_testBit, Bool.false_or]

/-- A word of 64 bits with a bit set that no field covers meets the reserved bits. -/
theorem reserved_ne_zero {fs : List RField} (h : fieldsRise 0 fs = true) {x b : Nat} (hx : x < 2 ^ 64) (hb : x.testBit b = true)
    (hout : ∀ f ∈ fs, b < f.lo ∨ f.lo + f.n ≤ b) : x &&& (2 ^ 64 - 1 - namedBits fs) ≠ 0 := by
  have hb64 : b < 64 := by
    by_contra hge
    have hx' := Nat.testBit_lt_two_pow (hx.trans_le (Nat.pow_le_pow_right (by norm_num) (not_lt.mp hge)))
    exact absurd hb (by simp [hx'])
  have hnone : fs.any (·.covers b) = false := by
    rw [List.any_eq_false]
    intro f hf
    have := hout f hf
    simp only [RField.covers, Bool.and_eq_true, decide_eq_true_eq]
    omega
  intro h0
  have hbit : (x &&& (2 ^ 64 - 1 - namedBits fs)).testBit b = true := by
    rw [Nat.testBit_and, hb, Nat.sub_sub, Nat.add_comm 1, Nat.testBit_two_pow_sub_succ (namedBits_lt h), testBit_namedBits h, hnone]
    simp [hb64]
  rw [h0, Nat.zero_testBit] at hbit
  exact absurd hbit Bool.false_ne_true

/-! ### A register of an aligned place written -/

/-- Whether a place is of the MSI-X table (R432). -/
abbrev inMsix (l : RegLoc) : Prop := l.blk = .hst ∧ 0x10000 ≤ l.off ∧ l.off < 0x18000

/-- Whether a write of a register is ignored: a reserved bit (log entry 11), a register barred now (log entry 21), or one of an array at a
position without one. -/
def Device.refuses (d : Device) (l : RegLoc) (fs : List RField) (x : Nat) : Bool :=
  x &&& (2 ^ 64 - 1 - namedBits fs) != 0 || d.barred l || (l.blk == .cor && decide (l.off < 0x1000) && !d.hasArray l.inst)

theorem refuses_of_reserved {l : RegLoc} {fs : List RField} {x : Nat} (d : Device) (h : x &&& (2 ^ 64 - 1 - namedBits fs) ≠ 0) :
    d.refuses l fs x = true := by
  simp only [Device.refuses, bne_iff_ne.mpr h, Bool.true_or]

section
variable {l : RegLoc} {r : RegDesc} (lo n x : Nat) (d : Device)

theorem regWrite_msix (h : inMsix l) : d.regWrite l lo n x = d.writeMsix l.off lo n x := if_pos h

theorem regWrite_of_no_register (h : ¬ inMsix l) (hr : regDesc? l.blk l.off = none) : d.regWrite l lo n x = d := by
  unfold Device.regWrite
  rw [if_neg h, hr]

/-- A register takes its fields and acts, or refuses the write. -/
theorem regWrite_eq (h : ¬ inMsix l) (hr : regDesc? l.blk l.off = some r) :
    d.regWrite l lo n x = if d.refuses l (regFields l r) x then d else (d.storeFields l lo n x (regFields l r)).act l lo n x := by
  unfold Device.regWrite Device.refuses
  rw [if_neg h, hr]
  simp [← ite_or, and_assoc]

end

/-! ### A write of the register space (R565, R566) -/

/-- The register of 8 bytes that a place lies in. -/
abbrev RegLoc.word (l : RegLoc) : RegLoc := { l with off := 8 * (l.off / 8) }

section
variable {off : Nat} {wide : Bool} {l : RegLoc} (v : Nat) (d : Device)

theorem spaceWrite_misaligned (h : off % (if wide then 8 else 4) ≠ 0) :
    d.spaceWrite off v wide = d.hostAddrError (regSpace + off) := if_pos h

theorem spaceWrite_unassigned (h : off % (if wide then 8 else 4) = 0) (hl : regLocate off = none) : d.spaceWrite off v wide = d := by
  simp [Device.spaceWrite, h, hl]

theorem spaceWrite_no_register (h : off % (if wide then 8 else 4) = 0) (hl : regLocate off = some l) (ht : regThere l.word = false) :
    d.spaceWrite off v wide = d := by
  simp [Device.spaceWrite, h, hl, ht]

theorem spaceWrite_dark (h : off % (if wide then 8 else 4) = 0) (hl : regLocate off = some l) (ht : regThere l.word = true)
    (ha : d.answers l = false) : d.spaceWrite off v wide = d.darkAccess l (regSpace + off) := by
  simp [Device.spaceWrite, h, hl, ht, ha]

theorem spaceWrite_answers (h : off % (if wide then 8 else 4) = 0) (hl : regLocate off = some l) (ht : regThere l.word = true)
    (ha : d.answers l = true) :
    d.spaceWrite off v wide =
      d.regWrite l.word (8 * (off % 8)) (8 * if wide then 8 else 4) (v % 2 ^ (8 * if wide then 8 else 4) * 2 ^ (8 * (off % 8))) := by
  simp [Device.spaceWrite, h, hl, ht, ha]

end

/-- The bytes written at an aligned place stay within the register. -/
theorem written_lt {off : Nat} {wide : Bool} (v : Nat) (h : off % (if wide then 8 else 4) = 0) :
    v % 2 ^ (8 * if wide then 8 else 4) * 2 ^ (8 * (off % 8)) < 2 ^ 64 := by
  cases wide
  · have h4 : off % 8 = 0 ∨ off % 8 = 4 := by simp at h; omega
    rcases h4 with h4 | h4 <;> simp only [h4] <;> norm_num <;> omega
  · have h0 : off % 8 = 0 := by simpa using h
    simp only [h0]
    norm_num
    omega

theorem regThere_of_register {l : RegLoc} {r : RegDesc} (h : regDesc? l.blk l.off = some r) : regThere l = true := by
  simp [regThere, h]

theorem does_registerWrite {s : State} (h : s.dev.awake = true) {off : BitVec 29} {v : BitVec 64} {wide : Bool} {e : Device}
    (he : s.dev.spaceWrite off.toNat v.toNat wide = e) : Does (.registerWrite off v wide) s e :=
  does_run h (f := Device.spaceWrite off.toNat v.toNat wide) rfl he

/-- Settles O49: a bit outside the fields meets the reserved mask, for the fields of a register lie apart. -/
theorem reservedBitsVoidARegisterWrite : Obligations.ReservedBitsVoidARegisterWrite := by
  intro s off v wide l r hawake n at0 w hal hl hans hr hmsix ⟨b, hb, hout⟩
  have hthere : regThere l.word = true := regThere_of_register (l := l.word) hr
  have hrefuse : s.dev.refuses l.word (regFields l.word r) w = true :=
    refuses_of_reserved s.dev (reserved_ne_zero (fieldsRise_regFields hr l.word) (written_lt v.toNat hal) hb hout)
  refine does_registerWrite hawake ?_
  calc s.dev.spaceWrite off.toNat v.toNat wide
    _ = s.dev.regWrite l.word (8 * (off.toNat % 8)) (8 * n) w := spaceWrite_answers v.toNat s.dev hal hl hthere hans
    _ = s.dev := (regWrite_eq _ _ _ _ hmsix hr).trans (if_pos hrefuse)

/-! ### Logs, flip masks and the slate window -/

section
variable (d : Device)

theorem logClear_tower {t : Nat} (h : t < 20) : d.logClear t = if d.up t then d.clearLog t else d := if_pos h

theorem logClear_half (h : Nat) : d.logClear (20 + h) = if (d.half h).lost then d else d.clearLog (20 + h) := by
  simp [Device.logClear]

theorem armFlip_legal {l : RegLoc} (h : d.flipTarget l (d.fieldOf (regAddr l) 3 4) (d.fieldOf (regAddr l) 7 8) = true) :
    d.armFlip l true = d.setField (regAddr l) 1 1 1 := by
  simp [Device.armFlip, h]

theorem armFlip_illegal {l : RegLoc} (h : d.flipTarget l (d.fieldOf (regAddr l) 3 4) (d.fieldOf (regAddr l) 7 8) = false) :
    d.armFlip l true = d := by
  simp [Device.armFlip, h]

theorem flipArm_answers {b : FlipBlock} (target sel : Nat) (h : d.answers (flipLoc b) = true) :
    d.flipArm b target sel =
      ((d.setField (regAddr (flipLoc b)) 3 4 target).setField (regAddr (flipLoc b)) 7 8 sel).armFlip (flipLoc b) true := if_pos h

theorem flipArm_dark {b : FlipBlock} (target sel : Nat) (h : d.answers (flipLoc b) = false) : d.flipArm b target sel = d :=
  if_neg (by simp [h])

theorem flipDisarm_answers {b : FlipBlock} (h : d.answers (flipLoc b) = true) :
    d.flipDisarm b = d.setField (regAddr (flipLoc b)) 1 1 0 := if_pos h

theorem flipDisarm_dark {b : FlipBlock} (h : d.answers (flipLoc b) = false) : d.flipDisarm b = d := if_neg (by simp [h])

theorem windowFilled_none (h : d.start.windowBlock = none) : d.windowFilled = d := by
  simp [Device.windowFilled, h]

theorem windowFilled_in_flash {k : Nat} (h : d.start.windowBlock = some k) (hk : k < 2 ^ (leNat (d.flashRead 6 1) - 12)) :
    d.windowFilled = { d with start := { d.start with window := d.flashRead (4096 * k) 4096, windowBlock := none } } := by
  simp [Device.windowFilled, h, hk]

theorem windowFilled_past_flash {k : Nat} (h : d.start.windowBlock = some k) (hk : 2 ^ (leNat (d.flashRead 6 1) - 12) ≤ k) :
    d.windowFilled =
      { (d.drawBytes 4096).2 with start := { d.start with window := (d.drawBytes 4096).1, windowBlock := none } } := by
  simp [Device.windowFilled, h, not_lt.mpr hk]

end

/-! ### The commands of the register space -/

section
variable {s : State} (h : s.dev.awake = true)
include h

/-- An aligned write of a register that answers, outside the MSI-X table, by the register's description. -/
theorem does_registerWrite_register {off : BitVec 29} {v : BitVec 64} {wide : Bool} {l : RegLoc} {e : Device}
    (hal : off.toNat % (if wide then 8 else 4) = 0) (hl : regLocate off.toNat = some l) (ht : regThere l.word = true)
    (ha : s.dev.answers l = true)
    (he : s.dev.regWrite l.word (8 * (off.toNat % 8)) (8 * if wide then 8 else 4)
      (v.toNat % 2 ^ (8 * if wide then 8 else 4) * 2 ^ (8 * (off.toNat % 8))) = e) :
    Does (.registerWrite off v wide) s e :=
  does_registerWrite h ((spaceWrite_answers v.toNat s.dev hal hl ht ha).trans he)

theorem does_retireAdd (e : BitVec 64) :
    let r := s.dev.addResult e.toNat
    let x : BitVec 64 := BitVec.ofNat 64 (withField (withField e.toNat 2 1 (if field e.toNat 0 2 = 1 then 0 else 1)) 3 1 0)
    let f := s.dev.setField (svcReg 0x8008) 13 3 r
    Does (.retireAdd e) s (if r = 0 then { f with
      retire := { entries := f.retire.entries ++ [x] }, start := { f.start with swRetired := f.start.swRetired ++ [x] } } else f) :=
  does_run h (f := Device.retireAdd e.toNat) rfl (by simp only [Device.retireAdd, ne_eq, ite_not])

theorem does_logClear {log : LogId} {e : Device} (he : s.dev.logClear (logNum log) = e) : Does (.logClear log) s e :=
  does_run h (f := Device.logClear (logNum log)) rfl he

theorem does_flipArm {b : FlipBlock} {t : BitVec 4} {x : BitVec 8} {e : Device} (he : s.dev.flipArm b t.toNat x.toNat = e) :
    Does (.flipArm b t x) s e := does_run h (f := Device.flipArm b t.toNat x.toNat) rfl he

theorem does_flipDisarm {b : FlipBlock} {e : Device} (he : s.dev.flipDisarm b = e) : Does (.flipDisarm b) s e :=
  does_run h (f := Device.flipDisarm b) rfl he

theorem does_windowFilled {e : Device} (he : s.dev.windowFilled = e) : Does .windowFilled s e :=
  does_run h (f := Device.windowFilled) rfl he

end

/-- Settles O51: each command by the cases of its meaning on the device. -/
theorem registerCommandsAct : Obligations.RegisterCommandsAct := by
  intro s h d
  refine ⟨fun off v wide => ⟨fun hal => does_registerWrite h (spaceWrite_misaligned _ _ hal),
      fun hal hl => does_registerWrite h (spaceWrite_unassigned _ _ hal hl), fun l hal hl => ⟨?notThere, ?dark, ?msix, ?register⟩⟩,
    does_retireAdd h, ?towerUp, ?towerDown, ?halfThere, ?halfLost, fun b t x => ⟨fun ha => ⟨?legal, ?illegal, ?disarm⟩, ?flipDark⟩,
    fun k => does_run h (f := Device.fillWindow k.toNat) rfl rfl, fun k hk hin => does_windowFilled h (windowFilled_in_flash _ hk hin),
    fun k hk hpast => does_windowFilled h (windowFilled_past_flash _ hk hpast),
    fun hk => does_windowFilled h (windowFilled_none _ hk)⟩
  case notThere => exact fun ht => does_registerWrite h (spaceWrite_no_register _ _ hal hl ht)
  case dark => exact fun ht ha => does_registerWrite h (spaceWrite_dark _ _ hal hl ht ha)
  case msix => exact fun ht ha hm => does_registerWrite_register h hal hl ht ha (regWrite_msix _ _ _ _ hm)
  case register =>
    refine fun ht ha hm => ⟨fun hr => does_registerWrite_register h hal hl ht ha (regWrite_of_no_register _ _ _ _ hm hr),
      fun r hr => ⟨fun hrefuse => ?_, fun htake => ?_⟩⟩
    · exact does_registerWrite_register h hal hl ht ha ((regWrite_eq _ _ _ _ hm hr).trans (if_pos hrefuse))
    · exact does_registerWrite_register h hal hl ht ha ((regWrite_eq _ _ _ _ hm hr).trans (if_neg (ne_true_of_eq_false htake)))
  case towerUp => exact fun t hup => does_logClear h ((logClear_tower d t.isLt).trans (if_pos hup))
  case towerDown => exact fun t hdown => does_logClear h ((logClear_tower d t.isLt).trans (if_neg (ne_true_of_eq_false hdown)))
  case halfThere => exact fun b hthere => does_logClear h ((logClear_half d _).trans (if_neg (ne_true_of_eq_false hthere)))
  case halfLost => exact fun b hlost => does_logClear h ((logClear_half d _).trans (if_pos hlost))
  case legal => exact fun hok => does_flipArm h ((flipArm_answers d _ _ ha).trans (armFlip_legal _ hok))
  case illegal => exact fun hok => does_flipArm h ((flipArm_answers d _ _ ha).trans (armFlip_illegal _ hok))
  case disarm => exact does_flipDisarm h (flipDisarm_answers d ha)
  case flipDark => exact fun ha => ⟨does_flipArm h (flipArm_dark d _ _ ha), does_flipDisarm h (flipDisarm_dark d ha)⟩

end Sys2Proof.Machine
end

section
/-! SUPPORT. Sums in tree order, the cells of the array, and a tile fed into its accumulator set; with the statements of the number
formats that rest on them. -/
namespace Sys2Proof.Machine

open Sys2Proof

/-! ### Sums in tree order (R49) -/

theorem FV.add_comm (u v : FV) : u.add v = v.add u := by
  cases u with
  | nan => cases v <;> rfl
  | inf a =>
    cases v with
    | nan => rfl
    | inf b => by_cases h : a = b <;> simp [FV.add, h, eq_comm]
    | fin => rfl
  | fin n m e =>
    cases v with
    | nan => rfl
    | inf => rfl
    | fin n' m' e' => simp only [FV.add, min_comm e e', Int.add_comm (alignTo n m e _), Bool.and_comm, Bool.and_left_comm]

theorem fadd_comm (x y : Nat) : fadd x y = fadd y x := congrArg toF32 (FV.add_comm _ _)

/-- A code of value zero is +0 or −0, with the exponent of the subnormals. -/
theorem f32_of_isZero {x : Nat} (h : (f32 x).isZero = true) : ∃ n, f32 x = .fin n 0 (-149) := by
  revert h
  simp only [f32, decodeSpec]
  split
  next => split <;> simp [FV.isZero]
  next =>
    split
    next subnormal => simp [FV.isZero, specF32]
    next normal => simp [FV.isZero]

theorem plusZero_of_isZero {x : Nat} (h : (f32 x).isZero = true) : plusZero x = 0 := if_pos h

/-- Either zero rounds to a code that plusZero takes to +0. -/
theorem plusZero_toF32_zero (n : Bool) (e : Int) : plusZero (toF32 (.fin n 0 e)) = 0 := by
  have h : plusZero (signBit specF32 n) = 0 := by cases n <;> decide
  simpa [toF32, roundMag] using h

/-- The sign of a zero addend is lost: it could only make the sign of a zero sum. -/
theorem plusZero_add_zero (n : Bool) (e : Int) (v : FV) :
    plusZero (toF32 ((FV.fin n 0 e).add v)) = plusZero (toF32 ((FV.fin false 0 e).add v)) := by
  cases v with
  | nan => rfl
  | inf => rfl
  | fin n' m' e' =>
    have hz (n : Bool) (k : Int) : alignTo n 0 e k = 0 := by cases n <;> simp [alignTo]
    simp only [FV.add, hz]
    split
    · rw [plusZero_toF32_zero, plusZero_toF32_zero]
    · rfl

theorem plusZero_fadd_plusZero_left (x y : Nat) : plusZero (fadd (plusZero x) y) = plusZero (fadd x y) := by
  by_cases h : (f32 x).isZero = true
  · obtain ⟨n, hx⟩ := f32_of_isZero h
    rw [plusZero_of_isZero h, fadd, fadd, hx]
    exact (plusZero_add_zero n _ _).symm
  · rw [show plusZero x = x from if_neg h]

theorem plusZero_fadd_plusZero (x y : Nat) : plusZero (fadd (plusZero x) (plusZero y)) = plusZero (fadd x y) := by
  rw [plusZero_fadd_plusZero_left, fadd_comm, plusZero_fadd_plusZero_left, fadd_comm]

theorem length_treeLevel : ∀ l : List Nat, (treeLevel l).length = (l.length + 1) / 2
  | [] => rfl
  | [_] => by simp [treeLevel]
  | a :: b :: r => by simp only [treeLevel, List.length_cons, length_treeLevel r]; omega

/-- A level of an even number of participants followed by others pairs each list within itself. -/
theorem treeLevel_append (r : List Nat) : ∀ l : List Nat, l.length % 2 = 0 → treeLevel (l ++ r) = treeLevel l ++ treeLevel r
  | [], _ => rfl
  | a :: b :: t, h => by
    have ht : t.length % 2 = 0 := by simp only [List.length_cons] at h; omega
    simp only [List.cons_append, treeLevel, treeLevel_append r t ht]

theorem treeUp_level (f : Nat) {l : List Nat} (h : 2 ≤ l.length) : treeUp (f + 1) l = treeUp f (treeLevel l) := by
  match l with
  | a :: b :: r => rfl

/-- The roots of two trees of one depth meet in the root of the tree over both. -/
theorem treeUp_halves {n f g : Nat} {a b : List Nat} (hf : n ≤ f) (hg : n + 1 ≤ g) (ha : a.length = 2 ^ n) (hb : b.length = 2 ^ n) :
    ∃ x y, treeUp f a = plusZero x ∧ treeUp f b = plusZero y ∧ treeUp g (a ++ b) = plusZero (fadd x y) := by
  induction n generalizing f g a b with
  | zero =>
    obtain ⟨x, rfl⟩ := List.length_eq_one_iff.1 ha
    obtain ⟨y, rfl⟩ := List.length_eq_one_iff.1 hb
    obtain ⟨g, rfl⟩ : ∃ i, g = i + 1 := ⟨g - 1, by omega⟩
    exact ⟨x, y, by simp [treeUp], by simp [treeUp], by simp [treeUp, treeLevel]⟩
  | succ n ih =>
    obtain ⟨f, rfl⟩ : ∃ i, f = i + 1 := ⟨f - 1, by omega⟩
    obtain ⟨g, rfl⟩ : ∃ i, g = i + 1 := ⟨g - 1, by omega⟩
    have hpos : 0 < 2 ^ n := by positivity
    rw [pow_succ] at ha hb
    rw [treeUp_level f (by omega), treeUp_level f (by omega), treeUp_level g (by simp; omega), treeLevel_append b a (by omega)]
    exact ih (by omega) (by omega) (by rw [length_treeLevel]; omega) (by rw [length_treeLevel]; omega)

/-- Settles O39: the two roots before their signs are mended meet in the last level, where the sign of a zero half is lost. -/
theorem treeReductionOrder : Obligations.TreeReductionOrder := by
  intro n a b ha hb
  have hn : n < 2 ^ n := Nat.lt_two_pow_self
  obtain ⟨x, y, hx, hy, hxy⟩ := treeUp_halves (f := 2 ^ n) (g := 2 ^ n + 2 ^ n) hn.le (by omega) ha hb
  refine ⟨?_, fun x => rfl⟩
  calc treeReduce (a ++ b)
    _ = plusZero (fadd x y) := by rw [treeReduce, List.length_append, ha, hb, hxy]
    _ = plusZero (fadd (plusZero x) (plusZero y)) := (plusZero_fadd_plusZero x y).symm
    _ = plusZero (fadd (treeReduce a) (treeReduce b)) := by rw [treeReduce, treeReduce, ha, hb, hx, hy]

/-! ### Cells (R42 to R45) -/

/-- Settles O10: each of the results of a step is a sum, a count or a disjunction over the products. -/
theorem productOrderInAStepDoesNotMatter : Obligations.ProductOrderInAStepDoesNotMatter := by
  intro int8 x ps qs h
  have hr := h.map fun p => roundProduct (if int8 then 0 else x.1.anchor - 94) p.1 p.2
  have hsum := hr.foldl_eq' (f := fun (a : Int) r => a + r.1) (fun _ _ _ _ _ => by omega) x.1.acc
  simp only [cellStep, h.any_eq, hr.any_eq, hsum, (hr.filter _).length_eq]

theorem cellStep_nan (int8 : Bool) {x : Cell × FeedFlags} (h : x.1.nan = true) (ps : List (FV × FV)) : (cellStep int8 x ps).1 = x.1 := by
  obtain ⟨⟨acc, anchor, sat, nan⟩, f⟩ := x
  subst h
  unfold cellStep
  split <;> rfl

/-- A saturated cell takes no product: a step sets its NaN mark or leaves it. -/
theorem cellStep_sat (int8 : Bool) {x : Cell × FeedFlags} (h : x.1.sat = true) (ps : List (FV × FV)) :
    (cellStep int8 x ps).1.acc = x.1.acc ∧ (cellStep int8 x ps).1.sat = true := by
  unfold cellStep
  split
  · exact ⟨rfl, h⟩
  · simp [h]

/-- Settles O11: each step keeps the mark and the value, so the fold over the steps does. -/
theorem saturatedCellsHold : Obligations.SaturatedCellsHold := by
  intro int8 depth c f a b
  refine ⟨fun h => ?nan, fun h => ?sat⟩
  case nan =>
    exact List.foldlRecOn (motive := fun x : Cell × FeedFlags => x.1 = c) _ _ rfl fun x hx ps _ =>
      (cellStep_nan int8 (by rw [hx, h]) ps).trans hx
  case sat =>
    exact List.foldlRecOn (motive := fun x : Cell × FeedFlags => x.1.acc = c.acc ∧ x.1.sat = true) _ _ ⟨rfl, h⟩ fun x hx ps _ =>
      have hstep := cellStep_sat int8 hx.2 ps
      ⟨hstep.1.trans hx.1, hstep.2⟩

/-! ### Accumulator sets (R53, R65) -/

theorem accSet_putSet_same (c : Core) (s : Nat) (t : Option Tile) : (c.putSet s t).accSet s = t := by
  by_cases h : s = 0 <;> simp [Core.accSet, Core.putSet, h]

/-- The two sets are apart: 0 and any other number. -/
theorem accSet_putSet_other (c : Core) {s s' : Nat} (h : (s = 0) ≠ (s' = 0)) (t : Option Tile) :
    (c.putSet s t).accSet s' = c.accSet s' := by
  by_cases hs : s = 0
  · have hs' : s' ≠ 0 := by simpa [hs] using h
    simp [Core.accSet, Core.putSet, hs, hs']
  · have hs' : s' = 0 := by simpa [hs] using h
    simp [Core.accSet, Core.putSet, hs, hs']

/-- The sets of one tile and the next alternate. -/
theorem MatrixCue.setOf_alternates (m : MatrixCue) (t : Nat) : (m.setOf t = 0) ≠ (m.setOf (t + 1) = 0) := by
  simp only [MatrixCue.setOf, ne_eq, eq_iff_iff]; omega

theorem core_of_keeps {m s r : Bool} {d e : Device} (h : Keeps m false s r d e) (k : Nat) : e.core k = d.core k :=
  congrArg (mget Core.reset · k) (h.cores rfl)

/-- The counters and flags of a fed tile leave the cores and their map as they were. -/
theorem feedCounts_keeps (d : Device) (k : Nat) (f : FeedFlags) (feed null stall : Nat) :
    Keeps false false false true d ((d.feedFlags k f).arrCount k feed null stall) :=
  Device.arrCount_keeps _ _ _ _ _ (Device.feedFlags_keeps _ _ _ (.refl d))

/-- A core changed after the counts of a fed tile is the core from before them, changed. -/
theorem core_modCore_fed {d : Device} (hd : Formed d) (k : Nat) (f : FeedFlags) (feed null stall : Nat) (g : Core → Core) :
    (((d.feedFlags k f).arrCount k feed null stall).modCore k g).core k = g (d.core k) := by
  have hcounts := feedCounts_keeps d k f feed null stall
  rw [Device.core_modCore_same _ (hcounts.formed hd).cores, core_of_keeps hcounts]

/-- Settles O9: the core after the feed is the core after the reads with the set put, since flags and counters touch no core. -/
theorem feedingATileAccumulates : Obligations.FeedingATileAccumulates := by
  intro d k q t rn cn depth m a b old r hd hshape hdepth ha hb
  have hread : Keeps false false false true d b.1 :=
    Device.readLanes_keeps _ _ _ _ _ _ _ _ _ (Device.readLanes_keeps _ _ _ _ _ _ _ _ _ (.refl d))
  have hformed : Formed b.1 := hread.formed ((formed_iff d).1 hd)
  simp only [m] at hshape hdepth
  simp only [a, m] at ha
  simp only [b, a, m] at hb
  simp only [Device.feedTile, hshape, hdepth, ha, hb, List.append_nil]
  rw [core_modCore_fed hformed]
  exact ⟨_, accSet_putSet_same _ _ _, rfl, rfl, rfl, rfl, rfl, accSet_putSet_other _ (m.setOf_alternates t) _⟩

end Sys2Proof.Machine
end

section
/-! SUPPORT. The vector unit: a cue at the head of its queue, with its sources in memory or on the output stream; with the statement
of the vector operations. -/
namespace Sys2Proof.Machine

open Sys2Proof

/-! ### Vector cues (R138 to R145) -/

/-- What a vector cue leaves once its operands are taken: the results written, the conversion flags set, the cue ended. -/
def Device.vectorPut (k : Nat) (q : QCue) (oa ob od : Opnd) (as bs os : List Elem) (d : Device) : Device :=
  let rnd := d.rnd q.home (cf q.cue 114 1 == 1) (cf q.cue 115 8)
  if cf q.cue 0 4 = 10 then
    let blocks := quantBlocks od.fmt rnd ((broadcast od.lins.length as).map fun e => f32 (toLane oa.fmt e)) od.lins
    (((d.writeTensor k 2 od (blocks.flatMap fun x => x.codes)).writeScales k 2 od (blocks.map fun x => x.scale)).convFlags k
      (blocks.any fun x => x.sat) (blocks.any fun x => x.nan)).markDone k 2
  else
    let r := vecResults (cf q.cue 0 4) (cf q.cue 113 1 == 1) rnd oa as ob.fmt bs od.fmt os od.lins
    ((d.writeTensor k 2 od r.codes).convFlags k r.sat r.nan).markDone k 2

/-- The second operand as a vector operation takes it. -/
def Device.vectorB (d : Device) (k op : Nat) (o : Opnd) : TensorRes :=
  if vecUsesB op then d.readTensor k 2 o else { dev := d, elems := [], bad := [] }

/-- The old destination as a vector operation takes it: FMA alone reads it. -/
def Device.vectorOld (d : Device) (k op : Nat) (o : Opnd) : TensorRes :=
  if op = 4 then d.readTensor k 2 o else { dev := d, elems := [], bad := [] }

theorem headCue_of_head {c : Core} {u : Nat} {q : QCue} (hq : (c.queue u).head? = some q) (hd : q.done = false) :
    c.headCue u [cf q.cue 0 4] = some q := by
  simp [Core.headCue, hq, hd]

theorem exec_vector {i : Instr} {c : Fin 480} {op : Nat}
    (h : (i, op) ∈ [(Instr.convert c, 0), (.add c, 1), (.sub c, 2), (.mul c, 3), (.fma c, 4), (.max c, 5), (.min c, 6), (.rsum c, 7),
      (.rmax c, 8), (.rsumsq c, 9), (.quantMx c, 10), (.treeSum c, 11)]) (s : State) :
    exec i s = s.inTower (Device.whole (Device.vectorStep [op] c)) := by
  simp only [List.mem_cons, Prod.mk.injEq, List.not_mem_nil, or_false] at h
  rcases h with ⟨rfl, rfl⟩ | ⟨rfl, rfl⟩ | ⟨rfl, rfl⟩ | ⟨rfl, rfl⟩ | ⟨rfl, rfl⟩ | ⟨rfl, rfl⟩ | ⟨rfl, rfl⟩ | ⟨rfl, rfl⟩ | ⟨rfl, rfl⟩ |
    ⟨rfl, rfl⟩ | ⟨rfl, rfl⟩ | ⟨rfl, rfl⟩ <;> rfl

/-- A command carried out whole or not at all, from its meaning's function on the device (log entry 146). -/
theorem doesWhole_inTower {f : Device → Device} {s : State} {i : Instr} {t : Device} (h : s.dev.towersRun = true)
    (hx : exec i s = s.inTower (Device.whole f)) (ht : f s.dev.fresh = t) : DoesWhole i s t := by
  subst ht
  exact ⟨fun hb => does_inTower h hx (if_neg (ne_true_of_eq_false hb)), fun hb => does_inTower h hx (if_pos hb)⟩

theorem errIf_false (code : Nat) : errIf false code = [] := rfl

/-- CONVERT alone asks whether it covers the scales. -/
theorem errIf_widen_nil {op fs fd : Nat} {es : List Elem} (h : op = 0 → widenOk fs fd es = true) :
    errIf (op == 0 && !widenOk fs fd es) 0x0D = [] := by
  by_cases hop : op = 0
  · rw [h hop, Bool.not_true, Bool.and_false, errIf_false]
  · rw [beq_eq_false_iff_ne.2 hop, Bool.false_and, errIf_false]

section
variable {d : Device} {k : Nat} {q : QCue} {ops : List Nat} (hq : (d.core k).headCue 2 ops = some q)
include hq

/-- A cue on the output stream waits for its tile (R77). -/
theorem vectorStep_waits (hstr : cf q.cue 112 1 = 1) (ht : (d.core k).stream = []) : Device.vectorStep ops k d = d := by
  simp [Device.vectorStep, hq, hstr, ht]

/-- With its sources in memory and intact, a cue puts its results (R139 to R145). -/
theorem vectorStep_memory (hstr : cf q.cue 112 1 = 0) {oa ob od : Opnd} (hoa : opndOf (refAt q.refs 0) = oa)
    (hob : opndOf (refAt q.refs 1) = ob) (hod : opndOf (refAt q.refs (1 + if vecUsesB (cf q.cue 0 4) then 1 else 0)) = od)
    {a b o : TensorRes} (ha : d.readTensor k 2 oa = a) (hb : a.dev.vectorB k (cf q.cue 0 4) ob = b)
    (ho : b.dev.vectorOld k (cf q.cue 0 4) od = o) (hba : a.bad = []) (hbb : b.bad = []) (hbo : o.bad = [])
    (hw : cf q.cue 0 4 = 0 → widenOk oa.fmt od.fmt a.elems = true) :
    Device.vectorStep ops k d = o.dev.vectorPut k q oa ob od a.elems b.elems o.elems := by
  have hcode := errIf_widen_nil hw
  unfold Device.vectorB at hb
  unfold Device.vectorOld at ho
  simp [Device.vectorStep, hq, hstr, hoa, hob, hod, ha, hb, ho, hba, hbb, hbo, hcode, minCode, errIf_false, Device.vectorPut]

/-- With a tile of legal format and shape, a cue takes it and puts its results (R77, R125). -/
theorem vectorStep_stream (hstr : cf q.cue 112 1 = 1) {t : StreamTile} {r : List StreamTile} (ht : (d.core k).stream = t :: r)
    {ob od : Opnd} (hob : opndOf (refAt q.refs 0) = ob) (hod : opndOf (refAt q.refs (if vecUsesB (cf q.cue 0 4) then 1 else 0)) = od)
    {b o : TensorRes} (hb : d.vectorB k (cf q.cue 0 4) ob = b) (ho : b.dev.vectorOld k (cf q.cue 0 4) od = o)
    (hbb : b.bad = []) (hbo : o.bad = [])
    (hfmt : vecFmt (tileOpnd t).fmt = true) (hshape : vecShape (cf q.cue 0 4) (tileOpnd t) od = true)
    (hw : cf q.cue 0 4 = 0 → widenOk (tileOpnd t).fmt od.fmt (tileElems t) = true) :
    Device.vectorStep ops k d = (o.dev.modCore k Core.dropTile).vectorPut k q (tileOpnd t) ob od (tileElems t) b.elems o.elems := by
  have hcode := errIf_widen_nil hw
  unfold Device.vectorB at hb
  unfold Device.vectorOld at ho
  simp [Device.vectorStep, hq, hstr, ht, hob, hod, hb, ho, hbb, hbo, hcode, minCode, hfmt, hshape, errIf_false, Device.vectorPut]

end

/-- Settles O12: the unit's step, for the operation of the cue at its head, by where its first source lies. -/
theorem vectorCuesWriteTheirResults : Obligations.VectorCuesWriteTheirResults := by
  intro s c q i op hi hrun hhead hdone hop first rnd blocks put
  have hx := exec_vector hi s
  subst hop
  have hq : (first.core c).headCue 2 [cf q.cue 0 4] = some q := headCue_of_head hhead hdone
  refine ⟨?memory, ?waits, ?stream⟩
  case memory =>
    intro hstr oa ob od a b o ha hb ho hw
    exact doesWhole_inTower hrun hx (vectorStep_memory hq hstr rfl rfl rfl rfl rfl rfl ha hb ho hw)
  case waits => exact fun hstr ht => (doesWhole_inTower hrun hx (vectorStep_waits hq hstr ht)).1 rfl
  case stream =>
    intro hstr t r ht oa ob od b o hfmt hshape hw hb ho
    exact doesWhole_inTower hrun hx (vectorStep_stream hq hstr ht rfl rfl rfl rfl hb ho hfmt hshape hw)

end Sys2Proof.Machine
end

section
/-! SUPPORT. The array at work: the activity ramp, the cue at the array, and the tile that unloads; with the statement of the array. -/
namespace Sys2Proof.Machine

open Sys2Proof

/-! ### The activity ramp (R68) -/

theorem Device.core_arrCount (d : Device) (k feed null stall j : Nat) : (d.arrCount k feed null stall).core j = d.core j :=
  core_of_keeps (m := false) (s := false) (r := true) (Device.arrCount_keeps _ _ _ _ _ (.refl d)) j

theorem Device.modCore_congr {d : Device} {k : Nat} {f g : Core → Core} (h : f (d.core k) = g (d.core k)) :
    d.modCore k f = d.modCore k g := congrArg (d.setCore k) h

section
variable {d : Device} {k : Nat}

theorem Device.rampUp_rises (hp : (d.core k).phase = 1) (hl : (d.core k).level < 8) :
    d.rampUp k = (d.arrCount k 0 8 0).modCore k fun y => { y with level := y.level + 1, clock := { y.clock with step := d.now } } :=
  (if_pos hp).trans (Device.modCore_congr (if_pos (by rwa [Device.core_arrCount])))

theorem Device.rampUp_ends (hp : (d.core k).phase = 1) (hl : 8 ≤ (d.core k).level) :
    d.rampUp k = (d.arrCount k 0 8 0).modCore k fun y => { y with phase := 2 } :=
  (if_pos hp).trans (Device.modCore_congr (if_neg (by rwa [Device.core_arrCount, Nat.not_lt])))

theorem Device.rampUp_idle (hp : (d.core k).phase ≠ 1) : d.rampUp k = d := if_neg hp

/-- With no started cue at the array, the drain ends and the ramp down begins. -/
theorem Device.drainEnd_begins (hp : (d.core k).phase = 2) (hq : ∀ q, (d.core k).arrayCue = some q → q.started = false) :
    d.drainEnd k = (d.arrCount k 0 12 0).modCore k fun y =>
      { y with phase := 3, level := 7, clock := { y.clock with step := d.now } } := by
  cases ha : (d.core k).arrayCue with
  | none => simp [Device.drainEnd, hp, ha]
  | some q => simp [Device.drainEnd, hp, ha, hq q ha]

theorem Device.drainEnd_works {q : QCue} (ha : (d.core k).arrayCue = some q) (hs : q.started = true) : d.drainEnd k = d := by
  simp [Device.drainEnd, ha, hs]

theorem Device.drainEnd_idle (hp : (d.core k).phase ≠ 2) : d.drainEnd k = d := by simp [Device.drainEnd, hp]

end

/-! ### The cue at the array (R53 to R69) -/

/-- What an unstarted cue needs at the array: its banks LOADED, the first set it opens free, and no ATTEND first. -/
def Device.arrayReady (d : Device) (k : Nat) (q : QCue) : Prop :=
  ((d.core k).bank (matrixOf q.cue).abank).st = 2 ∧ ((d.core k).bank (matrixOf q.cue).bbank).st = 2 ∧
    ((matrixOf q.cue).opens = true → (d.core k).accSet (matrixOf q.cue).s0 = none) ∧ d.attendFirst k q.order = false

section
variable {d : Device} {k : Nat} {q : QCue}

/-- At level 8 in the feed phase a cue chains while the drain before it has not passed. -/
theorem Device.startCue_chains (ho : (d.core k).level = 8 ∧ (d.core k).phase = 2) (ht : d.chainAt k q ≤ (d.core k).clock.next + 11) :
    d.startCue k q = ((d.modCore k fun c => c.claimBanks q).arrCount k 0 (d.chainAt k q - (d.core k).clock.next) 0).beginFeed k
      { q with started := true } (d.chainAt k q) := (if_pos ho).trans (if_pos ht)

theorem Device.startCue_late (ho : (d.core k).level = 8 ∧ (d.core k).phase = 2) (ht : (d.core k).clock.next + 11 < d.chainAt k q) :
    d.startCue k q = d := (if_pos ho).trans (if_neg (Nat.not_le.2 ht))

theorem Device.startCue_ramps (ho : ¬ ((d.core k).level = 8 ∧ (d.core k).phase = 2)) (hr : d.rampOk k (matrixOf q.cue) = true) :
    d.startCue k q = (d.modCore k fun c => c.claimBanks q).beginRamp k := (if_neg ho).trans (if_pos hr)

theorem Device.startCue_early (ho : ¬ ((d.core k).level = 8 ∧ (d.core k).phase = 2)) (hr : d.rampOk k (matrixOf q.cue) = false) :
    d.startCue k q = d := (if_neg ho).trans (if_neg (ne_true_of_eq_false hr))

variable (ha : (d.core k).arrayCue = some q)
include ha

theorem Device.matrixStep_started (hs : q.started = true) :
    d.matrixStep k = if (d.core k).phase ≠ 2 then d
      else if q.tilesFed = 0 then
        d.beginFeed k q ((matrixOf q.cue).feedAt (d.core k).clock (max d.now (d.core k).clock.next))
      else d.feedTiles k q 64 q.tilesFed := by
  simp only [Device.matrixStep, ha, hs, if_true]

theorem Device.matrixStep_refused (hs : q.started = false) {e : Nat}
    (he : minCode (matrixUnitCodes (d.core k) (matrixOf q.cue)) = some e) : d.matrixStep k = d.cueError k e q.index q.home 1 := by
  simp [Device.matrixStep, ha, hs, he]

/-- An unstarted cue that no check refuses starts once it is ready. -/
theorem Device.matrixStep_unstarted (hs : q.started = false) (hc : matrixUnitCodes (d.core k) (matrixOf q.cue) = []) :
    (d.arrayReady k q → d.matrixStep k = d.startCue k q) ∧ (¬ d.arrayReady k q → d.matrixStep k = d) := by
  have hbusy : ((matrixOf q.cue).opens && ((d.core k).accSet (matrixOf q.cue).s0).isSome) = true ↔
      ¬ ((matrixOf q.cue).opens = true → (d.core k).accSet (matrixOf q.cue).s0 = none) := by
    rw [Bool.and_eq_true, Option.isSome_iff_ne_none, Classical.not_imp]
  simp only [Device.matrixStep, ha, hs, hc, minCode, hbusy, Device.arrayReady, Bool.false_eq_true, if_false]
  refine ⟨fun hf => if_neg ?_, fun hf => if_pos ?_⟩
  · simpa using hf
  · simpa only [not_and_or, Bool.not_eq_false] using hf

end

/-! ### The tile that unloads (R46, R47, R66) -/

theorem Device.unloadTile_leaves {d : Device} {k n : Nat} {rest : List Nat} {t : Tile} {rn cn : Nat}
    (hu : (d.core k).unloads = n :: rest) (ht : (d.core k).accSet n = some t) (hd : shapeDims t.shape = some (rn, cn)) :
    d.unloadTile k =
      let outs := (t.cells.zip (List.range t.cells.length)).map fun p =>
        cellOut (t.afmt == 9) t.outFmt (d.rnd t.home t.outSr t.stream p.2) p.1
      ((d.accFlag k flagSat (outs.any fun o => o.2.1)).accFlag k flagOutOvf (outs.any fun o => o.2.2)).modCore k fun y =>
        { (y.putSet n none).setQueue 1
            ((y.queue 1).map fun z => if z.order = t.cueOrder ∧ t.last then { z with done := true } else z) with
          unloads := rest
          stream := y.stream ++ [StreamTile.mk t.outFmt cn rn (outs.map fun o => o.1)] } := by
  simp only [Device.unloadTile, hu, ht, Option.bind_some, hd]

theorem Device.unloadTile_idle {d : Device} {k : Nat} (hu : (d.core k).unloads = []) : d.unloadTile k = d := by
  simp only [Device.unloadTile, hu]

/-! ### The array's commands -/

section
variable {s : State} (h : s.dev.towersRun = true) {c : Fin 480} {e : Device}
include h

theorem does_rampUpStep (he : s.dev.rampUp c = e) : Does (.rampUpStep c) s e := does_inTower (f := Device.rampUp c) h rfl he

theorem does_drainEnd (he : s.dev.drainEnd c = e) : Does (.drainEnd c) s e := does_inTower (f := Device.drainEnd c) h rfl he

theorem does_rampDownStep (he : s.dev.rampDown c = e) : Does (.rampDownStep c) s e := does_inTower (f := Device.rampDown c) h rfl he

theorem does_matrix (he : s.dev.matrixStep c = e) : Does (.matrix c) s e := does_inTower (f := Device.matrixStep c) h rfl he

theorem does_tileUnload (he : s.dev.unloadTile c = e) : Does (.tileUnload c) s e := does_inTower (f := Device.unloadTile c) h rfl he

end

/-- Settles O8: each row by the phase of the ramp, by how far the cue at the array has come, and by the set that leaves first. -/
theorem arrayRampsFeedsAndUnloads : Obligations.ArrayRampsFeedsAndUnloads := by
  refine ⟨fun s c h => ⟨?up, ?upEnds, ?upIdle, ?drain, ?works, ?drainIdle, ?down, ?downIdle⟩,
    fun s c q h ha => ⟨?feeds, ?goesOn, ?waits, ?unstarted, ?refused⟩, fun s c h => ⟨?leaves, ?noneLeaves⟩⟩
  case up => exact fun hp hl => does_rampUpStep h (Device.rampUp_rises hp hl)
  case upEnds => exact fun hp hl => does_rampUpStep h (Device.rampUp_ends hp hl)
  case upIdle => exact fun hp => does_rampUpStep h (Device.rampUp_idle hp)
  case drain => exact fun hp hq => does_drainEnd h (Device.drainEnd_begins hp hq)
  case works => exact fun q ha hs => does_drainEnd h (Device.drainEnd_works ha hs)
  case drainIdle => exact fun hp => does_drainEnd h (Device.drainEnd_idle hp)
  case down => exact fun hp => does_rampDownStep h (if_pos hp)
  case downIdle => exact fun hp => does_rampDownStep h (if_neg hp)
  case feeds =>
    exact fun hs hp ht => does_matrix h ((Device.matrixStep_started ha hs).trans ((if_neg (not_not.2 hp)).trans (if_pos ht)))
  case goesOn =>
    exact fun hs hp ht => does_matrix h ((Device.matrixStep_started ha hs).trans ((if_neg (not_not.2 hp)).trans (if_neg ht)))
  case waits => exact fun hs hp => does_matrix h ((Device.matrixStep_started ha hs).trans (if_pos hp))
  case unstarted =>
    intro hs hc
    obtain ⟨hstart, hwait⟩ := Device.matrixStep_unstarted ha hs hc
    exact ⟨fun hf ho ht => does_matrix h ((hstart hf).trans (Device.startCue_chains ho ht)),
      fun hf ho ht => does_matrix h ((hstart hf).trans (Device.startCue_late ho ht)),
      fun hf ho hr => does_matrix h ((hstart hf).trans (Device.startCue_ramps ho hr)),
      fun hf ho hr => does_matrix h ((hstart hf).trans (Device.startCue_early ho hr)),
      fun hf => does_matrix h (hwait hf)⟩
  case refused => exact fun hs e he => does_matrix h (Device.matrixStep_refused ha hs he)
  case leaves => exact fun n rest t rn cn hu ht hd => does_tileUnload h (Device.unloadTile_leaves hu ht hd)
  case noneLeaves => exact fun hu => does_tileUnload h (Device.unloadTile_idle hu)

end Sys2Proof.Machine
end

section
/-! SUPPORT. The DMA units: a cue at the head of its queue, and a member of a multicast that catches up; with the statement of the
DMA cues. -/
namespace Sys2Proof.Machine

open Sys2Proof

/-! ### READ, WRITE and GATHER (R129 to R132, R214) -/

section
variable {d : Device} {k u : Nat} {q : QCue}

section
variable (hq : (d.core k).headCue u [0] = some q)
include hq

theorem readStep_started (hs : q.started = true) : d.readStep u k = d.dmaPump k u := by simp only [Device.readStep, hq, hs, if_true]

section
variable (hs : q.started = false) (hc : loadCodes q.cue (opndOf (refAt q.refs 0)) = [])
include hs hc

theorem readStep_multicast (hm : (d.readWork k q).members ≠ []) : d.readStep u k = d.mcastBegin k q (d.readWork k q) := by
  simp [Device.readStep, hq, hs, hc, minCode, hm]

variable (hm : (d.readWork k q).members = [])
include hm

theorem readStep_waits (ha : (d.core k).admission (d.readWork k q).toPlace (k, u, q.order) (cf q.cue 105 1 == 1) = none) :
    d.readStep u k = d := by
  simp [Device.readStep, hq, hs, hc, minCode, hm, ha]

theorem readStep_takes {x : Core}
    (ha : (d.core k).admission (d.readWork k q).toPlace (k, u, q.order) (cf q.cue 105 1 == 1) = some x) :
    d.readStep u k = (d.setCore k x).dmaBegin k u (d.readWork k q) := by
  simp [Device.readStep, hq, hs, hc, minCode, hm, ha]

end
end

theorem writeStep_head (hq : (d.core k).headCue u [1] = some q) :
    d.writeStep u k = if q.started then d.dmaPump k u else d.dmaBegin k u (writeWork q) := by
  simp only [Device.writeStep, hq]

section
variable (hq : (d.core k).headCue 6 [2] = some q)
include hq

theorem gatherStep_started (hs : q.started = true) : d.gatherStep k = d.dmaPump k 6 := by
  simp only [Device.gatherStep, hq, hs, if_true]

/-- With its indices intact and in range a GATHER starts with the rows that they name (R131). -/
theorem gatherStep_starts (hs : q.started = false) {r : TensorRes} (hr : d.readTensor k 6 (opndOf (refAt q.refs 1)) = r) (hb : r.bad = [])
    (hi : ∀ i ∈ r.elems.map fun e => signedOf 32 e.code, 0 ≤ i ∧ i < (tableRows (opndOf (refAt q.refs 0)) : Int)) :
    d.gatherStep k = r.dev.dmaBegin k 6 (DmaWork.mk .device .scratch
      (gatherPieces (opndOf (refAt q.refs 0)) (opndOf (refAt q.refs 2)) (r.elems.map fun e => signedOf 32 e.code)) [] 0 []) := by
  have hrange : ((r.elems.map fun e => signedOf 32 e.code).any fun i =>
      decide (i < 0) || decide ((tableRows (opndOf (refAt q.refs 0)) : Int) ≤ i)) = false := by
    simpa only [List.any_eq_false, Bool.or_eq_true, decide_eq_true_eq, not_or, not_lt, not_le] using hi
  simp only [Device.gatherStep, hq, hs, hr, hb, hrange, Bool.false_eq_true, if_false]

end
end

/-! ### The member that lags (R215) -/

/-- Whether member `m` of a multicast lacks pieces, none of them under way, and its core may issue. -/
def Device.lags (d : Device) (m : Nat) (x : Mcast) : Bool :=
  !(mget [] x.missed m).isEmpty && !x.catching.contains m && !d.dmaStopped x.core

/-- Whether member `m` of a multicast can take its load: it has taken it, or its destination can (R215). -/
def Device.memberTakes (d : Device) (m : Nat) (x : Mcast) (w : DmaWork) (q : QCue) : Bool :=
  x.accepted.contains m || ((d.core m).admission w.toPlace (x.core, 5, q.order) (cf q.cue 105 1 == 1)).isSome

theorem mcastCatch_idle {d : Device} {h n : Nat} (hf : (d.half h).mcasts.find? (d.lags (240 * h + n)) = none) : d.mcastCatch h n = d := by
  unfold Device.lags at hf
  simp only [Device.mcastCatch, hf]

section
variable {d : Device} {h n : Nat} {x : Mcast} {w : DmaWork} {q : QCue} {p : Piece} {rest : List Piece}
  (hf : (d.half h).mcasts.find? (d.lags (240 * h + n)) = some x) (hp : mget [] x.missed (240 * h + n) = p :: rest)
  (hw : (d.core x.core).headWork 5 = some w) (hq : ((d.core x.core).queue 5).head? = some q)
include hf hp hw hq

theorem mcastCatch_cannot (ht : d.memberTakes (240 * h + n) x w q = false) : d.mcastCatch h n = d := by
  unfold Device.lags at hf
  unfold Device.memberTakes at ht
  simp only [Device.mcastCatch, hf, hp, hw, hq, ht, Bool.false_eq_true, if_false]

variable (ht : d.memberTakes (240 * h + n) x w q = true)
include ht

/-- A member that can take the load has its first missing piece requested again. -/
theorem mcastCatch_requests {e : Device}
    (he : d.coreTxn x.core (readTag p.src p.len (.catchup x.core (240 * h + n) p)) = some e) :
    d.mcastCatch h n = e.mcastMod x.core fun y =>
      { y with catching := insertAsc (240 * h + n) y.catching, missed := mset [] y.missed (240 * h + n) rest } := by
  unfold Device.lags at hf
  unfold Device.memberTakes at ht
  simp only [Device.mcastCatch, hf, hp, hw, hq, ht, if_true, he]

theorem mcastCatch_noTag (he : d.coreTxn x.core (readTag p.src p.len (.catchup x.core (240 * h + n) p)) = none) :
    d.mcastCatch h n = d := by
  unfold Device.lags at hf
  unfold Device.memberTakes at ht
  simp only [Device.mcastCatch, hf, hp, hw, hq, ht, if_true, he]

end

/-! ### The units' commands -/

theorem exec_dmaRead {i : Instr} {c : Fin 480} {u : Nat} (h : (i, u) ∈ [(Instr.storeDmaRead c, 5), (.dramDmaRead c, 6)]) (s : State) :
    exec i s = s.inTower (Device.readStep u c) := by
  simp only [List.mem_cons, Prod.mk.injEq, List.not_mem_nil, or_false] at h
  rcases h with ⟨rfl, rfl⟩ | ⟨rfl, rfl⟩ <;> rfl

theorem exec_dmaWrite {i : Instr} {c : Fin 480} {u : Nat} (h : (i, u) ∈ [(Instr.storeDmaWrite c, 5), (.dramDmaWrite c, 6)]) (s : State) :
    exec i s = s.inTower (Device.writeStep u c) := by
  simp only [List.mem_cons, Prod.mk.injEq, List.not_mem_nil, or_false] at h
  rcases h with ⟨rfl, rfl⟩ | ⟨rfl, rfl⟩ <;> rfl

/-- Settles O17: each unit's step by the operation of the cue at its head, and the catch-up by the first multicast that lags. -/
theorem dmaCuesTakeDestinationsAndGoOn : Obligations.DmaCuesTakeDestinationsAndGoOn := by
  refine ⟨fun s c q u hrun hhead hdone => ⟨fun i hi hop => ?read, fun i hi hop => ?write, fun hu hop => ?gather⟩,
    fun s h n hrun => ⟨fun hf => ?current, fun x w q p rest hf hp hw hq => ?lagging⟩⟩
  case read =>
    have hx := exec_dmaRead hi s
    have hq : (s.dev.core c).headCue u [0] = some q := hop ▸ headCue_of_head hhead hdone
    exact ⟨fun hs => does_inTower hrun hx (readStep_started hq hs), fun hs hc =>
      ⟨fun hm => does_inTower hrun hx (readStep_multicast hq hs hc hm),
        fun hm ha => does_inTower hrun hx (readStep_waits hq hs hc hm ha),
        fun hm x ha => does_inTower hrun hx (readStep_takes hq hs hc hm ha)⟩⟩
  case write =>
    have hx := exec_dmaWrite hi s
    have hstep := writeStep_head (hop ▸ headCue_of_head hhead hdone : (s.dev.core c).headCue u [1] = some q)
    exact ⟨fun hs => does_inTower hrun hx (hstep.trans (if_pos hs)),
      fun hs => does_inTower hrun hx (hstep.trans (if_neg (ne_true_of_eq_false hs)))⟩
  case gather =>
    subst hu
    have hx : exec (.gather c) s = s.inTower (Device.gatherStep c) := rfl
    have hq : (s.dev.core c).headCue 6 [2] = some q := hop ▸ headCue_of_head hhead hdone
    exact ⟨fun hs => does_inTower hrun hx (gatherStep_started hq hs),
      fun hs hb hi => does_inTower hrun hx (gatherStep_starts hq hs rfl hb hi)⟩
  case current => exact does_onClock (f := Device.mcastCatch (halfNum h) n) hrun rfl (mcastCatch_idle hf)
  case lagging =>
    have hx : exec (.mcastCatchup h n) s = s.onClock (Device.mcastCatch (halfNum h) n) := rfl
    exact ⟨fun ht e he => does_onClock hrun hx (mcastCatch_requests hf hp hw hq ht he),
      fun ht he => does_onClock hrun hx (mcastCatch_noTag hf hp hw hq ht he),
      fun ht => does_onClock hrun hx (mcastCatch_cannot hf hp hw hq ht)⟩

end Sys2Proof.Machine
end

section
/-! SUPPORT. The cue engines: event counters, the synchronisation cues, the cues of the units at issue, and what releases, delivers and
completes; with the statements of issue, of a false predicate, of event counters, and of holds, signals and ends. -/
namespace Sys2Proof.Machine

open Sys2Proof

/-! ### Event counters (R78) -/

section
variable {d : Device} (hd : Formed d) (k e n : Nat)
include hd

theorem core_evtAdd : (d.evtAdd k e n).core k =
    { d.core k with
      evt := mset 0 (d.core k).evt e (BitVec.ofNat 32 (min (2 ^ 32 - 1) ((mget 0 (d.core k).evt e).toNat + n))) } := by
  unfold Device.evtAdd
  dsimp only
  split
  next => exact Device.core_modCore_same (d.setBit _ _) hd.cores k _
  next => exact Device.core_modCore_same d hd.cores k _

theorem evtSat_evtAdd (h : 2 ^ 32 - 1 < (mget 0 (d.core k).evt e).toNat + n) :
    (d.evtAdd k e n).bitOf (corReg k 0x300) 16 = true := by
  unfold Device.evtAdd
  dsimp only
  rw [if_pos h]
  exact d.bitOf_setBit hd.regs (corReg k 0x300) 16 (by decide)

end

/-- Settles O7: the counter is written with a value other than 0, so the map holds it, and its register with the bit set. -/
theorem eventCountersStick : Obligations.EventCountersStick := by
  intro d k e n hformed hn
  have hd : Formed d := (formed_iff d).1 hformed
  rw [core_evtAdd hd]
  refine ⟨?holds, fun f hf => mget_mset_other 0 _ hf _, evtSat_evtAdd hd k e n⟩
  generalize (mget 0 (d.core k).evt e).toNat = v
  have hval : (BitVec.ofNat 32 (min (2 ^ 32 - 1) (v + n))).toNat = min (2 ^ 32 - 1) (v + n) := by
    rw [BitVec.toNat_ofNat, Nat.mod_eq_of_lt (by omega)]
  have hpos : BitVec.ofNat 32 (min (2 ^ 32 - 1) (v + n)) ≠ 0 := by
    intro h0
    have h0 : min (2 ^ 32 - 1) (v + n) = 0 := hval.symm.trans (congrArg BitVec.toNat h0)
    omega
  rw [mget_mset_new 0 _ e hpos, hval]

/-! ### Synchronisation cues at issue (R73, R79 to R85, R92, R110) -/

theorem cf_0_4 (q : BitVec 128) : cf q 0 4 = cf q 0 8 % 16 := by
  simp only [cf, field_eq]; omega

theorem cf_4_4 (q : BitVec 128) : cf q 4 4 = cf q 0 8 / 16 := by
  simp only [cf, field_eq]; omega

/-- A synchronisation cue of operation `op` as its two fields name it. -/
theorem sync_fields {q : BitVec 128} {op : Nat} (h : cf q 0 8 = op) (hop : op < 16) : cf q 0 4 = op ∧ cf q 4 4 = 0 := by
  rw [cf_0_4, cf_4_4, h]; omega

section
variable {d : Device} {k : Nat} {q : BitVec 128} (hh : hdrCodes q = [])
include hh

theorem issueSync_wait (ho : cf q 0 4 = 0) : d.issueSync k q = d.issueHold k q := by
  simp [Device.issueSync, Device.syncCodes, hh, ho, minCode]

theorem issueSync_sigLocal (ho : cf q 0 4 = 1) (hi : cf q 46 8 ≠ 0) :
    d.issueSync k q = (d.evtAdd k (cf q 40 6) (cf q 46 8)).passSync k q := by
  simp [Device.issueSync, Device.syncCodes, hh, ho, hi, errIf, minCode]

theorem issueSync_sigRemote (ho : cf q 0 4 = 2) (hlt : cf q 40 9 < 480) (ha : d.hasArray (cf q 40 9) = true) (hi : cf q 55 8 ≠ 0) :
    d.issueSync k q = (d.modTake fun t => { t with signals := t.signals ++
      [Signal.mk k (cf q 40 9) (cf q 49 6) (cf q 55 8) (cf q 63 7) (d.core k).issued false] }).passSync k q := by
  simp [Device.issueSync, Device.syncCodes, hh, ho, hlt, ha, hi, errIf, minCode]

theorem issueSync_fence (ho : cf q 0 4 = 3) : d.issueSync k q = d.issueHold k q := by
  simp [Device.issueSync, Device.syncCodes, hh, ho, minCode]

theorem issueSync_loop (ho : cf q 0 4 = 4) (hl : (d.core k).loops.length < 4) :
    d.issueSync k q = (d.cueEvent k q).modCore k fun y => { y with
      pc := y.pc + 1, cueState := 1, loops := y.loops ++ [LoopLevel.mk (y.pc + 1) (cf q 56 12) (cf q 40 16 + 1) 0] } := by
  simp [Device.issueSync, Device.syncCodes, hh, ho, Nat.not_le.2 hl, errIf, minCode]

theorem issueSync_jump (ho : cf q 0 4 = 5) :
    d.issueSync k q = (d.cueEvent k q).modCore k fun y => { y with
      pc := ((y.pc : Int) + signedOf 13 (cf q 40 13)).toNat, cueState := 1 } := by
  simp [Device.issueSync, Device.syncCodes, hh, ho, minCode]

theorem issueSync_endFrame (ho : cf q 0 4 = 6) :
    d.issueSync k q = d.modCore k fun y => { y with ending := true, cueState := 1, pc := y.pc + 1 } := by
  simp [Device.issueSync, Device.syncCodes, hh, ho, minCode]

theorem issueSync_descWrite (ho : cf q 0 4 = 7) (hp : cf q 40 10 ≠ 767) (hf : cf q 40 10 ≠ 766)
    (hb : (d.readCore k 0 .scratch (32 * cf q 50 17) 32).bad = []) :
    d.issueSync k q = ((d.readCore k 0 .scratch (32 * cf q 50 17) 32).dev.tableWrite k (cf q 40 10)
      (d.readCore k 0 .scratch (32 * cf q 50 17) 32).bytes).passSync k q := by
  simp [Device.issueSync, Device.syncCodes, hh, ho, hp, hf, hb, errIf, minCode]

theorem issueSync_nop (ho : cf q 0 4 = 8) : d.issueSync k q = d.passSync k q := by
  simp [Device.issueSync, Device.syncCodes, hh, ho, minCode]

end

/-- A WAIT tests its counter, where it is counted and where it passes. -/
theorem issueHold_wait {d : Device} {k : Nat} {q : BitVec 128} (ho : cf q 0 4 = 0) :
    d.issueHold k q = (d.cueEvent k q).modCore k fun y =>
      if cf q 46 32 ≤ (mget 0 y.evt (cf q 40 6)).toNat then y.goto (y.pc + 1) else { y with held := some q, cueState := 2 } := by
  simp [Device.issueHold, Core.satisfied, Core.holdBy, ho]

/-- A FENCE tests the queues of its mask. -/
theorem issueHold_fence {d : Device} {k : Nat} {q : BitVec 128} (ho : cf q 0 4 = 3) :
    d.issueHold k q = (d.cueEvent k q).modCore k fun y =>
      if y.unitsDone (cf q 40 7) then y.goto (y.pc + 1) else { y with held := some q, cueState := 2 } := by
  simp [Device.issueHold, Core.satisfied, Core.holdBy, ho]

/-! ### The cues of the units at issue (R75, R91) -/

theorem issueUnit_full {d : Device} {k : Nat} {q : BitVec 128} (h : 16 ≤ ((d.core k).queue (cf q 4 4)).length) :
    d.issueUnit k q = d.modCore k Core.hold := if_pos h

/-- A cue that no check refuses joins the queue of its unit. -/
theorem issueUnit_queued {d e : Device} {k : Nat} {q : BitVec 128} {p : ReadRes} (hlen : ((d.core k).queue (cf q 4 4)).length < 16)
    (hrefs : ∀ w ∈ (d.core k).refWords (cueRefs q), w.2.bad = false) (he : d.noteRefs k q = e) (hp : e.nbParam k q = p)
    (hcodes : (e.issueChk k q).codes = []) (hbad : p.bad = []) (hparam : cf q 4 4 = 7 → nbParamBad (cf q 40 5) p.bytes = false) :
    d.issueUnit k q = p.dev.modCore k fun y =>
      { (y.setQueue (cf q 4 4) (y.queue (cf q 4 4) ++ [QCue.mk q y.pc y.home y.issued (e.issueChk k q).refs p.bytes
          false false none 0 e.now])).goto (y.pc + 1) with issued := y.issued + 1 } := by
  have hintact : ((d.core k).refWords (cueRefs q)).filter (fun w => w.2.bad) = [] := by simpa using hrefs
  have hblock : (cf q 4 4 == 7 && nbParamBad (cf q 40 5) p.bytes) = false := by simpa using hparam
  simp only [Device.issueUnit, Nat.not_le.2 hlen, if_false, he, hp, hintact, hcodes, hbad, hblock, errIf, minCode, List.isEmpty_nil,
    Bool.not_true, Bool.or_self, Bool.false_eq_true, List.append_nil]

section
variable {s : State} {c : Fin 480} {q : BitVec 128} (hrun : s.dev.towersRun = true) (hq : s.dev.issues c q)
include hrun hq

/-- The cue at the head of issue, by CUE_ISSUE or by a row that selects it. -/
theorem does_issue {i : Instr} {sel : BitVec 128 → Bool} {e : Device} (hx : exec i s = s.inTower (Device.issueNext sel c))
    (hs : sel q = true)
    (he : (if predTrue (s.dev.core c) q = true then (if cf q 4 4 = 0 then s.dev.issueSync c q else s.dev.issueUnit c q)
      else s.dev.modCore c fun y => y.goto (y.pc + 1 + if cf q 0 8 = 4 then cf q 56 12 else 0)) = e) : Does i s e :=
  does_inTower hrun hx ((issueNext_intact sel c s.dev q hq hs).trans he)

/-- A synchronisation cue whose predicate is true, by CUE_ISSUE and by its own row. -/
theorem does_sync (hp : predTrue (s.dev.core c) q = true) {op : Nat} (hop : cf q 0 8 = op) (hlt : op < 16) {row : Instr}
    (hrow : exec row s = s.inTower (Device.issueNext (isSync op) c)) {e : Device} (he : cf q 0 4 = op → s.dev.issueSync c q = e) :
    ∀ i ∈ [Instr.cueIssue c, row], Does i s e := by
  obtain ⟨ho, hu⟩ := sync_fields hop hlt
  have hsync : (if predTrue (s.dev.core c) q = true then (if cf q 4 4 = 0 then s.dev.issueSync c q else s.dev.issueUnit c q)
      else s.dev.modCore c fun y => y.goto (y.pc + 1 + if cf q 0 8 = 4 then cf q 56 12 else 0)) = e := by
    rw [if_pos hp, if_pos hu, he ho]
  intro i hi
  simp only [List.mem_cons, List.not_mem_nil, or_false] at hi
  rcases hi with rfl | rfl
  · exact does_issue hrun hq (sel := fun _ => true) rfl rfl hsync
  · exact does_issue hrun hq hrow (beq_iff_eq.2 hop) hsync

/-- A unit's cue whose predicate is true. -/
theorem does_unit (hp : predTrue (s.dev.core c) q = true) (hu : cf q 4 4 ≠ 0) {e : Device} (he : s.dev.issueUnit c q = e) :
    Does (.cueIssue c) s e :=
  does_issue hrun hq (sel := fun _ => true) rfl rfl ((if_pos hp).trans ((if_neg hu).trans he))

end

/-- Settles O3: each synchronisation cue by its operation, and a unit's cue by the length of its queue and by its checks. -/
theorem cuesIssueAndQueue : Obligations.CuesIssueAndQueue := by
  refine ⟨fun s c q hrun hq hp hh => ?sync,
    fun s c q hrun hq hp hu => ⟨fun hfull => ?full, fun hlen hrefs hcodes hbad hparam => ?queued⟩⟩
  case sync =>
    refine ⟨fun hop => ?wait, fun hop hi => ?sigLocal, fun hop hlt ha hi => ?sigRemote, fun hop => ?fence, fun hop hl => ?loop,
      fun hop => ?jump, fun hop => ?endFrame, fun hop hf hpool hb => ?descWrite, fun hop => ?nop⟩
    case wait => exact does_sync hrun hq hp hop (by decide) rfl fun ho => (issueSync_wait hh ho).trans (issueHold_wait ho)
    case sigLocal => exact does_sync hrun hq hp hop (by decide) rfl fun ho => issueSync_sigLocal hh ho hi
    case sigRemote => exact does_sync hrun hq hp hop (by decide) rfl fun ho => issueSync_sigRemote hh ho hlt ha hi
    case fence => exact does_sync hrun hq hp hop (by decide) rfl fun ho => (issueSync_fence hh ho).trans (issueHold_fence ho)
    case loop => exact does_sync hrun hq hp hop (by decide) rfl fun ho => issueSync_loop hh ho hl
    case jump => exact does_sync hrun hq hp hop (by decide) rfl fun ho => issueSync_jump hh ho
    case endFrame => exact does_sync hrun hq hp hop (by decide) rfl fun ho => issueSync_endFrame hh ho
    case descWrite => exact does_sync hrun hq hp hop (by decide) rfl fun ho => issueSync_descWrite hh ho hpool hf hb
    case nop => exact does_sync hrun hq hp hop (by decide) rfl fun ho => issueSync_nop hh ho
  case full => exact does_unit hrun hq hp hu (issueUnit_full hfull)
  case queued => exact does_unit hrun hq hp hu (issueUnit_queued hlen hrefs rfl rfl hcodes hbad hparam)

/-- Settles O4: issue reads the intact cue, and its false predicate moves it on. -/
theorem falsePredicateSkips : Obligations.FalsePredicateSkips :=
  fun _ _ _ hrun hq hp => does_issue hrun hq (sel := fun _ => true) rfl rfl (if_neg (ne_true_of_eq_false hp))

/-! ### Holds, signals and ends (R55, R76, R79 to R81, R85) -/

section
variable {d : Device} {k : Nat}

theorem holdRelease_satisfied {q : BitVec 128} (hq : (d.core k).held = some q) (hs : (d.core k).satisfied q = true) :
    d.holdRelease k = d.modCore k fun y => y.goto (y.pc + 1) := by
  simp only [Device.holdRelease, hq, hs, if_true]

theorem holdRelease_unsatisfied {q : BitVec 128} (hq : (d.core k).held = some q) (hs : (d.core k).satisfied q = false) :
    d.holdRelease k = d := by
  simp only [Device.holdRelease, hq, hs, Bool.false_eq_true, if_false]

theorem holdRelease_none (hq : (d.core k).held = none) : d.holdRelease k = d := by
  simp only [Device.holdRelease, hq]

end

section
variable {d : Device} {n : Nat}

theorem deliverSignal_none (hg : d.take.signals[n]? = none) : d.deliverSignal n = d := by
  simp only [Device.deliverSignal, hg]

variable {g : Signal} (hg : d.take.signals[n]? = some g)
include hg

theorem deliverSignal_early (hr : d.sigReady g = false) : d.deliverSignal n = d := by
  simp [Device.deliverSignal, hg, hr]

theorem deliverSignal_arrives (hr : d.sigReady g = true) (hnear : (d.sigHalves g).1 = (d.sigHalves g).2) :
    d.deliverSignal n = d.arriveSignal n g := by
  simp [Device.deliverSignal, hg, hr, hnear]

theorem deliverSignal_crosses (hr : d.sigReady g = true) (hfar : (d.sigHalves g).1 ≠ (d.sigHalves g).2) (hc : g.crossing = false) :
    d.deliverSignal n = (d.modTake fun t => { t with signals := t.signals.set n { g with crossing := true } }).sendService
      ((d.sigHalves g).1 == 0) [g.entry] := by
  simp [Device.deliverSignal, hg, hr, hfar, hc]

theorem deliverSignal_underWay (hfar : (d.sigHalves g).1 ≠ (d.sigHalves g).2) (hc : g.crossing = true) : d.deliverSignal n = d := by
  simp [Device.deliverSignal, hg, hfar, hc]

end

/-- The mask of END_FRAME names every unit. -/
theorem unitsDone_all (c : Core) : c.unitsDone 127 = true ↔ ∀ u < 7, c.queue (u + 1) = [] := by
  have hbit : ∀ u < 7, bit 127 u = true := by decide
  simp only [Core.unitsDone, List.all_eq_true, List.mem_range, Bool.or_eq_true, Bool.not_eq_true', List.isEmpty_iff]
  exact forall₂_congr fun u hu => by simp [hbit u hu]

/-- What an END_FRAME that has issued waits for (R85). -/
def Device.frameDue (d : Device) (k : Nat) : Prop :=
  (d.core k).ending = true ∧ (∀ u < 7, (d.core k).queue (u + 1) = []) ∧ ∀ g ∈ d.take.signals, g.sender ≠ k

section
variable {d : Device} {k : Nat}

theorem frameDue_iff :
    ((d.core k).ending && (d.core k).unitsDone 127 && d.take.signals.all fun g => g.sender != k) = true ↔ d.frameDue k := by
  simp only [Bool.and_eq_true, unitsDone_all, List.all_eq_true, bne_iff_ne, and_assoc, Device.frameDue]

theorem endFrame_ends (h : d.frameDue k) (h0 : (d.core k).set0 = none) (h1 : (d.core k).set1 = none) :
    d.endFrame k = (d.modCore k fun y => { y with ending := false, ended := true, cueState := 0 }).checkFrameDone :=
  (if_pos (frameDue_iff.2 h)).trans (if_neg (by simp [h0, h1]))

theorem endFrame_openTile (h : d.frameDue k) (ho : (d.core k).set0.isSome = true ∨ (d.core k).set1.isSome = true) :
    d.endFrame k = (d.cueError k 0x0A ((d.core k).pc - 1) (d.core k).home 0).modCore k fun y => { y with ending := false } :=
  (if_pos (frameDue_iff.2 h)).trans (if_pos (Bool.or_eq_true_iff.2 ho))

theorem endFrame_early (h : ¬ d.frameDue k) : d.endFrame k = d := if_neg (frameDue_iff.not.2 h)

end

/-- The cores whose bank a load completes with its cue: the cue's own, or none. -/
theorem loadCores_one_or_none (k : Nat) (q : QCue) : loadCores k q = [k] ∨ loadCores k q = [] := by
  unfold loadCores
  split
  · split
    · exact .inl rfl
    · exact .inr rfl
  · exact .inl rfl

section
variable {d : Device} {k u : Nat}

theorem completeCue_empty (hq : (d.core k).queue u = []) : d.completeCue k u = d := by
  simp only [Device.completeCue, hq]

variable {q : QCue} {r : List QCue} (hq : (d.core k).queue u = q :: r)
include hq

theorem completeCue_unfinished (hd : q.done = false) : d.completeCue k u = d := by
  simp only [Device.completeCue, hq, hd, Bool.false_eq_true, if_false]

theorem completeCue_finished (hd : q.done = true) (hb : readBank q = none) :
    d.completeCue k u = (d.modCore k fun y => y.setQueue u r).cueEvent k q.cue := by
  simp only [Device.completeCue, hq, hd, if_true, hb]

/-- A load of a bank completes at its cores first. -/
theorem completeCue_load (hd : q.done = true) {b : Nat} (hb : readBank q = some b) :
    d.completeCue k u =
      ((d.each (loadCores k q) fun m e => e.modCore m fun y => y.loadDone d.now b (k, u, q.order)).modCore k fun y =>
        y.setQueue u r).cueEvent k q.cue := by
  simp only [Device.completeCue, hq, hd, if_true, hb]
  rcases loadCores_one_or_none k q with hl | hl <;> rw [hl] <;> rfl

end

/-! ### Their commands -/

section
variable {s : State} (h : s.dev.towersRun = true) {c : Fin 480} {e : Device}
include h

theorem does_holdRelease (he : s.dev.holdRelease c = e) : Does (.holdRelease c) s e := does_inTower (f := Device.holdRelease c) h rfl he

theorem does_signalDelivery {n : Nat} (he : s.dev.deliverSignal n = e) : Does (.signalDelivery n) s e :=
  does_inTower (f := Device.deliverSignal n) h rfl he

theorem does_endFrameComplete (he : s.dev.endFrame c = e) : Does (.endFrameComplete c) s e :=
  does_inTower (f := Device.endFrame c) h rfl he

theorem does_cueCompletion {u : ExecUnit} (he : s.dev.completeCue c (unitNum u) = e) : Does (.cueCompletion c u) s e :=
  does_inTower (f := Device.completeCue c (unitNum u)) h rfl he

end

/-- Settles O6: each row by what it finds: a held cue, a signal, an END_FRAME that waits, the head of a unit's queue. -/
theorem holdsSignalsAndEndsOfCues : Obligations.HoldsSignalsAndEndsOfCues := by
  refine ⟨fun s c h => ⟨fun q hq => ⟨?satisfied, ?unsatisfied⟩, ?notHeld⟩, fun s n g h hg => ⟨?arrives, ?crosses, ?early, ?underWay⟩,
    fun s n h hg => ?noSignal, fun s c h => ⟨fun he hu hg => ⟨?ends, ?openTile⟩, ?notDue⟩,
    fun s c u q r h hq => ⟨?finished, ?load, ?unfinished⟩, fun s c u h hq => ?noCue⟩
  case satisfied => exact fun hs => does_holdRelease h (holdRelease_satisfied hq hs)
  case unsatisfied => exact fun hs => does_holdRelease h (holdRelease_unsatisfied hq hs)
  case notHeld => exact fun hq => does_holdRelease h (holdRelease_none hq)
  case arrives => exact fun hr hn => does_signalDelivery h (deliverSignal_arrives hg hr (not_not.1 hn))
  case crosses => exact fun hr hf hc => does_signalDelivery h (deliverSignal_crosses hg hr hf hc)
  case early => exact fun hr => does_signalDelivery h (deliverSignal_early hg hr)
  case underWay => exact fun hf hc => does_signalDelivery h (deliverSignal_underWay hg hf hc)
  case noSignal => exact does_signalDelivery h (deliverSignal_none hg)
  case ends => exact fun h0 h1 => does_endFrameComplete h (endFrame_ends ⟨he, hu, hg⟩ h0 h1)
  case openTile => exact fun ho => does_endFrameComplete h (endFrame_openTile ⟨he, hu, hg⟩ ho)
  case notDue =>
    refine fun hn => does_endFrameComplete h (endFrame_early ?_)
    rintro ⟨he, hu, hg⟩
    rcases hn with hn | ⟨u, hlt, hn⟩ | ⟨g, hm, hn⟩
    · exact ne_true_of_eq_false hn he
    · exact hn (hu u hlt)
    · exact hg g hm hn
  case finished => exact fun hd hb => does_cueCompletion h (completeCue_finished hq hd hb)
  case load => exact fun hd b hb => does_cueCompletion h (completeCue_load hq hd hb)
  case unfinished => exact fun hd => does_cueCompletion h (completeCue_unfinished hq hd)
  case noCue => exact does_cueCompletion h (completeCue_empty hq)

end Sys2Proof.Machine
end

section
/-! SUPPORT. The guard band, the arrival of lists, losses, rejoins and the end of an abort: what each leaves, by its cases; with the
statement of guard bands and losses. -/
namespace Sys2Proof.Machine

open Sys2Proof

/-! ### The guard band (R339, R371) -/

/-- With no tower busy, and every measured tower up and keeping a margin, the guard band counts none and loses none. -/
theorem guardBand_idle {d : Device} {eyes : List EyeMeas} (hbusy : ∀ t < 20, d.towerBusy t = false)
    (hup : ∀ e ∈ eyes, d.up e.tower.val = true) (hmargin : ∀ e ∈ eyes, 2 ≤ (recheck (mget 0 (d.tower e.tower).taps e.group) e).2) :
    d.guardBand eyes = ((((d.count (gafReg 0x58) 0).modTake fun t => { t with guardRun := 0 }).each
      ((eyes.map fun e => e.tower.val).eraseDups) fun t d => d.setField (twrReg t 0x302000) 12 7 127).each eyes Device.recheckEye
        ).loseTowers [] := by
  have hnone : (List.range 20).filter (fun t => d.up t && d.towerBusy t) = [] := by
    rw [List.filter_eq_nil_iff]
    intro t ht
    simp [hbusy t (List.mem_range.1 ht)]
  have hall : eyes.filter (fun e => d.up e.tower && !d.towerBusy e.tower) = eyes := by
    rw [List.filter_eq_self]
    intro e he
    simp [hup e he, hbusy e.tower e.tower.isLt]
  have hkept : eyes.filter (fun e => decide ((recheck (mget 0 (d.tower e.tower).taps e.group) e).2 < 2)) = [] := by
    rw [List.filter_eq_nil_iff]
    intro e he
    simpa only [decide_eq_true_eq, not_lt] using hmargin e he
  simp only [Device.guardBand, hnone, hall, hkept, if_true, List.length_nil, List.map_nil, List.foldl_nil]

/-! ### The coming frame's list (R89, R327) -/

theorem doesWhole_onClock {f : Device → Device} {s : State} {i : Instr} {t : Device} (h : s.dev.clocked = true)
    (hx : exec i s = s.onClock (Device.whole f)) (ht : f s.dev.fresh = t) : DoesWhole i s t := by
  subst ht
  exact ⟨fun hb => does_onClock h hx (if_neg (ne_true_of_eq_false hb)), fun hb => does_onClock h hx (if_pos hb)⟩

theorem listArrives_decided {d : Device} {k : Nat} {o : Outcome} (h : d.take.decision = some o) : d.listArrives k = d := by
  simp [Device.listArrives, h]

section
variable {d : Device} {k : Nat} {r : Reel} {j : Nat} {t : ReadRes} (hrun : d.take.state = 2 ∨ d.take.starting = true)
  (hopen : d.take.decision = none) (ha : d.hasArray k = true) (hr : d.take.reel = some r) (hj : r.entryIndex d.comingFrame = some j)
  (ht : d.serviceRead (r.base + r.frameTable + 128 * j) 8 = t)
include hrun hopen ha hr hj ht

theorem listArrives_badFrame (hb : t.bad ≠ []) : d.listArrives k = t.dev.badService := by
  simp [Device.listArrives, hrun, hopen, ha, hr, hj, ht, hb]

section
variable (hb : t.bad = []) {x : ReadRes} (hx : t.dev.serviceRead (r.base + leAt t.bytes 0 8 + 48 * (k / 6)) 48 = x)
include hb hx

theorem listArrives_badIndex (hxb : x.bad ≠ []) : d.listArrives k = x.dev.badService := by
  simp [Device.listArrives, hrun, hopen, ha, hr, hj, ht, hb, hx, hxb]

theorem listArrives_entry (hxb : x.bad = []) {e : CoreEntry}
    (he : (coreEntries x.bytes)[homeAt (d.ringRotates r (k / 6) (coreEntries x.bytes)) d.comingFrame k % 6]? = some e) :
    d.listArrives k = x.dev.entryArrives r k e := by
  simp [Device.listArrives, hrun, hopen, ha, hr, hj, ht, hb, hx, hxb, he]

end
end

/-! ### What leaves a register as it is -/

/-- What no step of an iteration changes, the iteration does not change. -/
theorem each_fixed {α β : Type} (g : Device → β) (l : List α) {f : α → Device → Device} (hf : ∀ x e, g (f x e) = g e) (d : Device) :
    g (d.each l f) = g d :=
  List.foldlRecOn (motive := fun e : Device => g e = g d) l _ rfl fun _ he x _ => (hf x _).trans he

section
variable (d : Device) {a : Nat}

theorem Device.reg_raiseVector (v : Nat) : (d.raiseVector v).reg a = d.reg a := by
  unfold Device.raiseVector; split <;> rfl

theorem Device.reg_event_other (h : a ≠ svcReg 0x100) (v : Nat) : (d.event v).reg a = d.reg a := by
  unfold Device.event
  dsimp only
  split
  · rw [Device.reg_raiseVector, d.reg_setBit_other h]
  · exact d.reg_setBit_other h _

theorem Device.reg_setLog (w : Nat) (l : Log) : (d.setLog w l).reg a = d.reg a := by
  unfold Device.setLog; split <;> rfl

/-- An entry of a log writes the interrupt status and the registers of that log. -/
theorem Device.reg_log_other (w kind unit addr syn detail : Nat) (h : a ≠ svcReg 0x100) (hs : a ≠ logStatusReg w)
    (hl : a ≠ logStatusReg w + 8) : (d.log w kind unit addr syn detail).reg a = d.reg a := by
  unfold Device.log
  split
  · rw [Device.reg_event_other _ h, Device.reg_setLog]
  · rw [Device.reg_count_other _ hl, d.reg_setBit_other hs]

theorem Device.reg_rampStop_other (k : Nat) (h : a ≠ corReg k 0x220) : (d.rampStop k).reg a = d.reg a := by
  unfold Device.rampStop
  split
  · exact d.reg_count_other h _
  · rfl

theorem Device.reg_stopCore_other (k : Nat) (h : a ≠ corReg k 0x220) : (d.stopCore k).reg a = d.reg a := by
  unfold Device.stopCore
  split
  · rfl
  · exact d.reg_rampStop_other k h

/-- Of the registers an abort writes those of the cores alone. -/
theorem Device.reg_beginAbort_below (h : a < 0x10000000) : d.beginAbort.reg a = d.reg a := by
  have hcore (k : Nat) : a ≠ corReg k 0x220 := by unfold corReg; omega
  have hstop : (d.each (d.cores.map (·.1)) Device.stopCore).reg a = d.reg a :=
    each_fixed (·.reg a) _ (fun k e => e.reg_stopCore_other k (hcore k)) d
  have hcmd (e : Device) : e.abortCommand.reg a = e.reg a := by unfold Device.abortCommand; split <;> rfl
  exact (hcmd _).trans hstop

end

/-! ### Fatal conditions (R558) -/

theorem Device.regs_setField {d : Device} (hd : KeysRise 0 d.regs = true) (a lo n v : Nat) : KeysRise 0 (d.setField a lo n v).regs = true :=
  d.regs_setReg hd a _

/-- FATAL is set before its cause and its half, and they leave it set. -/
theorem bitOf_setFatal {d : Device} (hd : KeysRise 0 d.regs = true) (cause half : Nat) :
    (((d.setField (svcReg 0xD000) 2 1 1).setField (svcReg 0xD000) 3 4 cause).setField (svcReg 0xD000) 7 1 half).bitOf
      (svcReg 0xD000) 2 = true := by
  have h1 := Device.regs_setField hd (svcReg 0xD000) 2 1 1
  have h2 := Device.regs_setField h1 (svcReg 0xD000) 3 4 cause
  rw [Device.bitOf_eq, Device.fieldOf_setField_apart _ h2 _ _ _ _ _ _ (by decide) (by decide),
    Device.fieldOf_setField_apart _ h1 _ _ _ _ _ _ (by decide) (by decide), d.fieldOf_setField hd _ _ _ _ (by decide)]
  rfl

/-- The log of faults is a half's. -/
theorem mainLog_half (d : Device) : d.mainLog = 20 ∨ d.mainLog = 21 := by
  unfold Device.mainLog; split <;> simp

/-- An entry of the log of faults leaves SVC_FATAL as it is. -/
theorem reg_mainLog_fatal (d : Device) (kind unit addr syn detail : Nat) :
    (d.log d.mainLog kind unit addr syn detail).reg (svcReg 0xD000) = d.reg (svcReg 0xD000) := by
  rcases mainLog_half d with h | h <;> rw [h] <;> exact d.reg_log_other _ _ _ _ _ _ (by decide) (by decide) (by decide)

/-- A fatal condition leaves FATAL set: nothing after its record writes SVC_FATAL. -/
theorem bitOf_fatal {d : Device} (hd : Formed d) (cause half : Nat) : (d.fatal cause half).bitOf (svcReg 0xD000) 2 = true := by
  have hdrop : Keeps false false false true d d.dropFaults := Device.dropFaults_keeps _ (.refl d)
  have hset := bitOf_setFatal (hdrop.formed hd).regs cause half
  unfold Device.fatal
  split
  next h => exact h
  next =>
    extract_lets dropped pins cycle marked record logged told
    have hlog : logged.reg (svcReg 0xD000) = record.reg (svcReg 0xD000) := reg_mainLog_fatal record _ _ _ _ _
    have htold : told.reg (svcReg 0xD000) = logged.reg (svcReg 0xD000) := by
      unfold told
      split
      · rfl
      · exact logged.reg_event_other (by decide) 4
    have hend : (if told.engaged && told.take.state != 3 then told.beginAbort else told).reg (svcReg 0xD000) = told.reg (svcReg 0xD000) := by
      split
      · exact told.reg_beginAbort_below (by decide)
      · rfl
    rw [Device.bitOf, hend, htold, hlog]
    exact hset

/-- A half lost leaves FATAL set. -/
theorem bitOf_loseHalf {d : Device} (hd : Formed d) (cause : Nat) {h : Nat} (hl : (d.half h).lost = false) :
    (d.loseHalf cause h).bitOf (svcReg 0xD000) 2 = true := by
  unfold Device.loseHalf
  rw [if_neg (ne_true_of_eq_false hl)]
  refine bitOf_fatal (Keeps.formed (m := true) (c := true) (s := true) (r := true) (d := d) ?_ hd) cause h
  exact Device.each_keeps _ _ _ _ (fun _ _ => Device.modSite_keeps _ _ _) <|
    Device.each_keeps _ _ _ _ (fun _ _ => Device.modTower_keeps _ _ _) <|
    Device.modHalf_keeps _ _ _ <| Device.each_keeps _ _ _ _ (fun _ _ => Device.tagTimeout_keeps _ _ _) <|
    Device.setBit_keeps _ _ _ <| Device.modHalf_keeps _ _ _ (.refl d)

/-! ### Losses (R380, R383) -/

section
variable {d : Device}

theorem loseTowers_up {ts : List Nat} {t : Nat} {r : List Nat} (h : ts.filter d.up = t :: r) :
    d.loseTowers ts = (((d.each (t :: r) Device.fence).fault 2 t 0 0 0 ((t :: r).foldl (fun a x => a + 2 ^ x) 0)).each (t :: r)
      Device.autoRejoin) := by
  simp only [Device.loseTowers, h]

theorem loseTowers_none {ts : List Nat} (h : ts.filter d.up = []) : d.loseTowers ts = d := by
  simp only [Device.loseTowers, h]

theorem loseHalf_lost {cause h : Nat} (hl : (d.half h).lost = true) : d.loseHalf cause h = d := if_pos hl

/-! ### Rejoining (R381) -/

theorem rejoinEnd_none {t : Nat} {ok : Bool} {eyes : List EyeMeas} (h : (d.tower t).rejoining = false) : d.rejoinEnd t ok eyes = d :=
  if_neg (ne_true_of_eq_false h)

section
variable {t : Nat} (h : (d.tower t).rejoining = true) {a : Device} (ha : (d.modTower t fun x => { x with rejoining := false }) = a)
include h ha

/-- A rejoin that ends well returns the tower. -/
theorem rejoinEnd_returns (eyes : List EyeMeas) {e : Device}
    (he : (a.modTower t fun x => { x with fenced := false }).setField (twrReg t 0x302000) 21 1 0 = e) :
    d.rejoinEnd t true eyes = (((Device.tuneTower t eyes (e.each (List.range 24) fun c d =>
      d.modSite (24 * t + c) fun x => { x with srBase := false })).startModel t).mbxEndOf 6 0) := by
  subst ha he
  exact (if_pos h).trans (if_pos rfl)

variable {n : Nat} (hn : min 3 (a.fieldOf (twrReg t 0x302008) 1 2 + 1) = n) {f : Device}
  (hf : a.setField (twrReg t 0x302008) 1 2 n = f) (eyes : List EyeMeas)
include hn hf

/-- After the third failed attempt the tower is dark. -/
theorem rejoinEnd_dark (h3 : n = 3) :
    d.rejoinEnd t false eyes = ((f.darken t).setField (twrReg t 0x302000) 21 1 0).mbxEndOf 6 0 := by
  subst ha hf
  simp [Device.rejoinEnd, h, hn, h3]

/-- Before it, the service plane tries again by itself, unless software commanded the attempt. -/
theorem rejoinEnd_again (h3 : n ≠ 3) :
    d.rejoinEnd t false eyes =
      (if f.bitOf (hstReg 0x108) 0 && f.mbx.op == 6 then f else f.autoRejoin t).mbxEndOf 6 0 := by
  subst ha hf
  simp only [Device.rejoinEnd, h, hn, h3, if_true, if_false, Bool.false_eq_true]

end

/-! ### The end of an abort (R556) -/

theorem Device.take_event (v : Nat) : (d.event v).take = d.take := by
  unfold Device.event Device.raiseVector
  dsimp only
  split
  · split <;> rfl
  · rfl

theorem Device.take_autoRejoin (t : Nat) : (d.autoRejoin t).take = d.take := by
  unfold Device.autoRejoin; split <;> rfl

theorem Device.take_sleepMemories : d.sleepMemories.take = d.take := by
  unfold Device.sleepMemories
  rw [each_fixed (·.take) _ (fun k e => by split <;> rfl),
    each_fixed (·.take) _ (fun k e => (rfl : (e.modSite k Site.sleep).take = e.take))]

theorem Device.take_parkMemories : d.parkMemories.take = d.take := by
  unfold Device.parkMemories
  rw [each_fixed (·.take) _ (fun k e => by split <;> rfl), Device.take_sleepMemories]

/-- Unloading the reel leaves of the take's record all but the reel and the state. -/
theorem Device.take_unloadReel : d.unloadReel.take = { d.take with reel := none, state := 0 } :=
  each_fixed (·.take) (List.range 4) (fun _ _ => rfl) _

/-- The end of an abort leaves no take, no reel and no abort. -/
theorem take_abortEnd (hs : d.take.state = 3) (ha : d.take.aborting = true) :
    d.abortEnd.take.state = 0 ∧ d.abortEnd.take.reel = none ∧ d.abortEnd.take.aborting = false := by
  unfold Device.abortEnd
  rw [if_pos ⟨hs, ha⟩]
  dsimp only
  rw [each_fixed (·.take) _ (fun t e => e.take_autoRejoin t), Device.take_parkMemories, Device.take_event]
  have hthaw (e : Device) : e.thaw.take = e.take := rfl
  rw [hthaw, Device.take_unloadReel]
  exact ⟨rfl, rfl, rfl⟩

theorem abortEnd_none (hs : d.take.state ≠ 3) : d.abortEnd = d := if_neg fun h => hs h.1

end

/-- Settles O26: each row by its cases; a fatal condition leaves FATAL set, and the end of an abort an empty record of the take. -/
theorem guardBandsAndLosses : Obligations.GuardBandsAndLosses := by
  refine ⟨fun s h => ⟨fun eyes hbusy hup hmargin => ?guardBand, fun hrun => ?forced, fun hrun => ?notForced,
      fun c r j hrun hopen ha hr hj => ?list, fun c o ho => ?decided⟩,
    fun s h => ⟨?flow, fun m t r hm => ?towers, fun m hm => ?noTower, fun b hl => ?half, fun b hl => ?halfLost, fun t eyes hr => ?rejoin,
      fun t r hr => ?noRejoin, fun hs ha => ?abort, fun hs => ?noAbort⟩⟩
  case guardBand => exact does_onClock (f := Device.guardBand eyes) h rfl (guardBand_idle hbusy hup hmargin)
  case forced => exact does_onClock (f := Device.guardForce) h rfl (if_pos hrun)
  case notForced => exact does_onClock (f := Device.guardForce) h rfl (if_neg (Nat.not_le.2 hrun))
  case list =>
    have hx : exec (.nextListArrival c) s = s.onClock (Device.whole (Device.listArrives c)) := rfl
    refine ⟨fun hb => doesWhole_onClock h hx (listArrives_badFrame (d := s.dev.fresh) hrun hopen ha hr hj rfl hb),
      fun hb hxb => doesWhole_onClock h hx (listArrives_badIndex (d := s.dev.fresh) hrun hopen ha hr hj rfl hb rfl hxb),
      fun hb hxb e he => ⟨fun hempty => doesWhole_onClock h hx ?_, fun hempty => doesWhole_onClock h hx ?_⟩⟩
    · exact (listArrives_entry (d := s.dev.fresh) hrun hopen ha hr hj rfl hb rfl hxb he).trans (if_pos hempty)
    · exact (listArrives_entry (d := s.dev.fresh) hrun hopen ha hr hj rfl hb rfl hxb he).trans (if_neg (ne_true_of_eq_false hempty))
  case decided =>
    exact (doesWhole_onClock (f := Device.listArrives c) h rfl (listArrives_decided (d := s.dev.fresh) ho)).1 rfl
  case flow => exact does_run (f := Device.flowStale) h rfl rfl
  case towers => exact does_run (f := Device.loseTowers (bitsOf 20 m.toNat)) h rfl (loseTowers_up hm)
  case noTower => exact does_run (f := Device.loseTowers (bitsOf 20 m.toNat)) h rfl (loseTowers_none hm)
  case half =>
    refine ⟨does_run (f := Device.loseHalf 1 (halfNum b)) h rfl rfl, does_run (f := Device.loseHalf 2 (halfNum b)) h rfl rfl, fun hd => ?_⟩
    exact ⟨bitOf_loseHalf ((formed_iff _).1 hd) 1 hl, bitOf_loseHalf ((formed_iff _).1 hd) 2 hl⟩
  case halfLost =>
    exact ⟨does_run (f := Device.loseHalf 1 (halfNum b)) h rfl (loseHalf_lost hl),
      does_run (f := Device.loseHalf 2 (halfNum b)) h rfl (loseHalf_lost hl)⟩
  case rejoin =>
    exact ⟨does_run (f := Device.rejoinEnd t true eyes) h rfl (rejoinEnd_returns hr rfl eyes rfl),
      fun h3 => does_run (f := Device.rejoinEnd t false eyes) h rfl (rejoinEnd_dark hr rfl rfl rfl eyes h3),
      fun h3 => does_run (f := Device.rejoinEnd t false eyes) h rfl (rejoinEnd_again hr rfl rfl rfl eyes h3)⟩
  case noRejoin => exact does_run (f := Device.rejoinEnd t r.ok r.eyes) h rfl (rejoinEnd_none hr)
  case abort => exact ⟨does_run (f := Device.abortEnd) h rfl rfl, take_abortEnd hs ha⟩
  case noAbort => exact does_run (f := Device.abortEnd) h rfl (abortEnd_none hs)

end Sys2Proof.Machine
end

section
/-! SUPPORT. The mailbox: a command begun, refused or taken, and each command by its own cases; with the statement of the mailbox. -/
namespace Sys2Proof.Machine

open Sys2Proof

/-! ### A command begun (R436) -/

/-- The mailbox with command `op` running. -/
def Device.begun (d : Device) (op : Nat) : Device := { d.setField (hstReg 0x108) 0 1 1 with mbx := Mailbox.mk op none none }

/-- Whether the firmware carries out command `op`, which the states of `ok` allow: it serves, and no STOP has ended (R502, R521). -/
def Device.admits (d : Device) (op : Nat) (ok : Device → Bool) : Bool :=
  (d.begun op).serving && !(d.begun op).bitOf (svcReg 0xB000) 18 && ok (d.begun op)

section
variable {d : Device} {op : Nat} {ok : Device → Bool} {f : Device → Device}

theorem mbxBegin_busy (h : d.bitOf (hstReg 0x108) 0 = true) : Device.mbxBegin op f d = d.setBit (hstReg 0x10) 3 := if_pos h

theorem mbxBegin_free (h : d.bitOf (hstReg 0x108) 0 = false) : Device.mbxBegin op f d = f (d.begun op) := if_neg (ne_true_of_eq_false h)

theorem mbxWhen_refused (h : d.bitOf (hstReg 0x108) 0 = false) (ha : d.admits op ok = false) :
    Device.mbxWhen op ok f d = (d.begun op).mbxEnd 4 := (mbxBegin_free h).trans (if_neg (ne_true_of_eq_false ha))

theorem mbxWhen_admitted (h : d.bitOf (hstReg 0x108) 0 = false) (ha : d.admits op ok = true) :
    Device.mbxWhen op ok f d = f (d.begun op) := (mbxBegin_free h).trans (if_pos ha)

end

/-- A command of the service plane carried out whole or not at all (log entry 146). -/
theorem doesWhole_run {f : Device → Device} {s : State} {i : Instr} {t : Device} (h : s.dev.awake = true)
    (hx : exec i s = s.run (Device.whole f)) (ht : f s.dev.fresh = t) : DoesWhole i s t := by
  subst ht
  exact ⟨fun hb => does_run h hx (if_neg (ne_true_of_eq_false hb)), fun hb => does_run h hx (if_pos hb)⟩

section
variable {s : State} {i : Instr} {op : Nat} {ok : Device → Bool} {f : Device → Device} {e : Device} (h : s.dev.awake = true)
include h

section
variable (hbusy : s.dev.bitOf (hstReg 0x108) 0 = true)
include hbusy

theorem does_busy (hx : exec i s = s.run (Device.mbxBegin op f)) : Does i s (s.dev.setBit (hstReg 0x10) 3) :=
  does_run h hx (mbxBegin_busy hbusy)

theorem does_busy_when (hx : exec i s = s.run (Device.mbxWhen op ok f)) : Does i s (s.dev.setBit (hstReg 0x10) 3) :=
  does_busy h hbusy hx

theorem doesWhole_busy (hx : exec i s = s.run (Device.whole (Device.mbxWhen op ok f))) :
    DoesWhole i s (s.dev.fresh.setBit (hstReg 0x10) 3) := doesWhole_run h hx (mbxBegin_busy (d := s.dev.fresh) hbusy)

end

section
variable (hfree : s.dev.bitOf (hstReg 0x108) 0 = false)
include hfree

theorem does_refused (hx : exec i s = s.run (Device.mbxWhen op ok f)) (ha : s.dev.admits op ok = false) :
    Does i s ((s.dev.begun op).mbxEnd 4) := does_run h hx (mbxWhen_refused hfree ha)

theorem does_admitted (hx : exec i s = s.run (Device.mbxWhen op ok f)) (ha : s.dev.admits op ok = true) (he : f (s.dev.begun op) = e) :
    Does i s e := does_run h hx ((mbxWhen_admitted hfree ha).trans he)

theorem doesWhole_refused (hx : exec i s = s.run (Device.whole (Device.mbxWhen op ok f))) (ha : s.dev.fresh.admits op ok = false) :
    DoesWhole i s ((s.dev.fresh.begun op).mbxEnd 4) := doesWhole_run h hx (mbxWhen_refused (d := s.dev.fresh) hfree ha)

theorem doesWhole_admitted (hx : exec i s = s.run (Device.whole (Device.mbxWhen op ok f))) (ha : s.dev.fresh.admits op ok = true)
    (he : f (s.dev.fresh.begun op) = e) : DoesWhole i s e :=
  doesWhole_run h hx ((mbxWhen_admitted (d := s.dev.fresh) hfree ha).trans he)

end
end

theorem admits_ok {d : Device} {op : Nat} {ok : Device → Bool} (h : d.admits op ok = true) : ok (d.begun op) = true :=
  ((Bool.and_eq_true _ _).mp h).2

/-- A command that the firmware carries out in the states of `ok` it carries out in other states that hold. -/
theorem admits_of_admits {d : Device} {op : Nat} {ok ok' : Device → Bool} (h : d.admits op ok = true) (h' : ok' (d.begun op) = true) :
    d.admits op ok' = true :=
  (Bool.and_eq_true _ _).mpr ⟨((Bool.and_eq_true _ _).mp h).1, h'⟩

/-! ### The end of a command (R359, R436) -/

section
variable {d : Device}

theorem mbxComplete_known {r : Nat} (hr : d.mbx.result = some r) (hb : d.bitOf (hstReg 0x108) 0 = true) {f : Device}
    (hf : (match d.mbx.arg3 with
      | some v => (((d.setField (hstReg 0x108) 0 1 0).setField (hstReg 0x108) 8 8 r).setField (hstReg 0x108) 16 8 d.mbx.op).setReg
          (hstReg 0x128) v
      | none => ((d.setField (hstReg 0x108) 0 1 0).setField (hstReg 0x108) 8 8 r).setField (hstReg 0x108) 16 8 d.mbx.op) = f) :
    d.mbxComplete = ({ f with mbx := { f.mbx with result := none } } : Device).event 0 := by
  subst hf
  unfold Device.mbxComplete
  rw [hr]
  exact if_pos hb

theorem mbxComplete_idle (h : d.bitOf (hstReg 0x108) 0 = false ∨ d.mbx.result = none) : d.mbxComplete = d := by
  unfold Device.mbxComplete
  rcases h with hb | hr
  · split
    · rfl
    · rw [hb]; rfl
  · rw [hr]

/-- Whether the fabric's buffers and every ring queue are empty, and nothing that came is under way (R359). -/
def Device.fabricEmpty (d : Device) : Bool := (d.fab.ports.all fun p => p.2.drained) && d.fab.ring.isEmpty && d.ringQuiet

theorem drainDone_due (hb : d.bitOf (hstReg 0x108) 0 = true) (ho : d.mbx.op = 4) (hr : d.mbx.result = none)
    (he : d.fabricEmpty = true) : d.drainDone = (d.flushMerges.setBit (svcReg 0x9118) 0).mbxEnd 0 := by
  simp only [Device.fabricEmpty, Bool.and_eq_true] at he
  simp [Device.drainDone, hb, ho, hr, he]

theorem drainDone_early (h : d.bitOf (hstReg 0x108) 0 = false ∨ d.mbx.op ≠ 4 ∨ d.mbx.result ≠ none ∨ d.fabricEmpty = false) :
    d.drainDone = d := by
  refine if_neg fun hdue => ?_
  simp only [Bool.and_eq_true, beq_iff_eq, Option.isNone_iff_eq_none] at hdue
  obtain ⟨⟨⟨⟨⟨hb, ho⟩, hr⟩, hports⟩, hring⟩, hquiet⟩ := hdue
  rcases h with h | h | h | h
  · exact ne_true_of_eq_false h hb
  · exact h ho
  · exact h hr
  · simp [Device.fabricEmpty, hports, hring, hquiet] at h

end

/-- Whether a bank of a core is not FREE. -/
def Device.anyBankHeld (d : Device) : Bool := d.arrays.any fun k => (List.range 4).any fun n => (mget Bank.reset (d.core k).banks n).st != 0

/-! ### Each command by its cases: `x` is the device as the command begins -/

section
variable {d x : Device} (hfree : d.bitOf (hstReg 0x108) 0 = false)
include hfree

/-! TAKE_STOP (R436). -/

section
variable (hx : d.begun 3 = x) (ha : d.admits 3 (fun _ => true) = true)
include hx ha

theorem takeStopCmd_stops (hs : x.take.state = 2) :
    d.takeStopCmd = (if x.take.eastOutcome then x.vote false else x).modTake fun t => { t with stopping := true, decision := none } := by
  subst hx
  exact (mbxWhen_admitted hfree (admits_of_admits ha (by simp [hs]))).trans (if_neg (by simp [hs]))

theorem takeStopCmd_aborting (hs : x.take.state = 3) : d.takeStopCmd = x.mbxEnd 6 := by
  subst hx
  exact (mbxWhen_admitted hfree (admits_of_admits ha (by simp [hs]))).trans (if_pos hs)

end

/-! TOWER_REJOIN (R381). -/

section
variable (hx : d.begun 6 = x) (ha : d.admits 6 Device.idleTake = true)
include hx ha

theorem rejoinCmd_noTower (ht : 19 < x.mbxArg 0) : d.rejoinCmd = x.mbxEnd 3 := by
  subst hx
  exact (mbxWhen_admitted hfree ha).trans (if_pos ht)

theorem rejoinCmd_begins (ht : x.mbxArg 0 ≤ 19) (hf : (x.tower (x.mbxArg 0)).fenced = true) :
    d.rejoinCmd = x.modTower (x.mbxArg 0) fun y => { y with rejoining := true } := by
  subst hx
  exact (mbxWhen_admitted hfree ha).trans ((if_neg (Nat.not_lt.2 ht)).trans (if_pos hf))

theorem rejoinCmd_notFenced (ht : x.mbxArg 0 ≤ 19) (hf : (x.tower (x.mbxArg 0)).fenced = false) : d.rejoinCmd = x.mbxEnd 4 := by
  subst hx
  exact (mbxWhen_admitted hfree ha).trans ((if_neg (Nat.not_lt.2 ht)).trans (if_neg (ne_true_of_eq_false hf)))

end

/-! ARRAY_RESET (R382). -/

section
variable (hx : d.begun 7 = x) (ha : d.admits 7 Device.idleTake = true)
include hx ha

theorem arrayResetCmd_noTower (ht : 19 < x.mbxArg 0) : d.arrayResetCmd = x.mbxEnd 3 := by
  subst hx
  exact (mbxWhen_admitted hfree ha).trans (if_pos ht)

theorem arrayResetCmd_down (ht : x.mbxArg 0 ≤ 19) (hup : x.up (x.mbxArg 0) = false) : d.arrayResetCmd = x.mbxEnd 4 := by
  subst hx
  exact (mbxWhen_admitted hfree ha).trans ((if_neg (Nat.not_lt.2 ht)).trans (if_pos (by rw [hup]; rfl)))

theorem arrayResetCmd_begins (ht : x.mbxArg 0 ≤ 19) (hup : x.up (x.mbxArg 0) = true) :
    d.arrayResetCmd = (((x.each (List.range 24) fun c e => e.dropArrayCues (24 * x.mbxArg 0 + c)).modTower (x.mbxArg 0) fun y =>
      { y with resetting := true }).resetArrays (x.mbxArg 0)) := by
  subst hx
  exact (mbxWhen_admitted hfree ha).trans ((if_neg (Nat.not_lt.2 ht)).trans (if_neg (by simp [hup])))

end

/-! SAVE with phase CAPTURE (R359, R360). -/

section
variable (hx : d.begun 4 = x) (ha : d.admits 4 Device.heldTake = true) (he : x.bitOf (hstReg 0x3E8) 0 = false)
include hx ha he

omit hfree in
/-- A SAVE may capture in a held take while engine 7 does not run. -/
theorem admits_saveCapture :
    d.admits 4 (fun e => e.heldTake && !e.bitOf (hstReg (0x200 + 64 * 7 + 0x28)) 0) = true := by
  subst hx
  exact admits_of_admits ha ((Bool.and_eq_true _ _).mpr ⟨admits_ok ha, congrArg not he⟩)

theorem saveCaptureCmd_bankHeld (hb : x.anyBankHeld = true) : d.saveCaptureCmd = (x.setField (svcReg 0x9118) 2 3 1).mbxEnd 4 := by
  have hadmits := admits_saveCapture hx ha he
  subst hx
  exact (mbxWhen_admitted hfree hadmits).trans (if_pos hb)

section
variable (hb : x.anyBankHeld = false)
include hb

theorem saveCaptureCmd_notDrained (hd : x.bitOf (svcReg 0x9118) 0 = false) :
    d.saveCaptureCmd = (x.setField (svcReg 0x9118) 2 3 2).mbxEnd 4 := by
  have hadmits := admits_saveCapture hx ha he
  subst hx
  exact (mbxWhen_admitted hfree hadmits).trans ((if_neg (ne_true_of_eq_false hb)).trans (if_pos (congrArg not hd)))

section
variable (hd : x.bitOf (svcReg 0x9118) 0 = true) {r : Reel} (hr : x.take.reel = some r)
include hd hr

/-- With no bank held and the part drained, the capture is judged by its size and by the host. -/
theorem saveCaptureCmd_drained :
    d.saveCaptureCmd =
      if x.mbxArg 2 < x.imageBytes then x.mbxEnd 3
      else if !x.hostReach then x.mbxEnd 7
      else (((x.writeImage r (x.mbxArg 1)).setField (svcReg 0x9118) 2 3 0).setBit (svcReg 0x9118) 1).mbxEnd 0 := by
  have hadmits := admits_saveCapture hx ha he
  subst hx
  have hdrained : ¬ (!(d.begun 4).bitOf (svcReg 0x9118) 0) = true := by simp [hd]
  refine (mbxWhen_admitted hfree hadmits).trans ((if_neg (ne_true_of_eq_false hb)).trans ((if_neg hdrained).trans ?_))
  rw [hr]

theorem saveCaptureCmd_tooLarge (hn : x.mbxArg 2 < x.imageBytes) : d.saveCaptureCmd = x.mbxEnd 3 := by
  rw [saveCaptureCmd_drained hfree hx ha he hb hd hr, if_pos hn]

theorem saveCaptureCmd_noHost (hn : x.imageBytes ≤ x.mbxArg 2) (hh : x.hostReach = false) : d.saveCaptureCmd = x.mbxEnd 7 := by
  rw [saveCaptureCmd_drained hfree hx ha he hb hd hr, if_neg (Nat.not_lt.2 hn), if_pos (by simp [hh])]

theorem saveCaptureCmd_captures (hn : x.imageBytes ≤ x.mbxArg 2) (hh : x.hostReach = true) :
    d.saveCaptureCmd = (((x.writeImage r (x.mbxArg 1)).setField (svcReg 0x9118) 2 3 0).setBit (svcReg 0x9118) 1).mbxEnd 0 := by
  rw [saveCaptureCmd_drained hfree hx ha he hb hd hr, if_neg (Nat.not_lt.2 hn), if_neg (by simp [hh])]

end
end
end

/-! STOP (R521). -/

theorem stopCmd_stops (hx : d.begun 9 = x) (ha : d.admits 9 Device.idleTake = true) {e : Device}
    (he : x.copyBanks.sleepMemories.fabIdle = e) :
    d.stopCmd = (({ e with start := { e.start with
      held := .ledger (e.ledgerBytes (e.start.ledgerSeq + 1)) :: e.start.held, stopWait := 5 } } : Device).setBit
        (svcReg 0xB000) 16).tryHeld.finishStop := by
  subst hx he
  exact mbxWhen_admitted hfree ha

/-! CAL_READ (R513). -/

section
variable (hx : d.begun 0x10 = x)
include hx

theorem calReadCmd_small (hl : x.mbxArg 1 < calSize) : d.calReadCmd = x.mbxEnd 3 := by
  subst hx
  exact (mbxBegin_free hfree).trans (if_pos hl)

section
variable (hl : calSize ≤ x.mbxArg 1)
include hl

theorem calReadCmd_noSet (hc : x.start.cal = []) : d.calReadCmd = x.mbxEnd 4 := by
  subst hx
  rw [Device.calReadCmd, mbxBegin_free hfree, if_neg (Nat.not_lt.2 hl), hc]
  rfl

variable (hc : x.start.cal ≠ [])
include hc

theorem calReadCmd_noHost (hr : x.hostReach = false) : d.calReadCmd = x.mbxEnd 7 := by
  subst hx
  rw [Device.calReadCmd, mbxBegin_free hfree, if_neg (Nat.not_lt.2 hl), if_neg (by simpa using hc), hr]
  rfl

theorem calReadCmd_reads (hr : x.hostReach = true) :
    d.calReadCmd = (x.hostPut (x.mbxArg 0) (sliceBytes x.start.cal 0 calSize) fun _ => false).mbxEnd 0 := by
  subst hx
  rw [Device.calReadCmd, mbxBegin_free hfree, if_neg (Nat.not_lt.2 hl), if_neg (by simpa using hc), hr]
  rfl

end
end

/-! CAL_WRITE (R512, R513). -/

section
variable (hx : d.begun 0x11 = x) (ha : d.admits 0x11 Device.idleTake = true)
include hx ha

theorem calWriteCmd_size (hs : x.mbxArg 1 ≠ calSize) : d.calWriteCmd = x.mbxEnd 3 := by
  subst hx
  rw [Device.calWriteCmd, mbxWhen_admitted hfree ha, if_pos hs]

section
variable (hs : x.mbxArg 1 = calSize)
include hs

theorem calWriteCmd_noHost (hr : x.hostReach = false) : d.calWriteCmd = x.mbxEnd 7 := by
  subst hx
  rw [Device.calWriteCmd, mbxWhen_admitted hfree ha, if_neg (not_not.2 hs), hr]
  rfl

/-- A set of the right size that the host gives is refused, comes too late, or replaces one that waits. -/
theorem calWriteCmd_judged (hr : x.hostReach = true) {c : List Byte} (hc : (x.hostGet (x.mbxArg 0) calSize).1 = c) {e : Device}
    (he : ({ x with start := { x.start with held := x.start.held.filter fun w => !w.isCal } } : Device) = e) :
    d.calWriteCmd = if !calAccepts c then x.mbxEnd 3 else if x.calBegun then x.mbxEnd 4
      else ((e.setBit (svcReg 0xB000) 17).offerWrite (.cal 1 (e.calToWrite c))).mbxEnd 0 := by
  subst hx hc he
  rw [Device.calWriteCmd, mbxWhen_admitted hfree ha, if_neg (not_not.2 hs), hr]
  rfl

end
end

/-! ATTEST (R534, R536). -/

section
variable (hx : d.begun 0x20 = x)
include hx

theorem attestCmd_small (hl : x.mbxArg 1 < 6784) : d.attestCmd = x.mbxEnd 3 := by
  subst hx
  exact (mbxBegin_free hfree).trans (if_pos hl)

section
variable (hl : 6784 ≤ x.mbxArg 1) {k : Device} (hk : x.deriveKey = k)
include hl hk

theorem attestCmd_noKey (hn : (k.bitOf (secReg 0) 1 || k.bitOf (secReg 0) 2) = true) : d.attestCmd = k.mbxEnd 4 := by
  subst hx hk
  exact (mbxBegin_free hfree).trans ((if_neg (Nat.not_lt.2 hl)).trans (if_pos hn))

variable (hn : (k.bitOf (secReg 0) 1 || k.bitOf (secReg 0) 2) = false)
include hn

theorem attestCmd_noHost (hr : k.hostReach = false) : d.attestCmd = k.mbxEnd 7 := by
  subst hx hk
  exact (mbxBegin_free hfree).trans ((if_neg (Nat.not_lt.2 hl)).trans ((if_neg (ne_true_of_eq_false hn)).trans (if_pos (congrArg not hr))))

theorem attestCmd_reports (hr : k.hostReach = true) {e f : Device}
    (he : ({ k with sec := { k.sec with reports := k.sec.reports + 1 } } : Device) = e) {sig : List Byte}
    (hs : (Config.falconSign e.sec.idPrivate (sigMessage tagAttest e.reportBody) e.freeCtr).take 1280 = sig)
    (hf : ({ e with freeCtr := e.freeCtr + 1 } : Device) = f) :
    d.attestCmd = (f.hostPut (f.mbxArg 0) (e.reportBody ++ leBytes 2 sig.length ++ List.replicate 14 0 ++
      sliceBytes sig 0 1280 ++ f.idBlock) fun _ => false).mbxEnd 0 := by
  subst hx hk he hs hf
  exact (mbxBegin_free hfree).trans ((if_neg (Nat.not_lt.2 hl)).trans ((if_neg (ne_true_of_eq_false hn)).trans
    (if_neg (ne_true_of_eq_false (congrArg not hr)))))

end
end

/-! RESUME (R363, R431). -/

omit hfree in
/-- When the firmware takes RESUME: a reel loaded and no take, out of survival and locked. -/
theorem admits_resume (hserves : (d.begun 5).serving = true) (hstopped : (d.begun 5).bitOf (svcReg 0xB000) 18 = false)
    (hidle : (d.begun 5).idleTake = true) (hreel : (d.begun 5).take.state = 1) (hsurv : (d.begun 5).survival = false)
    (hlock : (d.begun 5).unlocked = false) :
    d.admits 5 (fun e => e.idleTake && e.take.state == 1 && !e.survival && !e.unlocked) = true := by
  simp [Device.admits, hserves, hstopped, hidle, hreel, hsurv, hlock]

section
variable (ha : d.admits 5 (fun e => e.idleTake && e.take.state == 1 && !e.survival && !e.unlocked) = true)
  (hx : ({ d.begun 5 with host := { (d.begun 5).host with doorbells := [] } } : Device) = x)
include ha hx

theorem resumeCmd_noHost (hr : x.hostReach = false) : d.resumeCmd = x.mbxEnd 7 := by
  subst hx
  exact (mbxWhen_admitted hfree ha).trans (if_pos (congrArg not hr))

variable (hr : x.hostReach = true) {host : Nat} (hhost : x.mbxArg 0 = host) {hd dir : List Byte} (hhd : (x.hostGet host 256).1 = hd)
  (hdir : (x.hostGet (host + leAt hd 0x60 8) (32 * leAt hd 0x58 4)).1 = dir) {r : Nat}
  (hj : x.judgeImage host (x.mbxArg 1) hd dir = r) {e : Device} (he : x.setField (svcReg 0x9118) 5 3 r = e)
include hr hhost hhd hdir hj he

theorem resumeCmd_rejected (h0 : r ≠ 0) : d.resumeCmd = e.mbxEnd 4 := by
  subst hx hhost hhd hdir hj he
  exact (mbxWhen_admitted hfree ha).trans ((if_neg (ne_true_of_eq_false (congrArg not hr))).trans (if_pos h0))

/-- An accepted image is restored with HOLD set, and the take starts, or waits for its partner. -/
theorem resumeCmd_accepted (h0 : r = 0) {sec : Nat → Nat → Nat}
    (hsec : (fun kind k => host + ((findSection dir kind k).getD (0, 0)).2) = sec) {f g t : Device}
    (hf : e.prepareTake (leAt hd 0x50 6) (x.mbxArg 1) false = f)
    (hg : f.restoreState (f.hostGet (sec 1 0) ((findSection dir 1 0).getD (0, 0)).1).1 = g)
    (ht : (g.each g.arrays fun k d =>
      (d.restoreMem (sec 4 k) k .scratch 0x400000).restoreMem (sec 5 k) k .staging 0x40000).setBit (gafReg 0x10) 0 = t) :
    d.resumeCmd = if t.bitOf (svcReg 0x9100) 0 = true then
        (({ t with cont := { t.cont with waiting := true } } : Device).sendCont (helloMessage t.fprint t.settingsDigest)).judgeHello
      else t.modTake fun y => { y with starting := true } := by
  subst hx hhost hhd hdir hj he hsec hf hg ht
  refine (mbxWhen_admitted hfree ha).trans ((if_neg (ne_true_of_eq_false (congrArg not hr))).trans ?_)
  dsimp only
  rw [if_neg (not_not.2 h0)]

end
end

/-! ### Their commands -/

section
variable {s : State} (h : s.dev.awake = true) {e : Device}
include h

theorem does_takeStop (he : s.dev.takeStopCmd = e) : Does .takeStop s e := does_run h (f := Device.takeStopCmd) rfl he

theorem does_towerRejoin (he : s.dev.rejoinCmd = e) : Does .towerRejoin s e := does_run h (f := Device.rejoinCmd) rfl he

theorem does_arrayReset (he : s.dev.arrayResetCmd = e) : Does .arrayReset s e := does_run h (f := Device.arrayResetCmd) rfl he

theorem does_saveCapture (he : s.dev.saveCaptureCmd = e) : Does .saveCapture s e := does_run h (f := Device.saveCaptureCmd) rfl he

theorem does_stop (he : s.dev.stopCmd = e) : Does .stop s e := does_run h (f := Device.stopCmd) rfl he

theorem does_calRead (he : s.dev.calReadCmd = e) : Does .calRead s e := does_run h (f := Device.calReadCmd) rfl he

theorem does_calWrite (he : s.dev.calWriteCmd = e) : Does .calWrite s e := does_run h (f := Device.calWriteCmd) rfl he

theorem does_attest (he : s.dev.attestCmd = e) : Does .attest s e := does_run h (f := Device.attestCmd) rfl he

theorem does_mailboxComplete (he : s.dev.mbxComplete = e) : Does .mailboxComplete s e := does_run h (f := Device.mbxComplete) rfl he

theorem does_drainDone (he : s.dev.drainDone = e) : Does .drainDone s e := does_run h (f := Device.drainDone) rfl he

theorem doesWhole_resume (he : s.dev.fresh.resumeCmd = e) : DoesWhole .resume s e := doesWhole_run h (f := Device.resumeCmd) rfl he

end

/-- Settles O28: each command by its cases once it has begun, each refusal by what the firmware admits. -/
theorem mailboxRunsOneCommandToItsResult : Obligations.MailboxRunsOneCommandToItsResult := by
  refine ⟨fun s h => ⟨fun hb => ⟨?busy, ?busyWhole⟩, fun hf => ⟨fun p hp ha => ?refused, fun p hp ha => ?refusedWhole,
    fun ha => ?reelLoad, fun ha => ?takeStart, fun ha hs => ?takeStop, fun ha hs => ?takeStopAborting, fun ha => ?towerRejoin,
    fun ha => ?arrayReset, fun ha => ?reroute, fun ha => ?saveDrain, fun ha he => ?saveCapture, fun ha => ?stop, fun hl => ?calReadSmall,
    fun hl => ?calRead, fun ha => ?calWrite, fun hl => ?attestSmall, fun hl => ?attest⟩⟩,
    fun s h hf => ?resume, fun s h => ⟨?complete, ?notDone, ?drained, ?notDrained⟩⟩
  case busy =>
    simp only [List.forall_mem_cons, List.not_mem_nil, false_imp_iff, implies_true, and_true]
    exact ⟨does_busy_when h hb rfl, does_busy_when h hb rfl, does_busy_when h hb rfl, does_busy_when h hb rfl, does_busy_when h hb rfl,
      does_busy_when h hb rfl, does_busy_when h hb rfl, does_busy h hb rfl, does_busy_when h hb rfl, does_busy h hb rfl⟩
  case busyWhole =>
    simp only [List.forall_mem_cons, List.not_mem_nil, false_imp_iff, implies_true, and_true]
    exact ⟨doesWhole_busy h hb rfl, doesWhole_busy h hb rfl, doesWhole_busy h hb rfl⟩
  case refused =>
    simp only [List.mem_cons, List.not_mem_nil, or_false] at hp
    rcases hp with rfl | rfl | rfl | rfl | rfl | rfl | rfl | rfl <;> exact does_refused h hf rfl ha
  case refusedWhole =>
    simp only [List.mem_cons, List.not_mem_nil, or_false] at hp
    rcases hp with rfl | rfl | rfl <;> exact doesWhole_refused h hf rfl ha
  case reelLoad => exact doesWhole_admitted h hf rfl ha rfl
  case takeStart => exact doesWhole_admitted h hf rfl ha rfl
  case takeStop => exact does_takeStop h (takeStopCmd_stops hf rfl ha hs)
  case takeStopAborting => exact does_takeStop h (takeStopCmd_aborting hf rfl ha hs)
  case towerRejoin =>
    exact ⟨fun ht => does_towerRejoin h (rejoinCmd_noTower hf rfl ha ht),
      fun ht hx => does_towerRejoin h (rejoinCmd_begins hf rfl ha ht hx),
      fun ht hx => does_towerRejoin h (rejoinCmd_notFenced hf rfl ha ht hx)⟩
  case arrayReset =>
    exact ⟨fun ht => does_arrayReset h (arrayResetCmd_noTower hf rfl ha ht),
      fun ht hu => does_arrayReset h (arrayResetCmd_down hf rfl ha ht hu),
      fun ht hu => does_arrayReset h (arrayResetCmd_begins hf rfl ha ht hu)⟩
  case reroute => exact does_admitted h hf rfl ha rfl
  case saveDrain => exact does_admitted h hf rfl ha rfl
  case saveCapture =>
    exact ⟨fun hb => does_saveCapture h (saveCaptureCmd_bankHeld hf rfl ha he hb),
      fun hb hd => does_saveCapture h (saveCaptureCmd_notDrained hf rfl ha he hb hd),
      fun hb hd r hr => ⟨fun hn => does_saveCapture h (saveCaptureCmd_tooLarge hf rfl ha he hb hd hr hn),
        fun hn hh => does_saveCapture h (saveCaptureCmd_noHost hf rfl ha he hb hd hr hn hh),
        fun hn hh => does_saveCapture h (saveCaptureCmd_captures hf rfl ha he hb hd hr hn hh)⟩⟩
  case stop => exact does_stop h (stopCmd_stops hf rfl ha rfl)
  case calReadSmall => exact does_calRead h (calReadCmd_small hf rfl hl)
  case calRead =>
    exact ⟨fun hc => does_calRead h (calReadCmd_noSet hf rfl hl hc),
      fun hc hr => does_calRead h (calReadCmd_noHost hf rfl hl hc hr),
      fun hc hr => does_calRead h (calReadCmd_reads hf rfl hl hc hr)⟩
  case calWrite =>
    exact ⟨fun hs => does_calWrite h (calWriteCmd_size hf rfl ha hs),
      fun hs hr => does_calWrite h (calWriteCmd_noHost hf rfl ha hs hr),
      fun hs hr => does_calWrite h (calWriteCmd_judged hf rfl ha hs hr rfl rfl)⟩
  case attestSmall => exact does_attest h (attestCmd_small hf rfl hl)
  case attest =>
    exact ⟨fun hn => does_attest h (attestCmd_noKey hf rfl hl rfl hn),
      fun hn hr => does_attest h (attestCmd_noHost hf rfl hl rfl hn hr),
      fun hn hr => does_attest h (attestCmd_reports hf rfl hl rfl hn hr rfl rfl rfl)⟩
  case complete => exact fun hb r hr => does_mailboxComplete h (mbxComplete_known hr hb rfl)
  case notDone => exact fun hn => does_mailboxComplete h (mbxComplete_idle hn)
  case drained => exact fun hb ho hr he => does_drainDone h (drainDone_due hb ho hr he)
  case notDrained => exact fun hn => does_drainDone h (drainDone_early hn)
  case resume =>
    intro b0 hserves hstopped hidle hreel hsurv hlock b
    have ha := admits_resume (d := s.dev.fresh) hserves hstopped hidle hreel hsurv hlock
    refine ⟨fun hr => doesWhole_resume h (resumeCmd_noHost hf ha rfl hr), fun hr => ?_⟩
    intro host hd dir r e
    have hrejected := resumeCmd_rejected (d := s.dev.fresh) (x := b) hf ha rfl hr (host := host) rfl (hd := hd) rfl (dir := dir) rfl
      (r := r) rfl (e := e) rfl
    refine ⟨fun h0 => doesWhole_resume h (hrejected h0), fun h0 => ?_⟩
    intro sec f g t
    have hcmd := resumeCmd_accepted (d := s.dev.fresh) (x := b) hf ha rfl hr (host := host) rfl (hd := hd) rfl (dir := dir) rfl
      (r := r) rfl (e := e) rfl h0 (sec := sec) rfl (f := f) rfl (g := g) rfl (t := t) rfl
    exact ⟨fun ht => doesWhole_resume h (hcmd.trans (if_neg (ne_true_of_eq_false ht))),
      fun ht => doesWhole_resume h (hcmd.trans (if_pos ht))⟩

end Sys2Proof.Machine
end

section
/-! SUPPORT. The function unit: a cue at the head of its queue, with its source in memory or on the output stream; with the statement of
the function operations. -/
namespace Sys2Proof.Machine

open Sys2Proof

/-! ### Function cues (R126, R146 to R149) -/

/-- What a function cue leaves once its source is taken: the function `fn` of the widened elements narrowed and written, the conversion
flags set, the cue ended. -/
def Device.functionPut (k : Nat) (q : QCue) (fn : Nat → Nat) (fmt : Nat) (es : List Elem) (od : Opnd) (d : Device) : Device :=
  let r := resultsOf (((broadcast od.lins.length es).zip od.lins).map fun p =>
    narrowF32 od.fmt false (d.rnd q.home (cf q.cue 90 1 == 1) (cf q.cue 91 8) p.2) (fn (toLane fmt p.1)))
  ((d.writeTensor k 3 od r.codes).convFlags k r.sat r.nan).markDone k 3

/-- A row of the function unit runs the unit's step for its operation, and `funcOf` names its function. -/
theorem exec_function {i : Instr} {c : Fin 480} {op : Nat} {fn : Nat → Nat}
    (h : (i, op, fn) ∈ [(Instr.exp2 c, 0, exp2Fn), (.log2 c, 1, log2Fn), (.recip c, 2, recipFn), (.rsqrt c, 3, rsqrtFn),
      (.silu c, 4, siluFn), (.gelu c, 5, geluFn)]) (s : State) :
    exec i s = s.inTower (Device.whole (Device.functionStep op c)) ∧ funcOf op = fn := by
  simp only [List.mem_cons, Prod.mk.injEq, List.not_mem_nil, or_false] at h
  rcases h with ⟨rfl, rfl, rfl⟩ | ⟨rfl, rfl, rfl⟩ | ⟨rfl, rfl, rfl⟩ | ⟨rfl, rfl, rfl⟩ | ⟨rfl, rfl, rfl⟩ | ⟨rfl, rfl, rfl⟩ <;>
    exact ⟨rfl, rfl⟩

section
variable {d : Device} {k op : Nat} {q : QCue} (hq : (d.core k).headCue 3 [op] = some q)
include hq

/-- A cue on the output stream waits for its tile (R77). -/
theorem functionStep_waits (hstr : cf q.cue 88 1 = 1) (ht : (d.core k).stream = []) : Device.functionStep op k d = d := by
  simp [Device.functionStep, hq, hstr, ht]

/-- With its source in memory and intact, a cue puts its results (R146). -/
theorem functionStep_memory (hstr : cf q.cue 88 1 = 0) {a : TensorRes} (ha : d.readTensor k 3 (opndOf (refAt q.refs 0)) = a)
    (hbad : a.bad = []) :
    Device.functionStep op k d =
      a.dev.functionPut k q (funcOf op) (opndOf (refAt q.refs 0)).fmt a.elems (opndOf (refAt q.refs 1)) := by
  simp [Device.functionStep, hq, hstr, ha, hbad, errIf_false, minCode, Device.functionPut]

/-- With a tile of legal format and shape, a cue takes it and puts its results (R77, R125). -/
theorem functionStep_stream (hstr : cf q.cue 88 1 = 1) {t : StreamTile} {r : List StreamTile} (ht : (d.core k).stream = t :: r)
    (hfmt : t.fmt ≤ 1) (hshape : shapeOk (tileOpnd t) (opndOf (refAt q.refs 0)) = true) :
    Device.functionStep op k d =
      (d.modCore k Core.dropTile).functionPut k q (funcOf op) (tileOpnd t).fmt (tileElems t) (opndOf (refAt q.refs 0)) := by
  have hlegal : ¬ 1 < (tileOpnd t).fmt := Nat.not_lt.2 hfmt
  simp [Device.functionStep, hq, hstr, ht, hlegal, hshape, errIf_false, minCode, Device.functionPut]

end

/-- Settles O13: the unit's step, for the operation of the cue at its head, by where its source lies. -/
theorem functionCuesComplete : Obligations.FunctionCuesComplete := by
  intro s c q i op fn hi hrun hhead hdone hop res put a
  obtain ⟨hx, rfl⟩ := exec_function hi s
  subst hop
  have hq : (s.dev.fresh.core c).headCue 3 [cf q.cue 0 4] = some q := headCue_of_head hhead hdone
  refine ⟨?memory, ?waits, ?stream⟩
  case memory => exact fun hstr hbad => doesWhole_inTower hrun hx (functionStep_memory hq hstr rfl hbad)
  case waits => exact fun hstr ht => (doesWhole_inTower hrun hx (functionStep_waits hq hstr ht)).1 rfl
  case stream =>
    intro hstr t r ht hfmt hshape d
    exact doesWhole_inTower hrun hx (functionStep_stream hq hstr ht hfmt hshape)

end Sys2Proof.Machine
end

section
/-! SUPPORT. The near-bank units: a command at the head of its queue, a step that starts, a step that ends, and a fence; with the
statement of the near-bank commands. -/
namespace Sys2Proof.Machine

open Sys2Proof

/-! ### A command at the head of its queue (R134, R265) -/

/-- What an ACT_TABLE reads of scratch as its site accepts it (log entry 73); another command reads nothing. -/
def Device.nbTable (d : Device) (k : Nat) (q : QCue) : ReadRes :=
  if nbOp q.cue = 0x0E then d.readCore k 7 .scratch (nbWord q.param 0) 2048 else { dev := d, bytes := [], bad := [] }

/-- A near-bank row runs the command at the head of its queue, for a choice of operations that its own is of. -/
theorem exec_nearBank {i : Instr} {c : Fin 480} {op : Nat}
    (h : (i, op) ∈ [(Instr.fill c, 0x01), (.and c, 0x02), (.or c, 0x03), (.xor c, 0x04), (.not c, 0x05), (.nbAdd c, 0x06),
      (.nbSub c, 0x07), (.nbMul c, 0x08), (.nbFma c, 0x09), (.scale c, 0x0A), (.resadd c, 0x0B), (.sumsq c, 0x0C), (.normApply c, 0x0D),
      (.actTable c, 0x0E), (.nbConvert c, 0x0F), (.quantFp8 c, 0x10), (.adamw c, 0x11), (.copy c, 0x00)]) (s : State) :
    ∃ sel, sel op = true ∧ exec i s = s.inTower (Device.nbCommand sel c) := by
  simp only [List.mem_cons, Prod.mk.injEq, List.not_mem_nil, or_false] at h
  rcases h with ⟨rfl, rfl⟩ | ⟨rfl, rfl⟩ | ⟨rfl, rfl⟩ | ⟨rfl, rfl⟩ | ⟨rfl, rfl⟩ | ⟨rfl, rfl⟩ | ⟨rfl, rfl⟩ | ⟨rfl, rfl⟩ | ⟨rfl, rfl⟩ |
    ⟨rfl, rfl⟩ | ⟨rfl, rfl⟩ | ⟨rfl, rfl⟩ | ⟨rfl, rfl⟩ | ⟨rfl, rfl⟩ | ⟨rfl, rfl⟩ | ⟨rfl, rfl⟩ | ⟨rfl, rfl⟩ | ⟨rfl, rfl⟩ <;>
    exact ⟨_, rfl, rfl⟩

section
variable {d : Device} {k : Nat} {q : QCue} {sel : Nat → Bool} (hhead : ((d.core k).queue 7).head? = some q) (hdone : q.done = false)
  (hsel : sel (nbOp q.cue) = true)
include hhead hdone hsel

/-- A command with a legal mask is accepted by the site it names, and started. -/
theorem Device.nbCommand_accepts (hs : q.started = false) (hm : d.nbMaskBad q.cue = false) :
    d.nbCommand sel k = (((d.nbTable k q).dev.headMod k 7 fun x => { x with started := true }).modSite (24 * towerOf k + nbPos q.cue)
      fun y => { y with cmds := y.cmds ++ [NbCmd.mk k q (d.nbTable k q).bytes (d.nbTable k q).bad []] }) := by
  simp only [Device.nbCommand, hhead, hdone, hsel, hs, hm, Bool.not_true, Bool.or_self, Bool.false_eq_true, if_false]
  rfl

theorem Device.nbCommand_refuses (hs : q.started = false) (hm : d.nbMaskBad q.cue = true) :
    d.nbCommand sel k = d.cueError k 0x12 q.index q.home 7 := by
  simp [Device.nbCommand, hhead, hdone, hsel, hs, hm]

/-- A started command computes the steps that run in its banks. -/
theorem Device.nbCommand_computes (hs : q.started = true) {m : NbCmd}
    (hm : (d.site (24 * towerOf k + nbPos q.cue)).cmds.find? (fun m => m.core == k && m.cue.order == q.order) = some m) :
    d.nbCommand sel k = d.each (nbBanks q.cue) fun b d => d.nbCompute (24 * towerOf k + nbPos q.cue) b m := by
  simp [Device.nbCommand, hhead, hdone, hsel, hs, hm]

end

/-! ### A step in a bank (R264, R276, R277, R282) -/

section
variable {d : Device} {site ch b : Nat}

theorem Device.stepStart_opens {m : NbCmd} (hn : (d.site site).nextCmd (48 * ch + b) = some m) (hup : d.chanUp site ch = true)
    (ha : d.take.aborting = false) (hi : (m.bank (48 * ch + b)).inStep = false) (hr : (d.site site).running ch < 8)
    (hf : (d.site site).startsFirst ch b = true) : d.stepStart site ch b = (d.nbRefresh site ch b).stepOpen site (48 * ch + b) m := by
  simp [Device.stepStart, hn, hup, ha, hi, hr, hf]

theorem Device.stepStart_idle (hn : (d.site site).nextCmd (48 * ch + b) = none) : d.stepStart site ch b = d := by
  simp only [Device.stepStart, hn]

/-- The device at the boundary after a step of `m` in a bank: the step done, its command finished when it was the last, the refresh of
the boundary when another step is next, and the accesses queued before. -/
def Device.boundary (d : Device) (site ch b : Nat) (m : NbCmd) : Device :=
  let e := (d.stepDone site (48 * ch + b) m).nbFinish site m
  let f := if ((e.site site).nextCmd (48 * ch + b)).isSome then e.nbRefresh site ch b else e
  let ws := (f.chan site ch).waitingAll
  f.serveBank site ch b (ws.map fun w => w.q) ws.length

/-- A step that ends gives the bank to the access of a unit that has asked for it, else to the next step (R277, R279). -/
theorem Device.stepEnd_boundary {m : NbCmd} (hm : (d.site site).cmds.find? (fun m => (m.bank (48 * ch + b)).inStep) = some m) :
    d.stepEnd site ch b =
      let g := d.boundary site ch b m
      if g.wanted.contains (site, ch, b) then { g with wanted := g.wanted.filter (· ≠ (site, ch, b)) } else g.stepStart site ch b := by
  simp only [Device.stepEnd, hm]
  rfl

end

/-! ### The near-bank commands -/

section
variable {s : State} (h : s.dev.towersRun = true) {k : Fin 480} {ch : Fin 8} {b : Fin 48} {e : Device}
include h

theorem does_nbStepStart (he : s.dev.stepStart k ch b = e) : Does (.nbStepStart k ch b) s e :=
  does_inTower (f := Device.stepStart k ch b) h rfl he

theorem does_nbStepEnd (he : s.dev.stepEnd k ch b = e) : Does (.nbStepEnd k ch b) s e :=
  does_inTower (f := Device.stepEnd k ch b) h rfl he

end

/-- Settles O22: a command by whether it has started and by its mask, a step that starts by the bank's next command, a step that ends by
whether a unit has asked for the bank. -/
theorem nearBankCommandsRunTheirSteps : Obligations.NearBankCommandsRunTheirSteps := by
  refine ⟨?command, fun s h => ⟨?starts, ?noneNext, ?ends⟩, ?fence⟩
  case command =>
    intro s c q i op hi h hhead hdone hop d site t
    obtain ⟨sel, hsel, hx⟩ := exec_nearBank hi s
    subst hop
    exact ⟨fun hs hm => does_inTower h hx (Device.nbCommand_accepts hhead hdone hsel hs hm),
      fun hs hm => does_inTower h hx (Device.nbCommand_refuses hhead hdone hsel hs hm),
      fun hs m hm => does_inTower h hx (Device.nbCommand_computes hhead hdone hsel hs hm)⟩
  case starts => exact fun k ch b m hn hup ha hi hr hf => does_nbStepStart h (Device.stepStart_opens hn hup ha hi hr hf)
  case noneNext => exact fun k ch b hn => does_nbStepStart h (Device.stepStart_idle hn)
  case ends =>
    intro k ch b m hm e f ws g
    exact ⟨fun hw => does_nbStepEnd h ((Device.stepEnd_boundary hm).trans (if_neg (ne_true_of_eq_false hw))),
      fun hw => does_nbStepEnd h ((Device.stepEnd_boundary hm).trans (if_pos hw))⟩
  case fence => exact fun s h t ht => does_run (f := Device.nbFence t) h rfl (if_pos ht)

end Sys2Proof.Machine
end

section
/-! SUPPORT. The attention unit: ATTEND, FINISH, APPEND and EVICT at the head of its queue; with the statement of the attention unit. -/
namespace Sys2Proof.Machine

open Sys2Proof

theorem minCode_nil : minCode [] = none := rfl

/-! ### ATTEND (R155 to R170) -/

/-- An ATTEND carried out whole or not at all: where an access has to wait, the cycle of its first request is kept (R170). -/
theorem does_attend {s : State} {c : Fin 480} {t : Device} (h : s.dev.towersRun = true)
    (ht : Device.attendStep c s.dev.fresh = t) :
    (t.blocked = false → Does (.attend c) s t) ∧ (t.blocked = true → Does (.attend c) s ((s.dev.held t).attWaits c)) := by
  subst ht
  exact ⟨fun hb => does_inTower h rfl (if_neg (ne_true_of_eq_false hb)), fun hb => does_inTower h rfl (if_pos hb)⟩

section
variable {d : Device} {k : Nat} {q : QCue}

/-- An ATTEND with a block waits for an array that is not free, and for one past its drain (R165). -/
theorem attendStep_waits (hq : (d.core k).headCue 4 [0] = some q) (hblock : d.attHasBlock k q = true)
    (harray : (d.core k).arrayFree q.order = false ∨ d.pastDrain k = true) : Device.attendStep k d = d.attWaits k := by
  have hw : (!(d.core k).arrayFree q.order || d.pastDrain k) = true := by simpa using harray
  simp only [Device.attendStep, hq, hblock, hw, Bool.and_self, if_true]

/-- An ATTEND that need not wait, with intact operands, a legal record and no error in a block, leaves its folded record and the scores
of its pages, and ends (R157, R160, R187). -/
theorem attendStep_folds (hq : (d.core k).headCue 4 [0] = some q)
    (hgo : ¬ (d.attHasBlock k q = true ∧ ((d.core k).arrayFree q.order = false ∨ d.pastDrain k = true)))
    {os : Opnd} (hos : opndOf (refAt q.refs (if cf q.cue 114 1 = 1 then 2 else 1)) = os)
    {hd : ReadRes} (hhd : d.readCore k 4 .scratch os.base 0x240 = hd) (hhdbad : hd.bad = [])
    {rows dim : Nat} (hrows : leAt hd.bytes 0 4 = rows) (hdim : leAt hd.bytes 4 4 = dim)
    (hlegal : recordCodes rows dim os (opndOf (refAt q.refs 0)) = [])
    {l : AttLoad} (hl : hd.dev.attLoad k q rows dim = l) (hlbad : l.bad = [])
    {i : AttIn} (hi : attInputs k q hd.bytes rows dim l = i)
    {r : AttRun} (hr : attBlocks q i l (attStart (cf q.cue 112 1 == 1) rows dim l.body) = r) (hrbad : r.bad = []) (hrerr : r.err = none)
    {u : KvRes} (hu : ((r.dev.attFlags k r).attWrite q i hd.bytes l (attTokens d k q l) r).attScores k r.masses = u)
    (hubad : u.bad = []) : Device.attendStep k d = u.dev.markDone k 4 := by
  have hw : (d.attHasBlock k q && (!(d.core k).arrayFree q.order || d.pastDrain k)) = false := by simpa using hgo
  simp only [Device.attendStep, hq, hw, hos, hhd, hhdbad, hrows, hdim, hlegal, minCode_nil, hl, hlbad, hi, hr, hrbad, hrerr, hu, hubad,
    beq_iff_eq, Bool.false_eq_true, if_false]

end

/-! ### FINISH, APPEND and EVICT (R164, R179 to R184, R188) -/

/-- The outputs of FINISH (R164): each times the reciprocal of its row's sum, and 0 for a row of sum 0. `body` is the record from its
sums on. -/
def finishVals (rows dim : Nat) (body : List Byte) : List Nat :=
  (List.range rows).flatMap fun x => (List.range dim).map fun y =>
    if leAt body (4 * x) 4 = 0 then 0 else fmul (leAt body (0x200 + 4 * (x * dim + y)) 4) (recipFn (leAt body (4 * x) 4))

/-- What FINISH leaves once its record is read: the outputs narrowed and written, NAN, EMPTY and the conversion flags set, the cue
ended (R164, R169). -/
def Device.finishPut (k : Nat) (q : QCue) (rows dim : Nat) (od : Opnd) (body : List Byte) (d : Device) : Device :=
  let vals := finishVals rows dim body
  let res := resultsOf ((vals.zip od.lins).map fun p =>
    narrowF32 od.fmt false (d.rnd q.home (cf q.cue 89 1 == 1) (cf q.cue 90 8) p.2) p.1)
  ((((d.writeTensor k 4 od res.codes).convFlags k res.sat res.nan).attFlag k 0 (vals.any isNan)).attFlag k 1
    ((List.range rows).any fun x => leAt body (4 * x) 4 == 0)).markDone k 4

/-- The row pairs of an APPEND, each with the linear index of its first element, from the elements of its keys and values (R179). -/
def appendRows (ok ov : Opnd) (ks vs : List Elem) : List (List FV × List FV × Nat) :=
  (((chunksOf (max 1 ok.ext0) (ks.map (Elem.val ok.fmt))).zip (chunksOf (max 1 ok.ext0) (vs.map (Elem.val ov.fmt)))).zip
    (ok.rows.map fun x => x.2)).map fun p => (p.1.1, p.1.2, p.2)

section
variable {d : Device} {k : Nat} {q : QCue}

/-- FINISH of a legal, intact record (R164). -/
theorem finishStep_puts (hq : (d.core k).headCue 4 [1] = some q) {os od : Opnd} (hos : opndOf (refAt q.refs 0) = os)
    (hod : opndOf (refAt q.refs 1) = od) {hd : ReadRes} (hhd : d.readCore k 4 .scratch os.base 0x10 = hd) (hhdbad : hd.bad = [])
    {rows dim : Nat} (hrows : leAt hd.bytes 0 4 = rows) (hdim : leAt hd.bytes 4 4 = dim) (hlegal : recordCodes rows dim os od = [])
    {b : ReadRes} (hb : hd.dev.readCore k 4 .scratch (os.base + 0x440) (0x200 + 4 * rows * dim) = b) (hbbad : b.bad = []) :
    Device.finishStep k d = b.dev.finishPut k q rows dim od b.bytes := by
  simp only [Device.finishStep, hq, hos, hod, hhd, hhdbad, hrows, hdim, hlegal, minCode_nil, hb, hbbad]
  rfl

/-- An APPEND that its group and its pool allow, with intact rows, places them in the staging group (R179, R180). -/
theorem appendStep_places (hq : (d.core k).headCue 4 [2] = some q) {ok ov : Opnd} (hok : opndOf (refAt q.refs 0) = ok)
    (hov : opndOf (refAt q.refs 1) = ov) {room : KvRes × Bool}
    (hroom : d.roomFor k (if d.kvGroups k ≤ cf q.cue 88 6 then 0
      else (((d.core k).group (cf q.cue 88 6)).fill + ok.count / max 1 ok.ext0) / 128) = room)
    (hgroup : d.appendCodes k q = []) (hroombad : room.1.bad = []) (hfits : room.2 = true)
    {rk rv : TensorRes} (hrk : room.1.dev.readTensor k 4 ok = rk) (hrv : rk.dev.readTensor k 4 ov = rv)
    (hrkbad : rk.bad = []) (hrvbad : rv.bad = []) {r : AppendRes}
    (hr : Device.placeRows k (cf q.cue 88 6) (cf q.cue 94 2) ok.ext0 q.home (d.rnd q.home (cf q.cue 96 1 == 1) (cf q.cue 97 8))
      (appendRows ok ov rk.elems rv.elems) (AppendRes.mk rv.dev false false []) = r) (hrbad : r.bad = []) :
    Device.appendStep k d = (r.dev.convFlags k r.sat r.nan).markDone k 4 := by
  unfold appendRows at hr
  simp only [Device.appendStep, hq, hok, hov, hroom, hgroup, hroombad, hfits, hrk, hrv, hrkbad, hrvbad, hr, hrbad, Bool.not_true,
    Bool.and_false, errIf_false, List.append_nil, minCode_nil]

/-- EVICT with intact headers frees the pages that it chooses (R188). -/
theorem evictStep_frees (hq : (d.core k).headCue 4 [3] = some q) (hbad : (d.evictPages k (cf q.cue 40 16) false).bad = []) :
    Device.evictStep k d = (d.evictPages k (cf q.cue 40 16) false).dev.markDone k 4 := by
  simp only [Device.evictStep, hq, hbad]

end

/-- Settles O14: the unit's step for the operation of the cue at its head; an ATTEND by whether it waits for the array. -/
theorem attentionUnitRunsItsCues : Obligations.AttentionUnitRunsItsCues := by
  refine ⟨?attend, ?others⟩
  case attend =>
    intro s c q hrun hhead hdone hop d os hd rows dim l i r e u waits t
    have hq : (d.core c).headCue 4 [0] = some q := hop ▸ headCue_of_head hhead hdone
    refine ⟨fun hw => (does_attend hrun (attendStep_waits hq hw.1 hw.2)).1 rfl, fun hgo hhd hlegal hl hr herr hu => ?_⟩
    exact does_attend hrun (attendStep_folds hq hgo rfl rfl hhd rfl rfl hlegal rfl hl rfl rfl hr herr rfl hu)
  case others =>
    intro s c q hrun hhead hdone d
    have hq {op : Nat} (hop : cf q.cue 0 4 = op) : (d.core c).headCue 4 [op] = some q := hop ▸ headCue_of_head hhead hdone
    refine ⟨?finish, ?append, ?evict⟩
    case finish =>
      intro hop os od hd rows dim b sum vals res hhd hlegal hb
      exact doesWhole_inTower hrun rfl (finishStep_puts (hq hop) rfl rfl rfl hhd rfl rfl hlegal rfl hb)
    case append =>
      intro hop ok ov gi room rk rv input r hgroup hroom hfits hrk hrv hr
      exact doesWhole_inTower hrun rfl (appendStep_places (hq hop) rfl rfl rfl hgroup hroom hfits rfl rfl hrk hrv rfl hr)
    case evict => exact fun hop hbad => doesWhole_inTower hrun rfl (evictStep_frees (hq hop) hbad)

end Sys2Proof.Machine
end

section
/-! SUPPORT. The shared prefixes: what a lookup finds and what each action answers; with the statements of the prefix cues. -/
namespace Sys2Proof.Machine

open Sys2Proof

/-! ### Answers that name an entry (R190) -/

theorem badIn_nil (unit : Nat) : badIn unit [] = none := rfl

/-- STATUS, CORE and REF are as given, whether or not REFCNT is read from the page. -/
theorem Device.pfxNamed_names (d : Device) (k home status core ref : Nat) :
    (d.pfxNamed k home status core ref).status = status ∧ (d.pfxNamed k home status core ref).core = core ∧
      (d.pfxNamed k home status core ref).ref = ref := by
  unfold Device.pfxNamed
  split <;> exact ⟨rfl, rfl, rfl⟩

@[simp] theorem Device.pfxNamed_status (d : Device) (k home status core ref : Nat) :
    (d.pfxNamed k home status core ref).status = status := (d.pfxNamed_names k home status core ref).1

/-! ### ENABLE and the choice of the action (R191) -/

section
variable {d : Device} {k home : Nat} {key req : List Byte}

theorem pfxDo_disabled {act : Option PfxAct} (hoff : d.bitOf (stoReg (halfOf (towerOf k)) 0x40000) 0 = false)
    (ha : act ≠ some .release) : d.pfxDo k home act key req = pfxPlain d 13 := if_pos ⟨ha, hoff⟩

theorem pfxDo_release : d.pfxDo k home (some .release) key req = d.pfxRelease k home req :=
  if_neg fun h => h.1 rfl

section
variable (hon : d.bitOf (stoReg (halfOf (towerOf k)) 0x40000) 0 = true)
include hon

/-- ENABLE shuts no action out. -/
theorem not_pfxDisabled (act : Option PfxAct) :
    ¬ (act ≠ some .release ∧ d.bitOf (stoReg (halfOf (towerOf k)) 0x40000) 0 = false) := by simp [hon]

theorem pfxDo_unlisted : d.pfxDo k home none key req = pfxPlain d 12 := if_neg (not_pfxDisabled hon _)

theorem pfxDo_probe : d.pfxDo k home (some .probe) key req = d.pfxProbe k home key req false := if_neg (not_pfxDisabled hon _)

theorem pfxDo_acquire : d.pfxDo k home (some .acquire) key req = d.pfxProbe k home key req true := if_neg (not_pfxDisabled hon _)

theorem pfxDo_insert : d.pfxDo k home (some .insert) key req = d.pfxInsert k home key req := if_neg (not_pfxDisabled hon _)

theorem pfxDo_remove : d.pfxDo k home (some .remove) key req = d.pfxRemove k home key := if_neg (not_pfxDisabled hon _)

end
end

/-! ### A lookup in an intact bucket (R191, R192) -/

section
variable {d : Device} {h : Nat} {key req : List Byte} {b : ReadRes} {e : PfxEntry}
  (hb : (d.pfxRead h (d.bucketAddr h key) 128).1 = b) (hbad : b.bad = [])
include hb hbad

theorem pfxLookup_absent (hfind : pfxFind b.bytes key = none) :
    d.pfxLookup h key req = { dev := b.dev, hit := none, status := 0, bad := none } := by
  simp only [Device.pfxLookup, hb, hbad, hfind, badIn_nil]

section
variable (hfind : pfxFind b.bytes key = some e)
include hfind

/-- An entry without tokens never hits under FULLCMP (R192; log entry 184). -/
theorem pfxLookup_noTokens (hfull : d.bitOf (stoReg h 0x40000) 1 = true) (htok : e.tok = 0) :
    d.pfxLookup h key req = { dev := b.dev, hit := none, status := 0, bad := none } := by
  simp only [Device.pfxLookup, hb, hbad, hfind, hfull, htok, badIn_nil, Bool.not_true, Bool.false_eq_true, if_false, if_true]

/-- Other tokens under FULLCMP are a mismatch, which is counted. -/
theorem pfxLookup_mismatch (hfull : d.bitOf (stoReg h 0x40000) 1 = true) (htok : e.tok ≠ 0)
    (hlegal : (b.dev.pfxRead h e.tok 512).2 = true) (htbad : (b.dev.pfxRead h e.tok 512).1.bad = [])
    (hne : (b.dev.pfxRead h e.tok 512).1.bytes ≠ sliceBytes req 0x40 512) :
    d.pfxLookup h key req =
      { dev := (b.dev.pfxRead h e.tok 512).1.dev.count (stoReg h 0x40010) 1, hit := none, status := 8, bad := none } := by
  simp only [Device.pfxLookup, hb, hbad, hfind, hfull, htok, hlegal, htbad, hne, List.append_nil, badIn_nil, Bool.not_true,
    Bool.false_eq_true, if_false]

/-- An entry hits whose tokens, under FULLCMP, are there and are those of the request. -/
theorem pfxLookup_hit (hsame : d.bitOf (stoReg h 0x40000) 1 = true → e.tok ≠ 0 ∧ (b.dev.pfxRead h e.tok 512).2 = true ∧
      (b.dev.pfxRead h e.tok 512).1.bad = [] ∧ (b.dev.pfxRead h e.tok 512).1.bytes = sliceBytes req 0x40 512) :
    d.pfxLookup h key req =
      { dev := if d.bitOf (stoReg h 0x40000) 1 then (b.dev.pfxRead h e.tok 512).1.dev else b.dev,
        hit := some e, status := 1, bad := none } := by
  cases hfull : d.bitOf (stoReg h 0x40000) 1
  case false => simp [Device.pfxLookup, hb, hbad, hfind, hfull, badIn_nil]
  case true =>
    obtain ⟨htok, hlegal, htbad, heq⟩ := hsame hfull
    simp [Device.pfxLookup, hb, hbad, hfind, hfull, htok, hlegal, htbad, heq, badIn_nil]

end
end

/-! ### PROBE and ACQUIRE after their lookup (R191) -/

section
variable {d l : Device} {k home : Nat} {key req : List Byte} {acquire : Bool} {e : PfxEntry}

theorem pfxProbe_misses {status : Nat}
    (hl : d.pfxLookup (halfOf (towerOf k)) key req = { dev := l, hit := none, status := status, bad := none }) :
    d.pfxProbe k home key req acquire = pfxPlain l status := by
  simp only [Device.pfxProbe, hl]

section
variable {status : Nat}
  (hl : d.pfxLookup (halfOf (towerOf k)) key req = { dev := l, hit := some e, status := status, bad := none })
include hl

/-- A hit counts no use for PROBE, nor for an entry of another core. -/
theorem pfxProbe_hits (h : acquire = false ∨ e.core ≠ home) :
    d.pfxProbe k home key req acquire = l.pfxNamed k home 1 e.core e.ref := by
  have hc : (acquire && e.core == home) = false := by simpa [or_iff_not_imp_left] using h
  simp only [Device.pfxProbe, hl, hc, Bool.false_eq_true, if_false]

section
variable (hown : e.core = home) (hbad : (l.resolvePage k e.ref).bad = [])
include hown hbad

theorem pfxAcquire_stale (hstale : (l.resolvePage k e.ref).stale = true) :
    d.pfxProbe k home key req true = (l.resolvePage k e.ref).dev.pfxNamed k home 9 e.core e.ref := by
  simp [Device.pfxProbe, hl, hown, hbad, hstale, badIn_nil]

theorem pfxAcquire_full (hstale : (l.resolvePage k e.ref).stale = false) (hn : (l.resolvePage k e.ref).hdr.f 0xC 2 = 65535) :
    d.pfxProbe k home key req true = (l.resolvePage k e.ref).dev.pfxNamed k home 11 e.core e.ref := by
  simp [Device.pfxProbe, hl, hown, hbad, hstale, hn, badIn_nil]

theorem pfxAcquire_counts (hstale : (l.resolvePage k e.ref).stale = false) (hn : (l.resolvePage k e.ref).hdr.f 0xC 2 ≠ 65535) :
    d.pfxProbe k home key req true =
      ((l.resolvePage k e.ref).dev.setRefcnt k e.ref ((l.resolvePage k e.ref).hdr.f 0xC 2 + 1)).pfxNamed k home 1 e.core e.ref := by
  simp [Device.pfxProbe, hl, hown, hbad, hstale, hn, badIn_nil]

end
end
end

/-! ### INSERT (R191) -/

section
variable {d : Device} {k home : Nat} {key req : List Byte} {p : PageRes} (hp : d.resolvePage k (leAt req 0x20 4) = p)
  (hpbad : p.bad = [])
include hp hpbad

theorem pfxInsert_stale (hstale : p.stale = true) : d.pfxInsert k home key req = pfxPlain p.dev 9 := by
  simp only [Device.pfxInsert, hp, hpbad, hstale, badIn_nil, if_true]

section
variable (hstale : p.stale = false) {x : ReadRes × Bool}
  (hx : p.dev.pfxRead (halfOf (towerOf k)) (d.bucketAddr (halfOf (towerOf k)) key) 128 = x) (hxbad : x.1.bad = [])
include hstale hx hxbad

theorem pfxInsert_exists {e : PfxEntry} (hfind : pfxFind x.1.bytes key = some e) :
    d.pfxInsert k home key req = x.1.dev.pfxNamed k home 3 e.core e.ref := by
  simp only [Device.pfxInsert, hp, hpbad, hstale, hx, hxbad, hfind, badIn_nil, Bool.false_eq_true, if_false]

theorem pfxInsert_full (hfind : pfxFind x.1.bytes key = none) (hways : ∀ w < 4, pfxValid x.1.bytes w = true) :
    d.pfxInsert k home key req = pfxPlain x.1.dev 4 := by
  have hfree : ((List.range 4).find? fun w => x.2 && !pfxValid x.1.bytes w) = none :=
    List.find?_eq_none.2 fun w hw => by simp [hways w (List.mem_range.1 hw)]
  simp only [Device.pfxInsert, hp, hpbad, hstale, hx, hxbad, hfind, hfree, badIn_nil, Bool.false_eq_true, if_false]

/-- INSERT takes the first free way of a bucket that its read answers for. -/
theorem pfxInsert_status_inserted (hfind : pfxFind x.1.bytes key = none) (hlegal : x.2 = true) {w : Nat} (hw : w < 4)
    (hwfree : pfxValid x.1.bytes w = false) (hbefore : ∀ v < w, pfxValid x.1.bytes v = true) :
    (d.pfxInsert k home key req).status = 2 := by
  have hfree : ((List.range 4).find? fun w => x.2 && !pfxValid x.1.bytes w) = some w :=
    List.find?_range_eq_some.2 ⟨by simp [hlegal, hwfree], List.mem_range.2 hw, fun v hv => by simp [hbefore v hv]⟩
  simp only [Device.pfxInsert, hp, hpbad, hstale, hx, hxbad, hfind, hfree, badIn_nil, Bool.false_eq_true, if_false,
    Device.pfxNamed_status]

end
end

/-! ### REMOVE (R191) -/

section
variable {d : Device} {k home : Nat} {key : List Byte} {b : ReadRes}
  (hb : (d.pfxRead (halfOf (towerOf k)) (d.bucketAddr (halfOf (towerOf k)) key) 128).1 = b) (hbad : b.bad = [])
include hb hbad

theorem pfxRemove_absent (hfind : pfxFind b.bytes key = none) : d.pfxRemove k home key = pfxPlain b.dev 6 := by
  simp only [Device.pfxRemove, hb, hbad, hfind, badIn_nil]

/-- An entry is removed whether or not its page is the issuing core's and current; a header that is read has to be intact. -/
theorem pfxRemove_status_removed {e : PfxEntry} (hfind : pfxFind b.bytes key = some e) {w : Device}
    (hw : b.dev.pfxWrite (halfOf (towerOf k)) (d.bucketAddr (halfOf (towerOf k)) key + 32 * e.way + 0x16)
      (leBytes 2 (withField (leAt b.bytes (32 * e.way + 0x16) 2) 0 1 0)) = w)
    (hpage : e.core = home → (w.resolvePage k e.ref).bad = []) : (d.pfxRemove k home key).status = 5 := by
  have hread : (if e.core = home then (w.resolvePage k e.ref).bad else []) = [] := by
    split
    case isTrue hown => exact hpage hown
    case isFalse => rfl
  simp only [Device.pfxRemove, hb, hbad, hfind, hw, hread, badIn_nil]
  split <;> exact Device.pfxNamed_status ..

end

/-! ### RELEASE (R191) -/

section
variable {d : Device} {k home : Nat} {req : List Byte} {p : PageRes} (hp : d.resolvePage k (leAt req 0x20 4) = p) (hpbad : p.bad = [])
include hp hpbad

theorem pfxRelease_stale (hstale : p.stale = true) :
    d.pfxRelease k home req = { pfxPlain p.dev 9 with core := home, ref := leAt req 0x20 4 } := by
  simp only [Device.pfxRelease, hp, hpbad, hstale, badIn_nil, if_true]

theorem pfxRelease_zero (hstale : p.stale = false) (hn : p.hdr.f 0xC 2 = 0) :
    d.pfxRelease k home req = { pfxPlain p.dev 10 with core := home, ref := leAt req 0x20 4 } := by
  simp only [Device.pfxRelease, hp, hpbad, hstale, hn, badIn_nil, Bool.false_eq_true, if_false, if_true]

theorem pfxRelease_uncounts (hstale : p.stale = false) {n : Nat} (hn : p.hdr.f 0xC 2 = n + 1) :
    d.pfxRelease k home req =
      { pfxPlain (p.dev.setRefcnt k (leAt req 0x20 4) n) 7 with core := home, ref := leAt req 0x20 4, refcnt := n } := by
  simp only [Device.pfxRelease, hp, hpbad, hstale, hn, badIn_nil, Bool.false_eq_true, if_false, Nat.succ_ne_zero, Nat.add_sub_cancel]

end

/-- Settles O16: each action by the answer of its lookup or of its page. -/
theorem prefixStatusesFollowTheTable : Obligations.PrefixStatusesFollowTheTable := by
  intro d k home act key req h on full go b p
  have hprobe (hon : on = true) {a : PfxAct} (ha : a ∈ [PfxAct.probe, .acquire]) :
      ∃ acquire, go a = d.pfxProbe k home key req acquire := by
    rcases List.mem_pair.1 ha with rfl | rfl
    · exact ⟨false, pfxDo_probe hon⟩
    · exact ⟨true, pfxDo_acquire hon⟩
  refine ⟨pfxDo_disabled, pfxDo_unlisted, fun hon hb => ⟨?misses, ?hits, ?notFound, ?removed⟩, ?insertStale, ?insert, ?release⟩
  case misses =>
    intro a ha
    obtain ⟨acquire, hgo⟩ := hprobe hon ha
    rw [hgo]
    refine ⟨fun hfind => pfxProbe_misses (pfxLookup_absent rfl hb hfind), ?_⟩
    intro e hfind hfull t
    exact ⟨fun htok => pfxProbe_misses (pfxLookup_noTokens rfl hb hfind hfull htok),
      fun htok hlegal htbad hne => pfxProbe_misses (pfxLookup_mismatch rfl hb hfind hfull htok hlegal htbad hne)⟩
  case hits =>
    intro e hfind t hsame l r
    have hl : d.pfxLookup h key req = { dev := l, hit := some e, status := 1, bad := none } := pfxLookup_hit rfl hb hfind hsame
    rw [show go .acquire = _ from pfxDo_acquire hon, show go .probe = _ from pfxDo_probe hon, pfxProbe_hits hl (.inl rfl)]
    refine ⟨l.pfxNamed_names k home 1 e.core e.ref, fun hother => ?_, fun hown hr => ⟨fun hstale => ?_, fun hstale hn => ?_, ?_⟩⟩
    · rw [pfxProbe_hits hl (.inr hother), Device.pfxNamed_status]
    · rw [pfxAcquire_stale hl hown hr hstale, Device.pfxNamed_status]
    · rw [pfxAcquire_full hl hown hr hstale hn, Device.pfxNamed_status]
    · exact pfxAcquire_counts hl hown hr
  case notFound => exact fun hfind => (pfxDo_remove hon).trans (pfxRemove_absent rfl hb hfind)
  case removed =>
    intro e hfind w hpage
    rw [show go .remove = _ from pfxDo_remove hon]
    exact pfxRemove_status_removed rfl hb hfind rfl hpage
  case insertStale => exact fun hon hp hstale => (pfxDo_insert hon).trans (pfxInsert_stale rfl hp hstale)
  case insert =>
    intro hon hp hstale x hx
    rw [show go .insert = _ from pfxDo_insert hon]
    refine ⟨fun e hfind => ?_, fun hfind hlegal => ⟨pfxInsert_full rfl hp hstale rfl hx hfind, fun w hw hfree hbefore => ?_⟩⟩
    · rw [pfxInsert_exists rfl hp hstale rfl hx hfind]
      exact Device.pfxNamed_names ..
    · exact pfxInsert_status_inserted rfl hp hstale rfl hx hfind hlegal hw hfree hbefore
  case release =>
    intro hp
    rw [show go .release = _ from pfxDo_release]
    refine ⟨fun hstale => ?_, fun hstale hn => ?_, fun hstale n hn => ?_⟩
    · rw [pfxRelease_stale rfl hp hstale]; rfl
    · rw [pfxRelease_zero rfl hp hstale hn]; exact ⟨rfl, rfl⟩
    · rw [pfxRelease_uncounts rfl hp hstale hn]; exact ⟨rfl, rfl⟩

/-! ### A prefix cue at the head of its queue (R189, R190) -/

/-- A row of the prefix cues runs the unit's step, for a choice of actions that its own is of. -/
theorem exec_prefix {i : Instr} {c : Fin 480} {op : Nat} {act : Option PfxAct}
    (h : (i, op, act) ∈ [(Instr.probe c, 4, some PfxAct.probe), (.probe c, 4, none), (.acquire c, 4, some PfxAct.acquire),
      (.insert c, 5, some PfxAct.insert), (.insert c, 5, none), (.remove c, 5, some PfxAct.remove),
      (.release c, 5, some PfxAct.release)]) (s : State) :
    ∃ sel, sel act = true ∧ exec i s = s.inTower (Device.whole (Device.prefixStep op sel c)) := by
  simp only [List.mem_cons, Prod.mk.injEq, List.not_mem_nil, or_false] at h
  rcases h with ⟨rfl, rfl, rfl⟩ | ⟨rfl, rfl, rfl⟩ | ⟨rfl, rfl, rfl⟩ | ⟨rfl, rfl, rfl⟩ | ⟨rfl, rfl, rfl⟩ | ⟨rfl, rfl, rfl⟩ |
    ⟨rfl, rfl, rfl⟩ <;> exact ⟨_, rfl, rfl⟩

/-- The key that a cue's action is carried out with: RELEASE has none (log entry 184). -/
def pfxKeyOf (act : Option PfxAct) (req : List Byte) : List Byte :=
  if act = some .release then List.replicate 16 0 else prefixKey req

/-- A cue whose action the row performs, with an intact request and no bad word met, leaves its result record and ends. -/
theorem prefixStep_answers {d : Device} {k op : Nat} {q : QCue} {sel : Option PfxAct → Bool} {r : ReadRes} {act : Option PfxAct}
    {x : PfxRes} (hq : (d.core k).headCue 4 [op] = some q)
    (hr : d.readSpace k 4 (opndOf (refAt q.refs 0)).space (opndOf (refAt q.refs 0)).base 576 = r) (hbad : r.bad = [])
    (hact : pfxAct op (leAt r.bytes 0 4) = act) (hsel : sel act = true)
    (hx : r.dev.pfxDo k k act (pfxKeyOf act r.bytes) r.bytes = x) (hxbad : x.bad = none) :
    Device.prefixStep op sel k d =
      (x.dev.writeSpace k 4 (opndOf (refAt q.refs 1)).space (opndOf (refAt q.refs 1)).base
        (pfxRecord x (pfxKeyOf act r.bytes))).markDone k 4 := by
  unfold pfxKeyOf at hx ⊢
  simp only [Device.prefixStep, hq, hr, hbad, hact, hsel, hx, hxbad, Bool.not_true, Bool.false_eq_true, if_false]

/-- Settles O15: the unit's step for the operation of the cue at its head, with the action that its request names. -/
theorem prefixCuesAnswer : Obligations.PrefixCuesAnswer := by
  intro s c q i op act hi hrun hhead hdone hop t o r key x hact hr hx
  obtain ⟨sel, hsel, hexec⟩ := exec_prefix hi s
  have hq : (s.dev.fresh.core c).headCue 4 [op] = some q := hop ▸ headCue_of_head hhead hdone
  exact doesWhole_inTower hrun hexec (prefixStep_answers hq rfl hr hact hsel rfl hx)

end Sys2Proof.Machine
end

section
/-! SUPPORT. A response at a bridge port of the store, by its generation; with the refutation of the statement of the store's
transactions, which expects an answer for the generation of the requester's tag in the other half. -/
namespace Sys2Proof.Machine

open Sys2Proof

/-- A command has one effect. -/
theorem Does.unique {i : Instr} {s : State} {d e : Device} (hd : Does i s d) (he : Does i s e) : d = e := by
  unfold Does at hd he
  exact congrArg State.dev (Host.Outcome.next.inj (hd.symm.trans he))

/-! ### A response at its port (R211, R212, R375) -/

section
variable {d : Device} {h i : Nat}

theorem Device.response_stale {gen : Nat} (hg : gen ≠ (d.tag h i).gen.toNat) :
    d.response h i gen = d.staleResponse h i (d.tag h i).gen.toNat gen := if_pos hg

theorem Device.response_bridge (hst : (d.tag h i).st = .served) {e : Device} (he : d.responseOut h i = some e) {m r : Nat}
    {g : BitVec 4} (ho : (d.tag h i).owner = .bridge m r g) :
    d.response h i (d.tag h i).gen.toNat = e.bridgeAnswer h i m (if (d.tag h i).write then 2 else 0) := by
  simp only [Device.response, hst, he, ho, ne_eq, not_true_eq_false, if_true, if_false]

end

section
variable {s : State} (hrun : s.dev.clocked = true) {h : Half} {j : BitVec 15}
include hrun

theorem does_storeResponse {g : BitVec 4} {e : Device} (he : s.dev.response (halfNum h) j.toNat g.toNat = e) :
    Does (.storeResponse h j g) s e :=
  does_onClock (f := Device.response (halfNum h) j.toNat g.toNat) hrun rfl he

/-- A response of another generation than the tag's is stale, whatever generation the tag's requester has in the other half (R212). -/
theorem storeResponse_drops_stale {g : BitVec 4} (hg : g ≠ (s.dev.tag (halfNum h) j.toNat).gen) :
    Does (.storeResponse h j g) s
      (s.dev.staleResponse (halfNum h) j.toNat (s.dev.tag (halfNum h) j.toNat).gen.toNat g.toNat) :=
  does_storeResponse hrun (Device.response_stale (mt BitVec.eq_of_toNat_eq hg))

/-- What the refuted clause has to say: it is the response of the tag's own generation that a bridge port answers over the bridge, not
the one of `g`, the generation of the requester's tag (R375). -/
theorem storeResponse_answers_bridge (hst : (s.dev.tag (halfNum h) j.toNat).st = .served) {e : Device}
    (he : s.dev.responseOut (halfNum h) j.toNat = some e) {m r : Nat} {g : BitVec 4}
    (ho : (s.dev.tag (halfNum h) j.toNat).owner = .bridge m r g) :
    Does (.storeResponse h j (s.dev.tag (halfNum h) j.toNat).gen) s
      (e.bridgeAnswer (halfNum h) j.toNat m (if (s.dev.tag (halfNum h) j.toNat).write then 2 else 0)) :=
  does_storeResponse hrun (Device.response_bridge hst he ho)

end

/-! ### The counterexample -/

/-- The tag of a bridge port for a read of tag 1 of the other half: of generation 7, where the requester's tag has generation 9. -/
def bridgeTag : Tag := { Tag.reset with gen := 7, st := .served, addr := 0x040000000000, len := 64, owner := .bridge 0 1 9 }

/-- The awake part whose west half has served the read under the first tag of its bridge port 0. -/
def bridgeReadServed : State :=
  { dev := Device.served (halfNum .west) (28160 : BitVec 15).toNat bridgeTag
      { State.reset.dev with pins := { State.reset.dev.pins with powered := true, inReset := false } }
    pending := [] }

theorem bridgeReadServed_clocked : bridgeReadServed.dev.clocked = true := by decide +kernel

theorem bridgeReadServed_tag : bridgeReadServed.dev.tag (halfNum .west) (28160 : BitVec 15).toNat = bridgeTag := by decide +kernel

/-- Its response is next at the port, and its answer over the bridge leaves the tag taken while it crosses. -/
theorem bridgeReadServed_answers : ∃ e, bridgeReadServed.dev.responseOut (halfNum .west) (28160 : BitVec 15).toNat = some e ∧
    ((e.bridgeAnswer (halfNum .west) (28160 : BitVec 15).toNat 0 0).tag 0 28160).st = .bridging := by
  have hout : (bridgeReadServed.dev.responseOut 0 28160).any
      (fun e => ((e.bridgeAnswer 0 28160 0 0).tag 0 28160).st == .bridging) = true := by decide +kernel
  obtain ⟨e, he, hst⟩ := (Option.any_eq_true ..).1 hout
  exact ⟨e, he, eq_of_beq hst⟩

/-- A stale response leaves the tag served. -/
theorem bridgeReadServed_stale :
    ((bridgeReadServed.dev.staleResponse (halfNum .west) (28160 : BitVec 15).toNat 7 9).tag 0 28160).st = .served := by decide +kernel

/-- Refutes O18: in the clause of a bridge port's answer, `g` is bound anew to the generation of the requester's tag in the other half, so
the clause speaks of a response of generation 9 at a tag of generation 7, which is stale and dropped (R212). The tags of two halves count
their generations apart, so that they differ is the usual case. -/
theorem not_storeServesTagsAndMergeBuffers : ¬ Obligations.StoreServesTagsAndMergeBuffers := by
  rintro ⟨-, hresponse, -⟩
  have htag := bridgeReadServed_tag
  obtain ⟨e, he, hbridging⟩ := bridgeReadServed_answers
  obtain ⟨-, hcurrent, -⟩ := hresponse bridgeReadServed .west 28160 7 bridgeReadServed_clocked
  obtain ⟨-, -, hbridge⟩ := hcurrent (congrArg Tag.gen htag).symm (congrArg Tag.st htag) e he
  have hanswer := hbridge 0 1 9 (congrArg Tag.owner htag)
  have hstale := storeResponse_drops_stale bridgeReadServed_clocked (h := .west) (j := 28160) (g := 9) (by rw [htag]; decide)
  rw [htag] at hanswer hstale
  have hsame : e.bridgeAnswer (halfNum .west) (28160 : BitVec 15).toNat 0 0 =
      bridgeReadServed.dev.staleResponse (halfNum .west) (28160 : BitVec 15).toNat 7 9 := hanswer.unique hstale
  rw [hsame, bridgeReadServed_stale] at hbridging
  exact absurd hbridging (by decide)

end Sys2Proof.Machine
end

section
/-! SUPPORT. The controllers of tower DRAM: a request that arrives, a grant, a refresh that falls due, self-refresh, and the copy of a
retired bank; with the statement of the controllers. -/
namespace Sys2Proof.Machine

open Sys2Proof

/-! ### A request at its channel (R236, R239, R242) -/

/-- A request that waits at the source it has by its route, behind those there (log entry 156). -/
def Device.waitAtSource (d : Device) (site ch : Nat) (r : DramReq) : Device :=
  d.modChan site ch fun c => { c with atSource := c.atSource ++ [QReq.mk (routedReq r) .none d.now] }

/-- Whether a request of the same width waits at a source of the channel. -/
def Device.widthWaits (d : Device) (site ch : Nat) (r : DramReq) : Bool :=
  (d.chan site ch).atSource.any fun q => q.req.small == (routedReq r).small

section
variable {d : Device} {site ch : Nat} {r : DramReq}

theorem Device.dramArrive_elsewhere (hb : reqBelongs site ch r = false) : d.dramArrive site ch r = d := by
  simp [Device.dramArrive, hb]

section
variable (hb : reqBelongs site ch r = true)
include hb

theorem Device.dramArrive_absent (hl : d.legal r.addr.toNat = false) :
    d.dramArrive site ch r = if r.src = 26 then d.addrError r.addr.toNat 2 else d := by
  simp [Device.dramArrive, hb, hl]

section
variable (hl : d.legal r.addr.toNat = true)
include hl

theorem Device.dramArrive_queues (hw : d.widthWaits site ch r = false) {e : Device}
    (he : d.pushReq site ch (routedReq r) .none = some e) : d.dramArrive site ch r = e := by
  unfold Device.widthWaits at hw
  simp only [Device.dramArrive, hb, hl, hw, he, Bool.not_true, Bool.false_eq_true, if_false]

/-- With no room in its queue a request goes to its source, whatever waits there. -/
theorem Device.dramArrive_full (hp : d.pushReq site ch (routedReq r) .none = none) :
    d.dramArrive site ch r = d.waitAtSource site ch r := by
  simp only [Device.dramArrive, hb, hl, hp, Bool.not_true, Bool.false_eq_true, if_false, ite_self, Device.waitAtSource]

theorem Device.dramArrive_behind (hw : d.widthWaits site ch r = true) : d.dramArrive site ch r = d.waitAtSource site ch r := by
  unfold Device.widthWaits at hw
  simp only [Device.dramArrive, hb, hl, hw, Bool.not_true, Bool.false_eq_true, if_false, if_true, Device.waitAtSource]

end
end
end

/-! ### A grant, and a refresh that falls due (R240, R241, R246, R248) -/

section
variable {d : Device} {site ch b : Nat}

theorem Device.burst_down (h : d.chanUp site ch = false) : d.burst site ch = d := if_neg (ne_true_of_eq_false h)

section
variable (hup : d.chanUp site ch = true)
include hup

theorem Device.burst_refresh {n : Nat} {forced : Bool} (hg : d.grant site ch = .refresh n forced) :
    d.burst site ch = d.refreshBank site ch n forced := by simp only [Device.burst, hup, hg, if_true]

theorem Device.burst_access {w : Waiting} (hg : d.grant site ch = .access w) : d.burst site ch = d.grantAccess site ch w := by
  simp only [Device.burst, hup, hg, if_true]

theorem Device.burst_none (hg : d.grant site ch = .none) : d.burst site ch = d.scrubWrite site ch := by
  simp only [Device.burst, hup, hg, if_true]

theorem Device.refreshFalls_due (hw : d.bankWindow site ch b ≠ 3) :
    d.refreshFalls site ch b =
      d.modChan site ch fun c => c.modBank (d.servesBank site ch b) fun x => { x with openRow := none, debt := min 4 (x.debt + 1) } :=
  if_pos (by simp [hup, hw])

end
end

/-! ### Self-refresh (R255, R439) -/

section
variable {d : Device}

theorem Device.idleSleep_column {site : Fin 480} {ch : Nat} (ht : d.inTake = false) (hch : ch < 8) (hn : (d.chan site ch).native = [])
    (hs : (d.chan site ch).narrow = []) (ha : (d.chan site ch).atSource = []) :
    d.idleSleep (.column site) ch = d.modChan site ch Channel.sleep := if_pos (by simp [ht, hch, hn, hs, ha])

theorem Device.idleSleep_capacity {ch : Nat} (ht : d.inTake = false) (hf : d.fieldOf (lpdReg (0x100 + 8 * ch)) 0 2 = 2)
    (ha : ∀ x ∈ d.accesses, x.needsLpd ch = false) : d.idleSleep .capacity ch = d.setField (lpdReg (0x100 + 8 * ch)) 0 2 3 :=
  if_pos (by simpa [ht, hf] using ha)

theorem Device.idleSleep_inTake (site : IdleSite) (ch : Nat) (ht : d.inTake = true) : d.idleSleep site ch = d := by
  cases site <;> simp [Device.idleSleep, ht]

theorem Device.idleSleep_noChannel {site : IdleSite} {ch : Nat} (hs : site ≠ .capacity) (hch : 8 ≤ ch) : d.idleSleep site ch = d := by
  cases site with
  | column => simp [Device.idleSleep, Nat.not_lt.2 hch]
  | capacity => exact absurd rfl hs

end

/-! ### The copy of a retired bank (R250, R251) -/

/-- Whether a retirement entry is the bank's and awaits its copy. -/
def awaitsCopy (site ch b : Nat) (e : BitVec 64) : Bool := field e.toNat 0 3 == 6 && field e.toNat 8 32 == bankTarget site ch b

/-- The device with a bank's words in a spare. -/
def Device.bankCopied (d : Device) (site ch b : Nat) : Device :=
  ((d.each (d.copyWords site ch b) fun c d => d.copyCw c).copyFlip site ch b).copyBursts site ch b

/-- The bank goes to the lowest free spare, with a record for the next start, and its entry takes effect (log entry 188). -/
theorem Device.copyBank_due {d : Device} {site ch b n : Nat} {x : BitVec 64} (ht : d.inTake = false)
    (hx : d.retire.entries.find? (awaitsCopy site ch b) = some x) (hn : d.freeSpare site ch = some n) :
    d.copyBank site ch b =
      let e := d.bankCopied site ch b
      { (e.remap site ch b n).note 2 2 (bankTarget site ch b + n * 2 ^ 19) with
        retire := Retire.mk (e.retire.entries.map fun x => if awaitsCopy site ch b x then x &&& ~~~ (4 : BitVec 64) else x) } := by
  unfold awaitsCopy at hx ⊢
  simp only [Device.copyBank, ht, hx, hn, Bool.false_eq_true, if_false]
  rfl

/-! ### The commands of the controllers -/

section
variable {s : State} (h : s.dev.towersRun = true) {k : Fin 480} {ch : Fin 8} {e : Device}
include h

theorem does_dramRequest {r : DramReq} (hr : r.wf = true) (he : s.dev.dramArrive k ch r = e) : Does (.dramRequest k ch r) s e :=
  does_inTower (f := Device.onlyIf r.wf (Device.dramArrive k ch r)) h rfl ((if_pos hr).trans he)

theorem does_burstGrant (he : s.dev.burst k ch = e) : Does (.burstGrant k ch) s e := does_inTower (f := Device.burst k ch) h rfl he

theorem does_refreshDue {b : Fin 52} (he : s.dev.refreshFalls k ch b = e) : Does (.refreshDue k ch b) s e :=
  does_inTower (f := Device.refreshFalls k ch b) h rfl he

theorem does_rowTimeout (b : Fin 48) :
    Does (.rowTimeout k ch b) s (s.dev.modChan k ch fun c => c.modBank b fun x => { x with openRow := none }) :=
  does_inTower (f := fun d => d.modChan k ch fun c => c.modBank b fun x => { x with openRow := none }) h rfl rfl

theorem does_selfRefreshIdle {site : IdleSite} {n : Fin 12} (he : s.dev.idleSleep site n = e) : Does (.selfRefreshIdle site n) s e :=
  does_inTower (f := Device.idleSleep site n) h rfl he

theorem does_bankCopy {b : Fin 48} (he : s.dev.copyBank k ch b = e) : Does (.bankCopy k ch b) s e :=
  does_inTower (f := Device.copyBank k ch b) h rfl he

end

/-- Settles O21: a request by its address and what waits before it, a burst by what the channel grants, and each of the other rows by
when it is due. -/
theorem dramControllersServeAndRefresh : Obligations.DramControllersServeAndRefresh := by
  refine ⟨fun s k ch h => ⟨?request, ?grants, ?down⟩, fun s k ch h => ⟨?refresh, ?row, ?column, ?capacity, ?stays, ?copy⟩⟩
  case request =>
    intro r hr there waits later
    refine ⟨fun hb => ?_, fun hb hl hw => ⟨fun e he => ?_, fun hp => ?_⟩, fun hb hl hw => ?_, fun hb hl => ⟨fun hs => ?_, fun hs => ?_⟩⟩ <;>
      apply does_dramRequest h hr
    · exact Device.dramArrive_elsewhere hb
    · exact Device.dramArrive_queues hb hl hw he
    · exact Device.dramArrive_full hb hl hp
    · exact Device.dramArrive_behind hb hl hw
    · exact (Device.dramArrive_absent hb hl).trans (if_pos hs)
    · exact (Device.dramArrive_absent hb hl).trans (if_neg hs)
  case grants =>
    intro hup
    exact ⟨fun b f hg => does_burstGrant h (Device.burst_refresh hup hg), fun w hg => does_burstGrant h (Device.burst_access hup hg),
      fun hg => does_burstGrant h (Device.burst_none hup hg)⟩
  case down => exact fun hdown => does_burstGrant h (Device.burst_down hdown)
  case refresh => exact fun b hup hw => does_refreshDue h (Device.refreshFalls_due hup hw)
  case row => exact does_rowTimeout h
  case column => exact fun ht hn hs ha => does_selfRefreshIdle h (Device.idleSleep_column ht ch.isLt hn hs ha)
  case capacity => exact fun n ht hf ha => does_selfRefreshIdle h (Device.idleSleep_capacity ht hf ha)
  case stays =>
    rintro w n (ht | ⟨hw, hn⟩)
    · exact does_selfRefreshIdle h (Device.idleSleep_inTake w n ht)
    · exact does_selfRefreshIdle h (Device.idleSleep_noChannel hw hn)
  case copy =>
    intro b n x ht due hx hn
    exact does_bankCopy h (Device.copyBank_due ht hx hn)

end Sys2Proof.Machine
end

section
/-! SUPPORT. Maps and memories in their canonical form: each command by what its meaning keeps, the commands of power and reset by what a
reset keeps; with the statement of the formed part. -/
namespace Sys2Proof.Machine

open Sys2Proof

/-! ### What each command keeps -/

/-- The commands that move the part's power or its reset: what they answer is no update of the part's logic (R482, R484, R490). -/
def movesPower : Instr → Bool
  | .powerGood | .resetRelease | .coldReset | .deviceReset | .powerLoss | .powerReturn | .resetNRelease => true
  | _ => false

section
variable {f : Device → Device} {s s' : State} {m c r t : Bool}

theorem keeps_always (h : s.always f = .next s') (hf : ∀ d, Keeps m c r t s.dev d → Keeps m c r t s.dev (f d)) :
    Keeps m c r t s.dev s'.dev := by
  cases h
  exact hf _ (.refl _)

theorem keeps_run (h : s.run f = .next s') (hf : ∀ d, Keeps m c r t s.dev d → Keeps m c r t s.dev (f d)) :
    Keeps m c r t s.dev s'.dev := keeps_always h fun d k => keeps_ite (hf d k) k

theorem keeps_onClock (h : s.onClock f = .next s') (hf : ∀ d, Keeps m c r t s.dev d → Keeps m c r t s.dev (f d)) :
    Keeps m c r t s.dev s'.dev := keeps_always h fun d k => keeps_ite (hf d k) k

theorem keeps_inTower (h : s.inTower f = .next s') (hf : ∀ d, Keeps m c r t s.dev d → Keeps m c r t s.dev (f d)) :
    Keeps m c r t s.dev s'.dev := keeps_always h fun d k => keeps_ite (hf d k) k

/-- One of two answers to a management message. -/
theorem keeps_eitherReply {d0 d : Device} {p : Prop} [Decidable p] {a b : Nat} {x y : List Byte} (k : Keeps m c r t d0 d) :
    Keeps m c r t d0 (if p then d.reply a x else d.reply b y) := keeps_ite (Device.reply_keeps _ _ _ k) (Device.reply_keeps _ _ _ k)

end

/-- A command other than those of power and reset keeps what the part's logic keeps, and writes no storage out of its reach. -/
theorem exec_keeps {i : Instr} (hi : movesPower i = false) {s s' : State} (h : exec i s = .next s') :
    Keeps (reachOf i).memory (reachOf i).cores (reachOf i).sites (reachOf i).regs s.dev s'.dev := by
  cases i with
  -- The cue engines (R73 to R92).
  | cueIssue | wait | sigLocal | sigRemote | fence | loop | jump | endFrame | descWrite | nop =>
    exact keeps_inTower h fun _ => Device.issueNext_keeps _ _ _
  | holdRelease => exact keeps_inTower h fun _ => Device.holdRelease_keeps _ _
  | signalDelivery => exact keeps_inTower h fun _ => Device.deliverSignal_keeps _ _
  | endFrameComplete => exact keeps_inTower h fun _ => Device.endFrame_keeps _ _
  -- The units of a core (R53 to R192, R402).
  | matrix => exact keeps_inTower h fun _ => Device.matrixStep_keeps _ _
  | tileUnload => exact keeps_inTower h fun _ => Device.unloadTile_keeps _ _
  | rampUpStep => exact keeps_inTower h fun _ => Device.rampUp_keeps _ _
  | drainEnd => exact keeps_inTower h fun _ => Device.drainEnd_keeps _ _
  | rampDownStep => exact keeps_inTower h fun _ => Device.rampDown_keeps _ _
  | convert | add | sub | mul | fma | max | min | rsum | rmax | rsumsq | quantMx | treeSum =>
    exact keeps_inTower h fun _ => Device.whole_keeps _ _ fun _ => Device.vectorStep_keeps _ _ _
  | exp2 | log2 | recip | rsqrt | silu | gelu =>
    exact keeps_inTower h fun _ => Device.whole_keeps _ _ fun _ => Device.functionStep_keeps _ _ _
  | attend => exact keeps_inTower h fun _ => Device.attendCue_keeps _ _
  | finish => exact keeps_inTower h fun _ => Device.whole_keeps _ _ fun _ => Device.finishStep_keeps _ _
  | append => exact keeps_inTower h fun _ => Device.whole_keeps _ _ fun _ => Device.appendStep_keeps _ _
  | evict => exact keeps_inTower h fun _ => Device.whole_keeps _ _ fun _ => Device.evictStep_keeps _ _
  | probe | acquire | insert | remove | release =>
    exact keeps_inTower h fun _ => Device.whole_keeps _ _ fun _ => Device.prefixStep_keeps _ _ _ _
  -- DMA and near-bank operations (R129 to R135, R263 to R286).
  | storeDmaRead | dramDmaRead => exact keeps_inTower h fun _ => Device.readStep_keeps _ _ _
  | storeDmaWrite | dramDmaWrite => exact keeps_inTower h fun _ => Device.writeStep_keeps _ _ _
  | send => exact keeps_inTower h fun _ => Device.sendStep_keeps _ _ _ fun _ _ => Device.ringPacket_keeps _ _ _
  | gather => exact keeps_inTower h fun _ => Device.gatherStep_keeps _ _
  | copy | fill | and | or | xor | not | nbAdd | nbSub | nbMul | nbFma | scale | resadd | sumsq | normApply | actTable
  | nbConvert | quantFp8 | adamw =>
    exact keeps_inTower h fun _ => Device.nbCommand_keeps _ _ _
  | nbStepStart => exact keeps_inTower h fun _ => Device.stepStart_keeps _ _ _ _
  | nbStepEnd => exact keeps_inTower h fun _ => Device.stepEnd_keeps _ _ _ _
  | nbFenceReq => exact keeps_run h fun _ => Device.nbFence_keeps _ _
  -- The store and the DRAM channels (R199 to R225, R237 to R251, R301).
  | storeRead | storeWrite => exact keeps_onClock h fun _ => Device.serveTag_keeps _ _ _ _
  | storeResponse => exact keeps_onClock h fun _ => Device.response_keeps _ _ _ _
  | storeTagTimeout => exact keeps_onClock h fun _ => Device.tagTimeoutAll_keeps _ _ _
  | storeTagRelease => exact keeps_onClock h fun _ => Device.tagRelease_keeps _ _ _
  | mcastCatchup => exact keeps_onClock h fun _ => Device.mcastCatch_keeps _ _ _
  | mergeExpiry => exact keeps_onClock h fun _ => Device.mergeExpire_keeps _ _ _
  | scrubAccess who =>
    cases who with
    | dram site ch => exact keeps_onClock (f := Device.scrubDram site ch) h fun _ => Device.scrubDram_keeps _ _ _
    | store half slice => exact keeps_onClock (f := Device.scrubStore (halfNum half) slice) h fun _ => Device.scrubStore_keeps _ _ _
    | lpd ch => exact keeps_onClock (f := Device.scrubLpd ch) h fun _ => Device.scrubLpd_keeps _ _
  | dramRequest => exact keeps_inTower h fun _ => Device.onlyIf_keeps _ _ _ fun _ => Device.dramArrive_keeps _ _ _ _
  | burstGrant => exact keeps_inTower h fun _ => Device.burst_keeps _ _ _
  | refreshDue => exact keeps_inTower h fun _ => Device.refreshFalls_keeps _ _ _ _
  | rowTimeout site ch bank =>
    exact keeps_inTower (f := fun d => d.modChan site ch fun c => c.modBank bank fun x => { x with openRow := none }) h
      fun _ => Device.modChan_keeps _ _ _ _
  | selfRefreshIdle => exact keeps_inTower h fun _ => Device.idleSleep_keeps _ _ _
  | bankCopy => exact keeps_inTower h fun _ => Device.copyBank_keeps _ _ _ _
  -- Frames, continuity, the mailbox (R326 to R363, R436).
  | tick => exact keeps_onClock h fun _ => Device.tick_keeps _ _
  | samplingPoint => exact keeps_onClock h fun _ => Device.whole_keeps _ _ fun _ => Device.samplingPoint_keeps _
  | gafferResults => exact keeps_onClock h fun _ => Device.gafferResults_keeps _
  | gafferOutcome => exact keeps_onClock h fun _ => Device.toldLength_keeps _ _
  | guardBandStart => exact keeps_onClock h fun _ => Device.guardBand_keeps _ _
  | guardForce => exact keeps_onClock h fun _ => Device.guardForce_keeps _
  | clapper => exact keeps_onClock h fun _ => Device.clapperIn_keeps _ _ _ _
  | holdoverEntry => exact keeps_onClock h fun _ => Device.holdoverEntry_keeps _
  | holdoverExpiry => exact keeps_onClock h fun _ => Device.holdoverExpiry_keeps _
  | payloadLanded => exact keeps_onClock h fun _ => Device.payloadLanded_keeps _ _ _ _
  | flowStale => exact keeps_run h fun _ => Device.flowStale_keeps _
  | flowOkSample => exact keeps_run h fun _ => Device.flowSample_keeps _ _
  | survivalExit => exact keeps_run h fun _ => Device.survivalEnd_keeps _
  | contExchange => exact keeps_onClock h fun _ => Device.contHello_keeps _ _ _
  | contOutcome => exact keeps_onClock h fun _ => Device.contOutcome_keeps _ _ _
  | contOutcomeMissing => exact keeps_onClock h fun _ => Device.contOutcomeMissing_keeps _
  | contSignatures => exact keeps_onClock h fun _ => Device.contSigs_keeps _ _ _
  | contCompareLate => exact keeps_onClock h fun _ => Device.contCompareLate_keeps _
  | saveDrain => exact keeps_run h fun _ => Device.saveDrainCmd_keeps _
  | drainDone => exact keeps_run h fun _ => Device.drainDone_keeps _
  | saveCapture => exact keeps_run h fun _ => Device.saveCaptureCmd_keeps _
  | resume => exact keeps_run h fun _ => Device.whole_keeps _ _ fun _ => Device.resumeCmd_keeps _
  | reelLoad => exact keeps_run h fun _ => Device.whole_keeps _ _ fun _ => Device.reelLoadCmd_keeps _
  | takeStart => exact keeps_run h fun _ => Device.whole_keeps _ _ fun _ => Device.takeStartCmd_keeps _
  | takeStop => exact keeps_run h fun _ => Device.takeStopCmd_keeps _
  | towerRejoin => exact keeps_run h fun _ => Device.rejoinCmd_keeps _
  | arrayReset => exact keeps_run h fun _ => Device.arrayResetCmd_keeps _
  | reroute => exact keeps_run h fun _ => Device.rerouteCmd_keeps _
  | stop => exact keeps_run h fun _ => Device.stopCmd_keeps _
  | calRead => exact keeps_run h fun _ => Device.calReadCmd_keeps _
  | calWrite => exact keeps_run h fun _ => Device.calWriteCmd_keeps _
  | attest => exact keeps_run h fun _ => Device.attestCmd_keeps _
  -- The bridge, losses, the fabric (R374 to R417).
  | bridgeFlit => exact keeps_onClock h fun _ => Device.bridgeFlit_keeps _ _ _ _
  | bridgeReplayTimeout m toEast => exact keeps_onClock (f := fun d => d.replayBridge m toEast) h fun _ => Device.replayBridge_keeps _ _ _
  | bridgeRetrain => exact keeps_onClock h fun _ => Device.bridgeRetrain_keeps _ _ _ _ _ _
  | elasticLimit => exact keeps_onClock h fun _ => Device.moduleDown_keeps _ _
  | halfLoss | baseDieFault => exact keeps_run h fun _ => Device.loseHalf_keeps _ _ _
  | towerLoss => exact keeps_run h fun _ => Device.loseTowers_keeps _ _
  | fabFlit => exact keeps_onClock h fun _ => Device.fabFlitIn_keeps _ _ _
  | fabReplayTimeout port => exact keeps_onClock (f := fun d => d.replayFab port) h fun _ => Device.replayFab_keeps _ _
  | data => exact keeps_onClock h fun _ => Device.onlyIf_keeps _ _ _ fun _ => Device.dataIn_keeps _ _ _
  | coll => exact keeps_onClock h fun _ => Device.onlyIf_keeps _ _ _ fun _ => Device.whole_keeps _ _ fun _ => Device.collIn_keeps _ _ _
  | ack => exact keeps_onClock h fun _ => Device.onlyIf_keeps _ _ _ fun _ => Device.ackIn_keeps _ _ _
  | packetForward => exact keeps_onClock h fun _ => Device.onlyIf_keeps _ _ _ fun _ => Device.forward_keeps _ _ _
  | packetAged => exact keeps_onClock h fun _ => Device.onlyIf_keeps _ _ _ fun _ => Device.aged_keeps _ _ _
  | fabTagTimeout => exact keeps_onClock h fun _ => Device.fabTimeout_keeps _ _ _
  | fabTagRelease => exact keeps_onClock h fun _ => Device.fabRelease_keeps _ _ _
  | beacon => exact keeps_onClock h fun _ => Device.beaconIn_keeps _ _ _
  | beaconSend => exact keeps_onClock h fun _ => Device.beaconOut_keeps _ _
  | election => exact keeps_onClock h fun _ => Device.election_keeps _
  | topo => exact keeps_onClock h fun _ => Device.onlyIf_keeps _ _ _ fun _ => Device.topoIn_keeps _ _ _
  | routeDelivery => exact keeps_onClock h fun _ => Device.routeDelivery_keeps _
  | assign => exact keeps_onClock h fun _ => Device.onlyIf_keeps _ _ _ fun _ => Device.assignIn_keeps _ _ _
  | route => exact keeps_onClock h fun _ => Device.onlyIf_keeps _ _ _ fun _ => Device.routeIn_keeps _ _ _
  | commit => exact keeps_onClock h fun _ => Device.onlyIf_keeps _ _ _ fun _ => Device.commitIn_keeps _ _ _
  | partnerAbsent => exact keeps_onClock h fun _ => Device.partnerAbsent_keeps _ _
  | partnerAppear => exact keeps_onClock h fun _ => Device.partnerAppear_keeps _ _ _ _
  | laneFailure => exact keeps_onClock h fun _ => Device.laneFailure_keeps _ _ _
  | portSilent => exact keeps_onClock h fun _ => Device.portDown_keeps _ _
  | delayEcho => exact keeps_onClock h fun _ => Device.delayEcho_keeps _ _ _
  | combine => exact keeps_onClock h fun _ => Device.whole_keeps _ _ fun _ => Device.combine_keeps _ _
  -- The host port and capacity memory (R424 to R445).
  | configRequest => exact keeps_run h fun _ => Device.configRequest_keeps _ _
  | hostRead => exact keeps_run h fun _ => Device.hostRead_keeps _ _ _ _
  | hostWrite => exact keeps_run h fun _ => Device.hostWrite_keeps _ _ _ _ _
  | doorbellWrite => exact keeps_run h fun _ => Device.doorbellWrite_keeps _ _ _
  | doorbellIncrement => exact keeps_run h fun _ => Device.doorbellIncrement_keeps _
  | msixUnmask => exact keeps_run h fun _ => Device.unmask_keeps _ _
  | dmaRun => exact keeps_run h fun _ => Device.dmaRun_keeps _ _
  | dmaClear => exact keeps_run h fun _ => Device.dmaClear_keeps _ _
  | dmaDescriptorStart => exact keeps_onClock h fun _ => Device.dmaStart_keeps _ _
  | dmaDescriptorComplete => exact keeps_onClock h fun _ => Device.dmaFinish_keeps _ _
  | d3hotEntry => exact keeps_run h fun _ => Device.enterD3_keeps _
  | d0Entry => exact keeps_run h fun _ => Device.enterD0_keeps _
  | hostReset => exact keeps_always h fun _ => Device.hostReset_keeps _ _
  | perstRelease => 
    exact keeps_always (f := fun d => { d with pins := { d.pins with perstN := true } }) h fun _ k => keeps_fields k
  | capacityAccess => exact keeps_onClock h fun _ => Device.capacityAccess_keeps _ _ _ _ _
  | lpddrRefresh => exact keeps_onClock h fun _ => Device.lpdRefresh_keeps _ _ _
  | lpddrTempReadout => exact keeps_run h fun _ => Device.lpdTemp_keeps _ _ _ _ _
  -- Management (R446 to R448).
  | setEndpointId => exact keeps_run h fun _ => Device.setEid_keeps _ _
  | getEndpointId => exact keeps_run h fun _ => Device.mctpControl_keeps _ _ fun _ => Device.reply_keeps _ _ _
  | getMctpVersionSupport =>
    exact keeps_run h fun _ => Device.mctpControl_keeps _ _ fun _ k => keeps_eitherReply k
  | getMessageTypeSupport => exact keeps_run h fun _ => Device.mctpControl_keeps _ _ fun _ => Device.reply_keeps _ _ _
  | getTid => exact keeps_run h fun _ => Device.pldm_keeps _ _ fun _ => Device.reply_keeps _ _ _
  | getPldmVersion =>
    exact keeps_run h fun _ => Device.pldm_keeps _ _ fun _ k => keeps_eitherReply k
  | getPldmTypes => exact keeps_run h fun _ => Device.pldm_keeps _ _ fun _ => Device.reply_keeps _ _ _
  | getPldmCommands =>
    exact keeps_run h fun _ => Device.pldm_keeps _ _ fun _ k => keeps_ite (Device.reply_keeps _ _ _ k) (keeps_eitherReply k)
  | getPdr =>
    exact keeps_run h fun _ => Device.pldm_keeps _ _ fun _ k =>
      keeps_ite (Device.reply_keeps _ _ _ (Device.thresholds_keeps _ _ k)) (Device.reply_keeps _ _ _ k)
  | getSensorReading sensor =>
    refine keeps_run h fun _ => Device.pldm_keeps _ _ fun _ k => keeps_ite ?_ (Device.reply_keeps _ _ _ k)
    split <;> exact Device.reply_keeps _ _ _ k
  | getStateSensorReadings =>
    exact keeps_run h fun _ => Device.pldm_keeps _ _ fun _ k => keeps_eitherReply k
  | setNumericEffecterValue =>
    exact keeps_run h fun _ => Device.pldm_keeps _ _ fun _ k =>
      keeps_ite (Device.reply_keeps _ _ _ (Device.writeFlow_keeps _ _ k)) (Device.reply_keeps _ _ _ k)
  | getNumericEffecterValue =>
    exact keeps_run h fun _ => Device.pldm_keeps _ _ fun _ k => keeps_eitherReply k
  | pollForPlatformEventMessage => exact keeps_run h fun _ => Device.pldm_keeps _ _ fun _ => Device.pollEvents_keeps _
  -- Sensors, power and start-up (R454 to R521).
  | sensorConversion => exact keeps_run h fun _ => Device.conversion_keeps _ _
  | towerModelStep => exact keeps_run h fun _ => Device.advanceModel_keeps _ _ _
  | throttleHoldFail => exact keeps_run h fun _ => Device.throttleLong_keeps _ _
  | wearSample => exact keeps_run h fun _ => Device.wearSample_keeps _ _
  | svcReset => exact keeps_run h fun _ => Device.svcResetKey_keeps _ _
  | tapReset => exact keeps_run h fun _ => Device.tapReset_keeps _
  | phaseFailure => exact keeps_run h fun _ => Device.phaseFailure_keeps _ _ _
  | cpmSample => exact keeps_inTower h fun _ => Device.cpmSample_keeps _ _ _
  | inputMonitorSample => exact keeps_run h fun _ => Device.inputSample_keeps _ _ _
  | startUpPhase => exact keeps_run h fun _ => Device.onlyIf_keeps _ _ _ fun _ => Device.startUpPhase_keeps _ _
  | slateWriteRetry => exact keeps_run h fun _ => Device.retryHeld_keeps _
  | deferredTowerLight => exact keeps_run h fun _ => Device.deferredLight_keeps _ _
  | abortComplete => exact keeps_run h fun _ => Device.abortEnd_keeps _
  | rollbackAdvance => exact keeps_run h fun _ => Device.rollbackAdvance_keeps _ _
  | fuseStepBlown => exact keeps_run h fun _ => Device.stepBlown_keeps _ _
  -- The register space and test access (R539 to R576).
  | retireAdd => exact keeps_run h fun _ => Device.retireAdd_keeps _ _
  | logClear => exact keeps_run h fun _ => Device.logClear_keeps _ _
  | flipArm => exact keeps_run h fun _ => Device.flipArm_keeps _ _ _ _
  | flipDisarm => exact keeps_run h fun _ => Device.flipDisarm_keeps _ _
  | slateWindowFill => exact keeps_run h fun _ => Device.fillWindow_keeps _ _
  | parallelShift => exact keeps_run h fun _ => Device.parallelShift_keeps _ _
  | extest => exact keeps_run h fun _ => Device.extest_keeps _ _ _
  | samplePreload => exact keeps_run h fun _ => Device.samplePreload_keeps _ _ _ _
  | idcode => exact keeps_run h fun _ => Device.idcode_keeps _ _
  | extestDw | intestDw => exact keeps_run h fun _ => Device.wrapperTest_keeps _ _ _ _
  | ijtag => exact keeps_run h fun _ => Device.ijtag_keeps _ _ _
  | config => exact keeps_run h fun _ => Device.configChain_keeps _ _ _
  | unlock => exact keeps_run h fun _ => Device.unlock_keeps _ _
  | bypass => exact keeps_run h fun _ => Device.bypass_keeps _ _ _
  | registerWrite => exact keeps_run h fun _ => Device.spaceWrite_keeps _ _ _ _
  | cueCompletion => exact keeps_inTower h fun _ => Device.completeCue_keeps _ _ _
  | nextListArrival => exact keeps_onClock h fun _ => Device.whole_keeps _ _ fun _ => Device.listArrives_keeps _ _
  | hostCompletion => exact keeps_run h fun _ => Device.hostCompletion_keeps _ _ _
  | completionTimeout => exact keeps_run h fun _ => Device.dmaMissed_keeps _ _ _
  | hostLinkUp => exact keeps_run h fun _ => Device.hostLinkUp_keeps _ _ _
  | mailboxComplete => exact keeps_run h fun _ => Device.mbxComplete_keeps _
  | rejoinEnd => exact keeps_run h fun _ => Device.rejoinEnd_keeps _ _ _ _
  | slateWriteEnd => exact keeps_run h fun _ => Device.slateWriteEnd_keeps _
  | windowFilled => exact keeps_run h fun _ => Device.windowFilled_keeps _
  | parallelShiftDone => exact keeps_run h fun _ => Device.parallelDone_keeps _ _
  | powerGood | resetRelease | coldReset | deviceReset | powerLoss | powerReturn | resetNRelease => cases hi

/-! ### Power and reset (R482, R484, R490) -/

section
variable {d : Device}

theorem Formed.withPins (hd : Formed d) (p : Pins) : Formed { d with pins := p } :=
  ⟨hd.steps, hd.regs, hd.cores, hd.sites, hd.towers, hd.halves, hd.ports, hd.mem, hd.hostMem, hd.flash⟩

theorem Formed.tearFuse (hd : Formed d) : Formed d.tearFuse := by
  unfold Device.tearFuse
  split
  · exact { hd.withPins d.pins with steps := KeysRise.mset _ hd.steps (Nat.zero_le _) _ }
  · exact hd

/-- A reset keeps the fuses, the flash and the host's memory, and leaves the other maps empty. -/
theorem Formed.resetTo (hd : Formed d) (cause : Nat) : Formed (d.resetTo cause) := by
  have ht : Formed d.tearWrite.tearFuse :=
    ((Device.tearWrite_keeps (bs := false) (br := false) (bc := false) d (.refl d)).formed hd).tearFuse
  refine (Device.setField_keeps (bm := false) (bc := false) (bs := false) _ _ _ _ _ (.refl _)).formed ?_
  exact ⟨ht.steps, rfl, rfl, rfl, rfl, rfl, rfl, rfl, ht.hostMem, ht.flash⟩

theorem Formed.deviceReset (hd : Formed d) : Formed d.deviceReset := by
  unfold Device.deviceReset
  split
  · exact (hd.resetTo _).withPins _
  · split
    · exact hd.withPins _
    · exact (hd.withPins _).resetTo _

theorem Formed.ite {e : Device} {p : Prop} [Decidable p] (hd : Formed d) (he : Formed e) : Formed (if p then d else e) := by
  split <;> assumption

end

theorem formed_always {f : Device → Device} {s s' : State} (h : s.always f = .next s') (hf : Formed (f s.dev)) : Formed s'.dev := by
  cases h
  exact hf

/-- The commands of power and reset answer a formed part, whose maps and memories are empty after a reset but for what it keeps. -/
theorem exec_movesPower_formed {i : Instr} (hi : movesPower i = true) {s s' : State} (h : exec i s = .next s') (hs : Formed s.dev) :
    Formed s'.dev := by
  cases i with
  | powerGood => exact formed_always (f := Device.powerGood) h (.ite hs (hs.withPins _))
  | resetNRelease => exact formed_always (f := Device.resetNRelease) h (.ite hs (hs.withPins _))
  | powerReturn => exact formed_always (f := Device.powerReturn) h (.ite hs (hs.withPins _))
  | resetRelease => exact formed_always (f := Device.resetRelease) h (.ite (hs.withPins _) hs)
  | coldReset => exact formed_always (f := Device.coldReset) h ((hs.withPins _).resetTo _)
  | powerLoss => exact formed_always (f := Device.powerLoss) h ((hs.withPins _).resetTo _)
  | deviceReset => exact formed_always (f := Device.deviceReset) h hs.deviceReset
  | _ => cases hi

theorem exec_formed {i : Instr} {s s' : State} (h : exec i s = .next s') (hs : Formed s.dev) : Formed s'.dev := by
  cases hi : movesPower i with
  | false => exact (exec_keeps hi h).formed hs
  | true => exact exec_movesPower_formed hi h hs

/-- Settles O52: the clock keeps the part's maps and memories, and so does each command, by what its meaning keeps or as a reset. -/
theorem mapsAndMemoriesStayFormed : Obligations.MapsAndMemoriesStayFormed := by
  intro s s' hs h
  rw [formed_iff] at hs ⊢
  unfold step at h
  split at h
  case h_1 =>
    cases h
    exact (Device.idle_keeps (bm := false) (bc := false) (bs := false) (br := false) _ (.refl _)).formed hs
  case h_2 => exact exec_formed h hs

end Sys2Proof.Machine
end

section
/-! SUPPORT. The check code: its linearity, the difference that damage of a word makes, what a difference names, and a codeword of a
memory as it reads once it is stored; with the statement of the guaranteed classes. -/
namespace Sys2Proof.Machine

open Sys2Proof

/-! ### The check code is linear (R287) -/

/-- How often exactly one of two marks holds, modulo 2. -/
theorem countP_xor {α : Type} (p q : α → Bool) (l : List α) :
    l.countP (fun a => p a ^^ q a) % 2 = (l.countP p + l.countP q) % 2 := by
  induction l with
  | nil => rfl
  | cons a r ih =>
    simp only [List.countP_cons]
    cases p a <;> cases q a <;> simp <;> omega

theorem bit_eq_testBit (w i : Nat) : bit w i = w.testBit i := by
  rw [bit, Nat.shiftRight_eq_div_pow, Nat.testBit_eq_decide_div_mod_eq]; rfl

theorem popcount8_eq_countP (b : Byte) : popcount8 b = (List.range 8).countP fun i => b.getLsbD i := by
  simp only [popcount8, bitsOf, ← List.countP_eq_length_filter, bit_eq_testBit, BitVec.testBit_toNat]

/-- The number of bits that a sum of bytes sets is even or odd as the bytes have it. -/
theorem popcount8_xor (a b : Byte) : popcount8 (a ^^^ b) % 2 = (popcount8 a + popcount8 b) % 2 := by
  simp only [popcount8_eq_countP, BitVec.getLsbD_xor]
  exact countP_xor _ _ _

/-- What a byte adds to the upper check byte. -/
def upperStep (a : Byte) (p : Byte × Byte) : Byte := if popcount8 p.1 % 2 = 1 then a ^^^ p.2 else a

theorem eccEncode_eq (d : List Byte) :
    eccEncode d = (d.zip eccW).foldl upperStep 0 ++ d.foldl (fun a b => a ^^^ b) (0 : Byte) := rfl

theorem upperStep_zero (a w : Byte) : upperStep a (0#8, w) = a := if_neg (show ¬popcount8 0#8 % 2 = 1 by decide)

/-- A sum of bytes adds to the upper check byte what the bytes add. -/
theorem upperStep_xor (a a' x x' w : Byte) :
    upperStep (a ^^^ a') (x ^^^ x', w) = upperStep a (x, w) ^^^ upperStep a' (x', w) := by
  have hp : popcount8 (x ^^^ x') % 2 = (popcount8 x % 2 + popcount8 x' % 2) % 2 := by rw [popcount8_xor, Nat.add_mod]
  have hw : a ^^^ w ^^^ (a' ^^^ w) = a ^^^ a' := by
    rw [show a ^^^ w ^^^ (a' ^^^ w) = a ^^^ a' ^^^ (w ^^^ w) by ac_rfl, BitVec.xor_self, BitVec.xor_zero]
  rcases Nat.mod_two_eq_zero_or_one (popcount8 x) with h | h <;> rcases Nat.mod_two_eq_zero_or_one (popcount8 x') with h' | h' <;>
    simp [upperStep, hp, h, h', hw]
  · ac_rfl
  · ac_rfl

theorem foldl_upperStep_xor (x y w : List Byte) (h : x.length = y.length) (a b : Byte) :
    ((List.zipWith (· ^^^ ·) x y).zip w).foldl upperStep (a ^^^ b) = (x.zip w).foldl upperStep a ^^^ (y.zip w).foldl upperStep b := by
  induction x generalizing y w a b with
  | nil => cases y with
    | nil => rfl
    | cons => cases h
  | cons u x ih =>
    cases y with
    | nil => cases h
    | cons v y =>
      cases w with
      | nil => rfl
      | cons w ws => simpa [upperStep_xor] using ih y ws (by simpa using h) _ _

theorem foldl_xor_xor (x y : List Byte) (h : x.length = y.length) (a b : Byte) :
    (List.zipWith (· ^^^ ·) x y).foldl (fun a b => a ^^^ b) (a ^^^ b) =
      x.foldl (fun a b => a ^^^ b) a ^^^ y.foldl (fun a b => a ^^^ b) b := by
  induction x generalizing y a b with
  | nil => cases y with
    | nil => rfl
    | cons => cases h
  | cons u x ih =>
    cases y with
    | nil => cases h
    | cons v y =>
      rw [List.zipWith_cons_cons, List.foldl_cons, List.foldl_cons, List.foldl_cons, ← ih y (by simpa using h)]
      congr 1
      ac_rfl

/-- The check bits of a sum are the sum of the check bits. -/
theorem eccEncode_xor (x y : List Byte) (h : x.length = y.length) :
    eccEncode (List.zipWith (· ^^^ ·) x y) = eccEncode x ^^^ eccEncode y := by
  rw [eccEncode_eq, eccEncode_eq, eccEncode_eq, BitVec.xor_append, ← foldl_upperStep_xor x y eccW h, ← foldl_xor_xor x y h]
  rfl

/-! ### Damage of a stored word -/

/-- The data bytes of a flip mask. -/
def maskBytes (k : BitVec 144) : List Byte := (List.range 16).map fun j => k.extractLsb' (8 * j) 8

/-- Sixteen data bytes under a flip mask. -/
def damaged (d : List Byte) (k : BitVec 144) : List Byte := (List.range 16).map fun j => d.getD j 0 ^^^ k.extractLsb' (8 * j) 8

/-- The check difference that a flip mask makes. -/
def maskSyn (k : BitVec 144) : BitVec 16 := eccEncode (maskBytes k) ^^^ k.extractLsb' 128 16

theorem maskBytes_xor (k l : BitVec 144) : maskBytes (k ^^^ l) = List.zipWith (· ^^^ ·) (maskBytes k) (maskBytes l) := by
  simp only [maskBytes, BitVec.extractLsb'_xor, List.zipWith_map, List.zipWith_self]

theorem maskSyn_xor (k l : BitVec 144) : maskSyn (k ^^^ l) = maskSyn k ^^^ maskSyn l := by
  rw [maskSyn, maskBytes_xor, eccEncode_xor _ _ (by simp [maskBytes]), BitVec.extractLsb'_xor, maskSyn, maskSyn]
  ac_rfl

theorem damaged_eq {d : List Byte} (hd : d.length = 16) (k : BitVec 144) : damaged d k = List.zipWith (· ^^^ ·) d (maskBytes k) := by
  refine List.ext_getElem (by simp [damaged, maskBytes, hd]) fun i hi _ => ?_
  have hi : i < d.length := by simpa [damaged, hd] using hi
  simp [damaged, maskBytes, hi]

/-- The check bits of a damaged word differ by what the mask's data bytes add. -/
theorem eccEncode_damaged {d : List Byte} (hd : d.length = 16) (k : BitVec 144) :
    eccEncode (damaged d k) ^^^ eccEncode d ^^^ k.extractLsb' 128 16 = maskSyn k := by
  rw [damaged_eq hd, eccEncode_xor _ _ (by simp [maskBytes, hd]), maskSyn]
  rw [BitVec.xor_comm (eccEncode d), BitVec.xor_assoc (eccEncode (maskBytes k)), BitVec.xor_self, BitVec.xor_zero]

/-- The check difference of damage `v` in aligned byte `j`: a data byte, or the lower or the upper check byte (R291). -/
def byteSyn (j : Nat) (v : Byte) : BitVec 16 :=
  if j < 16 then upperStep 0 (v, eccW.getD j 0) ++ v else if j = 16 then (0 : Byte) ++ v else v ++ (0 : Byte)

/-- A flip mask of the bits `v` in aligned byte `j`. -/
def byteMask (j : Nat) (v : Byte) : BitVec 144 := v.setWidth 144 <<< (8 * j)

theorem extract_byteMask (j i : Nat) (v : Byte) (hi : i < 18) : (byteMask j v).extractLsb' (8 * i) 8 = if i = j then v else 0#8 := by
  refine BitVec.eq_of_getLsbD_eq fun b hb => ?_
  rw [byteMask, BitVec.getLsbD_extractLsb', BitVec.getLsbD_shiftLeft, BitVec.getLsbD_setWidth]
  split
  case isTrue h => subst h; simp [hb, show 8 * i + b < 144 by omega, show b < 144 by omega]
  case isFalse h =>
    by_cases hlt : 8 * i + b < 8 * j
    · simp [hlt]
    · rw [BitVec.getLsbD_of_ge v _ (by omega)]; simp

theorem byteMask_xor (j : Nat) (u v : Byte) : byteMask j u ^^^ byteMask j v = byteMask j (u ^^^ v) := by
  rw [byteMask, byteMask, byteMask, BitVec.setWidth_xor, BitVec.shiftLeft_xor_distrib]

/-- A flip of bit `b` is a flip in its aligned byte. -/
theorem bitMask_eq (b : Nat) : 1#144 <<< b = byteMask (b / 8) (1#8 <<< (b % 8)) := by
  have hr : ∀ r < 8, 1#144 <<< r = (1#8 <<< r).setWidth 144 := by decide
  rw [byteMask, ← hr _ (Nat.mod_lt _ (by decide)), ← BitVec.shiftLeft_add, Nat.mod_add_div]

theorem maskBytes_byteMask (j : Nat) (v : Byte) : maskBytes (byteMask j v) = (List.range 16).map fun i => if i = j then v else 0#8 := by
  refine List.map_congr_left fun i hi => extract_byteMask j i v ?_
  have := List.mem_range.1 hi; omega

theorem checkBits_split (k : BitVec 144) : k.extractLsb' 128 16 = k.extractLsb' (8 * 17) 8 ++ k.extractLsb' (8 * 16) 8 := by
  refine BitVec.eq_of_getLsbD_eq fun b hb => ?_
  rw [BitVec.getLsbD_append]
  simp only [BitVec.getLsbD_extractLsb']
  split
  · simp [*]
  · simp [hb, show b - 8 < 8 by omega, show 8 * 17 + (b - 8) = 128 + b by omega]

/-- The difference of damage in one aligned byte. -/
theorem maskSyn_byteMask {j : Nat} (hj : j < 18) (v : Byte) : maskSyn (byteMask j v) = byteSyn j v := by
  rw [maskSyn, maskBytes_byteMask, checkBits_split, extract_byteMask j 17 v (by decide), extract_byteMask j 16 v (by decide), eccEncode_eq]
  interval_cases j <;> simp [byteSyn, eccW, upperStep_zero, List.range, List.range.loop]

/-! ### What a check difference names (R290) -/

theorem popcount8_of_oneBit {b : Byte} {i : Nat} (h : oneBit b = some i) : popcount8 b = 1 := by
  unfold oneBit at h
  split at h
  · rename_i hl; rw [popcount8, hl]; rfl
  · cases h

theorem oneBit_none {b : Byte} (h : popcount8 b ≠ 1) : oneBit b = none := by
  cases hb : oneBit b with
  | none => rfl
  | some i => exact absurd (popcount8_of_oneBit hb) h

/-- Neither check byte has one bit: no bit is named. -/
theorem eccLocate_none {hi lo : Byte} (hh : popcount8 hi ≠ 1) (hl : popcount8 lo ≠ 1) : eccLocate (hi ++ lo) = none := by
  simp only [eccLocate, BitVec.extractLsb'_append_eq_right, BitVec.extractLsb'_append_eq_left, oneBit_none hh, oneBit_none hl]

/-- The lower check byte has several bits: no bit is named. -/
theorem eccLocate_lower {hi lo : Byte} (h0 : lo ≠ 0) (hl : popcount8 lo ≠ 1) : eccLocate (hi ++ lo) = none := by
  simp only [eccLocate, BitVec.extractLsb'_append_eq_right, BitVec.extractLsb'_append_eq_left, oneBit_none hl, if_neg h0]
  cases oneBit hi <;> rfl

theorem findIdx_none {α : Type} {p : α → Bool} {l : List α} (h : ∀ a ∈ l, p a = false) : findIdx p l = none := by
  induction l with
  | nil => rfl
  | cons a r ih => simp [findIdx, h a, ih fun b hb => h b (List.mem_cons_of_mem _ hb)]

/-- The upper check byte is no column of the code: no data bit and no lower check bit is named. -/
theorem eccLocate_upper {hi lo : Byte} (h0 : hi ≠ 0) (hw : hi ∉ eccW) (hl : lo ≠ 0) : eccLocate (hi ++ lo) = none := by
  have hf : findIdx (fun w => w == hi) eccW = none :=
    findIdx_none fun w hm => beq_eq_false_iff_ne.2 fun e => hw (e ▸ hm)
  simp only [eccLocate, BitVec.extractLsb'_append_eq_right, BitVec.extractLsb'_append_eq_left]
  cases oneBit lo with
  | some i => simp only [if_neg h0, hf, Option.map_none]
  | none => cases oneBit hi <;> simp only [if_neg hl]

theorem poisonSyn_append : poisonSyn = (0x0F : Byte) ++ (0x0F : Byte) := by decide

theorem append_xor_poisonSyn (hi lo : Byte) : (hi ++ lo) ^^^ poisonSyn = (hi ^^^ 0x0F) ++ (lo ^^^ 0x0F) := by
  rw [poisonSyn_append, BitVec.xor_append]

theorem append_eq_append_iff (a b c e : Byte) : a ++ b = c ++ e ↔ a = c ∧ b = e := by
  constructor
  · intro h
    have hl := congrArg (BitVec.extractLsb' 8 8) h
    have hr := congrArg (BitVec.extractLsb' 0 8) h
    rw [BitVec.extractLsb'_append_eq_left, BitVec.extractLsb'_append_eq_left] at hl
    rw [BitVec.extractLsb'_append_eq_right, BitVec.extractLsb'_append_eq_right] at hr
    exact ⟨hl, hr⟩
  · rintro ⟨rfl, rfl⟩; rfl

/-- A word is uncorrectable when neither its difference nor that of its poisoned form is zero or names a bit. -/
theorem eccCheck_uncorrectable {hi lo : Byte} (h0 : ¬ (hi = 0 ∧ lo = 0)) (hp : ¬ (hi = 0x0F ∧ lo = 0x0F))
    (hn : eccLocate (hi ++ lo) = none) (hq : eccLocate ((hi ^^^ 0x0F) ++ (lo ^^^ 0x0F)) = none) :
    eccCheck (hi ++ lo) = .uncorrectable := by
  have hz : hi ++ lo ≠ (0 : BitVec 16) := fun e => h0 ((append_eq_append_iff hi lo 0 0).1 e)
  have hne : hi ++ lo ≠ poisonSyn := fun e => hp ((append_eq_append_iff _ _ _ _).1 (e.trans poisonSyn_append))
  simp only [eccCheck, if_neg hz, if_neg hne, hn, append_xor_poisonSyn, hq]

/-! ### The classes of R291 -/

/-- The difference of one bad bit names the bit, and that of the bit in a poisoned word too. -/
theorem eccCheck_oneBit : ∀ j < 18, ∀ p < 8, eccCheck (byteSyn j (1#8 <<< p)) = .corrected (8 * j + p) ∧
    eccCheck (byteSyn j (1#8 <<< p) ^^^ poisonSyn) = .poison (some (8 * j + p)) := by decide

/-- A column, or none, has an even number of bits, and with the half of the poison difference it is no column. -/
theorem eccW_even : ∀ w ∈ (0 : Byte) :: eccW, popcount8 w % 2 = 0 ∧ w ^^^ 0x0F ≠ 0 ∧ w ^^^ 0x0F ∉ eccW := by decide

theorem eccW_distinct : ∀ i < 17, ∀ j < 17, i ≠ j → eccW.getD i 0 ^^^ eccW.getD j 0 ≠ 0 := by decide

theorem getD_eccW_mem (j : Nat) : eccW.getD j 0 ∈ (0 : Byte) :: eccW := by
  by_cases h : j < eccW.length
  · rw [List.getD_eq_getElem _ _ h]; exact List.mem_cons_of_mem _ (List.getElem_mem h)
  · rw [List.getD_eq_default _ _ (by omega)]; exact List.mem_cons_self

/-- The difference of a damaged data byte or lower check byte: the latter has no column. -/
theorem byteSyn_lower {j : Nat} (hj : j < 17) (v : Byte) : byteSyn j v = upperStep 0 (v, eccW.getD j 0) ++ v := by
  unfold byteSyn
  split
  · rfl
  · rw [if_pos (by omega), List.getD_eq_default _ _ (show eccW.length ≤ j by simp only [eccW, List.length]; omega)]
    simp [upperStep]

theorem byteSyn_upper (v : Byte) : byteSyn 17 v = v ++ (0 : Byte) := rfl

/-- What a byte adds to the upper check byte from nothing. -/
theorem upperStep_even {v : Byte} (h : popcount8 v % 2 = 0) (w : Byte) : upperStep 0 (v, w) = 0 := if_neg (by simp [h])

theorem upperStep_odd {v : Byte} (h : popcount8 v % 2 = 1) (w : Byte) : upperStep 0 (v, w) = w := (if_pos h).trans (BitVec.zero_xor)

/-- The parity of a byte is that of its sum with the poison difference's half. -/
theorem popcount8_xor_poison (v : Byte) : popcount8 (v ^^^ 0x0F) % 2 = popcount8 v % 2 := by
  rw [popcount8_xor, show popcount8 0x0F = 4 by decide, show (4 : Nat) = 2 * 2 from rfl, Nat.add_mul_mod_self_left]

/-- Two to eight bad bits of a data byte or of the lower check byte (R291). -/
theorem eccCheck_lowerByte {j : Nat} (hj : j < 17) {v : Byte} (hv : 2 ≤ popcount8 v) : eccCheck (byteSyn j v) = .uncorrectable := by
  obtain ⟨-, hw0, hw⟩ := eccW_even _ (getD_eccW_mem j)
  have hv0 : v ≠ 0 := by rintro rfl; exact absurd hv (by decide)
  have h0F : v = 0x0F → upperStep 0 (v, eccW.getD j 0) = 0 := by rintro rfl; exact upperStep_even (by decide) _
  rw [byteSyn_lower hj]
  refine eccCheck_uncorrectable (fun h => hv0 h.2) (fun h => ?_) (eccLocate_lower hv0 (by omega)) ?_
  · exact absurd ((h0F h.2).symm.trans h.1) (by decide)
  · by_cases he : v = 0x0F
    · rw [h0F he, he]
      exact eccLocate_none (by decide) (by decide)
    have hne : v ^^^ 0x0F ≠ 0 := fun h => he (BitVec.xor_eq_zero_iff.1 h)
    by_cases h1 : popcount8 (v ^^^ 0x0F) = 1
    · rw [upperStep_odd (by rw [← popcount8_xor_poison, h1])]
      exact eccLocate_upper hw0 hw hne
    · exact eccLocate_lower hne h1

/-- Two to eight bad bits of the upper check byte (R291). -/
theorem eccCheck_upperByte {v : Byte} (hv : 2 ≤ popcount8 v) : eccCheck (byteSyn 17 v) = .uncorrectable := by
  have hv0 : v ≠ 0 := by rintro rfl; exact absurd hv (by decide)
  rw [byteSyn_upper]
  exact eccCheck_uncorrectable (fun h => hv0 h.1) (fun h => absurd h.2 (by decide)) (eccLocate_none (by omega) (by decide))
    (eccLocate_lower (by decide) (by decide))

/-- Two to eight bad bits of one aligned byte (R291). -/
theorem eccCheck_byte {j : Nat} (hj : j < 18) {v : Byte} (hv : 2 ≤ popcount8 v) : eccCheck (byteSyn j v) = .uncorrectable := by
  rcases Nat.lt_succ_iff_lt_or_eq.1 hj with h | rfl
  · exact eccCheck_lowerByte h hv
  · exact eccCheck_upperByte hv

theorem popcount8_oneBit : ∀ p < 8, popcount8 (1#8 <<< p) = 1 ∧ 1#8 <<< p ≠ 0 ∧ 1#8 <<< p ≠ 0x0F ∧
    1#8 <<< p ^^^ 0x0F ≠ 0 ∧ popcount8 (1#8 <<< p ^^^ 0x0F) ≠ 1 := by decide

theorem popcount8_twoBits : ∀ p < 8, ∀ q < 8, 1#8 <<< p ^^^ 1#8 <<< q ≠ 0x0F ∧
    (p ≠ q → 2 ≤ popcount8 (1#8 <<< p ^^^ 1#8 <<< q)) := by decide

theorem byteSyn_lowerBit {j p : Nat} (hj : j < 17) (hp : p < 8) : byteSyn j (1#8 <<< p) = eccW.getD j 0 ++ 1#8 <<< p := by
  rw [byteSyn_lower hj, upperStep_odd (by rw [(popcount8_oneBit p hp).1])]

/-- Two bad bits below the upper check byte: both halves of the difference have an even number of bits, and the upper one is not 0. -/
theorem eccCheck_twoLower {i j p q : Nat} (hi : i < 17) (hj : j < 17) (hij : i ≠ j) (hp : p < 8) (hq : q < 8) :
    eccCheck (byteSyn i (1#8 <<< p) ^^^ byteSyn j (1#8 <<< q)) = .uncorrectable := by
  have hhi : popcount8 (eccW.getD i 0 ^^^ eccW.getD j 0) % 2 = 0 := by
    rw [popcount8_xor, Nat.add_mod, (eccW_even _ (getD_eccW_mem i)).1, (eccW_even _ (getD_eccW_mem j)).1]
  have hlo : popcount8 (1#8 <<< p ^^^ 1#8 <<< q) % 2 = 0 := by
    rw [popcount8_xor, (popcount8_oneBit p hp).1, (popcount8_oneBit q hq).1]
  have even_ne {b : Byte} (h : popcount8 b % 2 = 0) : popcount8 b ≠ 1 := by omega
  rw [byteSyn_lowerBit hi hp, byteSyn_lowerBit hj hq, BitVec.xor_append]
  exact eccCheck_uncorrectable (fun h => eccW_distinct i hi j hj hij h.1) (fun h => (popcount8_twoBits p hp q hq).1 h.2)
    (eccLocate_none (even_ne hhi) (even_ne hlo))
    (eccLocate_none (even_ne (by rw [popcount8_xor_poison, hhi])) (even_ne (by rw [popcount8_xor_poison, hlo])))

/-- A bad bit in the upper check byte and one below it: the upper half of the difference has an odd number of bits, so it is no column. -/
theorem eccCheck_lowerAndUpper {i p q : Nat} (hi : i < 17) (hp : p < 8) (hq : q < 8) :
    eccCheck (byteSyn i (1#8 <<< p) ^^^ byteSyn 17 (1#8 <<< q)) = .uncorrectable := by
  obtain ⟨-, hp0, hpF, hpx, hpx1⟩ := popcount8_oneBit p hp
  have hhi : popcount8 (eccW.getD i 0 ^^^ 1#8 <<< q) % 2 = 1 := by
    rw [popcount8_xor, Nat.add_mod, (eccW_even _ (getD_eccW_mem i)).1, (popcount8_oneBit q hq).1]
  have hno : eccW.getD i 0 ^^^ 1#8 <<< q ∉ (0 : Byte) :: eccW := fun h => by
    rw [(eccW_even _ h).1] at hhi; cases hhi
  rw [byteSyn_lowerBit hi hp, byteSyn_upper, BitVec.xor_append,
    show 1#8 <<< p ^^^ (0 : Byte) = 1#8 <<< p from BitVec.xor_zero]
  exact eccCheck_uncorrectable (fun h => hp0 h.2) (fun h => hpF h.2)
    (eccLocate_upper (fun h => hno (by rw [h]; exact List.mem_cons_self)) (fun h => hno (List.mem_cons_of_mem _ h)) hp0)
    (eccLocate_lower hpx hpx1)

/-- Two bad bits of different aligned bytes (R291). -/
theorem eccCheck_twoBits {i j p q : Nat} (hi : i < 18) (hj : j < 18) (hij : i ≠ j) (hp : p < 8) (hq : q < 8) :
    eccCheck (byteSyn i (1#8 <<< p) ^^^ byteSyn j (1#8 <<< q)) = .uncorrectable := by
  rcases Nat.lt_succ_iff_lt_or_eq.1 hi with hi | rfl <;> rcases Nat.lt_succ_iff_lt_or_eq.1 hj with hj | rfl
  · exact eccCheck_twoLower hi hj hij hp hq
  · exact eccCheck_lowerAndUpper hi hp hq
  · rw [BitVec.xor_comm]; exact eccCheck_lowerAndUpper hj hq hp
  · exact absurd rfl hij

/-! ### A codeword stored and read (R287 to R290) -/

section
variable {m : Memory} {cw : Nat} {x : List Byte} {y : BitVec 16}

theorem Memory.byte_put (h : m.wf = true) (a : Nat) (bs : List Byte) {i : Nat} (hi : i < bs.length) :
    (m.put a bs).byte (a + i) = bs[i] := by
  induction bs generalizing m a i with
  | nil => cases hi
  | cons b r ih =>
    rw [Memory.put]
    cases i with
    | zero => rw [Memory.byte_put_outside _ _ _ (by omega)]; exact Memory.byte_setByte_same h a b
    | succ i =>
      rw [show a + (i + 1) = a + 1 + i by omega]
      exact ih (Memory.wf_setByte h a b) (a + 1) (by simpa using hi)

theorem Memory.read_put (h : m.wf = true) (a : Nat) (bs : List Byte) : (m.put a bs).read a bs.length = bs := by
  refine List.ext_getElem (by simp [Memory.read]) fun i _ hi => ?_
  simp [Memory.read, Memory.byte_put h a bs hi]

theorem Memory.syn_put (m : Memory) (a : Nat) (bs : List Byte) : (m.put a bs).syn = m.syn := by
  induction bs generalizing m a with
  | nil => rfl
  | cons b r ih => exact (ih _ _).trans rfl

section
variable (hx : x.length = 16)
include hx

theorem Memory.cw_put_setSyn_same (h : m.wf = true) : ((m.put (16 * cw) x).setSyn cw y).cw cw = eccReceive x y := by
  have hr : ((m.put (16 * cw) x).setSyn cw y).read (16 * cw) 16 = x := hx ▸ Memory.read_put h (16 * cw) x
  have hs : ((m.put (16 * cw) x).setSyn cw y).synAt cw = y :=
    mget_mset_same _ (MapOk.rise ((Memory.wf_iff _).1 (Memory.wf_put h _ _)).2) cw y
  rw [Memory.cw, hr, hs]

theorem Memory.byte_put_setSyn_other {a : Nat} (ha : a / 16 ≠ cw) : ((m.put (16 * cw) x).setSyn cw y).byte a = m.byte a :=
  Memory.byte_put_outside m (16 * cw) x (by omega)

theorem Memory.cw_put_setSyn_other {n : Nat} (hn : n ≠ cw) : ((m.put (16 * cw) x).setSyn cw y).cw n = m.cw n := by
  have hr : ((m.put (16 * cw) x).setSyn cw y).read (16 * n) 16 = m.read (16 * n) 16 := by
    refine List.map_congr_left fun i hi => Memory.byte_put_setSyn_other hx ?_
    have := List.mem_range.1 hi; omega
  have hs : ((m.put (16 * cw) x).setSyn cw y).synAt n = m.synAt n := by
    rw [Memory.synAt, Memory.setSyn, mget_mset_other _ _ hn, Memory.syn_put, Memory.synAt]
  rw [Memory.cw, hr, hs, Memory.cw]

/-- A codeword stored with no damage reads as it was stored. -/
theorem Memory.cw_putCw (h : m.wf = true) (poison : Bool) :
    (m.putCw cw x poison none).cw cw = eccReceive x (if poison then poisonSyn else 0#16) := Memory.cw_put_setSyn_same hx h

/-- A codeword stored with a flip mask reads with the mask's difference. -/
theorem Memory.cw_putCw_mask (h : m.wf = true) (poison : Bool) (k : BitVec 144) :
    (m.putCw cw x poison (some k)).cw cw = eccReceive (damaged x k) (maskSyn k ^^^ if poison then poisonSyn else 0#16) := by
  have hs : ∀ p : BitVec 16, eccEncode (damaged x k) ^^^ eccEncode x ^^^ p ^^^ k.extractLsb' 128 16 = maskSyn k ^^^ p := fun p => by
    rw [← eccEncode_damaged hx k]; ac_rfl
  rw [← hs]
  exact Memory.cw_put_setSyn_same (by simp) h

theorem Memory.cw_putCw_other {n : Nat} (hn : n ≠ cw) (poison : Bool) (k : Option (BitVec 144)) :
    (m.putCw cw x poison k).cw n = m.cw n := by
  cases k with
  | none => exact Memory.cw_put_setSyn_other hx hn
  | some k => exact Memory.cw_put_setSyn_other (by simp) hn

theorem Memory.byte_putCw_other {a : Nat} (ha : a / 16 ≠ cw) (poison : Bool) (k : Option (BitVec 144)) :
    (m.putCw cw x poison k).byte a = m.byte a := by
  cases k with
  | none => exact Memory.byte_put_setSyn_other hx ha
  | some k => exact Memory.byte_put_setSyn_other (by simp) ha

end
end

/-! ### What a receiver makes of a word (R290) -/

theorem setAt_eq_set {α : Type} (l : List α) (i : Nat) (v : α) : setAt l i v = l.set i v := by
  induction l generalizing i with
  | nil => rfl
  | cons a r ih => cases i with
    | zero => rfl
    | succ i => exact congrArg (a :: ·) (ih i)

theorem length_flipDataBit (d : List Byte) (b : Nat) : (flipDataBit d b).length = d.length := by
  unfold flipDataBit
  split <;> simp [setAt_eq_set]

theorem damaged_zero {d : List Byte} (hd : d.length = 16) : damaged d 0 = d := by
  refine List.ext_getElem (by simp [damaged, hd]) fun i _ hi => ?_
  simp [damaged, hi]

/-- The bad bit that the difference names, flipped back. -/
theorem flipDataBit_damaged {d : List Byte} (hd : d.length = 16) {j p : Nat} (hj : j < 18) (hp : p < 8) :
    flipDataBit (damaged d (byteMask j (1#8 <<< p))) (8 * j + p) = d := by
  have hget : ∀ i (hi : i < d.length) (h : i < (damaged d (byteMask j (1#8 <<< p))).length),
      (damaged d (byteMask j (1#8 <<< p)))[i] = d[i] ^^^ if i = j then 1#8 <<< p else 0#8 := fun i hi _ => by
    simp [damaged, extract_byteMask j i _ (by omega : i < 18), hi]
  have hbit : ∀ p < 8, BitVec.ofNat 8 (2 ^ p) = 1#8 <<< p := by decide
  refine List.ext_getElem (by simp [length_flipDataBit, damaged, hd]) fun i hi hi' => ?_
  by_cases h16 : j < 16
  · have hj' : j < (damaged d (byteMask j (1#8 <<< p))).length := by simpa [damaged] using h16
    simp only [flipDataBit, if_pos (show 8 * j + p < 128 by omega), setAt_eq_set, List.getElem_set,
      show (8 * j + p) / 8 = j by omega, show (8 * j + p) % 8 = p by omega, hbit p hp]
    split
    case isTrue h =>
      subst h
      rw [List.getD_eq_getElem _ _ hj', hget j hi' hj', if_pos rfl, BitVec.xor_assoc, BitVec.xor_self, BitVec.xor_zero]
    case isFalse h => rw [hget i hi', if_neg (Ne.symm h), BitVec.xor_zero]
  · simp only [flipDataBit, if_neg (show ¬ 8 * j + p < 128 by omega)]
    rw [hget i hi', if_neg (by omega), BitVec.xor_zero]

/-! ### The guaranteed classes -/

theorem eccReceive_cls (d : List Byte) (y : BitVec 16) : (eccReceive d y).cls = eccCheck y := by
  unfold eccReceive
  split <;> simp [*]

theorem eccReceive_corrected {d : List Byte} {y : BitVec 16} {b : Nat} (h : eccCheck y = .corrected b) :
    eccReceive d y = { data := flipDataBit d b, bad := false, cls := .corrected b, syn := y } := by
  simp only [eccReceive, h]

theorem eccReceive_poisonBit {d : List Byte} {y : BitVec 16} {b : Nat} (h : eccCheck y = .poison (some b)) :
    eccReceive d y = { data := flipDataBit d b, bad := true, cls := .poison (some b), syn := y } := by
  simp only [eccReceive, h]

section
variable {m : Memory} {cw : Nat} {x : List Byte} (h : m.wf = true) (hx : x.length = 16)
include h hx

/-- One bad bit: it is named, in an ordinary and in a poisoned word, and the data are restored. -/
theorem Memory.cw_oneBit {b : Nat} (hb : b < 144) :
    let r := fun poison => (m.putCw cw x poison (some (1#144 <<< b))).cw cw
    (r false).cls = .corrected b ∧ (r false).data = x ∧ (r true).cls = .poison (some b) ∧ (r true).data = x := by
  intro r
  have hc := eccCheck_oneBit (b / 8) (by omega) (b % 8) (by omega)
  have hd := flipDataBit_damaged hx (j := b / 8) (p := b % 8) (by omega) (by omega)
  rw [Nat.div_add_mod] at hc hd
  have hr : ∀ poison, r poison = eccReceive (damaged x (byteMask (b / 8) (1#8 <<< (b % 8))))
      (byteSyn (b / 8) (1#8 <<< (b % 8)) ^^^ if poison then poisonSyn else 0#16) := fun poison => by
    rw [← maskSyn_byteMask (by omega), ← bitMask_eq]; exact Memory.cw_putCw_mask hx h poison _
  have hf : r false = _ := (hr false).trans (eccReceive_corrected (by rw [if_neg Bool.false_ne_true, BitVec.xor_zero]; exact hc.1))
  have ht : r true = _ := (hr true).trans (eccReceive_poisonBit (by rw [if_pos rfl]; exact hc.2))
  rw [hf, ht]
  exact ⟨rfl, hd, rfl, hd⟩

/-- An ordinary word is uncorrectable when its mask's difference is. -/
theorem Memory.cw_uncorrectable {k : BitVec 144} (hk : eccCheck (maskSyn k) = .uncorrectable) :
    ((m.putCw cw x false (some k)).cw cw).cls = .uncorrectable := by
  rw [Memory.cw_putCw_mask hx h, eccReceive_cls]
  exact (congrArg eccCheck BitVec.xor_zero).trans hk

/-- Two to eight bad bits in one aligned byte of an ordinary word. -/
theorem Memory.cw_badByte {j : Nat} (hj : j < 18) {v : Byte} (hv : 2 ≤ popcount8 v) :
    ((m.putCw cw x false (some (byteMask j v))).cw cw).cls = .uncorrectable :=
  Memory.cw_uncorrectable h hx (by rw [maskSyn_byteMask hj]; exact eccCheck_byte hj hv)

/-- Two bad bits of one aligned byte are a bad byte; those of two are told by the parities of the check bytes. -/
theorem Memory.cw_twoBits {a b : Nat} (ha : a < 144) (hb : b < 144) (hab : a ≠ b) :
    ((m.putCw cw x false (some (1#144 <<< a ^^^ 1#144 <<< b))).cw cw).cls = .uncorrectable := by
  have hp : a % 8 < 8 := by omega
  have hq : b % 8 < 8 := by omega
  rw [bitMask_eq a, bitMask_eq b]
  by_cases hj : a / 8 = b / 8
  · rw [hj, byteMask_xor]
    exact Memory.cw_badByte h hx (by omega) ((popcount8_twoBits _ hp _ hq).2 (by omega))
  · refine Memory.cw_uncorrectable h hx ?_
    rw [maskSyn_xor, maskSyn_byteMask (by omega), maskSyn_byteMask (by omega)]
    exact eccCheck_twoBits (by omega) (by omega) hj hp hq

end

/-- Settles O58: the difference of a mask is the sum of its bytes' differences, and each class is read off the two check bytes. -/
theorem guaranteedClassesOfCodewords : Obligations.GuaranteedClassesOfCodewords := by
  intro m cw x h hx r
  have hr : ∀ poison, r poison 0 = eccReceive x (if poison then poisonSyn else 0#16) := fun poison => by
    have h0 : maskSyn 0 = 0#16 := by decide
    have hc := Memory.cw_putCw_mask (cw := cw) hx h poison 0
    rwa [damaged_zero hx, h0, BitVec.zero_xor] at hc
  refine ⟨?_, fun b hb => Memory.cw_oneBit h hx hb, fun a ha b hb => Memory.cw_twoBits h hx ha hb,
    fun j hj v hv => Memory.cw_badByte h hx hj hv⟩
  rw [hr false, hr true]
  exact ⟨rfl, rfl, rfl, rfl⟩

end Sys2Proof.Machine
end

section
/-! SUPPORT. A codeword of device memory stored and scrubbed: the damage on its way, the word then read and the words beside it, and the
scrubbers; with the statements of the stores and of the scrubbers. -/
namespace Sys2Proof.Machine

open Sys2Proof

/-! ### What storing and scrubbing leave as they were -/

theorem Keeps.mem_eq {c s r : Bool} {d e : Device} (h : Keeps false c s r d e) : e.mem = d.mem := (h.memory rfl).1

section
variable (d : Device)

theorem Device.cwHere_mem (cw : Nat) : (d.cwHere cw).1.mem = d.mem :=
  (Device.cwHere_keeps (bc := true) (bs := true) (br := true) d cw (.refl d)).mem_eq

theorem Device.noteWord_mem (a : Nat) (x : Checked) (unit : Nat) : (d.noteWord a x unit).mem = d.mem :=
  (Device.noteWord_keeps (bc := true) (bs := true) d a x unit (.refl d)).mem_eq

theorem Device.dropBack_mem (cw : Nat) : (d.dropBack cw).mem = d.mem :=
  (Device.dropBack_keeps (bc := true) (br := true) d cw (.refl d)).mem_eq

theorem Device.flipFor_mem (a : Nat) (host : Bool) : (d.flipFor a host).2.mem = d.mem :=
  (Device.flipFor_keeps (bc := true) (bs := true) d a host (.refl d)).mem_eq

theorem Device.wireMask_mem (cw : Nat) : (d.wireMask cw).2.mem = d.mem :=
  (Device.wireMask_keeps (bc := true) (bs := true) (br := true) d cw (.refl d)).mem_eq

end

/-! ### Dead connections (R368) -/

section
variable {d : Device}

theorem Device.event_towers (v : Nat) : (d.event v).towers = d.towers := by
  unfold Device.event Device.raiseVector
  dsimp only
  split
  · split <;> rfl
  · rfl

theorem Device.modTower_dead (hd : KeysRise 0 d.towers = true) {f : Tower → Tower} (hf : ∀ x, (f x).dead = x.dead) (w t : Nat) :
    ((d.modTower w f).tower t).dead = (d.tower t).dead := by
  by_cases h : t = w
  · rw [h, Device.tower_modTower_same d hd, hf]
  · rw [Device.tower_modTower_other d h]

/-- An entry of a log leaves the connections of every tower. -/
theorem Device.log_dead (hd : KeysRise 0 d.towers = true) (w kind unit addr syn detail t : Nat) :
    ((d.log w kind unit addr syn detail).tower t).dead = (d.tower t).dead := by
  unfold Device.log
  split
  · rw [Device.tower, Device.event_towers]
    unfold Device.setLog
    split
    · refine Device.modTower_dead hd ?_ w t
      exact fun _ => rfl
    · rfl
  · rfl

theorem Device.countCe_towers (w : Nat) : (d.countCe w).towers = d.towers := by
  unfold Device.countCe; split <;> rfl

theorem Device.countUe_towers (w : Nat) : (d.countUe w).towers = d.towers := by
  unfold Device.countUe; split <;> rfl

/-- Where the towers stand as they did, so do their dead connections, also after an entry of a log. -/
theorem Device.noted_dead {e : Device} (he : e.towers = d.towers) (hd : KeysRise 0 d.towers = true) (t : Nat) :
    (e.tower t).dead = (d.tower t).dead ∧
      ∀ w kind unit addr syn detail, ((e.log w kind unit addr syn detail).tower t).dead = (d.tower t).dead := by
  have h : (e.tower t).dead = (d.tower t).dead := by rw [Device.tower, he, Device.tower]
  exact ⟨h, fun w kind unit addr syn detail => (Device.log_dead (he ▸ hd) _ _ _ _ _ _ t).trans h⟩

/-- A word noted is counted and logged, which leaves the connections. -/
theorem Device.noteWord_dead (hd : KeysRise 0 d.towers = true) (a : Nat) (x : Checked) (unit t : Nat) :
    ((d.noteWord a x unit).tower t).dead = (d.tower t).dead := by
  have hce (w : Nat) := noted_dead (countCe_towers (d := d) w) hd t
  have hue (w : Nat) := noted_dead (countUe_towers (d := d) w) hd t
  have hcount (r : Nat) := noted_dead (d := d) (e := d.count r 1) rfl hd t
  unfold Device.noteWord
  split
  case h_1 =>
    dsimp only
    split
    · split
      · exact (hce _).1
      · exact (hce _).2 _ _ _ _ _ _
    · split
      · exact (hue _).1
      · exact (hue _).2 _ _ _ _ _ _
    · rfl
  case h_2 =>
    split
    · exact (hce _).2 _ _ _ _ _ _
    · exact (hue _).2 _ _ _ _ _ _
    · rfl
    · rfl
  case h_3 =>
    dsimp only
    split
    · exact (hcount _).2 _ _ _ _ _ _
    · exact (hcount _).2 _ _ _ _ _ _
    · rfl
  case h_4 => rfl

theorem Device.dropBack_towers (cw : Nat) : (d.dropBack cw).towers = d.towers := by
  unfold Device.dropBack
  split
  · split <;> rfl
  · rfl

theorem Device.takeFlip_towers (base target sel : Nat) : (d.takeFlip base target sel).2.towers = d.towers := by
  unfold Device.takeFlip
  dsimp only
  split <;> rfl

theorem Device.flipFor_towers (a : Nat) (host : Bool) : (d.flipFor a host).2.towers = d.towers := by
  unfold Device.flipFor
  cases regionOf a with
  | dram | store | capacity => cases host <;> simp only [Device.takeFlip_towers, Bool.false_eq_true, if_false, if_true]
  | regs | hole => cases host <;> simp only [Device.takeFlip_towers, Bool.false_eq_true, if_false, if_true]

theorem Device.wireMask_none_iff {cw : Nat} :
    (d.wireMask cw).1 = none ↔ ∀ k o, regionOf (16 * cw) = .dram k o → d.chanBits k (dramPlace o).ch = [] := by
  unfold Device.wireMask
  cases regionOf (16 * cw) with
  | dram k o =>
    cases hl : d.chanBits k (dramPlace o).ch with
    | nil => simp [hl]
    | cons b r => simp [hl]
  | _ => simp

/-- The dead connections of its channel alone damage a word on its way. -/
theorem Device.wireMask_none_of_dead {e : Device} (h : ∀ t, (e.tower t).dead = (d.tower t).dead) {cw : Nat}
    (hd : (d.wireMask cw).1 = none) :
    (e.wireMask cw).1 = none := by
  have hbits (k ch : Nat) : e.chanBits k ch = d.chanBits k ch := by rw [Device.chanBits, h, Device.chanBits]
  rw [Device.wireMask_none_iff] at hd ⊢
  exact fun k o hr => (hbits _ _).trans (hd k o hr)

theorem Device.cwHere_clear {cw : Nat} (h : (d.wireMask cw).1 = none) : d.cwHere cw = (d, d.mem.cw cw) := by
  simp only [Device.cwHere, h]

end

/-! ### A codeword stored (R297) -/

theorem length_mergeBytes (old : List Byte) (part : List (Option Byte)) : (mergeBytes old part).length = 16 := by simp [mergeBytes]

/-- The bytes of a whole part hide the old word. -/
theorem mergeBytes_whole {part : List (Option Byte)} (h : wholePart part = true) (a b : List Byte) :
    mergeBytes a part = mergeBytes b part := by
  refine List.map_congr_left fun i hi => ?_
  have hi := List.all_eq_true.1 h i hi
  cases hp : part.getD i none with
  | none => rw [hp] at hi; cases hi
  | some b => rfl

section
variable (d : Device) (cw : Nat) (part : List (Option Byte)) (poison host : Bool)

/-- The device once the old word of a store has been read, where it is. -/
def Device.oldRead : Device := if wholePart part then d else (d.cwHere cw).1.noteWord (16 * cw) (d.cwHere cw).2 (unitFor (16 * cw))

/-- The damage that a stored word takes: of a flip mask, and of its channel's dead connections. -/
def Device.storeMask : Option (BitVec 144) :=
  let f := ((d.oldRead cw part).dropBack cw).flipFor (16 * cw) host
  xorMask f.1 (f.2.wireMask cw).1

/-- A store puts one codeword: the part laid over the old word as its controller gets it. -/
theorem Device.storeCw_mem : (d.storeCw cw part poison host).mem =
    d.mem.putCw cw (mergeBytes (d.cwHere cw).2.data part) (poison || (!wholePart part && (d.cwHere cw).2.bad))
      (d.storeMask cw part host) := by
  unfold Device.storeCw Device.storeMask Device.oldRead
  cases h : wholePart part with
  | true =>
    have hall : ((List.range 16).all fun i => (part.getD i none).isSome) = true := h
    rw [if_pos rfl, if_pos rfl, mergeBytes_whole h _ [], Bool.not_true, Bool.false_and, Bool.or_false]
    dsimp only
    rw [Memory.writeCw, if_pos hall, Device.wireMask_mem, Device.flipFor_mem, Device.dropBack_mem]
  | false =>
    rw [if_neg Bool.false_ne_true, if_neg Bool.false_ne_true, Bool.not_false, Bool.true_and]
    dsimp only
    rw [Device.wireMask_mem, Device.flipFor_mem, Device.dropBack_mem, Device.noteWord_mem, Device.cwHere_mem]

theorem Device.storeCw_cw_other {n : Nat} (hn : n ≠ cw) : (d.storeCw cw part poison host).mem.cw n = d.mem.cw n := by
  rw [Device.storeCw_mem]
  exact Memory.cw_putCw_other (length_mergeBytes _ _) hn _ _

theorem Device.storeCw_byte_other {a : Nat} (ha : a / 16 ≠ cw) : (d.storeCw cw part poison host).mem.byte a = d.mem.byte a := by
  rw [Device.storeCw_mem]
  exact Memory.byte_putCw_other (length_mergeBytes _ _) ha _ _

/-- Where no flip mask fires and no connection is dead, the old word is read as it stands, and the new one stored whole. -/
theorem Device.storeCw_mem_clear (hd : KeysRise 0 d.towers = true) (hw : (d.wireMask cw).1 = none)
    (hf : (((if wholePart part then d else d.noteWord (16 * cw) (d.mem.cw cw) (unitFor (16 * cw))).dropBack cw).flipFor (16 * cw) host).1 =
      none) :
    (d.storeCw cw part poison host).mem =
      d.mem.putCw cw (mergeBytes (d.mem.cw cw).data part) (poison || (!wholePart part && (d.mem.cw cw).bad)) none := by
  have hr : d.oldRead cw part = if wholePart part then d else d.noteWord (16 * cw) (d.mem.cw cw) (unitFor (16 * cw)) := by
    rw [Device.oldRead, Device.cwHere_clear hw]
  have hdead (t : Nat) : ((d.oldRead cw part).tower t).dead = (d.tower t).dead := by
    rw [hr]
    split
    · rfl
    · exact Device.noteWord_dead hd _ _ _ t
  have hmask : d.storeMask cw part host = none := by
    have hback (t : Nat) : ((((d.oldRead cw part).dropBack cw).flipFor (16 * cw) host).2.tower t).dead = (d.tower t).dead := by
      rw [Device.tower, Device.flipFor_towers, Device.dropBack_towers]
      exact hdead t
    rw [← hr] at hf
    rw [Device.storeMask, hf, Device.wireMask_none_of_dead hback hw]
    rfl
  rw [Device.storeCw_mem, hmask, Device.cwHere_clear hw]

end

theorem length_eccReceive (x : List Byte) (y : BitVec 16) : (eccReceive x y).data.length = x.length := by
  unfold eccReceive
  split
  case h_2 | h_4 => exact length_flipDataBit _ _
  all_goals rfl

/-- A word stored with no damage reads clean, or as POISON, with its data. -/
theorem eccReceive_stored (x : List Byte) (poison : Bool) :
    (eccReceive x (if poison then poisonSyn else 0#16)).data = x ∧ (eccReceive x (if poison then poisonSyn else 0#16)).bad = poison := by
  cases poison <;> exact ⟨rfl, rfl⟩

theorem getElem?_mergeBytes (old : List Byte) (part : List (Option Byte)) {i : Nat} (hi : i < 16) :
    (mergeBytes old part)[i]? = some (match part.getD i none with
      | some b => b
      | none => old.getD i 0) := by
  rw [mergeBytes, List.getElem?_map, List.getElem?_range hi]
  rfl

/-! ### A run of bytes written -/

theorem Device.writeCw_eq_storeCw (d : Device) {cw : Nat} (h : ∀ k o, regionOf (16 * cw) ≠ .store k o) (part : List (Option Byte))
    (poison host : Bool) : d.writeCw cw part poison host = d.storeCw cw part poison host := by
  unfold Device.writeCw
  split
  case h_1 k o hr => exact absurd hr (h k o)
  case h_2 => rfl

/-- A run of stores outside the base dies' stores leaves the bytes of other codewords. -/
theorem Device.byte_each_writeCw (part : Nat → List (Option Byte)) (bad : Nat → Bool) (host : Bool) {a : Nat} :
    ∀ (l : List Nat), (∀ c ∈ l, ∀ k o, regionOf (16 * c) ≠ .store k o) → a / 16 ∉ l → ∀ d : Device,
      (d.each l fun c d => d.writeCw c (part c) (bad c) host).mem.byte a = d.mem.byte a := by
  intro l
  induction l with
  | nil => exact fun _ _ _ => rfl
  | cons c r ih =>
    intro hl ha d
    rw [List.mem_cons, not_or] at ha
    refine (ih (fun c hc => hl c (List.mem_cons_of_mem _ hc)) ha.2 _).trans ?_
    show (d.writeCw c (part c) (bad c) host).mem.byte a = _
    rw [Device.writeCw_eq_storeCw d (hl c List.mem_cons_self)]
    exact d.storeCw_byte_other c _ _ _ ha.1

/-- Settles O59: a store puts one codeword, merged with the old one as it is read; a run stores codeword by codeword. -/
theorem storesChangeTheirCodewordsAlone : Obligations.StoresChangeTheirCodewordsAlone := by
  intro d hd
  have hd := (formed_iff d).1 hd
  refine ⟨?_, fun a bs bad host hl x hx => Device.byte_each_writeCw _ bad host _ hl hx d⟩
  intro cw part poison host e old
  refine ⟨fun n hn => d.storeCw_cw_other cw part poison host hn, fun hw hf => ?_⟩
  have hcw : e.mem.cw cw = eccReceive (mergeBytes old.data part) (if poison || (!wholePart part && old.bad) then poisonSyn else 0#16) := by
    rw [show e.mem = _ from d.storeCw_mem_clear cw part poison host hd.towers hw hf]
    exact Memory.cw_putCw (length_mergeBytes _ _) hd.mem _
  obtain ⟨hdata, hbad⟩ := eccReceive_stored (mergeBytes old.data part) (poison || (!wholePart part && old.bad))
  rw [hcw, hdata, hbad]
  exact ⟨fun i hi => getElem?_mergeBytes _ _ hi, rfl⟩

/-! ### A codeword scrubbed (R295, R301) -/

theorem Memory.length_cw (m : Memory) (cw : Nat) : (m.cw cw).data.length = 16 := by
  rw [Memory.cw, length_eccReceive]; simp [Memory.read]

section
variable {d : Device} {cw : Nat}

theorem Device.scrubCw_mem_dram {k o : Nat} (h : regionOf (16 * cw) = .dram k o) : (d.scrubCw cw).mem = d.mem := by
  unfold Device.scrubCw
  dsimp only
  rw [h]
  split
  · rw [Device.noteWord_mem, Device.cwHere_mem]
  · rw [Device.modChan_mem, Device.noteWord_mem, Device.cwHere_mem]

/-- Outside tower DRAM what the scrubber writes back is stored at once. -/
theorem Device.scrubCw_mem (h : ∀ k o, regionOf (16 * cw) ≠ .dram k o) :
    (d.scrubCw cw).mem = (d.mem.cw cw).back.elim d.mem fun b => d.mem.putCw cw b.1 b.2 none := by
  have hw : (d.wireMask cw).1 = none := Device.wireMask_none_iff.2 fun k o hr => absurd hr (h k o)
  unfold Device.scrubCw
  rw [Device.cwHere_clear hw]
  dsimp only
  cases (d.mem.cw cw).back with
  | none => exact d.noteWord_mem _ _ _
  | some b =>
    dsimp only
    split
    case h_1 k o hr => exact absurd hr (h k o)
    case h_2 => rw [Device.noteWord_mem]; rfl

end

theorem Checked.back_corrected {x : Checked} {b : Nat} (h : x.cls = .corrected b) : x.back = some (x.data, false) := by
  simp only [Checked.back, h]

theorem Checked.back_uncorrectable {x : Checked} (h : x.cls = .uncorrectable) : x.back = some (x.data, true) := by
  simp only [Checked.back, h]

theorem Checked.back_none {x : Checked} (h : x.cls = .clean ∨ ∃ b, x.cls = .poison b) : x.back = none := by
  rcases h with h | ⟨b, h⟩ <;> simp only [Checked.back, h]

/-- What the scrubber writes back is the word's data as read. -/
theorem Checked.back_data {x : Checked} {b : List Byte × Bool} (h : x.back = some b) : b.1 = x.data := by
  unfold Checked.back at h
  split at h <;> cases h <;> rfl

/-- Settles O20: in tower DRAM nothing is stored; elsewhere the word is stored as the scrubber writes it back, by its class. -/
theorem scrubbingCorrectsACodeword : Obligations.ScrubbingCorrectsACodeword := by
  intro d cw hd x e
  have hd := (formed_iff d).1 hd
  refine ⟨fun hr => ?_, fun ⟨k, o, hr⟩ => Device.scrubCw_mem_dram hr⟩
  have hm : e.mem = x.back.elim d.mem fun b => d.mem.putCw cw b.1 b.2 none := Device.scrubCw_mem hr
  have hback (p : Bool) (hb : x.back = some (x.data, p)) : e.mem.cw cw = eccReceive x.data (if p then poisonSyn else 0#16) := by
    rw [hm, hb]
    exact Memory.cw_putCw (d.mem.length_cw cw) hd.mem p
  refine ⟨fun b hb => ?_, fun hu => ?_, fun hc => ?_, fun n hn => ?_⟩
  · rw [hback false (Checked.back_corrected hb)]; exact ⟨rfl, rfl⟩
  · rw [hback true (Checked.back_uncorrectable hu)]; exact ⟨rfl, rfl⟩
  · rw [hm, Checked.back_none hc]; rfl
  · cases hb : x.back with
    | none => rw [hm, hb]; rfl
    | some b =>
      have hlen : b.1.length = 16 := by rw [Checked.back_data hb]; exact d.mem.length_cw cw
      rw [hm, hb]
      exact Memory.cw_putCw_other (m := d.mem) hlen hn b.2 none

/-! ### The scrubbers (R301, R302, R443) -/

section
variable {s : State} {e : Device} (h : s.dev.clocked = true)
include h

theorem does_scrubDram {site : Fin 480} {ch : Fin 8} (he : s.dev.scrubDram site ch = e) : Does (.scrubAccess (.dram site ch)) s e :=
  does_onClock (f := Device.scrubDram site ch) h rfl he

theorem does_scrubStore {half : Half} {slice : Fin 256} (he : s.dev.scrubStore (halfNum half) slice = e) :
    Does (.scrubAccess (.store half slice)) s e := does_onClock (f := Device.scrubStore (halfNum half) slice) h rfl he

theorem does_scrubLpd {ch : Fin 12} (he : s.dev.scrubLpd ch = e) : Does (.scrubAccess (.lpd ch)) s e :=
  does_onClock (f := Device.scrubLpd ch) h rfl he

end

section
variable {d : Device}

theorem Device.scrubFree_intro {site ch : Nat} (hup : d.chanUp site ch = true) (hg : d.grant site ch = .none)
    (hb : d.bankHeld site ch (dramPlace (d.nextScrub site ch)).bank = false) : d.scrubFree site ch = true := by
  simp [Device.scrubFree, hup, hg, hb]

theorem Device.scrubDram_off {site ch : Nat} (h : d.bitOf (twrReg (towerOf site) 0x301220) 0 = false) : d.scrubDram site ch = d :=
  if_neg (by simp [h])

theorem Device.scrubStore_off {half slice : Nat} (h : d.bitOf (stoReg half 0x40) 0 = false) : d.scrubStore half slice = d :=
  if_neg (by simp [h])

theorem Device.scrubLpd_off {ch : Nat} (h : d.bitOf (stoReg (ch / 6) 0x40) 0 = false) : d.scrubLpd ch = d :=
  if_neg (by simp [h])

end

/-- Settles O19: each scrubber by whether it is enabled and may read; what it does then is its meaning's own sequence. -/
theorem scrubbersReadLineByLine : Obligations.ScrubbersReadLineByLine := by
  intro s h d
  refine ⟨?dram, ?store, ?lpd, fun k ch hoff => does_scrubDram h (Device.scrubDram_off hoff),
    fun half n hoff => does_scrubStore h (Device.scrubStore_off hoff), fun ch hoff => does_scrubLpd h (Device.scrubLpd_off hoff)⟩
  case dram =>
    intro k ch hon hup hg hb
    exact does_scrubDram h (if_pos (by rw [hon, Device.scrubFree_intro hup hg hb]; rfl))
  case store =>
    intro half n hon hlost hquiet
    exact does_scrubStore h (if_pos (by rw [hon, hlost, hquiet]; rfl))
  case lpd =>
    intro ch hon hin hlost
    exact does_scrubLpd h (if_pos (by rw [hon, hin, hlost]; rfl))

end Sys2Proof.Machine
end

section
/-! SUPPORT. Every command by the clock it needs and by its operands: what it answers in every state, and when it changes nothing. -/
namespace Sys2Proof.Machine

open Sys2Proof

/-- A meaning that changes the device while what it needs runs, and leaves the queue of commands alone. -/
def State.on (k : Clocking) (f : Device → Device) (s : State) : Host.Outcome State Fault Refusal :=
  s.always fun d => if k.runs d then f d else d

/-- A command acts by some function of the device: while what it needs runs, and only if its operands name something of the part. -/
def Acts (i : Instr) : Prop := ∃ f : Device → Device, ∀ s, exec i s = s.on (clockOf i) (Device.onlyIf i.wf f)

section
variable {i : Instr} {f : Device → Device}

/-- Operands that always name something need no check. -/
theorem acts_of_wf (hw : i.wf = true) (hx : ∀ s, exec i s = s.on (clockOf i) f) : Acts i :=
  ⟨f, fun s => by rw [hx, hw]; rfl⟩

/-- The pins act on every part, powered or not. -/
theorem acts_always (hw : i.wf = true) (hc : clockOf i = .pins) (hx : ∀ s, exec i s = s.always f) : Acts i :=
  acts_of_wf hw fun s => by rw [hx, hc]; rfl

end

/-- Every command acts on the clock that clockOf names, behind the check of its operands where it has one. -/
theorem exec_acts (i : Instr) : Acts i := by
  cases i with
  | dramRequest | data | coll | ack | packetForward | packetAged | topo | assign | route | commit | startUpPhase =>
    exact ⟨_, fun _ => rfl⟩
  | hostReset | powerGood | resetRelease | coldReset | deviceReset | powerLoss | powerReturn | resetNRelease =>
    exact acts_always rfl rfl fun _ => rfl
  | scrubAccess who => cases who <;> exact acts_of_wf rfl fun _ => rfl
  | perstRelease => exact acts_always (f := fun d => { d with pins := { d.pins with perstN := true } }) rfl rfl fun _ => rfl
  | rowTimeout site ch bank =>
    exact acts_of_wf (f := fun d => d.modChan site ch fun c => c.modBank bank fun x => { x with openRow := none }) rfl fun _ => rfl
  | gafferOutcome => exact acts_of_wf (f := fun d => d.toldLength d.take.west.next) rfl fun _ => rfl
  | bridgeReplayTimeout m toEast => exact acts_of_wf (f := fun d => d.replayBridge m toEast) rfl fun _ => rfl
  | fabReplayTimeout port => exact acts_of_wf (f := fun d => d.replayFab port) rfl fun _ => rfl
  | _ => exact acts_of_wf rfl fun _ => rfl

/-- Settles O2: a command answers by its function of the device, which is not called where its clock stands, and does nothing where its
operands name nothing. -/
theorem everyCommandAnswersANextState : Obligations.EveryCommandAnswersANextState := by
  intro i s
  obtain ⟨f, hf⟩ := exec_acts i
  refine ⟨⟨_, hf s⟩, fun hw => does_always (hf s) ?_, fun hr => does_always (hf s) (if_neg (ne_true_of_eq_false hr))⟩
  rw [hw]
  exact ite_self s.dev

end Sys2Proof.Machine
end

section
/-! SUPPORT. The budget of a tower as the least of its limits, in exact fractions; and the release decision check by check. -/
namespace Sys2Proof.Machine

open Sys2Proof

/-! ### Fractions as rational numbers -/

/-- The number that a fraction stands for. -/
def Frac.val (x : Frac) : ℚ := x.num / x.d

theorem Frac.d_pos (x : Frac) : 0 < x.d := by
  unfold Frac.d
  split <;> omega

theorem Frac.le_iff_val {x y : Frac} : x.le y = true ↔ x.val ≤ y.val := by
  have hx : (0 : ℚ) < x.d := by exact_mod_cast x.d_pos
  have hy : (0 : ℚ) < y.d := by exact_mod_cast y.d_pos
  rw [Frac.val, Frac.val, div_le_div_iff₀ hx hy, Frac.le, decide_eq_true_iff]
  exact_mod_cast Iff.rfl

theorem Frac.val_ofInt (v : Int) : (Frac.ofInt v).val = v := by simp [Frac.val, Frac.ofInt, Frac.d]

/-- A fraction at most a whole number has its floor at most that number. -/
theorem Frac.floor_toNat_le {x : Frac} {n : Nat} (h : x.le (.ofInt n) = true) : x.floor.toNat ≤ n := by
  have hn : x.num ≤ n * x.d := by simpa [Frac.le, Frac.ofInt, Frac.d] using h
  rw [Int.toNat_le, Frac.floor, Int.fdiv_eq_ediv_of_nonneg _ x.d_pos.le]
  exact Int.ediv_le_of_le_mul x.d_pos hn

/-! ### The budget (R332, R333) -/

section
variable {d : Device} {t : Nat}

theorem Device.budget_forced (h : d.budgetForced t = true) : d.budget t = (0, 3) := if_pos h

/-- The limits of a tower's budget, by the code that names each. -/
def Device.limits (d : Device) (t : Nat) : List Frac := [.ofInt (d.capLimit t), d.supplyLimit t, d.thermalLimit t]

/-- The first limit that is at most the others sets an unforced budget. -/
theorem Device.budget_least (h : d.budgetForced t = false) :
    ∃ (i : Nat) (x : Frac), (d.limits t)[i]? = some x ∧ (∀ y ∈ d.limits t, x.le y = true) ∧ d.budget t = (x.floor.toNat, i) := by
  simp only [Device.budget, h, Bool.false_eq_true, if_false, Device.limits, List.forall_mem_cons, List.not_mem_nil, Bool.and_eq_true,
    Frac.le_iff_val]
  generalize Frac.ofInt (d.capLimit t) = a, d.supplyLimit t = b, d.thermalLimit t = c
  split_ifs with hcap hsupply
  · exact ⟨0, a, rfl, ⟨le_rfl, hcap.1, hcap.2, by simp⟩, rfl⟩
  · have hba : b.val ≤ a.val := (le_total _ _).resolve_left fun hab => hcap ⟨hab, hab.trans hsupply⟩
    exact ⟨1, b, rfl, ⟨hba, le_rfl, hsupply, by simp⟩, rfl⟩
  · have hcb : c.val ≤ b.val := (not_le.1 hsupply).le
    have hca : c.val ≤ a.val := (le_total _ _).resolve_left fun hac => hcap ⟨hac.trans hcb, hac⟩
    exact ⟨2, c, rfl, ⟨hca, hcb, le_rfl, by simp⟩, rfl⟩

end

/-- Settles O25: the forced budget by its definition, the other as the first of the least limits, the cap limit among them. -/
theorem budgetIsTheLowestLimit : Obligations.BudgetIsTheLowestLimit := by
  intro d t limits
  refine ⟨Device.budget_forced, fun h => ?_⟩
  obtain ⟨i, x, hi, hleast, hb⟩ := Device.budget_least h
  have hcap : x.le (.ofInt (d.capLimit t)) = true := hleast _ List.mem_cons_self
  have hlt : i < 3 := (List.getElem?_eq_some_iff.1 hi).1
  rw [hb]
  exact ⟨⟨i, x, hi, hleast, rfl⟩, Frac.floor_toNat_le hcap, Nat.le_of_lt_succ hlt⟩

/-! ### The release decision (R328) -/

theorem findIdx_eq_findIdx? {α : Type} (p : α → Bool) (l : List α) : findIdx p l = l.findIdx? p := by
  induction l with
  | nil => rfl
  | cons a r ih => simp only [findIdx, List.findIdx?_cons, ih]

section
variable {d : Device} {n : Nat} {decl : List Nat} {gates : List (List Byte)} {es : List CoreEntry} {rot : List Nat}

/-- A tower's declaration and excess pass its budget. -/
abbrev Device.overBudget (d : Device) (decl : List Nat) (t : Nat) : Prop := (d.budget t).1 < decl.getD t 0 + d.excess t

theorem findIdx_gate {i : Nat} {g : List Byte} (hi : gates[i]? = some g) (hg : d.gateOk g n = false)
    (hlow : ∀ j g', j < i → gates[j]? = some g' → d.gateOk g' n = true) : findIdx (fun g => !d.gateOk g n) gates = some i := by
  obtain ⟨hlt, hget⟩ := List.getElem?_eq_some_iff.1 hi
  rw [findIdx_eq_findIdx?, List.findIdx?_eq_some_iff_getElem]
  refine ⟨hlt, by rw [hget, hg]; rfl, fun j hj => ?_⟩
  simp [hlow j _ hj (List.getElem?_eq_getElem (hj.trans hlt))]

theorem findIdx_gate_none : findIdx (fun g => !d.gateOk g n) gates = none ↔ ∀ g ∈ gates, d.gateOk g n = true := by
  simp [findIdx_eq_findIdx?, List.findIdx?_eq_none_iff]

theorem find_overBudget {t : Nat} (ht : t < 20) (hhot : d.overBudget decl t) (hlow : ∀ t' < t, ¬ d.overBudget decl t') :
    (List.range 20).find? (fun t => d.overBudget decl t) = some t :=
  List.find?_range_eq_some.2 ⟨decide_eq_true hhot, List.mem_range.2 ht, fun j hj => by rw [decide_eq_false (hlow j hj)]; rfl⟩

theorem find_overBudget_none : (List.range 20).find? (fun t => d.overBudget decl t) = none ↔ ∀ t < 20, ¬ d.overBudget decl t := by
  simp

theorem outcomeOf_hold (h : d.bitOf (gafReg 0x10) 0 = true) : (d.outcomeOf n decl gates es rot).reason = 1 := by
  simp [Device.outcomeOf, h]

section
variable (hhold : d.bitOf (gafReg 0x10) 0 = false)
include hhold

theorem outcomeOf_clapper (h1 : d.bitOf (gafReg 0x18) 1 = false) (h2 : d.bitOf (gafReg 0x18) 2 = false)
    (h3 : d.bitOf (gafReg 0x18) 3 = false) : (d.outcomeOf n decl gates es rot).reason = 2 := by
  simp [Device.outcomeOf, hhold, h1, h2, h3]

section
variable (hclap : (d.bitOf (gafReg 0x18) 1 || d.bitOf (gafReg 0x18) 2 || d.bitOf (gafReg 0x18) 3) = true)
include hclap

theorem outcomeOf_list {h : Nat} (hl : d.lackingList n es rot = some h) :
    d.outcomeOf n decl gates es rot = { reason := 3, tower := 0, gate := 0, core := h } := by
  simp only [Device.outcomeOf, hhold, hclap, hl, Bool.not_true, Bool.false_eq_true, if_false]

section
variable (hlist : d.lackingList n es rot = none)
include hlist

theorem outcomeOf_gate {i : Nat} (hi : findIdx (fun g => !d.gateOk g n) gates = some i) :
    d.outcomeOf n decl gates es rot = { reason := 4, tower := 0, gate := i, core := 0 } := by
  simp only [Device.outcomeOf, hhold, hclap, hlist, hi, Bool.not_true, Bool.false_eq_true, if_false]

section
variable (hgates : ∀ g ∈ gates, d.gateOk g n = true)
include hgates

theorem outcomeOf_energy {t : Nat} (ht : (List.range 20).find? (fun t => d.overBudget decl t) = some t) :
    d.outcomeOf n decl gates es rot = { reason := 5, tower := t, gate := 0, core := 0 } := by
  simp only [Device.outcomeOf, hhold, hclap, hlist, findIdx_gate_none.2 hgates, ht, Bool.not_true, Bool.false_eq_true, if_false]

/-- With no tower above its budget the whole part's checks decide. -/
theorem outcomeOf_package (hcool : ∀ t < 20, ¬ d.overBudget decl t) :
    (d.outcomeOf n decl gates es rot).reason =
      if d.take.overcurrent = true ∨ d.packageOk decl = false then 6
      else if d.take.guardForced = true ∨ 64 ≤ d.take.guardRun then 7 else 0 := by
  simp only [Device.outcomeOf, hhold, hclap, hlist, findIdx_gate_none.2 hgates, find_overBudget_none.2 hcool, Bool.not_true,
    Bool.false_eq_true, if_false, Bool.or_eq_true, Bool.not_eq_true', decide_eq_true_eq, apply_ite Outcome.reason]

end
end
end
end

/-- What a released frame has passed: each check that failed would be the reason. -/
theorem outcomeOf_released (h : (d.outcomeOf n decl gates es rot).reason = 0) :
    d.bitOf (gafReg 0x10) 0 = false ∧ d.lackingList n es rot = none ∧ (∀ g ∈ gates, d.gateOk g n = true) ∧
      (∀ t < 20, ¬ d.overBudget decl t) ∧ (d.take.overcurrent = false ∧ d.packageOk decl = true) ∧
      d.take.guardForced = false ∧ d.take.guardRun < 64 := by
  have hhold : d.bitOf (gafReg 0x10) 0 = false := Bool.eq_false_of_not_eq_true fun hf => by simp [outcomeOf_hold hf] at h
  have hclap : (d.bitOf (gafReg 0x18) 1 || d.bitOf (gafReg 0x18) 2 || d.bitOf (gafReg 0x18) 3) = true := by
    by_contra hf
    obtain ⟨⟨h1, h2⟩, h3⟩ := by simpa only [Bool.not_eq_true, Bool.or_eq_false_iff] using hf
    simp [outcomeOf_clapper hhold h1 h2 h3] at h
  have hlist : d.lackingList n es rot = none :=
    Option.eq_none_iff_forall_ne_some.2 fun i hf => by simp [outcomeOf_list hhold hclap hf] at h
  have hgates : ∀ g ∈ gates, d.gateOk g n = true :=
    findIdx_gate_none.1 (Option.eq_none_iff_forall_ne_some.2 fun i hf => by simp [outcomeOf_gate hhold hclap hlist hf] at h)
  have hcool : ∀ t < 20, ¬ d.overBudget decl t :=
    find_overBudget_none.1 (Option.eq_none_iff_forall_ne_some.2 fun i hf => by
      simp [outcomeOf_energy hhold hclap hlist hgates hf] at h)
  rw [outcomeOf_package hhold hclap hlist hgates hcool] at h
  split_ifs at h with hpackage hguard
  exact ⟨hhold, hlist, hgates, hcool, by simpa using hpackage, by simpa using hguard⟩

end

/-- Settles O24: each check by its place in the order, and a release by what is left when none fails. -/
theorem releaseChecksInOrder : Obligations.ReleaseChecksInOrder := by
  intro d n decl gates es rot o
  refine ⟨outcomeOf_hold, outcomeOf_clapper, ?checks, fun h => ?released⟩
  case checks =>
    intro hhold hclap hot
    refine ⟨fun i hl => ?list, fun hlist => ⟨fun i g hi hg hlow => ?gate, fun hgates =>
      ⟨fun t ht hover hlow => ?energy, fun hcool => ?whole⟩⟩⟩
    case list => rw [show o = _ from outcomeOf_list hhold hclap hl]; exact ⟨rfl, rfl⟩
    case gate => rw [show o = _ from outcomeOf_gate hhold hclap hlist (findIdx_gate hi hg hlow)]; exact ⟨rfl, rfl⟩
    case energy => rw [show o = _ from outcomeOf_energy hhold hclap hlist hgates (find_overBudget ht hover hlow)]; exact ⟨rfl, rfl⟩
    case whole =>
      have ho : o.reason = _ := outcomeOf_package hhold hclap hlist hgates hcool
      refine ⟨fun hp => ho.trans (if_pos hp), fun hc hp => ⟨fun hg => ?_, fun hf hr => ?_⟩⟩
      · simp [ho, hc, hp, hg]
      · simp [ho, hc, hp, hf, hr]
  case released =>
    obtain ⟨hhold, hlist, hgates, hcool, ⟨hcurrent, hpackage⟩, hguard⟩ := outcomeOf_released h
    exact ⟨hhold, hlist, hgates, fun t ht => not_lt.1 (hcool t ht), hcurrent, hpackage, hguard⟩

end Sys2Proof.Machine
end

section
/-! SUPPORT. The tick and what stands around it: the sampling point, the gaffers' exchange, the clapper, the continuity rows and the landing
counters, each by its cases. -/
namespace Sys2Proof.Machine

open Sys2Proof

/-! ### The sampling point and the gaffers' exchange (R328, R377) -/

section
variable {d : Device}

section
variable {e : Device} (he : d.recordFlow.setBudgets = e)
include he

/-- Without a take that has a next frame to decide, the sampling point records flows and budgets alone. -/
theorem Device.samplingPoint_records
    (h : e.take.reel = none ∨ (e.take.state ≠ 2 ∧ e.take.starting = false) ∨ e.take.stopping = true) : d.samplingPoint = e := by
  unfold Device.samplingPoint
  rw [he]
  dsimp only
  split
  case h_1 r hr =>
    refine if_neg ?_
    rcases h with h | ⟨hs, hf⟩ | hstop
    · simp [hr] at h
    · simp [hs, hf]
    · simp [hstop]
  case h_2 => rfl

theorem Device.samplingPoint_samples {r : Reel} {j : Nat} (hr : e.take.reel = some r) (hrun : e.take.state = 2 ∨ e.take.starting = true)
    (hstop : e.take.stopping = false) (hj : r.entryIndex e.nextFrame = some j) : d.samplingPoint = e.sample r e.nextFrame j := by
  unfold Device.samplingPoint
  rw [he]
  simp [hr, hrun, hstop, hj]

end

/-- The east die told the length of the next frame that the west gaffer sent (R377; log entry 176). -/
def Device.toldNext (d : Device) : Device := d.modTake fun t => { t with east := { t.east with next := t.west.next } }

theorem Device.gafferResults_none (h : d.take.decision = none) : d.gafferResults = d := by simp [Device.gafferResults, h]

theorem Device.toldLength_none (n : Nat) (h : d.take.decision = none) : d.toldLength n = d := by simp [Device.toldLength, h]

section
variable {o : Outcome} (ho : d.take.decision = some o)
include ho

theorem Device.gafferResults_sends (h : d.take.eastResults = false) :
    d.gafferResults =
      ((d.modTake fun t => { t with eastResults := true }).emit (.serviceStream true (d.outcomeMessage o))).sendOutcome o := by
  simp only [Device.gafferResults, ho, h, Bool.false_eq_true, if_false]
  rfl

section
variable (hr : d.take.eastResults = true)
include hr

theorem Device.toldLength_results : d.toldLength d.take.west.next = d.toldNext.gafferOutcome :=
  if_pos (by simp [ho, hr])

theorem Device.toldLength_votes (h : d.take.eastOutcome = false) :
    d.toldLength d.take.west.next =
      (d.toldNext.modTake fun t => { t with eastOutcome := true }).vote (o.reason == 0 && !d.take.overcurrent && !d.cont.late) := by
  rw [Device.toldLength_results ho hr]
  simp [Device.gafferOutcome, Device.toldNext, ho, hr, h]

theorem Device.toldLength_held (h : d.take.eastOutcome = true) : d.toldLength d.take.west.next = d.toldNext := by
  rw [Device.toldLength_results ho hr]
  simp [Device.gafferOutcome, Device.toldNext, ho, h]

end
end

/-! ### The clapper (R319, R322) -/

/-- A clapper message is the next that its port's CTRL buffer gives up. -/
def Device.nextClap (d : Device) (p : Nat) (m : ClapperMsg) : Bool := d.rxNext p 4 fun k => k.kind.toNat == 0x12 && clapperOf k.payload == m

section
variable {p : Nat} {m : ClapperMsg} (x : Int)

theorem Device.clapperIn_notNext (h : d.nextClap p m = false) : d.clapperIn p m x = d := if_neg (ne_true_of_eq_false h)

theorem Device.clapperIn_next (h : d.nextClap p m = true) : d.clapperIn p m x = (d.takeHead p 4).useClapper p m x := if_pos h

theorem Device.useClapper_ignored (h : m.epoch.toNat < d.fab.epochSeen ∨ d.carries p = false) : d.useClapper p m x = d := if_pos h

theorem Device.useClapper_period (he : d.fab.epochSeen ≤ m.epoch.toNat) (hc : d.carries p = true) (hp : m.periodUs.toNat ≠ d.period) :
    d.useClapper p m x = d.setBit (gafReg 0x18) 10 := by
  have hused : ¬ (m.epoch.toNat < d.fab.epochSeen ∨ d.carries p = false) := by simp [he, hc]
  exact (if_neg hused).trans (if_pos hp)

end

theorem Device.holdoverEntry_begins (h1 : d.bitOf (gafReg 0x18) 1 = false) (h3 : d.bitOf (gafReg 0x18) 3 = false)
    (hm : 4 ≤ d.clap.missed) :
    d.holdoverEntry = ((d.setBit (gafReg 0x18) 7).setBit (gafReg 0x18) 3).setField (gafReg 0x18) 2 1 0 :=
  if_pos (by simp [h1, h3, hm])

theorem Device.holdoverEntry_early (hm : d.clap.missed < 4) : d.holdoverEntry = d := if_neg (by simp [hm])

theorem Device.holdoverExpiry_faults (h3 : d.bitOf (gafReg 0x18) 3 = true) (hs : d.take.state = 2) (hm : 69 ≤ d.clap.missed) :
    d.holdoverExpiry = d.fault 9 0 0 20 d.masterAddr 0 := if_pos (by simp [h3, hs, hm])

theorem Device.holdoverExpiry_early (hm : d.clap.missed < 69) : d.holdoverExpiry = d := if_neg (by simp [hm])

/-! ### Continuity (R353, R356, R357, R418) -/

/-- A message of continuity is the next that a port's buffer gives up. -/
def Device.nextCont (d : Device) (p : Nat) (msg : List Byte) : Bool :=
  d.rxNext p 0 fun k => k.kind.toNat == 0x20 && k.payload.take msg.length == msg

/-- The part takes a message of continuity: in its turn on the mirror port, or from no port where there is none. -/
def Device.takesCont (d : Device) (msg : List Byte) (e : Device) : Prop :=
  (d.mirrorPort = none ∧ e = d) ∨ ∃ p, d.mirrorPort = some p ∧ d.nextCont p msg = true ∧ e = d.takeHead p 0

theorem Device.contIn_takes {msg : List Byte} {e : Device} (h : d.takesCont msg e) (f : Device → Device) : d.contIn msg f = f e := by
  rcases h with ⟨hp, rfl⟩ | ⟨p, hp, hn, rfl⟩
  · simp only [Device.contIn, hp]
  · simp only [Device.contIn, hp]
    exact if_pos hn

theorem Device.contIn_waits {msg : List Byte} (h : ∃ p, d.mirrorPort = some p ∧ d.nextCont p msg = false) (f : Device → Device) :
    d.contIn msg f = d := by
  obtain ⟨p, hp, hn⟩ := h
  simp only [Device.contIn, hp]
  exact if_neg (ne_true_of_eq_false hn)

section
variable {e : Device}

theorem Device.contHello_judged {fp dg : List Byte} (h : d.takesCont (helloMessage fp dg) e) (hon : e.bitOf (svcReg 0x9100) 0 = true)
    (ht : e.inTake = false) :
    d.contHello fp dg = ({ e with cont := { e.cont with hello := some (fp, dg) } } : Device).judgeHello :=
  (Device.contIn_takes h _).trans (if_pos (by rw [hon, ht]; rfl))

theorem Device.contOutcome_held {n : Nat} {b : Bool} (h : d.takesCont (contOutcomeMessage n b) e) (hc : e.inContinuity = true) :
    d.contOutcome n b = { e with cont := { e.cont with partnerOutcome := some (n, b) } } :=
  (Device.contIn_takes h _).trans (if_pos hc)

theorem Device.contSigs_compared {n : Nat} {l : List (Nat × BitVec 64)}
    (h : d.takesCont (signatureMessage n ((List.range 480).map fun h => (h, mget 0 l h))) e) (hc : e.contOn = true) :
    d.contSigs n l = ({ e with cont := { e.cont with theirs := e.cont.theirs ++ [(n, l)] } } : Device).compareFrame n :=
  (Device.contIn_takes h _).trans (if_pos (by rw [hc]; rfl))

end

section
variable {o : Outcome} (hc : d.inContinuity = true) (ho : d.take.decision = some o)
include hc ho

theorem Device.contOutcomeMissing_late (hp : d.partnerSays = none) : d.contOutcomeMissing = d.contLate :=
  if_pos (by simp [hc, ho, hp])

theorem Device.contCompareLate_late {p : Nat × List (Nat × BitVec 64)} (hm : p ∈ d.cont.mine) (hp : p.1 + 2 ≤ d.nextFrame) :
    d.contCompareLate = d.contLate := by
  have hu : d.uncompared = true := List.any_eq_true.2 ⟨p, hm, decide_eq_true hp⟩
  exact if_pos (by simp [hc, ho, hu])

end

/-- Without a decision in continuity nothing is late. -/
theorem Device.cont_undecided (h : d.inContinuity = false ∨ d.take.decision = none) :
    d.contOutcomeMissing = d ∧ d.contCompareLate = d := by
  have hnone (late : Bool) : ¬ (d.inContinuity && d.take.decision.isSome && late) = true := by rcases h with h | h <;> simp [h]
  exact ⟨if_neg (hnone _), if_neg (hnone _)⟩

/-! ### Landing counters (R325) -/

/-- The slots of a landing counter put. -/
def Device.putSlots (d : Device) (c : Nat) (l : List (Nat × Nat)) : Device :=
  d.modTake fun t => { t with landing := mset [] t.landing c l }

/-- A new stamp among those of a counter, in its place. -/
def addSlot (stamp bytes : Nat) (l : List (Nat × Nat)) : List (Nat × Nat) :=
  (l.takeWhile fun x => decide (x.1 < stamp)) ++ [(stamp, bytes)] ++ l.dropWhile fun x => decide (x.1 < stamp)

/-- A payload that has landed taken from those to be counted. -/
def Device.unlanded (d : Device) (c stamp bytes : Nat) : Device := d.modTake fun t => { t with landed := t.landed.erase (c, stamp, bytes) }

section
variable {c stamp bytes : Nat}

theorem Device.payloadLanded_notDue (h : d.take.landed.contains (c, stamp, bytes) = false) : d.payloadLanded c stamp bytes = d :=
  if_neg (ne_true_of_eq_false h)

theorem Device.payloadLanded_due (h : d.take.landed.contains (c, stamp, bytes) = true) :
    d.payloadLanded c stamp bytes = (d.unlanded c stamp bytes).land32 c stamp bytes := if_pos h

theorem Device.land32_adds {x : Nat × Nat} (h : (mget [] d.take.landing c).find? (fun x => x.1 == stamp) = some x) :
    d.land32 c stamp bytes = (d.landSum (x.2 + bytes)).2.putSlots c
      ((mget [] d.take.landing c).map fun y => if y.1 = stamp then (y.1, (d.landSum (x.2 + bytes)).1) else y) := by
  simp only [Device.land32, h]
  rfl

section
variable (h : (mget [] d.take.landing c).find? (fun x => x.1 == stamp) = none)
include h

theorem Device.land32_takesSlot (hl : (mget [] d.take.landing c).length < 8) :
    d.land32 c stamp bytes = d.putSlots c (addSlot stamp bytes (mget [] d.take.landing c)) := by
  simp only [Device.land32, h, hl, if_true]
  rfl

section
variable {low : Nat × Nat} {r : List (Nat × Nat)} (hs : mget [] d.take.landing c = low :: r)
  (hl : 8 ≤ (mget [] d.take.landing c).length)
include hs hl

theorem Device.land32_evicts (hlow : low.1 < stamp) :
    d.land32 c stamp bytes = (d.count (gafReg 0x78) 1).putSlots c (addSlot stamp bytes r) := by
  simp only [Device.land32, h, if_neg (not_lt.2 hl)]
  rw [hs]
  exact if_pos hlow

theorem Device.land32_late (hlow : stamp ≤ low.1) : d.land32 c stamp bytes = d.count (gafReg 0x70) 1 := by
  simp only [Device.land32, h, if_neg (not_lt.2 hl)]
  rw [hs]
  exact if_neg (not_lt.2 hlow)

end
end
end
end

/-! ### The commands -/

section
variable {s : State} (h : s.dev.clocked = true) {e : Device}
include h

theorem does_gafferResults (he : s.dev.gafferResults = e) : Does .gafferResults s e := does_onClock (f := Device.gafferResults) h rfl he

theorem does_gafferOutcome (he : s.dev.toldLength s.dev.take.west.next = e) : Does .gafferOutcome s e :=
  does_onClock (f := fun d => d.toldLength d.take.west.next) h rfl he

theorem doesWhole_samplingPoint (he : s.dev.fresh.samplingPoint = e) : DoesWhole .samplingPoint s e :=
  doesWhole_onClock (f := Device.samplingPoint) h rfl he

theorem does_clapper {p : Fin 16} {m : ClapperMsg} {x : Int} (he : s.dev.clapperIn p m x = e) : Does (.clapper p m x) s e :=
  does_onClock (f := Device.clapperIn p m x) h rfl he

theorem does_holdoverEntry (he : s.dev.holdoverEntry = e) : Does .holdoverEntry s e := does_onClock (f := Device.holdoverEntry) h rfl he

theorem does_holdoverExpiry (he : s.dev.holdoverExpiry = e) : Does .holdoverExpiry s e := does_onClock (f := Device.holdoverExpiry) h rfl he

theorem does_contExchange {fp dg : List Byte} (he : s.dev.contHello fp dg = e) : Does (.contExchange fp dg) s e :=
  does_onClock (f := Device.contHello fp dg) h rfl he

theorem does_contOutcome {n : BitVec 48} {b : Bool} (he : s.dev.contOutcome n.toNat b = e) : Does (.contOutcome n b) s e :=
  does_onClock (f := Device.contOutcome n.toNat b) h rfl he

theorem does_contSignatures {n : BitVec 48} {l : List (Nat × BitVec 64)} (he : s.dev.contSigs n.toNat l = e) :
    Does (.contSignatures n l) s e := does_onClock (f := Device.contSigs n.toNat l) h rfl he

theorem does_contOutcomeMissing (he : s.dev.contOutcomeMissing = e) : Does .contOutcomeMissing s e :=
  does_onClock (f := Device.contOutcomeMissing) h rfl he

theorem does_contCompareLate (he : s.dev.contCompareLate = e) : Does .contCompareLate s e :=
  does_onClock (f := Device.contCompareLate) h rfl he

section
variable {c : Fin 512} {st : BitVec 48} {n : Nat}

theorem does_payloadLanded (he : s.dev.payloadLanded c st.toNat n = e) : Does (.payloadLanded c st n) s e :=
  does_onClock (f := Device.payloadLanded c st.toNat n) h rfl he

theorem does_payloadLanded_due (hdue : s.dev.take.landed.contains (c.val, st.toNat, n) = true)
    (he : (s.dev.unlanded c st.toNat n).land32 c st.toNat n = e) : Does (.payloadLanded c st n) s e :=
  does_payloadLanded h ((Device.payloadLanded_due hdue).trans he)

end

end

/-- Settles O23: each row by its cases, a continuity row by whether its message is taken, a landed payload by the slots of its
counter. -/
theorem ticksClapperContinuityAndLandings : Obligations.TicksClapperContinuityAndLandings := by
  refine ⟨fun s h => ⟨?tick, ⟨?records, ?samples⟩, ?results, ?outcome, ?undecided⟩,
    fun s h => ⟨?clapper, ?entry, ?noEntry, ?expiry, ?noExpiry⟩,
    fun s h => ⟨?exchange, ?partner, ?signatures, ?late, ?notLate⟩, fun s c st n h => ⟨?notDue, fun hdue => ⟨?adds, ?slot, ?full⟩⟩⟩
  case tick => exact fun m => does_onClock (f := Device.tick m) h rfl rfl
  case records => exact fun hidle => doesWhole_samplingPoint h (Device.samplingPoint_records rfl hidle)
  case samples => exact fun r j hr hrun hstop hj => doesWhole_samplingPoint h (Device.samplingPoint_samples rfl hr hrun hstop hj)
  case results => exact fun o ho hr => does_gafferResults h (Device.gafferResults_sends ho hr)
  case outcome =>
    exact fun o ho hr => ⟨fun hf => does_gafferOutcome h (Device.toldLength_votes ho hr hf),
      fun ht => does_gafferOutcome h (Device.toldLength_held ho hr ht)⟩
  case undecided =>
    exact fun ho => ⟨does_gafferResults h (Device.gafferResults_none ho), does_gafferOutcome h (Device.toldLength_none _ ho)⟩
  case clapper =>
    intro p m x next e
    have huse (hn : next = true) : s.dev.clapperIn p m x = e.useClapper p m x := Device.clapperIn_next x hn
    exact ⟨fun hn => does_clapper h (Device.clapperIn_notNext x hn), fun hn => does_clapper h (huse hn),
      fun hn hold => does_clapper h ((huse hn).trans (Device.useClapper_ignored x hold)),
      fun hn he hc hp => does_clapper h ((huse hn).trans (Device.useClapper_period x he hc hp))⟩
  case entry => exact fun h1 h3 hm => does_holdoverEntry h (Device.holdoverEntry_begins h1 h3 hm)
  case noEntry => exact fun hm => does_holdoverEntry h (Device.holdoverEntry_early hm)
  case expiry => exact fun h3 hs hm => does_holdoverExpiry h (Device.holdoverExpiry_faults h3 hs hm)
  case noExpiry => exact fun hm => does_holdoverExpiry h (Device.holdoverExpiry_early hm)
  case exchange =>
    exact fun fp dg => ⟨fun e hgot hon ht => does_contExchange h (Device.contHello_judged hgot hon ht),
      fun hlost => does_contExchange h (Device.contIn_waits hlost _)⟩
  case partner =>
    exact fun n b => ⟨fun e hgot hc => does_contOutcome h (Device.contOutcome_held hgot hc),
      fun hlost => does_contOutcome h (Device.contIn_waits hlost _)⟩
  case signatures =>
    exact fun n l => ⟨fun e hgot hc => does_contSignatures h (Device.contSigs_compared hgot hc),
      fun hlost => does_contSignatures h (Device.contIn_waits hlost _)⟩
  case late =>
    exact fun o hc ho => ⟨fun hp => does_contOutcomeMissing h (Device.contOutcomeMissing_late hc ho hp),
      fun p hm hp => does_contCompareLate h (Device.contCompareLate_late hc ho hm hp)⟩
  case notLate =>
    intro hnone
    obtain ⟨hmissing, hcompare⟩ := Device.cont_undecided hnone
    exact ⟨does_contOutcomeMissing h hmissing, does_contCompareLate h hcompare⟩
  case notDue => exact fun hn => does_payloadLanded h (Device.payloadLanded_notDue hn)
  case adds => exact fun x hx => does_payloadLanded_due h hdue (Device.land32_adds hx)
  case slot => exact fun hx hl => does_payloadLanded_due h hdue (Device.land32_takesSlot hx hl)
  case full =>
    exact fun low r hs hl hx =>
      ⟨fun hlow => does_payloadLanded_due h hdue (Device.land32_evicts (d := s.dev.unlanded c st.toNat n) hx hs hl hlow),
        fun hlow => does_payloadLanded_due h hdue (Device.land32_late hx hs hl hlow)⟩

end Sys2Proof.Machine
end

section
/-! SUPPORT. What a reset leaves, pin by pin and register by register; with the statements about resets, the fuses, the part that is held
in reset, and what each command may write. -/
namespace Sys2Proof.Machine

open Sys2Proof

/-! ### What a reset cuts short -/

/-- A device differs from another in its flash and in the count of free values alone. -/
def FlashApart (d e : Device) : Prop := ∃ x n, e = { d with flash := x, freeCtr := n }

theorem FlashApart.trans {d e f : Device} (h : FlashApart d e) (k : FlashApart e f) : FlashApart d f := by
  obtain ⟨x, n, rfl⟩ := h
  exact k

theorem Device.programFree_flashApart (d : Device) (a n : Nat) : FlashApart d (d.programFree a n) := ⟨_, _, rfl⟩

theorem Device.programRecords_flashApart (d : Device) (n : Nat) (rs : List (List Byte)) : FlashApart d (d.programRecords n rs) := ⟨_, _, rfl⟩

/-- A slate write cut short changes the flash and draws free values, and nothing else (R516). -/
theorem Device.tearWrite_flashApart (d : Device) : FlashApart d d.tearWrite := by
  unfold Device.tearWrite
  split
  · exact ⟨_, _, rfl⟩
  · have hr : FlashApart d d.draw.2 := ⟨_, _, rfl⟩
    dsimp only
    split
    · exact (hr.trans (Device.programRecords_flashApart _ _ _)).trans (Device.programFree_flashApart _ _ _)
    · exact hr.trans (Device.programRecords_flashApart _ _ _)
  · exact Device.programFree_flashApart _ _ _
  · exact Device.programFree_flashApart _ _ _
  · exact (Device.programFree_flashApart _ _ _).trans (Device.programFree_flashApart _ _ _)
  · exact Device.programFree_flashApart _ _ _
  · exact Device.programFree_flashApart _ _ _
  · exact Device.programFree_flashApart _ _ _

theorem Device.tearWrite_of_idle {d : Device} (h : d.start.writing = none) : d.tearWrite = d := by
  unfold Device.tearWrite
  simp [h]

/-- A rollback step cut short changes the fuses of that step and draws free values, and nothing else (R530). -/
theorem Device.tearFuse_eq (d : Device) : ∃ m n, d.tearFuse = { d with
    fuses := { d.fuses with steps := m }, freeCtr := n } ∧ (d.advBusy = false → m = d.fuses.steps) ∧
    (∀ i, i ≠ d.sec.advStep → mget 0 m i = mget 0 d.fuses.steps i) ∧
    ∀ b, (mget 0 d.fuses.steps d.sec.advStep).getLsbD b = true → (mget 0 m d.sec.advStep).getLsbD b = true := by
  unfold Device.tearFuse
  split
  case isFalse => exact ⟨_, _, rfl, fun _ => rfl, fun _ _ => rfl, fun _ h => h⟩
  case isTrue hb =>
    refine ⟨_, _, rfl, fun h => absurd (hb.symm.trans h) (by decide), fun i hi => mget_mset_other _ _ hi _, fun b h => ?_⟩
    have hne : mget 0 d.fuses.steps d.sec.advStep ||| d.draw.1.setWidth 3 ≠ 0 := fun h0 => by
      have := congrArg (fun x => x.getLsbD b) h0
      have h2 : (mget 0 d.fuses.steps d.sec.advStep).getLsbD b = false := by simp at this; exact this.1
      rw [h] at h2; cases h2
    rw [mget_mset_new _ _ _ hne, BitVec.getLsbD_or, h, Bool.true_or]

/-- The part with the fuses, the flash and the count of free values that a reset leaves, at reset for all else but what it keeps. -/
def Device.resetWith (d : Device) (m : SMap (BitVec 3)) (x : Memory) (n cause : Nat) : Device :=
  ({ Device.afterReset { d.fuses with steps := m } x d.hostMem with
      pins := { d.pins with
        ready := false, faultN := true, thermtripN := true, releaseDue := false, resetDue := false, inReset := true }
      kept := d.kept, out := d.out, freeCtr := n } : Device).setField (svcReg 0xA010) 0 4 cause

theorem Device.resetTo_eq (cause : Nat) (d : Device) : ∃ m x n, d.resetTo cause = d.resetWith m x n cause ∧
    (d.start.writing = none → x = d.flash) ∧ (d.advBusy = false → m = d.fuses.steps) ∧
    (∀ i, i ≠ d.sec.advStep → mget 0 m i = mget 0 d.fuses.steps i) ∧
    ∀ b, (mget 0 d.fuses.steps d.sec.advStep).getLsbD b = true → (mget 0 m d.sec.advStep).getLsbD b = true := by
  obtain ⟨x, n, hx⟩ := d.tearWrite_flashApart
  obtain ⟨m, k, hm, hf⟩ := d.tearWrite.tearFuse_eq
  refine ⟨m, x, k, ?_, fun hw => ?_, by rw [hx] at hf; exact hf⟩
  · unfold Device.resetTo
    rw [hm, hx]
    rfl
  · have := hx.symm.trans (Device.tearWrite_of_idle hw)
    exact congrArg Device.flash this

section
variable (d : Device) (m : SMap (BitVec 3)) (x : Memory) (n cause : Nat)

theorem Device.resetWith_reg_other {a : Nat} (h : a ≠ svcReg 0xA010) : (d.resetWith m x n cause).reg a = resetValue a :=
  Device.reg_setField_other _ h _ _ _

theorem Device.resetWith_cause : (d.resetWith m x n cause).fieldOf (svcReg 0xA010) 0 4 = cause % 16 :=
  Device.fieldOf_setField _ rfl _ _ _ _ (by decide)

end

theorem Device.resetTo_awake (cause : Nat) (d : Device) : (d.resetTo cause).awake = false := by
  obtain ⟨m, x, n, he, -⟩ := d.resetTo_eq cause
  rw [he]
  exact Bool.and_false _

/-- Settles O32: the part after a reset is the one of Device.resetWith, whose fuses, flash and registers are known. -/
theorem resetKeepsFusesFlashAndHostMemory : Obligations.ResetKeepsFusesFlashAndHostMemory := by
  intro d cause hc
  obtain ⟨m, x, n, he, hflash, hfuses, hother, hblown⟩ := d.resetTo_eq cause
  dsimp only
  refine ⟨?_, ?_, ?_, ?_, ?_, ?_, ?_, ?_, ?_, ?_, ?_, Device.resetTo_awake cause d, ?_⟩ <;> rw [he]
  · exact fun a ha => d.resetWith_reg_other m x n cause ha
  · exact (d.resetWith_cause m x n cause).trans (Nat.mod_eq_of_lt hc)
  · intro hb
    exact congrArg (fun y => ({ d.fuses with steps := y } : Fuses)) (hfuses hb)
  · rfl
  · exact hother
  · rfl
  · exact hblown
  · rfl
  · rfl
  · rfl
  · rfl
  · exact hflash

/-! ### The part that is held in reset -/

/-- A field takes the low bits of a value. -/
theorem Device.setField_mod (d : Device) (a lo n v : Nat) : d.setField a lo n (v % 2 ^ n) = d.setField a lo n v := by
  unfold Device.setField withField
  rw [Nat.mod_mod]

/-- A part that holds nothing but what a reset leaves: the cause alone stands in its registers. -/
theorem Device.resetTo_blank (cause : Nat) (d : Device) : (d.resetTo cause) = (d.resetTo cause).blank := by
  obtain ⟨m, x, n, he, -⟩ := d.resetTo_eq cause
  rw [he]
  unfold Device.blank
  rw [d.resetWith_cause]
  exact (Device.setField_mod _ _ _ _ _).symm

/-- What a held part keeps of its pins does not matter to the rest. -/
theorem Device.blank_withPins {d : Device} (h : d = d.blank) (p : Pins) : ({ d with pins := p } : Device) = ({ d with pins := p } : Device).blank :=
  congrArg (fun e : Device => { e with pins := p }) h

theorem Device.heldBlank_withPins {d : Device} (h : d.heldBlank) (ha : d.awake = false) (p : Pins)
    (hp : p.ready = d.pins.ready ∧ p.faultN = d.pins.faultN ∧ p.thermtripN = d.pins.thermtripN) :
    ({ d with pins := p } : Device).heldBlank := by
  obtain ⟨hb, hr, hf, ht⟩ := h ha
  obtain ⟨pr, pf, pt⟩ := hp
  exact fun _ => ⟨Device.blank_withPins hb p, pr.trans hr, pf.trans hf, pt.trans ht⟩

theorem Device.resetTo_heldBlank (cause : Nat) (d : Device) : (d.resetTo cause).heldBlank := by
  obtain ⟨m, x, n, he, -⟩ := d.resetTo_eq cause
  refine fun _ => ⟨d.resetTo_blank cause, ?_⟩
  rw [he]
  exact ⟨rfl, rfl, rfl⟩

/-- An awake part that stays awake has nothing to be blank of. -/
theorem Device.heldBlank_of_awake {d : Device} (h : d.awake = true) : d.heldBlank := fun hf => absurd (h.symm.trans hf) (by decide)

theorem Keeps.awake {m c s r : Bool} {d e : Device} (h : Keeps m c s r d e) : e.awake = d.awake := by
  unfold Device.awake
  rw [h.powered, h.inReset]

/-- Without the clocks of an awake part, nothing runs but the pins. -/
theorem Clocking.runs_of_asleep {d : Device} (h : d.awake = false) {k : Clocking} (hk : k ≠ .pins) : k.runs d = false := by
  cases k with
  | pins => exact absurd rfl hk
  | tower => simp [Clocking.runs, Device.towersRun, Device.clocked, h]
  | arithmetic => simp [Clocking.runs, Device.clocked, h]
  | service => exact h

/-- A command that is no event of the pins finds a held part inert (R479, R492). -/
theorem idles_of_asleep {i : Instr} {s : State} (h : s.dev.awake = false) (hk : clockOf i ≠ .pins) : Idles i s :=
  (everyCommandAnswersANextState i s).2.2 (Clocking.runs_of_asleep h hk)

/-- The commands that act on a held part: those of power and reset, and the two of PERST_N. -/
theorem pins_cases {i : Instr} (h : clockOf i = .pins) : movesPower i = true ∨ (∃ k, i = .hostReset k) ∨ i = .perstRelease := by
  cases i with
  | powerGood | resetRelease | coldReset | deviceReset | powerLoss | powerReturn | resetNRelease => exact .inl rfl
  | hostReset k => exact .inr (.inl ⟨k, rfl⟩)
  | perstRelease => exact .inr (.inr rfl)
  | _ => cases h

/-- On a held part HOST_RESET moves the level of PERST_N, in its PERST form, and nothing else (R438, R492). -/
theorem hostReset_of_asleep {s : State} (h : s.dev.awake = false) :
    Does (.hostReset .perst) s { s.dev with pins := { s.dev.pins with perstN := false } } ∧
      ∀ k, k ≠ .perst → Idles (.hostReset k) s := by
  have hx : ∀ k, exec (.hostReset k) s = s.always (Device.hostReset k) := fun _ => rfl
  have hp : ({ s.dev with pins := { s.dev.pins with perstN := false } } : Device).awake = false := h
  refine ⟨does_always (hx _) ?_, fun k hk => does_always (hx k) ?_⟩
  · simp [Device.hostReset, hp]
  · simp [Device.hostReset, hk, h]

/-- Settles O56: a command that is no event of the pins does nothing, and of those that are only HOST_RESET is named apart. -/
theorem heldPartIsInert : Obligations.HeldPartIsInert := by
  intro i s h
  refine ⟨fun hr hi => idles_of_asleep h fun hk => ?_, hostReset_of_asleep h⟩
  rcases pins_cases hk with hp | ⟨k, rfl⟩ | rfl
  · cases i with
    | powerGood | resetRelease | coldReset | deviceReset | powerLoss | powerReturn | resetNRelease =>
      exact hi (by simp)
    | _ => cases hp
  · exact hr k rfl
  · exact hi (by simp)

/-! ### What each command leaves of a held part -/

/-- A device whose blankness survives a change of pins that leaves READY, FAULT_N and THERMTRIP_N at their levels: it was held before,
or it is awake now. -/
theorem Device.heldBlank_pins {d : Device} (h : d.heldBlank) (p : Pins) (ha : d.awake = true → (p.powered && !p.inReset) = true)
    (hp : p.ready = d.pins.ready ∧ p.faultN = d.pins.faultN ∧ p.thermtripN = d.pins.thermtripN) :
    ({ d with pins := p } : Device).heldBlank := by
  cases hd : d.awake with
  | true => exact Device.heldBlank_of_awake (ha hd)
  | false => exact Device.heldBlank_withPins h hd p hp

theorem Device.deviceReset_heldBlank {d : Device} (h : d.heldBlank) : d.deviceReset.heldBlank := by
  unfold Device.deviceReset
  split
  · exact Device.heldBlank_withPins (Device.resetTo_heldBlank _ _) (Device.resetTo_awake _ _) _ ⟨rfl, rfl, rfl⟩
  · split
    · exact Device.heldBlank_pins h _ id ⟨rfl, rfl, rfl⟩
    · exact Device.resetTo_heldBlank _ _

theorem Device.resetRelease_heldBlank {d : Device} (h : d.heldBlank) : d.resetRelease.heldBlank := by
  unfold Device.resetRelease
  split
  · rename_i hc
    simp only [Bool.and_eq_true, Pins.mayRelease] at hc
    obtain ⟨-, ⟨⟨hp, -⟩, -⟩, -⟩ := hc
    exact Device.heldBlank_of_awake (by simp [Device.awake, hp])
  · exact h

theorem heldBlank_always {f : Device → Device} {s s' : State} (h : s.always f = .next s') (hf : (f s.dev).heldBlank) :
    s'.dev.heldBlank := by
  cases h
  exact hf

/-- The commands of power and reset move pins of a blank part, or leave it blank. -/
theorem exec_movesPower_heldBlank {i : Instr} (hi : movesPower i = true) {s s' : State} (h : exec i s = .next s')
    (hs : s.dev.heldBlank) : s'.dev.heldBlank := by
  have hp : ∀ p : Pins, (s.dev.awake = true → (p.powered && !p.inReset) = true) → p.ready = s.dev.pins.ready ∧
      p.faultN = s.dev.pins.faultN ∧ p.thermtripN = s.dev.pins.thermtripN → ({ s.dev with pins := p } : Device).heldBlank :=
    Device.heldBlank_pins hs
  cases i with
  | powerGood =>
    refine heldBlank_always (f := Device.powerGood) h ?_
    unfold Device.powerGood
    split
    · exact hs
    · exact hp _ id ⟨rfl, rfl, rfl⟩
  | resetNRelease =>
    refine heldBlank_always (f := Device.resetNRelease) h ?_
    unfold Device.resetNRelease
    split
    · exact hs
    · exact hp _ id ⟨rfl, rfl, rfl⟩
  | powerReturn =>
    refine heldBlank_always (f := Device.powerReturn) h ?_
    unfold Device.powerReturn
    split
    · exact hs
    · rename_i hw
      exact hp _ (fun ha => absurd (Bool.and_eq_true _ _ ▸ ha).1 hw) ⟨rfl, rfl, rfl⟩
  | resetRelease => exact heldBlank_always (f := Device.resetRelease) h (Device.resetRelease_heldBlank hs)
  | coldReset => exact heldBlank_always (f := Device.coldReset) h (Device.resetTo_heldBlank _ _)
  | powerLoss => exact heldBlank_always (f := Device.powerLoss) h (Device.resetTo_heldBlank _ _)
  | deviceReset => exact heldBlank_always (f := Device.deviceReset) h (Device.deviceReset_heldBlank hs)
  | _ => cases hi

/-- PERST_N moves on a held part, and every other command but those of power and reset finds it inert. -/
theorem exec_heldBlank {i : Instr} (hi : movesPower i = false) {s s' : State} (h : exec i s = .next s') (hs : s.dev.heldBlank) :
    s'.dev.heldBlank := by
  cases ha : s.dev.awake with
  | true => exact Device.heldBlank_of_awake ((exec_keeps hi h).awake.trans ha)
  | false =>
    have hd : ∀ {d : Device}, Does i s d → d.heldBlank → s'.dev.heldBlank := fun he hb => by
      cases he.symm.trans h
      exact hb
    have hpin : ∀ b, ({ s.dev with pins := { s.dev.pins with perstN := b } } : Device).heldBlank :=
      fun _ => Device.heldBlank_withPins hs ha _ ⟨rfl, rfl, rfl⟩
    by_cases hk : clockOf i = .pins
    · rcases pins_cases hk with hp | ⟨k, rfl⟩ | rfl
      · exact absurd (hp.symm.trans hi) (by decide)
      · by_cases hk : k = .perst
        · subst hk
          exact hd (hostReset_of_asleep ha).1 (hpin false)
        · exact hd ((hostReset_of_asleep ha).2 k hk) hs
      · exact hd (does_always (f := fun d => { d with pins := { d.pins with perstN := true } }) rfl rfl) (hpin true)
    · exact hd (idles_of_asleep ha hk) hs

/-- Settles O54: the clock leaves a blank part blank, and so does each command, on a held part by its pins alone. -/
theorem heldPartIsBlank : Obligations.HeldPartIsBlank := by
  intro s s' hs h
  unfold step at h
  split at h
  case h_1 =>
    cases h
    refine fun ha => ?_
    obtain ⟨hb, hpins⟩ := hs ha
    exact ⟨congrArg Device.idle hb, hpins⟩
  case h_2 c rest hq =>
    cases hi : movesPower c with
    | true => exact exec_movesPower_heldBlank hi h hs
    | false => exact exec_heldBlank hi h hs

/-! ### The fuses and the reach of each command -/

theorem Device.resetTo_fuses (cause : Nat) (d : Device) : FusesOnlyBlown d.fuses (d.resetTo cause).fuses := by
  obtain ⟨m, x, n, he, -, -, hother, hblown⟩ := d.resetTo_eq cause
  rw [he]
  refine ⟨rfl, fun i => ?_⟩
  change mget 0 m i &&& mget 0 d.fuses.steps i = _
  by_cases hi : i = d.sec.advStep
  · subst hi
    refine BitVec.eq_of_getLsbD_eq fun b _ => ?_
    rw [BitVec.getLsbD_and]
    cases hb : (mget 0 d.fuses.steps d.sec.advStep).getLsbD b with
    | false => exact Bool.and_false _
    | true => rw [hblown b hb]; rfl
  · rw [hother i hi, BitVec.and_self]

theorem FusesOnlyBlown.refl (a : Fuses) : FusesOnlyBlown a a := ⟨rfl, fun _ => BitVec.and_self⟩

theorem fusesOnlyBlown_ite {a : Fuses} {p : Prop} [Decidable p] {d e : Device} (hd : FusesOnlyBlown a d.fuses)
    (he : FusesOnlyBlown a e.fuses) : FusesOnlyBlown a (if p then d else e).fuses := by
  split <;> assumption

theorem fusesOnlyBlown_always {f : Device → Device} {s s' : State} (h : s.always f = .next s')
    (hf : FusesOnlyBlown s.dev.fuses (f s.dev).fuses) : FusesOnlyBlown s.dev.fuses s'.dev.fuses := by
  cases h
  exact hf

/-- The commands of power and reset leave the fuses alone, or cut a rollback step short. -/
theorem exec_movesPower_fuses {i : Instr} (hi : movesPower i = true) {s s' : State} (h : exec i s = .next s') :
    FusesOnlyBlown s.dev.fuses s'.dev.fuses := by
  have hrefl := FusesOnlyBlown.refl s.dev.fuses
  cases i with
  | powerGood => exact fusesOnlyBlown_always (f := Device.powerGood) h (fusesOnlyBlown_ite hrefl hrefl)
  | resetNRelease => exact fusesOnlyBlown_always (f := Device.resetNRelease) h (fusesOnlyBlown_ite hrefl hrefl)
  | powerReturn => exact fusesOnlyBlown_always (f := Device.powerReturn) h (fusesOnlyBlown_ite hrefl hrefl)
  | resetRelease => exact fusesOnlyBlown_always (f := Device.resetRelease) h (fusesOnlyBlown_ite hrefl hrefl)
  | coldReset => exact fusesOnlyBlown_always (f := Device.coldReset) h (Device.resetTo_fuses _ _)
  | powerLoss => exact fusesOnlyBlown_always (f := Device.powerLoss) h (Device.resetTo_fuses _ _)
  | deviceReset =>
    exact fusesOnlyBlown_always (f := Device.deviceReset) h
      (fusesOnlyBlown_ite (Device.resetTo_fuses (s.dev.causeOf 2) s.dev)
        (fusesOnlyBlown_ite hrefl (Device.resetTo_fuses (s.dev.causeOf 1) { s.dev with pins := { s.dev.pins with resetN := false } })))
  | _ => cases hi

/-- Settles O53: the clock leaves the fuses alone, a command of the part's logic only blows some, and a reset at most cuts a step short. -/
theorem fusesOnlyBlow : Obligations.FusesOnlyBlow := by
  intro s s' hs h
  unfold step at h
  split at h
  case h_1 =>
    cases h
    exact FusesOnlyBlown.refl _
  case h_2 c rest hq =>
    cases hi : movesPower c with
    | true =>
      have hf := exec_movesPower_fuses hi h
      exact hf
    | false =>
      obtain ⟨hsame, hblown⟩ := (exec_keeps hi h).fuses ((formed_iff _).1 hs)
      exact ⟨hsame, hblown⟩

theorem Keeps.withinReach {i : Instr} {d e : Device}
    (h : Keeps (reachOf i).memory (reachOf i).cores (reachOf i).sites (reachOf i).regs d e) : WithinReach i d e :=
  ⟨h.memory, h.cores, h.sites, h.regs⟩

theorem withinReach_always {i : Instr} {f : Device → Device} {s s' : State} (h : s.always f = .next s')
    (hf : WithinReach i s.dev (f s.dev)) : WithinReach i s.dev s'.dev := by
  cases h
  exact hf

/-- Of the commands of power and reset, those that reset may write everything, and the others move pins. -/
theorem exec_movesPower_withinReach {i : Instr} (hi : movesPower i = true) {s s' : State} (h : exec i s = .next s') :
    WithinReach i s.dev s'.dev := by
  have hpin : ∀ {i : Instr} {p : Prop} [Decidable p] (x y : Pins),
      WithinReach i s.dev (if p then { s.dev with pins := x } else { s.dev with pins := y }) := fun x y => by
    split <;> exact ⟨fun _ => ⟨rfl, rfl, rfl⟩, fun _ => rfl, fun _ => rfl, fun _ => rfl⟩
  cases i with
  | powerGood => exact withinReach_always (f := Device.powerGood) h (hpin _ _)
  | resetNRelease => exact withinReach_always (f := Device.resetNRelease) h (hpin _ _)
  | powerReturn => exact withinReach_always (f := Device.powerReturn) h (hpin _ _)
  | resetRelease => exact withinReach_always (f := Device.resetRelease) h (hpin _ _)
  | coldReset | powerLoss | deviceReset => exact ⟨nofun, nofun, nofun, nofun⟩
  | _ => cases hi

/-- Settles O57: each command by what its meaning keeps, those of power and reset apart; and none touches the queue. -/
theorem commandsStayWithinReach : Obligations.CommandsStayWithinReach := by
  intro i s s' h
  constructor
  · cases hi : movesPower i with
    | true => exact exec_movesPower_withinReach hi h
    | false => exact (exec_keeps hi h).withinReach
  · obtain ⟨⟨d, hd⟩, -⟩ := everyCommandAnswersANextState i s
    cases hd.symm.trans h
    rfl

/-- Settles O1: both halves are the two cases of the queue in the step. -/
theorem stepTakesFrontOrLetsTimePass : Obligations.StepTakesFrontOrLetsTimePass := by
  refine ⟨fun s c rest h => ?_, fun s h => ?_⟩
  · unfold step
    rw [h]
  · unfold step
    rw [h]
    rfl

/-- Settles O55: the maps and memories of the reset are empty, so every register and byte is read as unlisted, and the part is awake. -/
theorem resetMeetsTheInvariants : Obligations.ResetMeetsTheInvariants :=
  ⟨rfl, Device.heldBlank_of_awake rfl, rfl, fun _ => rfl, fun _ => ⟨rfl, rfl⟩⟩

end Sys2Proof.Machine
end

section
/-! SUPPORT. Power-good, resets, regulators and input monitors, row by row; with their statement. -/
namespace Sys2Proof.Machine

open Sys2Proof

/-! ### The pins of power and reset (R482, R484, R490) -/

section
variable {s : State}

theorem powerGood_row : (s.dev.pins.pwrgd = false → Does .powerGood s ({ s.dev with pins := { s.dev.pins with pwrgd := true } } : Device).scheduleRelease) ∧
    (s.dev.pins.pwrgd = true → Idles .powerGood s) :=
  ⟨fun h => does_always (f := Device.powerGood) rfl (if_neg (ne_true_of_eq_false h)), fun h => does_always (f := Device.powerGood) rfl (if_pos h)⟩

theorem resetNRelease_row : (s.dev.pins.resetN = false → Does .resetNRelease s ({ s.dev with pins := { s.dev.pins with resetN := true } } : Device).scheduleRelease) ∧
    (s.dev.pins.resetN = true → Idles .resetNRelease s) :=
  ⟨fun h => does_always (f := Device.resetNRelease) rfl (if_neg (ne_true_of_eq_false h)), fun h => does_always (f := Device.resetNRelease) rfl (if_pos h)⟩

theorem powerReturn_row : (s.dev.pins.powered = false → Does .powerReturn s ({ s.dev with pins := { s.dev.pins with powered := true } } : Device).scheduleRelease) ∧
    (s.dev.pins.powered = true → Idles .powerReturn s) :=
  ⟨fun h => does_always (f := Device.powerReturn) rfl (if_neg (ne_true_of_eq_false h)), fun h => does_always (f := Device.powerReturn) rfl (if_pos h)⟩

theorem resetRelease_row :
    (s.dev.pins.releaseDue = true → s.dev.pins.mayRelease = true →
      Does .resetRelease s { s.dev with pins := { s.dev.pins with releaseDue := false, inReset := false } }) ∧
    (s.dev.pins.releaseDue = false ∨ s.dev.pins.mayRelease = false → Idles .resetRelease s) := by
  refine ⟨fun hd hm => does_always (f := Device.resetRelease) rfl (if_pos (by rw [hd, hm]; rfl)),
    fun h => does_always (f := Device.resetRelease) rfl (if_neg ?_)⟩
  rcases h with h | h <;> simp [h]

theorem deviceReset_row :
    (s.dev.pins.resetDue = true → Does .deviceReset s (Device.resetTo (s.dev.causeOf 2) s.dev).scheduleRelease) ∧
    (s.dev.pins.resetDue = false → s.dev.pins.pwrgd = true → s.dev.pins.powered = true →
      Does .deviceReset s (Device.resetTo (s.dev.causeOf 1) { s.dev with pins := { s.dev.pins with resetN := false } })) ∧
    (s.dev.pins.resetDue = false → (s.dev.pins.pwrgd = false ∨ s.dev.pins.powered = false) →
      Does .deviceReset s { s.dev with pins := { s.dev.pins with resetN := false, releaseDue := false } }) := by
  refine ⟨fun h => does_always (f := Device.deviceReset) rfl (if_pos h), fun h hg hp => does_always (f := Device.deviceReset) rfl ?_,
    fun h hl => does_always (f := Device.deviceReset) rfl ?_⟩
  · unfold Device.deviceReset
    rw [if_neg (ne_true_of_eq_false h), if_neg (by simp [hg, hp])]
  · unfold Device.deviceReset
    rw [if_neg (ne_true_of_eq_false h), if_pos (by rcases hl with hl | hl <;> simp [hl])]

theorem svcReset_row (h : s.dev.awake = true) :
    Does (.svcReset 0xD505) s { s.dev with pins := { s.dev.pins with resetDue := true } } ∧
      ∀ k : BitVec 16, k ≠ 0xD505 → Idles (.svcReset k) s := by
  refine ⟨does_run h rfl (if_pos rfl), fun k hk => idles_run (f := Device.svcResetKey k.toNat) rfl h (if_neg fun he => ?_)⟩
  exact hk (BitVec.eq_of_toNat_eq he)

end

/-! ### Regulators and monitors (R485 to R489) -/

section
variable {d : Device} {t p : Nat}

/-- A failed phase out of service, with the counts of those that serve and its record for the next start (R485). -/
def Device.phaseOut (t p : Nat) (d : Device) : Device :=
  let e := d.modTower t fun x => { x with badPhases := insertAsc p x.badPhases }
  let use := (e.tower t).inService
  let c := (e.setField (twrReg t 0x303000) 8 5 use.length).setField (twrReg t 0x303000) 13 2 (use.filter fun q => decide (16 ≤ q)).length
  if c.recorded 9 (phaseTarget t p) then c else c.note 9 2 (phaseTarget t p)

/-- The phases that serve once one more has failed. -/
def Device.phasesLeft (t p : Nat) (d : Device) : Nat :=
  ((d.modTower t fun x => { x with badPhases := insertAsc p x.badPhases }).tower t).inService.length

theorem Device.phaseFailure_failed (h : (d.tower t).badPhases.contains p = true) : d.phaseFailure t p = d := if_pos h

theorem Device.phaseFailure_spare (h : (d.tower t).badPhases.contains p = false) (hs : (d.tower t).inService.contains p = false) :
    d.phaseFailure t p = d.phaseOut t p := by
  unfold Device.phaseFailure
  rw [if_neg (ne_true_of_eq_false h)]
  exact if_pos (by rw [hs]; rfl)

theorem Device.phaseFailure_replaced (h : (d.tower t).badPhases.contains p = false) (hs : (d.tower t).inService.contains p = true)
    (hn : d.phasesLeft t p = 16) : d.phaseFailure t p =
      ((d.phaseOut t p).setBit (svcReg 0xA008) 1).log (20 + halfOf t) 0x09 19 0 0 (phaseTarget t p + 9 * 2 ^ 56) := by
  unfold Device.phaseFailure
  rw [if_neg (ne_true_of_eq_false h)]
  exact (if_neg (by rw [hs]; decide)).trans (if_pos hn)

theorem Device.phaseFailure_short (h : (d.tower t).badPhases.contains p = false) (hs : (d.tower t).inService.contains p = true)
    (hn : d.phasesLeft t p ≠ 16) : d.phaseFailure t p =
      (({ d.phaseOut t p with start := { (d.phaseOut t p).start with capped := true } } : Device).setBit (svcReg 0xA008) 2).degraded
        (20 + halfOf t) 19 (3 + t * 2 ^ 8) := by
  unfold Device.phaseFailure
  rw [if_neg (ne_true_of_eq_false h)]
  exact (if_neg (by rw [hs]; decide)).trans (if_neg hn)

end

section
variable {d : Device} {t m : Nat}

theorem Device.marginHigh_cpmRaise : (d.marginHigh t).cpmRaise t = d.cpmRaise t := by
  unfold Device.marginHigh
  dsimp only
  split <;> rfl

/-- The margin of a tower that is up, stored (R486). -/
def Device.margin (t m : Nat) (d : Device) : Device := d.setField (twrReg t 0x303000) 16 8 m

/-- A margin of RAISE or more, by LOWER and by RAISE (R486, R487). -/
theorem Device.cpmSample_good (hu : d.up t = true) (h : d.cpmRaise t ≤ m) : d.cpmSample t m =
    let e := (d.margin t m).modTower t fun x => { x with lowRun := 0 }
    let f := if d.cpmLower t < m then e.marginHigh t else e.modTower t fun x => { x with highRun := 0 }
    if d.cpmRaise t < m then f.marginOk t else f.modTower t fun x => { x with okRun := 0 } := by
  unfold Device.cpmSample
  rw [if_neg (by simp [hu])]
  have hstep : ∀ f : Device, f.cpmRaise t = d.cpmRaise t →
      (if f.cpmRaise t < m then f.marginOk t else f.modTower t fun x => { x with okRun := 0 }) =
        if d.cpmRaise t < m then f.marginOk t else f.modTower t fun x => { x with okRun := 0 } := fun f hf => by rw [hf]
  refine (if_neg (Nat.not_lt.2 h)).trans (hstep _ ?_)
  split
  · exact Device.marginHigh_cpmRaise
  · rfl

theorem Device.cpmSample_low (hu : d.up t = true) (h : m < d.cpmRaise t) : d.cpmSample t m = (d.margin t m).marginLow t := by
  unfold Device.cpmSample
  rw [if_neg (by simp [hu])]
  exact if_pos h

end

/-- Settles O31: the rows of the pins by their levels, a phase by whether it served, a margin by its place, a sample by its count. -/
theorem powerResetsAndRegulators : Obligations.PowerResetsAndRegulators := by
  refine ⟨fun s => ?_, fun s h => ?_⟩
  · exact ⟨powerGood_row.1, resetNRelease_row.1, powerReturn_row.1, powerGood_row.2, resetNRelease_row.2, powerReturn_row.2,
      resetRelease_row.1, resetRelease_row.2, does_always (f := Device.coldReset) rfl rfl, does_always (f := Device.powerLoss) rfl rfl,
      deviceReset_row.1, deviceReset_row.2.1, deviceReset_row.2.2, fun h => (svcReset_row h).1, fun h => (svcReset_row h).2⟩
  · dsimp only
    refine ⟨fun t p hp => idles_run rfl h (Device.phaseFailure_failed hp), fun t p hp => ⟨fun hs => ?_, fun hs hn => ?_, fun hs hn => ?_⟩,
      fun t m hr hu => does_inTower hr rfl (if_pos (by rw [hu]; rfl)), fun t m hr hu => ?_, fun mv a => ?_⟩
    · exact does_run h rfl (Device.phaseFailure_spare hp hs)
    · exact does_run h rfl (Device.phaseFailure_replaced hp hs hn)
    · exact does_run h rfl (Device.phaseFailure_short hp hs hn)
    · refine ⟨fun hl => does_inTower hr rfl (Device.cpmSample_low hu hl), fun he hl => ?_, fun he hl => ?_, fun he hl => ?_, fun he hl => ?_⟩
        <;> refine does_inTower hr rfl ((Device.cpmSample_good hu (by omega)).trans ?_) <;> dsimp only
      · rw [if_pos hl, if_neg he.not_gt]
        rfl
      · rw [if_neg (Nat.not_lt.2 hl), if_neg he.not_gt]
        rfl
      · rw [if_pos hl, if_pos he]
        rfl
      · rw [if_neg (Nat.not_lt.2 hl), if_pos he]
        rfl
    · refine does_run h rfl ?_
      unfold Device.inputSample
      simp only [decide_eq_true_eq]
      rfl

end Sys2Proof.Machine
end

section
/-! SUPPORT. Bits of the flash, vectors that send or pend, and the marks of a layer; with their statements. -/
namespace Sys2Proof.Machine

open Sys2Proof

/-! ### The flash (R522) -/

/-- A key that a filter of keys drops stands for the default afterwards; a key that it leaves reads as it did. -/
theorem mget_filter_keys {α : Type} (v : α) (m : SMap α) (p : Nat → Bool) (i : Nat) :
    mget v (m.filter fun x => p x.1) i = if p i then mget v m i else v := by
  induction m with
  | nil => simp [mget]
  | cons x r ih =>
    obtain ⟨k, w⟩ := x
    by_cases hk : p k = true
    · rw [List.filter_cons_of_pos (p := fun x : Nat × α => p x.1) hk, mget, mget, ih]
      by_cases hi : i = k
      · rw [if_pos hi, if_pos hi, hi, if_pos hk]
      · rw [if_neg hi, if_neg hi]
    · rw [List.filter_cons_of_neg (p := fun x : Nat × α => p x.1) hk, ih, mget]
      by_cases hi : i = k
      · rw [hi, if_neg hk, if_neg hk]
      · rw [if_neg hi]

theorem Device.flashRead_one (d : Device) (x : Nat) : d.flashRead x 1 = [~~~ d.flash.byte x] := rfl

/-- A bit programmed stays 1 where it was 1 and is programmed 1 (the flash is held in complement). -/
theorem compl_or_compl (b old : Byte) : ~~~ (~~~ b ||| old) = b &&& ~~~ old := by
  refine BitVec.eq_of_getLsbD_eq fun i hi => ?_
  simp [hi]

theorem Device.byte_flashProgram {d : Device} (hd : d.flash.wf = true) (a : Nat) (bs : List Byte) {i : Nat} (h : i < bs.length) :
    (d.flashProgram a bs).flash.byte (a + i) = ~~~ bs[i] ||| d.flash.byte (a + i) := by
  have hl : i < ((bs.zip (d.flash.read a bs.length)).map fun p => ~~~ p.1 ||| p.2).length := by simpa [Memory.read] using h
  refine (Memory.byte_put hd a _ hl).trans ?_
  simp [Memory.read]

theorem Device.byte_flashProgram_outside (d : Device) (a : Nat) (bs : List Byte) {x : Nat} (h : x < a ∨ a + bs.length ≤ x) :
    (d.flashProgram a bs).flash.byte x = d.flash.byte x :=
  Memory.byte_put_outside _ _ _ (by simpa [Memory.read] using h)

theorem Device.byte_flashErase (d : Device) (a n x : Nat) :
    (d.flashErase a n).flash.byte x = if x < a ∨ a + n ≤ x then d.flash.byte x else 0 := by
  refine (mget_filter_keys 0 d.flash.bytes (fun k => decide (k < a) || decide (a + n ≤ k)) x).trans ?_
  simp only [Bool.or_eq_true, decide_eq_true_eq]
  rfl

/-- Settles O30: each byte read is the complement of the one held. -/
theorem flashBitsFallOnlyUntilErased : Obligations.FlashBitsFallOnlyUntilErased := by
  intro d a n bs hd
  have hw := ((formed_iff d).1 hd).flash
  refine ⟨fun i h => ?_, fun x h => ?_, fun x hl hu => ?_, fun x h => ?_⟩ <;> rw [Device.flashRead_one]
  · rw [Device.byte_flashProgram hw a bs h, compl_or_compl]
    rfl
  · rw [Device.byte_flashProgram_outside d a bs h]
    rfl
  · rw [Device.byte_flashErase, if_neg (by omega)]
    rfl
  · rw [Device.byte_flashErase, if_pos h]
    rfl

/-! ### Vectors (R432, R572) -/

theorem mem_insertAsc {i j : Nat} {l : List Nat} : j ∈ insertAsc i l ↔ j = i ∨ j ∈ l := by
  induction l with
  | nil => simp [insertAsc]
  | cons k r ih =>
    unfold insertAsc
    split
    · simp
    · split
      · simp_all
      · simp only [List.mem_cons, ih]
        exact or_left_comm

theorem insertAsc_insertAsc (i : Nat) (l : List Nat) : insertAsc i (insertAsc i l) = insertAsc i l := by
  induction l with
  | nil => simp [insertAsc]
  | cons k r ih =>
    by_cases hlt : i < k
    · simp [insertAsc, hlt]
    · by_cases he : i = k <;> simp [insertAsc, hlt, he, ih]

section
variable {d : Device} {v : Nat}

theorem Device.raiseVector_open (h : d.vectorOpen v = true) : d.raiseVector v = d.emit (d.msiOut v) := if_pos h

theorem Device.raiseVector_closed (h : d.vectorOpen v = false) :
    d.raiseVector v = { d with host := { d.host with pending := insertAsc v d.host.pending } } := if_neg (ne_true_of_eq_false h)

/-- A vector that pends is raised again to no effect. -/
theorem Device.raiseVector_twice (h : d.vectorOpen v = false) : (d.raiseVector v).raiseVector v = d.raiseVector v := by
  rw [Device.raiseVector_closed h]
  have hc : ({ d with host := { d.host with pending := insertAsc v d.host.pending } } : Device).vectorOpen v = false := h
  rw [Device.raiseVector_closed hc]
  dsimp only
  rw [insertAsc_insertAsc]

theorem Device.event_enabled (h : (d.setBit (svcReg 0x100) v).bitOf (svcReg 0x108) v = true) :
    d.event v = (d.setBit (svcReg 0x100) v).raiseVector v := if_pos h

theorem Device.event_disabled (h : (d.setBit (svcReg 0x100) v).bitOf (svcReg 0x108) v = false) :
    d.event v = d.setBit (svcReg 0x100) v := if_neg (ne_true_of_eq_false h)

end

/-- Settles O43: an event raises its vector when enabled, which sends or pends. -/
theorem vectorsSendOrPend : Obligations.VectorsSendOrPend := by
  intro d v _
  refine ⟨fun he ho => ?_, fun he ho => ?_, Device.event_disabled⟩
  · rw [Device.event_enabled he, Device.raiseVector_open ho]
  · rw [Device.event_enabled he, Device.raiseVector_twice ho, Device.raiseVector_closed ho]
    exact ⟨mem_insertAsc.2 (.inl rfl), rfl, rfl⟩

/-! ### The marks of a layer (R461 to R464) -/

theorem mem_markAs {l : List Nat} {i j : Nat} {on : Bool} : j ∈ markAs l i on ↔ if j = i then on = true else j ∈ l := by
  unfold markAs
  by_cases h : j = i
  · cases on <;> simp [mem_insertAsc, h]
  · cases on <;> simp [mem_insertAsc, h]

theorem levelMark_contains (l : List Nat) (i : Nat) (v level hyst : Int) :
    levelMark (l.contains i) v level hyst = true ↔ if i ∈ l then level - hyst ≤ v else level ≤ v := by
  unfold levelMark
  by_cases h : i ∈ l <;> simp [h]

/-- An entry of a log leaves all of a tower but its log. -/
theorem Device.log_tower {α : Type} (g : Tower → α) (hg : ∀ x l, g { x with log := l } = g x) {d : Device}
    (hd : KeysRise 0 d.towers = true) (w kind unit addr syn detail t : Nat) :
    g ((d.log w kind unit addr syn detail).tower t) = g (d.tower t) := by
  unfold Device.log
  split
  · rw [Device.tower, Device.event_towers]
    unfold Device.setLog
    split
    · by_cases h : t = w
      · subst h
        exact (congrArg g (Device.tower_modTower_same d hd t _)).trans (hg _ _)
      · exact congrArg g (Device.tower_modTower_other d h _)
    · rfl
  · rfl

/-- What a warning leaves: all of a tower but its log. -/
theorem Device.warned_tower {α : Type} (g : Tower → α) (hg : ∀ x l, g { x with log := l } = g x) {d : Device}
    (hd : KeysRise 0 d.towers = true) (w l t : Nat) : g ((d.warned w l).tower t) = g (d.tower t) := by
  have hk : ((d.setBit (thmReg 0) 0).event 7).towers = d.towers := Device.event_towers 7
  refine (Device.log_tower g hg (by rw [hk]; exact hd) _ _ _ _ _ _ _).trans ?_
  rw [Device.tower, hk]
  rfl

/-- A layer's new value and its two marks (R461, R463). -/
def Tower.layerSet (d : Device) (l : Nat) (v : Int) (x : Tower) : Tower :=
  let h := levelMark (x.throttle.contains l) v (throttleLevel (decide (2 ≤ l))) (hysteresis (decide (2 ≤ l)))
  { x with
    layer := mset noReading x.layer l v
    warn := markAs x.warn l (levelMark (x.warn.contains l) v (d.warnLevel (decide (2 ≤ l))) (hysteresis (decide (2 ≤ l))))
    throttle := markAs x.throttle l h
    throttleIn := if h then (if x.throttle.contains l then x.throttleIn else mset noReading x.throttleIn l v)
                  else mset noReading x.throttleIn l noReading }

/-- Of a tower but for its log, a new value of a layer leaves that. -/
theorem Device.setLayer_tower {α : Type} (g : Tower → α) (hg : ∀ x l, g { x with log := l } = g x) {d : Device}
    (hd : KeysRise 0 d.towers = true) {t l : Nat} {v : Int} (hv : (d.tower t).value l = some v) :
    g ((d.setLayer t l).tower t) = g ((d.tower t).layerSet d l v) := by
  have hset : (d.modTower t (Tower.layerSet d l v)).tower t = (d.tower t).layerSet d l v := Device.tower_modTower_same d hd t _
  unfold Device.setLayer
  simp only [hv]
  split
  · exact (Device.warned_tower g hg (KeysRise.mset _ hd (Nat.zero_le _) _) _ _ _).trans (congrArg g hset)
  · exact congrArg g hset

/-- Settles O34: the tower takes the layer's value and marks, and a warning adds to its log alone. -/
theorem layerMarksHaveHysteresis : Obligations.LayerMarksHaveHysteresis := by
  intro d t l v hd _ hv hne
  have ht := ((formed_iff d).1 hd).towers
  have hlayer := Device.setLayer_tower Tower.layer (fun _ _ => rfl) ht hv
  have hwarn := Device.setLayer_tower Tower.warn (fun _ _ => rfl) ht hv
  have hthr := Device.setLayer_tower Tower.throttle (fun _ _ => rfl) ht hv
  dsimp only
  rw [hlayer, hwarn, hthr]
  unfold Tower.layerSet
  refine ⟨mget_mset_new _ _ _ hne, ?_, ?_, fun m hm => ⟨?_, ?_⟩⟩
  · rw [mem_markAs, if_pos rfl, levelMark_contains]
  · rw [mem_markAs, if_pos rfl, levelMark_contains]
  · rw [mem_markAs, if_neg hm]
  · rw [mem_markAs, if_neg hm]

end Sys2Proof.Machine
end

section
/-! SUPPORT. The place that an event takes in a log, and what a fault records and counts; with their statements. -/
namespace Sys2Proof.Machine

open Sys2Proof

/-! ### Places of a log (R554) -/

section
variable {α : Type}

/-- A key stands for the default or is listed with what it stands for. -/
theorem mget_mem_or_default (v : α) (m : SMap α) (i : Nat) : mget v m i = v ∨ (i, mget v m i) ∈ m := by
  induction m with
  | nil => exact .inl rfl
  | cons x r ih =>
    obtain ⟨k, w⟩ := x
    rw [mget]
    split
    case isTrue h => exact .inr (by simp [h])
    case isFalse h => exact ih.imp id (List.mem_cons_of_mem _)

theorem KeysRise.le_key {lo : Nat} {m : SMap α} (hm : KeysRise lo m = true) {x : Nat × α} (hx : x ∈ m) : lo ≤ x.1 := by
  induction m generalizing lo with
  | nil => cases hx
  | cons y r ih =>
    obtain ⟨k, w⟩ := y
    rw [KeysRise.cons_iff] at hm
    rcases List.mem_cons.1 hx with rfl | hr
    · exact hm.1
    · have := ih hm.2 hr
      omega

/-- A listed key stands for its entry. -/
theorem mget_of_mem (v : α) {lo : Nat} {m : SMap α} (hm : KeysRise lo m = true) {x : Nat × α} (hx : x ∈ m) : mget v m x.1 = x.2 := by
  induction m generalizing lo with
  | nil => cases hx
  | cons y r ih =>
    obtain ⟨k, w⟩ := y
    rw [KeysRise.cons_iff] at hm
    rcases List.mem_cons.1 hx with rfl | hr
    · exact if_pos rfl
    · have hlt := KeysRise.le_key hm.2 hr
      exact (if_neg (by omega)).trans (ih hm.2 hr)

/-- A step that keeps the entry held or takes the next, whichever has the larger key. -/
def KeepsLarger (key : α → Nat) (f : Option α → α → Option α) : Prop :=
  ∀ p, f none p = some p ∧ ∀ q, (f (some q) p = some q ∧ key p ≤ key q) ∨ (f (some q) p = some p ∧ key q ≤ key p)

theorem foldl_keepsLarger_some {key : α → Nat} {f : Option α → α → Option α} (hf : KeepsLarger key f) (l : List α) (a : α) :
    ∃ q, l.foldl f (some a) = some q ∧ (q = a ∨ q ∈ l) ∧ key a ≤ key q ∧ ∀ x ∈ l, key x ≤ key q := by
  induction l generalizing a with
  | nil => exact ⟨a, rfl, .inl rfl, le_rfl, by simp⟩
  | cons p r ih =>
    rw [List.foldl_cons]
    rcases (hf p).2 a with ⟨h, hle⟩ | ⟨h, hle⟩ <;> rw [h]
    · obtain ⟨q, hq, hm, ha, hr⟩ := ih a
      exact ⟨q, hq, hm.imp id (List.mem_cons_of_mem _), ha, List.forall_mem_cons.2 ⟨hle.trans ha, hr⟩⟩
    · obtain ⟨q, hq, hm, ha, hr⟩ := ih p
      exact ⟨q, hq, .inr (List.mem_cons.2 hm), hle.trans ha, List.forall_mem_cons.2 ⟨ha, hr⟩⟩

/-- Such a fold over a list gives nothing for an empty one, and else an entry whose key none exceeds. -/
theorem foldl_keepsLarger {key : α → Nat} {f : Option α → α → Option α} (hf : KeepsLarger key f) (l : List α) :
    (l.foldl f none = none ∧ l = []) ∨ ∃ q, l.foldl f none = some q ∧ q ∈ l ∧ ∀ x ∈ l, key x ≤ key q := by
  cases l with
  | nil => exact .inl ⟨rfl, rfl⟩
  | cons p r =>
    obtain ⟨q, hq, hm, hp, hr⟩ := foldl_keepsLarger_some hf r p
    rw [List.foldl_cons, (hf p).1]
    exact .inr ⟨q, hq, List.mem_cons.2 hm, List.forall_mem_cons.2 ⟨hp, hr⟩⟩

end

section
variable {l : Log}

/-- The entry at a position. -/
def Log.at (l : Log) (i : Nat) : LogEntry := mget LogEntry.reset l.entries i

/-- The older of two entries, the first of equals. -/
def Log.elder (l : Log) (a : Option (Nat × LogEntry)) (p : Nat × LogEntry) : Option (Nat × LogEntry) :=
  match a with
  | none => some p
  | some q => if l.age q.2 < l.age p.2 then some p else some q

theorem Log.oldest_eq (l : Log) (c : Nat) :
    l.oldest c = ((l.entries.filter fun p => p.2.cls == c).foldl l.elder none).map (·.1) := rfl

theorem Log.elder_keepsLarger (l : Log) : KeepsLarger (fun p => l.age p.2) l.elder := by
  refine fun p => ⟨rfl, fun q => ?_⟩
  unfold Log.elder
  dsimp only
  split
  case isTrue h => exact .inr ⟨rfl, h.le⟩
  case isFalse h => exact .inl ⟨rfl, Nat.not_lt.1 h⟩

/-- A class has no entry, or the oldest of its entries. -/
theorem Log.oldest_cases (l : Log) (c : Nat) :
    (l.oldest c = none ∧ ∀ x ∈ l.entries, x.2.cls ≠ c) ∨
      ∃ x ∈ l.entries, l.oldest c = some x.1 ∧ x.2.cls = c ∧ ∀ y ∈ l.entries, y.2.cls = c → l.age y.2 ≤ l.age x.2 := by
  have hmem : ∀ x, x ∈ l.entries.filter (fun p => p.2.cls == c) ↔ x ∈ l.entries ∧ x.2.cls = c := by simp
  rw [Log.oldest_eq]
  rcases foldl_keepsLarger l.elder_keepsLarger (l.entries.filter fun p => p.2.cls == c) with ⟨hn, he⟩ | ⟨q, hq, hm, hmax⟩
  · exact .inl ⟨congrArg (Option.map (·.1)) hn, fun x hx hc => by simpa [he] using (hmem x).2 ⟨hx, hc⟩⟩
  · obtain ⟨hin, hc⟩ := (hmem q).1 hm
    exact .inr ⟨q, hin, congrArg (Option.map (·.1)) hq, hc, fun y hy hyc => hmax y ((hmem y).2 ⟨hy, hyc⟩)⟩

theorem Log.free_cases (l : Log) : (l.free = none ∧ ∀ i < 256, (l.at i).kind ≠ 0) ∨ ∃ i, l.free = some i ∧ i < 256 ∧ (l.at i).kind = 0 := by
  cases h : l.free with
  | none => exact .inl ⟨rfl, fun i hi => by simpa [Log.at] using (List.find?_eq_none.1 h) i (List.mem_range.2 hi)⟩
  | some i =>
    refine .inr ⟨i, rfl, List.mem_range.1 (List.mem_of_find?_eq_some h), ?_⟩
    simpa [Log.at] using List.find?_some h

/-- Whether an entry is of an event's KIND, UNIT and ADDR. -/
def LogEntry.Same (kind unit addr : Nat) (e : LogEntry) : Prop := e.kind = kind ∧ e.unit = unit ∧ e.addr = addr

/-- How an event's place is chosen (R554): its equal entry; else a free position; else the oldest of class 0, else of class 1; else none. -/
inductive Log.Chosen (l : Log) (kind unit addr : Nat) : Option (Nat × Nat) → Prop
  | equal {x : Nat × LogEntry} (hx : x ∈ l.entries) (hs : x.2.Same kind unit addr) :
      Chosen l kind unit addr (some (x.1, min (2 ^ 32 - 1) (x.2.count + 1)))
  | free {i : Nat} (hn : ∀ x ∈ l.entries, ¬ x.2.Same kind unit addr) (hlt : i < 256) (hi : (l.at i).kind = 0) : Chosen l kind unit addr (some (i, 1))
  | oldest {x : Nat × LogEntry} (hn : ∀ x ∈ l.entries, ¬ x.2.Same kind unit addr) (hf : ∀ i < 256, (l.at i).kind ≠ 0)
      (hx : x ∈ l.entries) (hc : x.2.cls < 2)
      (hmin : ∀ y ∈ l.entries, x.2.cls ≤ y.2.cls ∧ (y.2.cls = x.2.cls → l.age y.2 ≤ l.age x.2)) :
      Chosen l kind unit addr (some (x.1, 1))
  | dropped (hf : ∀ i < 256, (l.at i).kind ≠ 0) (hc : ∀ y ∈ l.entries, 2 ≤ y.2.cls) : Chosen l kind unit addr none

theorem Log.place_chosen (l : Log) (kind unit addr : Nat) : l.Chosen kind unit addr (l.place kind unit addr) := by
  unfold Log.place
  split
  case h_1 x hx =>
    refine .equal (List.mem_of_find?_eq_some hx) ?_
    have := List.find?_some hx
    simp only [Bool.and_eq_true, beq_iff_eq] at this
    exact ⟨this.1.1, this.1.2, this.2⟩
  case h_2 hx =>
    have hn : ∀ x ∈ l.entries, ¬ x.2.Same kind unit addr := fun x hm hs => by
      obtain ⟨hk, hu, ha⟩ := hs
      simpa [hk, hu, ha] using List.find?_eq_none.1 hx x hm
    rcases l.free_cases with ⟨hf, hall⟩ | ⟨i, hf, hlt, hi⟩ <;> simp only [hf]
    · rcases l.oldest_cases 0 with ⟨h0, hno0⟩ | ⟨x, hx, h0, hc, hold⟩ <;> simp only [h0]
      · rcases l.oldest_cases 1 with ⟨h1, hno1⟩ | ⟨x, hx, h1, hc, hold⟩ <;> simp only [h1]
        · refine .dropped hall fun y hy => ?_
          have := hno0 y hy
          have := hno1 y hy
          omega
        · refine .oldest hn hall hx (by omega) fun y hy => ⟨?_, fun h => hold y hy (h.trans hc)⟩
          have := hno0 y hy
          omega
      · exact .oldest hn hall hx (by omega) fun y hy => ⟨by omega, fun h => hold y hy (h.trans hc)⟩
    · exact .free hn hlt hi

/-- A position with a kind holds an entry of the list. -/
theorem Log.at_mem {i : Nat} (h : (l.at i).kind ≠ 0) : (i, l.at i) ∈ l.entries := by
  refine (mget_mem_or_default LogEntry.reset l.entries i).resolve_left fun h0 => h ?_
  exact congrArg LogEntry.kind h0

end

/-- Settles O60: the place is one of Log.Chosen, and the event is written there. -/
theorem logEntriesTakeTheirPlaces : Obligations.LogEntriesTakeTheirPlaces := by
  intro l kind unit addr syn detail frame hk hne
  have hat : ∀ x ∈ l.entries, l.at x.1 = x.2 := fun x hx => mget_of_mem _ hk hx
  have hch := l.place_chosen kind unit addr
  have hsame : ∀ {i}, (l.at i).Same kind unit addr → (i, l.at i) ∈ l.entries := fun hs => Log.at_mem (hs.1.trans_ne hne)
  unfold Log.write
  dsimp only
  generalize l.place kind unit addr = o at hch
  refine ⟨fun h => ?_, fun m h => ?_⟩
  · cases hch with
    | dropped hf hc => exact fun i hi => ⟨hf i hi, hc _ (Log.at_mem (hf i hi))⟩
    | _ => cases h
  · cases o with
    | none => cases h
    | some pc =>
      obtain ⟨p, c⟩ := pc
      obtain rfl := Option.some.inj h
      refine ⟨p, fun i hi => mget_mset_other _ _ hi _, ?_⟩
      rw [mget_mset_same LogEntry.reset hk p]
      refine ⟨⟨rfl, rfl, rfl⟩, rfl, rfl, rfl, rfl, rfl, rfl, fun ⟨i, hi⟩ => ?_, fun hno => ?_⟩
      · cases hch with
        | @equal x hx hs => exact ⟨by rw [show mget _ _ x.1 = x.2 from hat x hx]; exact hs, by rw [show mget _ _ x.1 = x.2 from hat x hx]⟩
        | free hn _ _ => exact absurd hi (hn _ (hsame hi))
        | oldest hn _ _ _ _ => exact absurd hi (hn _ (hsame hi))
      · cases hch with
        | @equal x hx hs => exact absurd (by rw [show mget _ _ x.1 = x.2 from hat x hx]; exact hs) (hno x.1)
        | free _ hlt hi => exact ⟨rfl, fun _ => hi, fun hall => absurd hi (hall p hlt)⟩
        | @oldest x _ hf hx hc hmin =>
          rw [show mget _ _ x.1 = x.2 from hat x hx]
          exact ⟨rfl, fun ⟨i, hi, h0⟩ => absurd h0 (hf i hi), fun _ => ⟨hc, hmin⟩⟩

/-! ### Faults (R384, R556, R557, R561) -/

/-- The log entry of a fault that takes the record, where the one it outranks had an entry. -/
def Device.enterSlot (d : Device) (o : Option Log) : Device :=
  match o with
  | some l => d.setLog d.mainLog l
  | none => d

theorem Device.reg_enterSlot (d : Device) (o : Option Log) (a : Nat) : (d.enterSlot o).reg a = d.reg a := by
  cases o with
  | none => rfl
  | some l => exact Device.reg_setLog d _ _

section
variable (d : Device)

theorem Device.event_take (v : Nat) : (d.event v).take = d.take := by
  unfold Device.event Device.raiseVector
  dsimp only
  split
  · split <;> rfl
  · rfl

theorem Device.setLog_take (w : Nat) (l : Log) : (d.setLog w l).take = d.take := by
  unfold Device.setLog; split <;> rfl

theorem Device.log_take (w kind unit addr syn detail : Nat) : (d.log w kind unit addr syn detail).take = d.take := by
  unfold Device.log
  split
  · rw [Device.event_take, Device.setLog_take]
  · rfl

theorem Device.undoEntry_take (n : FaultNote) : (d.undoEntry n).take = d.take := by
  unfold Device.undoEntry
  split
  · rfl
  · exact Device.setLog_take _ _ _

theorem Device.dropFaults_take : d.dropFaults.take = d.take := by
  unfold Device.dropFaults
  split
  · rfl
  · rw [Device.undoEntry_take]
    exact each_fixed (f := fun (p : Nat × W64) d => d.setReg p.1 p.2) (·.take) _ (fun _ _ => rfl) d

theorem Device.moreFault_take (cause tower home unit addr : Nat) : (d.moreFault cause tower home unit addr).take = d.take := by
  unfold Device.moreFault
  dsimp only
  split
  · rfl
  · exact Device.log_take _ _ _ _ _ _ _

theorem Device.joinLoss_take (n : FaultNote) (tower towers : Nat) : (d.joinLoss n tower towers).take = d.take := by
  unfold Device.joinLoss
  dsimp only
  split
  · rfl
  · exact Device.setLog_take _ _ _

theorem Device.setFault_take (cause tower home unit addr towers : Nat) :
    (d.setFault cause tower home unit addr towers).take = d.take := by
  rw [Device.setFault, Device.setReg_take, Device.setReg_take, Device.setReg_take]
  rfl

theorem Device.outrank_take (n : FaultNote) (cause tower home unit addr towers : Nat) :
    (d.outrank n cause tower home unit addr towers).take = d.take := by
  unfold Device.outrank
  dsimp only
  split
  · rw [Device.setLog_take, Device.setFault_take, Device.count_take, Device.setField_take, Device.dropFaults_take]
  · rw [Device.setFault_take, Device.count_take, Device.setField_take, Device.dropFaults_take]

/-- A fault is entered without a change of the take. -/
theorem Device.enterFault_take (cause tower home unit addr towers : Nat) :
    (d.enterFault cause tower home unit addr towers).take = d.take := by
  unfold Device.enterFault
  split
  · dsimp only
    split
    · exact Device.log_take _ _ _ _ _ _ _
    · exact Device.moreFault_take _ _ _ _ _ _
  · split
    · exact d.outrank_take _ _ _ _ _ _ _
    · split
      · exact d.joinLoss_take _ _ _
      · exact d.moreFault_take _ _ _ _ _

end

/-- The registers that a service-plane entry leaves alone: those below the stores', but the interrupt status. -/
theorem Device.reg_mainLog_below {a : Nat} (h : a < 0x100000) (hi : a ≠ svcReg 0x100) (d : Device) (kind unit addr syn detail : Nat) :
    (d.log d.mainLog kind unit addr syn detail).reg a = d.reg a := by
  have hs : ∀ w, 20 ≤ w → a ≠ logStatusReg w ∧ a ≠ logStatusReg w + 8 := fun w hw => by
    have hl : logStatusReg w = stoReg (w - 20) 0x50000 := if_neg (by omega)
    rw [hl]
    unfold stoReg
    omega
  have hw : 20 ≤ d.mainLog := by
    unfold Device.mainLog
    split <;> decide
  exact d.reg_log_other _ _ _ _ _ _ hi (hs _ hw).1 (hs _ hw).2

section
variable {d : Device} (cause tower home unit addr towers : Nat)

theorem Device.fieldOf_lt (d : Device) (a lo n : Nat) : d.fieldOf a lo n < 2 ^ n := field_lt _ _ _

theorem Device.regs_count (hd : KeysRise 0 d.regs = true) (a n : Nat) : KeysRise 0 (d.count a n).regs = true :=
  d.regs_setReg hd a _

/-- What SVC_FAULT holds of a fault (R557). -/
def faultWord (cause tower home unit : Nat) : Nat := 1 + cause * 2 + tower * 2 ^ 9 + home * 2 ^ 14 + unit * 2 ^ 23

theorem faultWord_lt {cause tower home unit : Nat} (h : cause < 2 ^ 8 ∧ tower < 2 ^ 5 ∧ home < 2 ^ 9 ∧ unit < 2 ^ 5) :
    faultWord cause tower home unit < 2 ^ 64 := by
  unfold faultWord
  omega

theorem Device.setFault_word (hd : KeysRise 0 d.regs = true) :
    (d.setFault cause tower home unit addr towers).reg (svcReg 0xD008) = BitVec.ofNat 64 (faultWord cause tower home unit) := by
  unfold Device.setFault
  dsimp only
  rw [Device.reg_setReg_other _ (by decide), Device.reg_setReg_other _ (by decide), Device.reg_setReg_other _ (by decide)]
  exact Device.reg_setReg_same d hd _ _

/-- SVC_FAULT_MORE is none of the registers of a record. -/
theorem Device.setFault_more : (d.setFault cause tower home unit addr towers).reg (svcReg 0xD028) = d.reg (svcReg 0xD028) := by
  unfold Device.setFault
  dsimp only
  rw [Device.reg_setReg_other _ (by decide), Device.reg_setReg_other _ (by decide), Device.reg_setReg_other _ (by decide)]
  exact Device.reg_setReg_other d (by decide) _

theorem Device.recordFault_word (hd : KeysRise 0 d.regs = true) :
    (d.recordFault cause tower home unit addr towers).reg (svcReg 0xD008) = BitVec.ofNat 64 (faultWord cause tower home unit) :=
  (Device.reg_mainLog_below (by decide) (by decide) _ _ _ _ _ _).trans (Device.setFault_word _ _ _ _ _ _ hd)

/-- A fault that is not recorded leaves SVC_FAULT and counts. -/
theorem Device.moreFault_counts (hd : KeysRise 0 d.regs = true) :
    (d.moreFault cause tower home unit addr).reg (svcReg 0xD008) = d.reg (svcReg 0xD008) ∧
      (d.moreFault cause tower home unit addr).fieldOf (svcReg 0xD028) 0 48 =
        min (2 ^ 48 - 1) (d.fieldOf (svcReg 0xD028) 0 48 + 1) := by
  have hlog : ∀ a, a < 0x100000 → a ≠ svcReg 0x100 →
      (d.moreFault cause tower home unit addr).reg a = (d.count (svcReg 0xD028) 1).reg a := fun a ha hi => by
    unfold Device.moreFault
    dsimp only
    split
    · rfl
    · exact Device.reg_mainLog_below ha hi _ _ _ _ _ _
  refine ⟨(hlog _ (by decide) (by decide)).trans (d.reg_count_other (by decide) 1), ?_⟩
  unfold Device.fieldOf
  rw [hlog _ (by decide) (by decide)]
  exact d.fieldOf_count hd _ 1

/-- A counter set and then advanced. -/
theorem Device.fieldOf_count_setField (hd : KeysRise 0 d.regs = true) (a : Nat) {m : Nat} (hm : m < 2 ^ 48) :
    ((d.setField a 0 48 m).count a 1).fieldOf a 0 48 = min (2 ^ 48 - 1) (m + 1) := by
  rw [Device.fieldOf_count _ (Device.regs_setField hd _ _ _ _), Device.fieldOf_setField _ hd _ _ _ _ (by omega), Nat.mod_eq_of_lt hm]

/-- An outranking: the first fault undone and counted, the record, and the log entry that goes with it. -/
theorem Device.outrank_eq (n : FaultNote) : ∃ o c, d.outrank n cause tower home unit addr towers =
    { (((d.dropFaults.setField (svcReg 0xD028) 0 48 (d.fieldOf (svcReg 0xD028) 0 48)).count (svcReg 0xD028) 1).setFault
        cause tower home unit addr towers).enterSlot o with cycle := c } := ⟨_, _, rfl⟩

/-- The registers of an outranking: those of the record after the count. -/
theorem Device.reg_outrank (n : FaultNote) (a : Nat) : (d.outrank n cause tower home unit addr towers).reg a =
    (((d.dropFaults.setField (svcReg 0xD028) 0 48 (d.fieldOf (svcReg 0xD028) 0 48)).count (svcReg 0xD028) 1).setFault
      cause tower home unit addr towers).reg a := by
  obtain ⟨o, c, h⟩ := d.outrank_eq cause tower home unit addr towers n
  rw [h]
  exact Device.reg_enterSlot _ o a

/-- A fault whose cause stands higher takes the record, and the other is counted. -/
theorem Device.outrank_counts (hd : Formed d) (n : FaultNote) :
    (d.outrank n cause tower home unit addr towers).reg (svcReg 0xD008) = BitVec.ofNat 64 (faultWord cause tower home unit) ∧
      (d.outrank n cause tower home unit addr towers).fieldOf (svcReg 0xD028) 0 48 =
        min (2 ^ 48 - 1) (d.fieldOf (svcReg 0xD028) 0 48 + 1) := by
  have hdrop : KeysRise 0 d.dropFaults.regs = true :=
    ((Device.dropFaults_keeps (bm := false) (bc := false) (bs := false) _ (.refl d)).formed hd).regs
  have hmore := Device.regs_setField hdrop (svcReg 0xD028) 0 48 (d.fieldOf (svcReg 0xD028) 0 48)
  constructor
  · rw [Device.reg_outrank]
    exact Device.setFault_word _ _ _ _ _ _ (Device.regs_count hmore _ _)
  · rw [Device.fieldOf, Device.reg_outrank, Device.setFault_more]
    exact Device.fieldOf_count_setField hdrop _ (d.fieldOf_lt _ _ _)

end

section
variable {d : Device} {cause tower home unit addr towers : Nat}

theorem Device.fault_none (h : d.engaged = false ∨ d.cycle.fatal = true) : d.fault cause tower home unit addr towers = d :=
  if_neg (by rcases h with h | h <;> simp [h])

section
variable (he : d.engaged = true) (hf : d.cycle.fatal = false)
include he hf

/-- A fault that counts is entered, and begins the abort of a take that has not begun it. -/
theorem Device.fault_entered : d.fault cause tower home unit addr towers =
    if d.take.state = 3 then d.enterFault cause tower home unit addr towers
    else (d.enterFault cause tower home unit addr towers).beginAbort := by
  unfold Device.fault
  rw [if_pos (by simp [he, hf])]
  dsimp only
  rw [Device.enterFault_take]

/-- The abort writes no register of the service plane. -/
theorem Device.reg_fault_below {a : Nat} (h : a < 0x10000000) :
    (d.fault cause tower home unit addr towers).reg a = (d.enterFault cause tower home unit addr towers).reg a := by
  rw [Device.fault_entered he hf]
  split
  · rfl
  · exact Device.reg_beginAbort_below _ h

end

theorem Device.enterFault_first (hn : d.cycle.fault = none) (hv : d.bitOf (svcReg 0xD008) 0 = false) :
    d.enterFault cause tower home unit addr towers = (d.noteFault cause unit addr true).recordFault cause tower home unit addr towers := by
  unfold Device.enterFault
  simp only [hn, hv]
  rfl

theorem Device.enterFault_held (hn : d.cycle.fault = none) (hv : d.bitOf (svcReg 0xD008) 0 = true) :
    d.enterFault cause tower home unit addr towers = (d.noteFault cause unit addr false).moreFault cause tower home unit addr := by
  unfold Device.enterFault
  simp only [hn, hv]
  rfl

theorem Device.enterFault_higher {n : FaultNote} (hn : d.cycle.fault = some n) (hr : n.recorded = true) (hc : cause < n.cause) :
    d.enterFault cause tower home unit addr towers = d.outrank n cause tower home unit addr towers := by
  unfold Device.enterFault
  simp [hn, hr, hc]

theorem Device.enterFault_lower {n : FaultNote} (hn : d.cycle.fault = some n) (hr : n.recorded = true) (hc : n.cause < cause) :
    d.enterFault cause tower home unit addr towers = d.moreFault cause tower home unit addr := by
  have h2 : ¬ (n.cause = 2 ∧ cause = 2) := by omega
  unfold Device.enterFault
  simp [hn, hr, Nat.not_lt.2 hc.le, h2]

end

theorem toNat_faultWord {cause tower home unit : Nat} (h : cause < 2 ^ 8 ∧ tower < 2 ^ 5 ∧ home < 2 ^ 9 ∧ unit < 2 ^ 5) :
    (BitVec.ofNat 64 (faultWord cause tower home unit)).toNat = 1 + cause * 2 + tower * 2 ^ 9 + home * 2 ^ 14 + unit * 2 ^ 23 :=
  (BitVec.toNat_ofNat _ _).trans (Nat.mod_eq_of_lt (faultWord_lt h))

/-- Settles O27: a fault is entered by what the cycle has noted, and the abort that follows writes no register of the record. -/
theorem faultsAbortTheTakeOnce : Obligations.FaultsAbortTheTakeOnce := by
  intro d cause tower home unit addr towers hd
  have hform := (formed_iff d).1 hd
  refine ⟨fun hf => ⟨fun he hs => ?_, fun hs => ?_⟩, Device.fault_none⟩
  · rw [Device.fault_entered he hf, if_neg hs]
    exact ⟨rfl, rfl, rfl, rfl⟩
  · have he : d.engaged = true := by
      rcases hs with hs | hs <;> simp [Device.engaged, hs]
    have hreg : ∀ {a}, a < 0x10000000 → (d.fault cause tower home unit addr towers).reg a =
        (d.enterFault cause tower home unit addr towers).reg a := Device.reg_fault_below he hf
    unfold Device.fieldOf
    rw [hreg (show svcReg 0xD008 < _ by decide), hreg (show svcReg 0xD028 < _ by decide)]
    refine ⟨fun hn hv hfit => ?_, fun hn hv => ?_, fun n hn hr => ⟨fun hc => ?_, fun hc hfit => ?_⟩⟩
    · rw [Device.enterFault_first hn hv, Device.recordFault_word (d := d.noteFault cause unit addr true) _ _ _ _ _ _ hform.regs]
      exact toNat_faultWord hfit
    · rw [Device.enterFault_held hn hv]
      exact Device.moreFault_counts (d := d.noteFault cause unit addr false) _ _ _ _ _ hform.regs
    · rw [Device.enterFault_lower hn hr hc]
      exact Device.moreFault_counts _ _ _ _ _ hform.regs
    · rw [Device.enterFault_higher hn hr hc]
      obtain ⟨hword, hmore⟩ := Device.outrank_counts cause tower home unit addr towers hform n
      exact ⟨(congrArg BitVec.toNat hword).trans (toNat_faultWord hfit), hmore⟩

end Sys2Proof.Machine
end

section
/-! SUPPORT. The host link, its resets and power states; host accesses, doorbells and vectors; with their statements. -/
namespace Sys2Proof.Machine

open Sys2Proof

/-! ### The link and the function's state (R425, R438, R502) -/

section
variable {d : Device} {r w : Nat}

/-- What HOST_LINK_UP needs (R425, R482). -/
def Device.LinkDue (d : Device) (r w : Nat) : Prop :=
  d.linkUp = false ∧ d.pins.perstN = true ∧ 2 ≤ d.start.phaseDone ∧ r ≤ 6 ∧ w ∈ [1, 2, 4, 8, 16]

theorem Device.hostLinkUp_guard : (d.linkUp || !d.pins.perstN || decide (d.start.phaseDone < 2) || decide (6 < r) ||
    !(([1, 2, 4, 8, 16] : List Nat).contains w)) = true ↔ ¬ d.LinkDue r w := by
  simp only [Device.LinkDue, Bool.or_eq_true, Bool.not_eq_true', decide_eq_true_eq, not_and_or, Nat.not_le, Bool.not_eq_false,
    Bool.not_eq_true, List.contains_eq_mem, decide_eq_false_iff_not, or_assoc]

theorem Device.hostLinkUp_due (h : d.LinkDue r w) : d.hostLinkUp r w = (((d.setField (hstReg 0) 0 4 r).setField (hstReg 0) 4 5 w).setField
    (hstReg 0) 9 1 (if 5 ≤ r then 1 else 0)).setBit (hstReg 0) 11 :=
  if_neg fun hg => Device.hostLinkUp_guard.1 hg h

theorem Device.hostLinkUp_notDue (h : ¬ d.LinkDue r w) : d.hostLinkUp r w = d := if_pos (Device.hostLinkUp_guard.2 h)

end

section
variable {d : Device} {q : ConfigReq}

theorem Device.configRequest_down (h : d.linkUp = false) : d.configRequest q = d := if_pos (by rw [h]; rfl)

theorem Device.configRequest_retry (h : d.linkUp = true) (ho : d.cfgOpen = false) : d.configRequest q = d.emit .requestRetry := by
  simp [Device.configRequest, h, ho]

theorem Device.configRequest_write (h : d.linkUp = true) (ho : d.cfgOpen = true) (hw : q.write = true) :
    d.configRequest q = (d.cfgWrite q.dword q.value).emit (.configCompletion none) := by
  simp [Device.configRequest, h, ho, hw]

theorem Device.configRequest_read (h : d.linkUp = true) (ho : d.cfgOpen = true) (hw : q.write = false) :
    d.configRequest q = (d.cfgRead q.dword).2.emit (.configCompletion (some (d.cfgRead q.dword).1)) := by
  simp [Device.configRequest, h, ho, hw]

theorem Device.hostReset_flr (ha : d.awake = true) (hl : d.linkUp = true) :
    d.hostReset .flr = (d.fault 10 0 0 14 0 0).resetHostSide := by
  simp [Device.hostReset, ha, hl, resetAddr]

theorem Device.hostReset_drop {k : HostResetKind} (ha : d.awake = true) (hl : d.linkUp = true) (hk : k ≠ .perst) (hf : k ≠ .flr) :
    d.hostReset k = (d.fault 10 0 0 14 (resetAddr k) 0).resetHostSide.dropLink := by
  simp [Device.hostReset, ha, hl, hk, hf]

theorem Device.hostReset_perst (ha : d.awake = true) : d.hostReset .perst =
    ((({ d with pins := { d.pins with perstN := false } } : Device).fault 10 0 0 14 2 0).resetHostSide.dropLink) := by
  have hp : ({ d with pins := { d.pins with perstN := false } } : Device).awake = true := ha
  simp [Device.hostReset, hp, resetAddr]

theorem Device.hostReset_none {k : HostResetKind} (h : d.awake = false ∨ d.linkUp = false) (hk : k ≠ .perst) : d.hostReset k = d := by
  rcases h with h | h <;> simp [Device.hostReset, h, hk]

end

/-- Settles O41: each row by the state of the link, of start-up and of the function. -/
theorem hostLinkResetsAndPowerStates : Obligations.HostLinkResetsAndPowerStates := by
  refine ⟨fun s ha => ?_, fun s => ?_⟩
  · refine ⟨fun r w => ⟨fun h => does_run ha rfl (Device.hostLinkUp_due h), fun h => idles_run rfl ha (Device.hostLinkUp_notDue h)⟩,
      fun q h => idles_run (f := Device.configRequest q) rfl ha (Device.configRequest_down h),
      fun q h ho => does_run (f := Device.configRequest q) ha rfl (Device.configRequest_retry h ho),
      fun q h ho => ⟨fun hw => does_run (f := Device.configRequest q) ha rfl (Device.configRequest_write h ho hw),
        fun hw => does_run (f := Device.configRequest q) ha rfl (Device.configRequest_read h ho hw)⟩,
      fun h hb => does_run (f := Device.enterD3) ha rfl (if_pos (by rw [h, hb]; rfl)),
      fun h => idles_run (f := Device.enterD3) rfl ha (if_neg ?_), fun h => does_run (f := Device.enterD0) ha rfl (if_pos h),
      fun h => idles_run (f := Device.enterD0) rfl ha (if_neg (ne_true_of_eq_false h))⟩
    rcases h with h | h <;> simp [h]
  · have hx : ∀ k, exec (.hostReset k) s = s.always (Device.hostReset k) := fun _ => rfl
    exact ⟨fun ha hl => ⟨does_always (hx _) (Device.hostReset_flr ha hl),
        does_always (hx _) (Device.hostReset_drop ha hl nofun nofun), does_always (hx _) (Device.hostReset_drop ha hl nofun nofun)⟩,
      fun ha => does_always (hx _) (Device.hostReset_perst ha), fun h k hk => does_always (hx k) (Device.hostReset_none h hk),
      fun ha => (hostReset_of_asleep ha).1, does_always (f := fun d => { d with pins := { d.pins with perstN := true } }) rfl rfl⟩

/-! ### Accesses of the host (R427 to R430, R566) -/

section
variable {d : Device} {bar off n : Nat} {bs : List Byte} {ep : Bool}

/-- The size of a BAR in bytes (R426); 0 where no BAR is. -/
def Device.barSize (d : Device) (b : Nat) : Nat :=
  if b = 0 then bar0Size else if b = 2 then 2 ^ d.host.bar2Log2 else if b = 4 then bar4Size else 0

theorem Device.hostRead_unreached (h : d.hostThere = false) : d.hostRead bar off n = d := if_pos (by rw [h]; rfl)

theorem Device.hostWrite_unreached (h : d.hostThere = false ∨ d.hostOpen = false) : d.hostWrite bar off bs ep = d :=
  if_pos (by rcases h with h | h <;> simp [h])

theorem Device.hostRead_closed (h : d.hostThere = true) (ho : d.hostOpen = false) :
    d.hostRead bar off n = d.emit .unsupportedRequest := by
  simp [Device.hostRead, h, ho]

section
variable (h : d.hostThere = true) (ho : d.hostOpen = true)
include h ho

/-- A read takes the BAR that has all its bytes. -/
theorem Device.hostRead_open : d.hostRead bar off n =
    if bar = 0 ∧ off + n ≤ bar0Size then d.readBar0 off n
    else if bar = 2 ∧ off + n ≤ 2 ^ d.host.bar2Log2 then d.readBar2 off n
    else if bar = 4 ∧ off + n ≤ bar4Size then d.emit (.readCompletion (d.readBar4 off n) [])
    else d.emit .unsupportedRequest := by
  unfold Device.hostRead
  rw [h, ho]
  rfl

theorem Device.hostWrite_open : d.hostWrite bar off bs ep =
    if bar = 0 ∧ off + bs.length ≤ bar0Size then d.writeBar0 off bs ep
    else if bar = 2 ∧ off + bs.length ≤ 2 ^ d.host.bar2Log2 then d.writeBar2 off bs ep
    else if bar = 4 ∧ off + bs.length ≤ bar4Size then (d.poisonIn ep).doorbellWrite off bs.length
    else d := by
  unfold Device.hostWrite
  rw [h, ho]
  rfl

theorem Device.hostRead_zero (hn : off + n ≤ bar0Size) : d.hostRead 0 off n = d.readBar0 off n := by
  rw [Device.hostRead_open h ho, if_pos ⟨rfl, hn⟩]

theorem Device.hostRead_two (hn : off + n ≤ 2 ^ d.host.bar2Log2) : d.hostRead 2 off n = d.readBar2 off n := by
  rw [Device.hostRead_open h ho, if_neg nofun, if_pos ⟨rfl, hn⟩]

theorem Device.hostRead_four (hn : off + n ≤ bar4Size) : d.hostRead 4 off n = d.emit (.readCompletion (d.readBar4 off n) []) := by
  rw [Device.hostRead_open h ho, if_neg nofun, if_neg nofun, if_pos ⟨rfl, hn⟩]

theorem Device.hostWrite_zero (hn : off + bs.length ≤ bar0Size) : d.hostWrite 0 off bs ep = d.writeBar0 off bs ep := by
  rw [Device.hostWrite_open h ho, if_pos ⟨rfl, hn⟩]

theorem Device.hostWrite_two (hn : off + bs.length ≤ 2 ^ d.host.bar2Log2) : d.hostWrite 2 off bs ep = d.writeBar2 off bs ep := by
  rw [Device.hostWrite_open h ho, if_neg nofun, if_pos ⟨rfl, hn⟩]

theorem Device.hostWrite_four (hn : off + bs.length ≤ bar4Size) :
    d.hostWrite 4 off bs ep = (d.poisonIn ep).doorbellWrite off bs.length := by
  rw [Device.hostWrite_open h ho, if_neg nofun, if_neg nofun, if_pos ⟨rfl, hn⟩]

end

/-- A request past its BAR is in none. -/
theorem Device.outside_bars (hs : d.barSize bar < off + n) :
    ¬ (bar = 0 ∧ off + n ≤ bar0Size) ∧ ¬ (bar = 2 ∧ off + n ≤ 2 ^ d.host.bar2Log2) ∧ ¬ (bar = 4 ∧ off + n ≤ bar4Size) := by
  refine ⟨?_, ?_, ?_⟩ <;> rintro ⟨rfl, hn⟩ <;> exact Nat.not_lt.2 hn hs

theorem Device.hostRead_outside (h : d.hostThere = true) (ho : d.hostOpen = true) (hs : d.barSize bar < off + n) :
    d.hostRead bar off n = d.emit .unsupportedRequest := by
  obtain ⟨h0, h2, h4⟩ := Device.outside_bars hs
  rw [Device.hostRead_open h ho, if_neg h0, if_neg h2, if_neg h4]

theorem Device.hostWrite_outside (h : d.hostThere = true) (ho : d.hostOpen = true) (hs : d.barSize bar < off + bs.length) :
    d.hostWrite bar off bs ep = d := by
  obtain ⟨h0, h2, h4⟩ := Device.outside_bars hs
  rw [Device.hostWrite_open h ho, if_neg h0, if_neg h2, if_neg h4]

/-- A size or alignment that no register takes (R566). -/
def Skewed (off n : Nat) : Prop := (n ≠ 4 ∧ n ≠ 8) ∨ off % n ≠ 0

theorem Device.readBar0_skewed (hs : Skewed off n) : d.readBar0 off n = (d.hostAddrError (regSpace + off)).emit .completerAbort :=
  if_pos hs

theorem Device.readBar0_nowhere (hs : ¬ Skewed off n) (hl : regLocate off = none) :
    d.readBar0 off n = d.emit (.readCompletion (List.replicate n 0) []) := by
  refine (if_neg hs).trans ?_
  rw [hl]

section
variable {l : RegLoc} (hs : ¬ Skewed off n) (hl : regLocate off = some l)
include hs hl

theorem Device.readBar0_located : d.readBar0 off n =
    if !regThere { l with off := 8 * (l.off / 8) } then d.emit (.readCompletion (List.replicate n 0) [])
    else if !d.answers l then (d.darkAccess l (regSpace + off)).emit .completerAbort
    else d.emit (.readCompletion (d.regBytes l n) []) := by
  refine (if_neg hs).trans ?_
  rw [hl]

end

theorem Device.writeBar0_skewed (hs : Skewed off bs.length) : d.writeBar0 off bs ep = (d.poisonIn ep).hostAddrError (regSpace + off) :=
  if_pos hs

theorem Device.writeBar0_poisoned (hs : ¬ Skewed off bs.length) : d.writeBar0 off bs true = d.poisonIn true := if_neg hs

theorem Device.writeBar0_register (hs : ¬ Skewed off bs.length) :
    d.writeBar0 off bs false = d.spaceWrite off (leNat bs) (bs.length == 8) := if_neg hs

theorem Device.doorbellWrite_idle (h : n = 0 ∨ 0x100000 < off + n ∨ d.hostOpen = false) : d.doorbellWrite off n = d := by
  refine if_neg fun hc => ?_
  simp only [Bool.and_eq_true, decide_eq_true_eq] at hc
  obtain ⟨ho, h0, hn⟩ := hc
  rcases h with h | h | h
  · omega
  · omega
  · exact absurd (h.symm.trans ho) (by decide)

end

/-- Settles O42: a request by the BAR that takes it, and there by its address; the doorbells and the vectors by their meanings. -/
theorem hostAccessesDoorbellsAndVectors : Obligations.HostAccessesDoorbellsAndVectors := by
  refine ⟨fun s bar off n bs ep ha => ?_, fun s ha => ?_⟩
  · have hread : ∀ {b e}, s.dev.hostRead b off n = e → Does (.hostRead b off n) s e := fun h => does_run ha rfl h
    have hwrite : ∀ {b e}, s.dev.hostWrite b off bs ep = e → Does (.hostWrite b off bs ep) s e := fun h => does_run ha rfl h
    refine ⟨fun h => ⟨hread (Device.hostRead_unreached h), hwrite (Device.hostWrite_unreached (.inl h))⟩,
      fun h ho => ⟨hread (Device.hostRead_closed h ho), hwrite (Device.hostWrite_unreached (.inr ho))⟩,
      fun h ho => ⟨fun hn => ⟨fun hl => ?_, fun hl => ?_⟩, fun hn => ⟨fun hl => ?_, fun hl => ?_⟩,
        fun hn => hread (Device.hostRead_four h ho hn), fun hn => hwrite (Device.hostWrite_four h ho hn),
        fun hn => ⟨fun hs => ?_, fun hs hl => ?_, fun l hs hl ht => ?_, fun l hs hl ht => ⟨fun hr => ?_, fun hr => ?_⟩⟩,
        fun hn => ⟨fun hs => ?_, fun hs he => ?_, fun hs he => ?_⟩, fun hs => hread (Device.hostRead_outside h ho hs),
        fun hs => hwrite (Device.hostWrite_outside h ho hs)⟩⟩
    · exact hread ((Device.hostRead_two h ho hn).trans (if_neg (by rw [hl]; decide)))
    · exact hread ((Device.hostRead_two h ho hn).trans (if_pos (by rw [hl]; rfl)))
    · exact hwrite ((Device.hostWrite_two h ho hn).trans (if_neg (by rw [hl]; decide)))
    · exact hwrite ((Device.hostWrite_two h ho hn).trans (if_pos (by rw [hl]; rfl)))
    · exact hread ((Device.hostRead_zero h ho hn).trans (Device.readBar0_skewed hs))
    · exact hread ((Device.hostRead_zero h ho hn).trans (Device.readBar0_nowhere hs hl))
    · refine hread ((Device.hostRead_zero h ho hn).trans ((Device.readBar0_located hs hl).trans ?_))
      rw [ht]
      rfl
    · refine hread ((Device.hostRead_zero h ho hn).trans ((Device.readBar0_located hs hl).trans ?_))
      rw [ht, hr]
      rfl
    · refine hread ((Device.hostRead_zero h ho hn).trans ((Device.readBar0_located hs hl).trans ?_))
      rw [ht, hr]
      rfl
    · exact hwrite ((Device.hostWrite_zero h ho hn).trans (Device.writeBar0_skewed hs))
    · subst he
      exact hwrite ((Device.hostWrite_zero h ho hn).trans (Device.writeBar0_poisoned hs))
    · subst he
      exact hwrite ((Device.hostWrite_zero h ho hn).trans (Device.writeBar0_register hs))
  · exact ⟨fun off n h0 hn ho => does_run ha rfl (if_pos (by simp [ho, h0, hn])),
      fun off n h => idles_run rfl ha (Device.doorbellWrite_idle h), does_run (f := Device.doorbellIncrement) ha rfl rfl,
      fun v => does_run ha rfl rfl⟩

end Sys2Proof.Machine
end

section
/-! SUPPORT. The rings of the DMA engines, capacity memory and the management port; with their statements. -/
namespace Sys2Proof.Machine

open Sys2Proof

/-! ### DMA engines (R433 to R435) -/

section
variable {d : Device} {e : Nat}

theorem Device.dmaRun_fresh (h : d.bitOf (dmaReg e 0x28) 0 = false) (hf : ((d.setBit (dmaReg e 0x28) 0).engine e).flight = []) :
    d.dmaRun e = (d.setBit (dmaReg e 0x28) 0).modEngine e fun x => { x with startAt := (d.setBit (dmaReg e 0x28) 0).dmaHead e } :=
  (if_neg (ne_true_of_eq_false h)).trans (if_pos (by rw [hf]; rfl))

theorem Device.dmaRun_inFlight (h : d.bitOf (dmaReg e 0x28) 0 = false) (hf : ((d.setBit (dmaReg e 0x28) 0).engine e).flight ≠ []) :
    d.dmaRun e = d.setBit (dmaReg e 0x28) 0 :=
  (if_neg (ne_true_of_eq_false h)).trans (if_neg (by rwa [List.isEmpty_iff]))

/-- Whether an engine may start a descriptor (R434). -/
def Device.mayStart (d : Device) (e : Nat) : Bool :=
  d.bitOf (dmaReg e 0x28) 0 && !d.bitOf (dmaReg e 0x28) 1 && !(d.engine e).paused && d.hostReach && (d.engine e).startAt != d.dmaTail e

theorem Device.mayStart_eq : d.mayStart e = (d.fetching e && d.hostReach) := by
  unfold Device.mayStart Device.fetching
  rw [Bool.and_right_comm]

/-- The descriptor at the place an engine starts from (R433). -/
def Device.nextDesc (d : Device) (e : Nat) : DmaDesc × Bool :=
  parseDesc (d.hostGet ((d.reg (dmaReg e 0)).toNat + 32 * (d.engine e).startAt) 32).1

/-- What is wrong with it (R435). -/
def Device.nextError (d : Device) (e : Nat) : Nat := d.descError (d.nextDesc e).1 (d.nextDesc e).2

/-- Whether it waits for those in flight (R434, R435). -/
def Device.nextWaits (d : Device) (e : Nat) : Bool :=
  (d.nextError e != 0 || bit (d.nextDesc e).1.flags 2) && !(d.engine e).flight.isEmpty

/-- The engine with the descriptor in flight. -/
def Device.nextTaken (d : Device) (e : Nat) : Device :=
  ({ d with accessNext := d.accessNext + 1 } : Device).modEngine e fun g =>
    { g with
      startAt := (g.startAt + 1) % d.ringSize e
      flight := g.flight ++ [{ (d.nextDesc e).1 with
        id := d.accessNext, moved := if bit (d.nextDesc e).1.flags 0 then (d.nextDesc e).1.len else 0 }] }

theorem Device.dmaStart_none (h : d.mayStart e = false) : d.dmaStart e = d := by
  rw [Device.mayStart_eq] at h
  exact if_pos (by rw [← Bool.not_and, h]; rfl)

/-- An engine that may start, by its next descriptor. -/
theorem Device.dmaStart_may (h : d.mayStart e = true) : d.dmaStart e =
    if d.nextWaits e then d
    else if d.nextError e ≠ 0 then (if d.nextError e = 1 then d.addrError (d.nextDesc e).1.dev 0 else d).dmaHalt e (d.nextError e)
    else if bit (d.nextDesc e).1.flags 0 then
      (d.nextTaken e).access 0 hostClient (.dmaOut e d.accessNext) (d.nextDesc e).1.dev (d.nextDesc e).1.len false [] fun _ => false
    else d.nextTaken e := by
  rw [Device.mayStart_eq] at h
  exact if_neg (by rw [← Bool.not_and, h]; decide)

theorem Device.dmaFinish_empty (h : (d.engine e).flight = []) : d.dmaFinish e = d := by
  unfold Device.dmaFinish
  rw [h]

section
variable {x : DmaDesc} {r : List DmaDesc} (h : (d.engine e).flight = x :: r)
include h

theorem Device.dmaFinish_failed (hc : x.cause ≠ 0) : d.dmaFinish e = d.dmaHalt e x.cause := by
  unfold Device.dmaFinish
  simp only [h]
  exact if_pos hc

theorem Device.dmaFinish_unfinished (hc : x.cause = 0) (hd : x.done = false) : d.dmaFinish e = d := by
  unfold Device.dmaFinish
  simp only [h]
  exact (if_neg (not_not.2 hc)).trans (if_pos (by rw [hd]; rfl))

theorem Device.dmaFinish_done (hc : x.cause = 0) (hd : x.done = true) : d.dmaFinish e =
    let h := (d.dmaHead e + 1) % d.ringSize e
    let a := (d.modEngine e fun y => { y with flight := r }).setField (dmaReg e 0x10) 0 16 h
    let b := if (a.reg (dmaReg e 0x20)).toNat = 0 then a else a.hostPut (a.reg (dmaReg e 0x20)).toNat (leBytes 8 h) fun _ => false
    let c := if bit x.flags 3 then b.ring x.db else b
    if bit x.flags 1 then c.raiseVector x.vector else c := by
  unfold Device.dmaFinish
  simp only [h]
  exact (if_neg (not_not.2 hc)).trans (if_neg (by rw [hd]; decide))

end

theorem Device.dmaMissed_none (h : (d.engine e).wanting = none) (c : Nat) :
    d.dmaMissed e c = if d.fetching e then d.fetchFail e c else d.mbxMissed := by
  unfold Device.dmaMissed
  rw [h]

theorem Device.dmaDeliver_none (h : (d.engine e).wanting = none) (p : Bool) : d.dmaDeliver e p = d := by
  unfold Device.dmaDeliver
  rw [h]

section
variable {x : DmaDesc} (h : (d.engine e).wanting = some x)
include h

theorem Device.dmaMissed_some (c : Nat) : d.dmaMissed e c = d.dmaFail e x.id c := by
  unfold Device.dmaMissed
  rw [h]

/-- Bytes that the host has sent for a descriptor. -/
theorem Device.dmaDeliver_some (p : Bool) : d.dmaDeliver e p =
    let n := min 512 (x.len - x.moved)
    if !d.legalRun (x.dev + x.moved) n then (d.addrError (x.dev + x.moved) 0).dmaFail e x.id 1
    else
      let h := d.hostGet (x.host + x.moved) n
      let ep := p || !h.2.isEmpty
      let b := if ep then (d.setBit (hstReg 0x10) 2).count (hstReg 0x28) 1 else d
      (b.modDesc e x.id fun y => { y with moved := y.moved + n }).access 0 hostClient (.dmaIn e x.id) (x.dev + x.moved) n true h.1 fun _ => ep := by
  unfold Device.dmaDeliver
  rw [h]

end

end

/-- Settles O44: an engine's start by its next descriptor, its end by the oldest in flight, host data by the first that wants it. -/
theorem dmaEnginesRunTheirRings : Obligations.DmaEnginesRunTheirRings := by
  intro s e ha
  refine ⟨fun h hf => does_run ha rfl (Device.dmaRun_fresh h (by simpa using hf)),
    fun h hf => does_run ha rfl (Device.dmaRun_inFlight h (by simpa using hf)), fun h => idles_run rfl ha (if_pos h), does_run ha rfl rfl,
    fun hc => ?_, fun hc hf => ?_, fun x r hc hf => ⟨fun h => ?_, fun h hd => ?_, fun h hd => ?_⟩, fun hw => ?_, fun x hw => ?_⟩
  · have hx : exec (.dmaDescriptorStart e) s = s.onClock (Device.dmaStart e) := rfl
    refine ⟨fun h => ?_, fun hm hw he => ?_, fun hm hw h0 h1 => ?_, fun hm hw he ho => ?_, fun hm hw he ho => ?_⟩
    · by_cases hm : s.dev.mayStart e = true
      · rcases h with h | h
        · exact absurd (h.symm.trans hm) (by decide)
        · exact does_onClock hc hx ((Device.dmaStart_may hm).trans (if_pos h))
      · exact does_onClock hc hx (Device.dmaStart_none (Bool.eq_false_iff.2 hm))
    all_goals refine does_onClock hc hx ((Device.dmaStart_may hm).trans ((if_neg (ne_true_of_eq_false hw)).trans ?_))
    · have he : s.dev.nextError e = 1 := he
      exact (if_pos (by rw [he]; decide)).trans (by rw [if_pos he, he]; rfl)
    · exact (if_pos h0).trans (congrArg (Device.dmaHalt e _) (if_neg h1))
    · exact (if_neg (not_not.2 he)).trans (if_neg (ne_true_of_eq_false ho))
    · exact (if_neg (not_not.2 he)).trans (if_pos ho)
  · exact does_onClock hc rfl (Device.dmaFinish_empty hf)
  · exact does_onClock hc rfl (Device.dmaFinish_failed hf h)
  · exact does_onClock hc rfl (Device.dmaFinish_unfinished hf h hd)
  · exact does_onClock hc rfl (Device.dmaFinish_done hf h hd)
  · exact ⟨does_run ha rfl (Device.dmaMissed_none hw 4), does_run ha rfl (Device.dmaMissed_none hw 3),
      does_run ha rfl (Device.dmaMissed_none hw 3), does_run ha rfl (Device.dmaDeliver_none hw false),
      does_run ha rfl (Device.dmaDeliver_none hw true)⟩
  · refine ⟨does_run ha rfl (Device.dmaMissed_some hw 4), does_run ha rfl (Device.dmaMissed_some hw 3),
      does_run ha rfl (Device.dmaMissed_some hw 3), fun hl st hst => ?_, fun hl => ⟨?_, ?_⟩⟩
    · have hdrop : ∀ p, s.dev.dmaDeliver e p = _ := fun p => (Device.dmaDeliver_some hw p).trans (if_pos (by rw [hl]; rfl))
      simp only [List.mem_cons, List.not_mem_nil, or_false] at hst
      rcases hst with rfl | rfl
      · exact does_run ha rfl (hdrop false)
      · exact does_run ha rfl (hdrop true)
    · exact does_run ha rfl ((Device.dmaDeliver_some hw false).trans (if_neg (by rw [hl]; decide)))
    · exact does_run ha rfl ((Device.dmaDeliver_some hw true).trans (if_neg (by rw [hl]; decide)))

/-! ### Capacity memory (R439 to R445) -/

section
variable {d : Device} {w : Bool} {a n ch v : Nat} {bs : List Byte}

theorem Device.capacityAccess_elsewhere (h : ∀ ch v, regionOf a ≠ .capacity ch v) : d.capacityAccess w a n bs = d := by
  unfold Device.capacityAccess
  split
  · rename_i c o hc
    exact absurd hc (h c o)
  · rfl

theorem Device.capacityAccess_there (h : regionOf a = .capacity ch v) : d.capacityAccess w a n bs =
    if !d.legalRun a n then d.hostAddrError a
    else
      let e := (d.wakeRun a n).openLine ch v n
      if w then e.writeMem a bs (fun _ => false) false
      else (e.readMem a n).dev.emit (.capacityData (e.readMem a n).bytes (e.readMem a n).bad) := by
  unfold Device.capacityAccess
  simp only [h]

/-- The part with a device's readout in force (R445). -/
def Device.withReadout (d : Device) (ch device temp : Nat) (fast : Bool) : Device :=
  let x := mget LpdChan.reset d.lpd ch
  let temps := mset 0 x.temps device temp
  ({ d with lpd := mset LpdChan.reset d.lpd ch { x with
      temps := temps, hot := if fast then insertAsc device x.hot else x.hot.filter (· ≠ device) } } : Device).setField
    (lpdReg (0x100 + 8 * ch)) 8 8 (maxOf (temps.map (·.2)))

/-- Whether a device was above its normal range already, with HOT still set. -/
def Device.stoodHot (d : Device) (ch device : Nat) : Bool :=
  (mget LpdChan.reset d.lpd ch).hot.contains device && d.bitOf (lpdReg (0x100 + 8 * ch)) 4

variable {device temp : Nat} {fast : Bool}

theorem Device.lpdTemp_fitted (h : 2 ≤ d.fieldOf (lpdReg (0x100 + 8 * ch)) 0 2) : d.lpdTemp ch device temp fast =
    if fast && !d.stoodHot ch device then ((d.withReadout ch device temp fast).setBit (lpdReg (0x100 + 8 * ch)) 4).event 7
    else d.withReadout ch device temp fast :=
  if_neg (Nat.not_lt.2 h)

end

/-- Settles O45: an access by its address and by what is fitted, a refresh and a readout by the state of their channel. -/
theorem capacityMemoryServes : Obligations.CapacityMemoryServes := by
  intro s
  refine ⟨fun w a len bs hc => ⟨fun ch v hr => ⟨fun hl hw => ?_, fun hl hw => ?_, fun hl => ?_⟩, fun hr => ?_⟩,
    fun ch b hc => ⟨fun h => does_onClock hc rfl (if_pos h), fun h => does_onClock hc rfl (if_neg h)⟩,
    fun ch t fast ha => ⟨fun h hf hs => ?_, fun h hs => ?_, fun h => idles_run rfl ha (if_pos h)⟩⟩
  · refine does_onClock hc rfl ((Device.capacityAccess_there hr).trans ((if_neg (by rw [hl]; decide)).trans ?_))
    subst hw
    rfl
  · refine does_onClock hc rfl ((Device.capacityAccess_there hr).trans ((if_neg (by rw [hl]; decide)).trans ?_))
    subst hw
    rfl
  · exact does_onClock hc rfl ((Device.capacityAccess_there hr).trans (if_pos (by rw [hl]; rfl)))
  · exact does_onClock hc rfl (Device.capacityAccess_elsewhere hr)
  · refine does_run ha rfl ((Device.lpdTemp_fitted h).trans (if_pos ?_))
    have hstood : s.dev.stoodHot ch t.device = false := Bool.eq_false_iff.2 fun hb => hs (by simpa [Device.stoodHot] using hb)
    rw [hf, hstood]
    rfl
  · refine does_run ha rfl ((Device.lpdTemp_fitted h).trans (if_neg ?_))
    rcases hs with hf | ⟨hc, hb⟩
    · rw [hf, Bool.false_and]
      exact Bool.false_ne_true
    · rw [Device.stoodHot, hc, hb]
      simp

/-! ### The management port (R446 to R448) -/

section
variable {s : State} {f : Device → Device} {i : Instr}

/-- Whether the management target takes messages: phase 2 reached, and the west half there (R383, R446). -/
def Device.MgmtThere (d : Device) : Prop := 2 ≤ d.start.phaseDone ∧ (d.half 0).lost = false

/-- Whether PLDM answers: phase 4 reached, or a failed start (R446, R502). -/
def Device.PldmOpen (d : Device) : Prop := 4 ≤ d.start.phaseDone ∨ d.bitOf (svcReg 0xB000) 5 = true

theorem does_mctp {e : Device} (ha : s.dev.awake = true) (ht : s.dev.MgmtThere) (hx : exec i s = s.run (Device.mctpControl f))
    (he : f s.dev = e) : Does i s e := does_run ha hx ((if_pos ht).trans he)

theorem idles_mctp (ha : s.dev.awake = true) (ht : ¬ s.dev.MgmtThere) (hx : exec i s = s.run (Device.mctpControl f)) : Idles i s :=
  does_run ha hx (if_neg ht)

theorem Device.mgmtThere_iff {d : Device} : ¬ d.MgmtThere ↔ d.start.phaseDone < 2 ∨ (d.half 0).lost = true := by
  unfold Device.MgmtThere
  rw [not_and_or, Nat.not_le, Bool.not_eq_false]

theorem Device.pldmOpen_iff {d : Device} : ¬ d.PldmOpen ↔ (decide (d.start.phaseDone < 4) && !d.bitOf (svcReg 0xB000) 5) = true := by
  simp [Device.PldmOpen]

theorem does_pldm {e : Device} (ha : s.dev.awake = true) (ht : s.dev.MgmtThere) (ho : s.dev.PldmOpen)
    (hx : exec i s = s.run (Device.pldm f)) (he : f s.dev = e) : Does i s e := by
  refine does_run ha hx (((if_neg fun h => Device.mgmtThere_iff.2 h ht).trans (if_neg fun h => Device.pldmOpen_iff.2 h ho)).trans he)

theorem does_pldm_early (ha : s.dev.awake = true) (ht : s.dev.MgmtThere) (ho : ¬ s.dev.PldmOpen)
    (hx : exec i s = s.run (Device.pldm f)) : Does i s (s.dev.reply 4 []) :=
  does_run ha hx ((if_neg fun h => Device.mgmtThere_iff.2 h ht).trans (if_pos (Device.pldmOpen_iff.1 ho)))

theorem idles_pldm (ha : s.dev.awake = true) (ht : ¬ s.dev.MgmtThere) (hx : exec i s = s.run (Device.pldm f)) : Idles i s :=
  does_run ha hx (if_pos (Device.mgmtThere_iff.1 ht))

end

/-- The identifier that a record number names (R447): record 0 is the first, the last is the effecter's. -/
theorem pldmIds_getD {n : Nat} (h : n ≤ 32) :
    pldmIds.getD ((if n = 0 then 1 else n) - 1) 0 = if n = 0 then 1 else if n = 32 then 100 else n := by
  interval_cases n <;> rfl

theorem recordNumber_eq (n : BitVec 32) : (if n = 0 then 1 else n.toNat) = if n.toNat = 0 then 1 else n.toNat :=
  if_congr ⟨fun h => by rw [h]; rfl, fun h => BitVec.eq_of_toNat_eq h⟩ rfl rfl

theorem length_pldmIds : pldmIds.length = 32 := by decide

theorem Device.pollEvents_some {d : Device} {i : Nat} (h : pldmIds.find? (fun i => d.sensorState i != d.polledState i) = some i) :
    d.pollEvents = ({ d with mgmt := { d.mgmt with events := mset 0 d.mgmt.events i (d.sensorState i) } } : Device).reply 0
      (leBytes 2 i ++ [BitVec.ofNat 8 (d.polledState i), BitVec.ofNat 8 (d.sensorState i)]) := by
  unfold Device.pollEvents
  simp only [h]

theorem Device.pollEvents_none {d : Device} (h : pldmIds.find? (fun i => d.sensorState i != d.polledState i) = none) :
    d.pollEvents = d.reply 0 [] := by
  unfold Device.pollEvents
  simp only [h]

theorem not_mem_versions {x : Byte} (h : x ∉ [(0xFF : Byte), 0, 1]) : ¬ (x = 0xFF ∨ x = 0 ∨ x = 1) := by simpa using h

theorem mem_versions {x : Byte} (h : x ∈ [(0xFF : Byte), 0, 1]) : x = 0xFF ∨ x = 0 ∨ x = 1 := by simpa using h

/-- Settles O46: MCTP control by whether the target is there, PLDM by whether it is open too, and then by the operand. -/
theorem managementCommandsAnswer : Obligations.ManagementCommandsAnswer := by
  intro s ha
  refine ⟨fun ht => ?_, fun ht ho => ?_, fun ht ho => ?_, fun ht => ?_⟩
  · refine ⟨fun x h0 hf => ?_, fun x h => ?_, ?_, fun x h => ?_, fun x h => ?_, ?_⟩
    · exact does_mctp ha ht rfl (if_neg (not_or.2 ⟨h0, hf⟩))
    · exact does_mctp ha ht rfl (if_pos h)
    · exact does_mctp ha ht rfl rfl
    · exact does_mctp ha ht rfl (if_pos (mem_versions h))
    · exact does_mctp ha ht rfl (if_neg (not_mem_versions h))
    · exact does_mctp ha ht rfl rfl
  · have hd : ∀ {i f e}, exec i s = s.run (Device.pldm f) → f s.dev = e → Does i s e := fun hx he => does_pldm ha ht ho hx he
    refine ⟨hd rfl rfl, fun x h => hd rfl (if_pos (by simpa using h)), fun x h => ?_, hd rfl rfl, hd rfl rfl, hd rfl rfl, fun n hn => ?_,
      fun n hn => ?_, fun i h1 h30 => ⟨fun v hv => ?_, fun hv => ?_⟩, fun i hi => ?_, hd rfl rfl, fun i hi => ?_, fun i hi => ?_, fun hi => ?_,
      fun v => ?_, ?_, fun i hi => ?_⟩
    · have hne : x ≠ 0 ∧ x ≠ 2 := by simpa using h
      exact ⟨hd rfl (if_neg (not_or.2 hne)), hd rfl ((if_neg hne.1).trans (if_neg hne.2))⟩
    · refine hd rfl ((if_pos ?_).trans ?_)
      · rw [recordNumber_eq, length_pldmIds]
        split <;> omega
      · rw [recordNumber_eq, pldmIds_getD hn]
    · refine hd rfl (if_neg ?_)
      rw [recordNumber_eq, length_pldmIds]
      split <;> omega
    · refine hd rfl ((if_pos ⟨h1, h30⟩).trans ?_)
      rw [hv]
    · refine hd rfl ((if_pos ⟨h1, h30⟩).trans ?_)
      rw [hv]
    · exact hd rfl (if_neg (by omega))
    · exact hd rfl (if_neg hi)
    · exact hd rfl (Device.pollEvents_some hi)
    · exact hd rfl (Device.pollEvents_none hi)
    · exact hd rfl (if_pos rfl)
    · exact hd rfl (if_pos rfl)
    · exact ⟨hd rfl (if_neg hi), fun v => hd rfl (if_neg hi)⟩
  · have hd : ∀ {i f}, exec i s = s.run (Device.pldm f) → Does i s (s.dev.reply 4 []) := fun hx => does_pldm_early ha ht ho hx
    refine ⟨fun i hi => ?_, fun x => ⟨hd rfl, hd rfl⟩, fun n => hd rfl, fun i => ⟨hd rfl, hd rfl, hd rfl⟩, fun i v => hd rfl⟩
    simp only [List.mem_cons, List.not_mem_nil, or_false] at hi
    rcases hi with rfl | rfl | rfl <;> exact hd rfl
  · have hm : ∀ {i f}, exec i s = s.run (Device.mctpControl f) → Idles i s := fun hx => idles_mctp ha ht hx
    have hp : ∀ {i f}, exec i s = s.run (Device.pldm f) → Idles i s := fun hx => idles_pldm ha ht hx
    refine ⟨fun i hi => ?_, fun x => ⟨hm rfl, hm rfl, hp rfl, hp rfl⟩, fun n => hp rfl, fun i => ⟨hp rfl, hp rfl, hp rfl⟩, fun i v => hp rfl⟩
    simp only [List.cons_append, List.nil_append, List.mem_cons, List.not_mem_nil, or_false] at hi
    rcases hi with rfl | rfl | rfl | rfl | rfl
    · exact hm rfl
    · exact hm rfl
    all_goals exact hp rfl

end Sys2Proof.Machine
end

section
/-! SUPPORT. The dies of the test chain, their instructions, and the parallel path; with their statements. -/
namespace Sys2Proof.Machine

open Sys2Proof

/-! ### Identification (R541) -/

theorem bit_toNat {n : Nat} (x : BitVec n) (i : Nat) : bit x.toNat i = x.getLsbD i := by
  rw [bit, BitVec.getLsbD, Nat.testBit_eq_decide_div_mod_eq, Nat.shiftRight_eq_div_pow]
  rfl

/-- The kind of a die (R541). -/
def dieKind (i : Nat) : BitVec 16 :=
  if i = 0 then 0xD500 else if i = 151 then 0xD501 else if isArrayDie i then 0xD510 else if isArrayDie (i - 1) then 0xD511 else 0xD520

theorem idcodeOf_eq (i : Nat) : idcodeOf i = ((1 : BitVec 4) ++ dieKind i ++ Config.jep106 ++ (1 : BitVec 1) : BitVec 32) := rfl

theorem idcode_fields (k : BitVec 16) (j : BitVec 11) :
    let x : BitVec 32 := (1 : BitVec 4) ++ k ++ j ++ (1 : BitVec 1)
    x.extractLsb' 28 4 = 1 ∧ x.extractLsb' 1 11 = j ∧ x.getLsbD 0 = true ∧ x.extractLsb' 12 16 = k := by
  refine ⟨?_, ?_, by rw [BitVec.getLsbD_append]; rfl, ?_⟩
  · exact (BitVec.extractLsb'_append_eq_of_le (by decide)).trans
      ((BitVec.extractLsb'_append_eq_of_le (by decide)).trans BitVec.extractLsb'_append_eq_left)
  · exact (BitVec.extractLsb'_append_eq_of_le (by decide)).trans BitVec.extractLsb'_append_eq_right
  · exact (BitVec.extractLsb'_append_eq_of_le (by decide)).trans
      ((BitVec.extractLsb'_append_eq_of_le (by decide)).trans BitVec.extractLsb'_append_eq_right)

/-- The die's kind by its place in its tower, of 15 dies each from the array die up (R539). -/
theorem dieKind_eq {i : Nat} (h : i < 302) : dieKind i = (if i = 0 then 0xD500 else if i = 151 then 0xD501
    else if (i - (if i < 151 then 1 else 152)) % 15 = 0 then 0xD510
    else if (i - (if i < 151 then 1 else 152)) % 15 = 1 then 0xD511 else 0xD520) := by
  have harr : ∀ n, isArrayDie n = true ↔ (n < 151 ∧ n % 15 = 1) ∨ (151 < n ∧ (n - 151) % 15 = 1) := by simp [isArrayDie]
  unfold dieKind
  by_cases h0 : i = 0
  · rw [if_pos h0, if_pos h0]
  by_cases h1 : i = 151
  · rw [if_neg h0, if_neg h0, if_pos h1, if_pos h1]
  rw [if_neg h0, if_neg h0, if_neg h1, if_neg h1]
  refine if_congr ?_ rfl (if_congr ?_ rfl rfl)
  · rw [harr]
    split <;> omega
  · rw [harr]
    split <;> omega

/-! ### Instructions of the chain (R539 to R550) -/

section
variable {s : State} {i : Instr} {f : Device → Device} {e : Device}

theorem does_onTap (ha : s.dev.awake = true) (hl : (s.dev.half 0).lost = false) (hx : exec i s = s.run (Device.onTap f))
    (he : f s.dev = e) : Does i s e := does_run ha hx ((if_neg (ne_true_of_eq_false hl)).trans he)

theorem idles_onTap_lost (ha : s.dev.awake = true) (hl : (s.dev.half 0).lost = true) (hx : exec i s = s.run (Device.onTap f)) :
    Idles i s := does_run ha hx (if_pos hl)

/-- What leaves the device alone on the test port leaves it alone, with the west half there or lost. -/
theorem idles_onTap (ha : s.dev.awake = true) (hx : exec i s = s.run (Device.onTap f)) (he : f s.dev = s.dev) : Idles i s :=
  does_run ha hx (by unfold Device.onTap; split <;> [rfl; exact he])

end

/-- Settles O47: the die shifts out idcodeOf, whose four fields are read off. -/
theorem idcodeNamesTheDie : Obligations.IdcodeNamesTheDie := by
  intro s i ha hl
  refine ⟨fun h => ?_, fun h => idles_onTap ha rfl (if_neg (ne_true_of_eq_false h))⟩
  obtain ⟨htop, hjep, hone, hkind⟩ := idcode_fields (dieKind i) Config.jep106
  refine ⟨idcodeOf i, does_onTap ha hl rfl ((if_pos h).trans ?_), htop, hjep, hone, hkind.trans (dieKind_eq i.isLt)⟩
  exact congrArg (s.dev.tapScan i 2) (List.map_congr_left fun n _ => bit_toNat _ n)

/-! ### CONFIG (R544, R545, R548) -/

/-- A die joins the chain only when the mask names it, and one of a tower only with the towers released. -/
theorem includeDie_included {old : Test} {towers : Bool} {m p : BitVec 302} {a : List Nat × List Nat} {i j : Nat}
    (h : j ∈ (includeDie old towers m p a i).1) : j ∈ a.1 ∨ (j = i ∧ m.getLsbD i = true ∧ (towers = true ∨ isBase i = true)) := by
  unfold includeDie at h
  dsimp only at h
  split at h
  · exact .inl h
  case isFalse hw =>
    simp only [Bool.not_eq_true', Bool.not_eq_false, Bool.and_eq_true, Bool.or_eq_true] at hw
    obtain ⟨⟨⟨hm, ht⟩, -⟩, -⟩ := hw
    split at h
    · rcases List.mem_append.1 h with h | h
      · exact .inl h
      · exact .inr ⟨by simpa using h, hm, ht⟩
    · exact .inl h

/-- The dies that CONFIG includes. -/
theorem foldl_includeDie {old : Test} {towers : Bool} {m p : BitVec 302} {failed : List Nat} (l : List Nat) :
    ∀ j ∈ (l.foldl (includeDie old towers m p) ([], failed)).1, j ∈ l ∧ m.getLsbD j = true ∧ (towers = true ∨ isBase j = true) := by
  refine List.foldlRecOn (motive := fun a : List Nat × List Nat => ∀ j ∈ a.1, j ∈ l ∧ m.getLsbD j = true ∧ (towers = true ∨ isBase j = true))
    l _ nofun fun a ha i hi j hj => ?_
  rcases includeDie_included hj with h | ⟨rfl, h⟩
  · exact ha j h
  · exact ⟨hi, h⟩

/-- CONFIG shifts the mask in force out, and includes dies of the mask, only the east base die while the towers are not released. -/
theorem does_config {s : State} (ha : s.dev.awake = true) (hl : (s.dev.half 0).lost = false) (m p : BitVec 302) :
    ∃ e : Device, Does (.config m p) s e ∧ e.out = (s.dev.tapScan 0 0x11 ((List.range 302).map s.dev.tst.has)).out ∧
      (∀ i ∈ e.tst.included, m.getLsbD i = true) ∧ (s.dev.released 0 = false → ∀ i ∈ e.tst.included, i = 151) := by
  have hall := foldl_includeDie (old := s.dev.tst) (towers := s.dev.released 0) (m := m) (p := p) (failed := s.dev.tst.failed)
    ((List.range 301).map (· + 1))
  refine ⟨_, does_onTap ha hl rfl rfl, ?_, ?_, fun hr => ?_⟩
  · dsimp only
    split <;> rfl
  · dsimp only
    split <;> exact fun i hi => (hall i hi).2.1
  · have hbase : ∀ i ∈ (((List.range 301).map (· + 1)).foldl (includeDie s.dev.tst (s.dev.released 0) m p) ([], s.dev.tst.failed)).1,
        i = 151 := fun i hi => by
      obtain ⟨hmem, -, hb⟩ := hall i hi
      have h0 : i ≠ 0 := by
        rintro rfl
        simp at hmem
      simpa [hr, isBase, h0] using hb
    dsimp only
    split <;> exact hbase

/-! ### Boundary scan, wrapper tests and the parallel path -/

section
variable {d : Device} {i code : Nat} {bits : List Bool}

theorem Device.bypass_none (h : d.tst.has i = false ∨ irSelects i code ≠ 0xFF) : Device.bypass i code d = d := by
  rcases h with h | h <;> simp [Device.bypass, Device.onTap, h]

theorem Device.wrapperTest_outside (h : d.tst.has i = false) : Device.wrapperTest code i bits d = d := by
  simp [Device.wrapperTest, Device.onTap, h]

theorem Device.ijtag_outside (h : d.tst.has i = false) : Device.ijtag i bits d = d := by
  simp [Device.ijtag, Device.onTap, h]

theorem Device.boundaryScan_outside {east : Bool} {l p : List Bool} (h : d.tst.has (basePos east) = false) :
    Device.boundaryScan code east l p d = d := by
  simp [Device.boundaryScan, Device.onTap, h]

section
variable (hl : (d.half 0).lost = false) (h : d.tst.has i = true)
include hl h

theorem Device.wrapperTest_there :
    Device.wrapperTest code i bits d = d.tapScan i code (if d.released 1 then d.scanned i code bits else [false]) := by
  simp [Device.wrapperTest, Device.onTap, hl, h]

/-- IJTAG of a die of the chain (R547). -/
theorem Device.ijtag_there : Device.ijtag i bits d =
    if !d.released 1 then d.tapScan i 0x10 [false]
    else if d.tst.parHolds = some i then (d.tapScan i 0x10 (List.replicate bits.length false)).setBit (tstReg 0) 5
    else (d.tapScan i 0x10 (d.scanned i 0x10 bits)).modTest fun t => { t with tapHolds := some (i, d.now) } := by
  simp [Device.ijtag, Device.onTap, hl, h]

end

/-- A write of TST_PAR_CTL without reserved bits (R546 to R548). -/
theorem Device.parallelShift_fields {ctl : Nat} (h : field ctl 11 5 = 0) (h2 : field ctl 22 42 = 0) : d.parallelShift ctl =
    let e := (d.setField (tstReg 0x100) 0 9 (field ctl 0 9)).setField (tstReg 0x100) 16 6 (field ctl 16 6)
    if bit ctl 9 = true ∧ e.released 2 = true ∧ e.bitOf (tstReg 0x100) 10 = false ∧ field ctl 0 9 < 302 then
      e.parallelGo (field ctl 0 9)
    else e := by
  unfold Device.parallelShift
  rw [if_neg (not_or.2 ⟨not_not.2 h, not_not.2 h2⟩)]
  simp only [Bool.and_eq_true, Bool.not_eq_true', decide_eq_true_eq, and_assoc]

end

/-- Settles O48: each instruction by whether its die is in the chain and released, the parallel path by its fields. -/
theorem testAccessActsOnItsDies : Obligations.TestAccessActsOnItsDies := by
  intro s ha
  have hd : ∀ {i f e}, exec i s = s.run f → f s.dev = e → Does i s e := fun hx he => does_run ha hx he
  refine ⟨fun i x hl hi hc => does_onTap ha hl rfl (if_pos (by rw [hi, hc]; rfl)), fun i x h => hd rfl (Device.bypass_none h),
    fun east l p hl hi => ⟨does_onTap ha hl rfl (if_pos hi), _, does_run ha rfl ((if_neg (ne_true_of_eq_false hl)).trans (if_pos hi))⟩,
    fun east l p hi => ⟨hd rfl (Device.boundaryScan_outside hi), hd rfl (Device.boundaryScan_outside hi)⟩,
    fun i bits hi => ⟨hd rfl (Device.wrapperTest_outside hi), hd rfl (Device.wrapperTest_outside hi), hd rfl (Device.ijtag_outside hi)⟩,
    fun i bits hl hi hr => ?locked, fun i bits hl hi hr => ?released, fun m p hl => does_config ha hl m p,
    fun tok hl => ⟨_, does_onTap ha hl rfl rfl⟩, fun hl => does_onTap ha hl rfl rfl, fun hl => ?lost,
    fun ctl => ⟨fun h => idles_run (f := Device.parallelShift ctl.toNat) rfl ha (if_pos h), fun h h2 => hd rfl (Device.parallelShift_fields h h2)⟩,
    fun x => ⟨fun h => does_run ha rfl (if_pos h), fun h => idles_run (f := Device.parallelDone x.toNat) rfl ha (if_neg (ne_true_of_eq_false h))⟩⟩
  case locked =>
    have hw : ∀ code, Device.wrapperTest code i bits s.dev = s.dev.tapScan i code [false] := fun code => by
      rw [Device.wrapperTest_there hl hi, hr]
      rfl
    exact ⟨hd rfl (hw 8), hd rfl (hw 9), hd rfl ((Device.ijtag_there hl hi).trans (if_pos (by rw [hr]; rfl)))⟩
  case released =>
    have hw : ∀ code, Device.wrapperTest code i bits s.dev = s.dev.tapScan i code (s.dev.scanned i code bits) := fun code => by
      rw [Device.wrapperTest_there hl hi, hr]
      rfl
    have hj := (Device.ijtag_there (bits := bits) hl hi).trans (if_neg (by rw [hr]; decide))
    exact ⟨⟨_, hd rfl (hw 8)⟩, ⟨_, hd rfl (hw 9)⟩, fun hp => hd rfl (hj.trans (if_pos hp)), fun hp => ⟨_, hd rfl (hj.trans (if_neg hp))⟩⟩
  case lost =>
    have hn : ∀ {i f}, exec i s = s.run (Device.onTap f) → Idles i s := fun hx => idles_onTap_lost ha (Bool.eq_true_of_not_eq_false hl) hx
    exact ⟨hn rfl, fun m p => hn rfl, fun tok => hn rfl, fun i => ⟨hn rfl, fun x => hn rfl⟩, fun i bits => ⟨hn rfl, hn rfl, hn rfl⟩,
      fun east l p => ⟨hn rfl, hd (f := Device.extest east p) rfl (if_pos (Bool.eq_true_of_not_eq_false hl))⟩⟩

end Sys2Proof.Machine
end

section
/-! SUPPORT. A tower that stands twice in the map of the towers, where a dark tower's model steps; with the statement it refutes. -/
namespace Sys2Proof.Machine

open Sys2Proof

/-- A lit tower whose four nodes all stand at 0 °C. -/
def coldLitTower : Tower := { Tower.reset with lit := true, model := [(0, 0), (1, 0), (2, 0), (3, 0)] }

/-- An awake part with both lid temperatures, in whose map of the towers tower 0 stands twice: as reset leaves it, which is what a
read finds, and lit behind that. -/
def towerTwice : Device :=
  let d := State.reset.dev
  { d with
    pins := { d.pins with powered := true, inReset := false }
    thm := { d.thm with tin := some 0, tout := some 0 }
    towers := [(0, Tower.reset), (0, coldLitTower)] }

/-- Tower 0 of `towerTwice` is dark. -/
theorem towerTwice_dark : towerTwice.up 0 = false := by decide

theorem towerTwice_awake : towerTwice.awake = true := by decide

/-- Holding the step's energy for tower 0 stores an entry equal to the reset one, so that the lit entry behind it comes forth. -/
theorem node_held : (((towerTwice.addEnergy 0 0).modTower 0 fun x =>
    { x with atStep := (towerTwice.addEnergy 0 0).reg (gafReg (0x1000 + 32 * 0)) }).tower 0).node 0 = 0 := by
  decide +kernel

/-- The lit tower is up, so the model steps: its parameters are 0, and node 0 has no value afterwards. -/
theorem node_stepped : ((towerTwice.advanceModel 0 0).tower 0).node 0 = noNode := by decide +kernel

/-- Refutes O33: a dark tower's nodes hold in every state whose maps hold each key once, but the clause asks it of every state. In
`towerTwice` the tower read at the start is dark, and the one read once its entry is dropped is lit, so its model steps. -/
theorem not_sensorsCoolantAndModel : ¬ Obligations.SensorsCoolantAndModel := by
  unfold Obligations.SensorsCoolantAndModel
  rintro ⟨-, h⟩
  obtain ⟨-, -, -, -, -, -, -, -, -, -, -, -, hdark, -⟩ := h ⟨towerTwice, []⟩ towerTwice_awake
  have hheld := hdark 0 0 towerTwice_dark
  have hstep : Does (.towerModelStep 0 0) ⟨towerTwice, []⟩ (towerTwice.advanceModel 0 0) :=
    does_run towerTwice_awake (f := Device.advanceModel 0 0) rfl rfl
  have hnode := congrArg (fun d => (d.tower 0).node 0) (hheld.unique hstep)
  exact absurd (node_held.symm.trans (hnode.trans node_stepped)) (by decide)

end Sys2Proof.Machine
end

section
/-! SUPPORT. The end and the retry of a slate write, the phases of start-up, and the rollback fuses; with their statement. -/
namespace Sys2Proof.Machine

open Sys2Proof

/-! ### Slate writes (R513, R514, R516) -/

section
variable {d : Device}

section
variable {w : SlateWrite} (hw : d.start.writing = some w) {e : Device}
  (he : { (d.commitWrite w).1 with start := { (d.commitWrite w).1.start with writing := none } } = e)
include hw he

theorem Device.slateWriteEnd_follows {n : SlateWrite} (hn : (d.commitWrite w).2 = some n) :
    d.slateWriteEnd =
      (({ e with start := { e.start with held := n :: e.start.held } } : Device).setBit (svcReg 0xB000) n.bit).tryHeld.finishStop := by
  subst he
  simp only [Device.slateWriteEnd, hw, hn]

theorem Device.slateWriteEnd_last (hn : (d.commitWrite w).2 = none) :
    d.slateWriteEnd = (if (e.start.held.any fun h => h.bit == w.bit) = true then e
      else e.setField (svcReg 0xB000) w.bit 1 0).tryHeld.finishStop := by
  subst he
  simp only [Device.slateWriteEnd, hw, hn]

end

theorem Device.slateWriteEnd_idle (hw : d.start.writing = none) : d.slateWriteEnd = d := by simp only [Device.slateWriteEnd, hw]

theorem Device.tryHeld_begins {w : SlateWrite} {r : List SlateWrite} (hh : d.start.held = w :: r) (ho : d.slateOpen = true)
    (hw : d.start.writing = none) :
    d.tryHeld = ({ d with start := { d.start with held := r } } : Device).beginWrite w := by
  simp only [Device.tryHeld, hh, ho, hw, Option.isNone_none, Bool.and_self, if_true]

/-- The first held write waits while the window is closed or another one runs. -/
theorem Device.tryHeld_waits (h : d.slateOpen = false ∨ d.start.held = [] ∨ d.start.writing ≠ none) : d.tryHeld = d := by
  unfold Device.tryHeld
  split
  next w r hheld =>
    refine if_neg ?_
    rw [Bool.and_eq_true, Option.isNone_iff_eq_none]
    rintro ⟨hopen, hnone⟩
    rcases h with h | h | h
    · exact absurd hopen (ne_true_of_eq_false h)
    · exact absurd (hheld.symm.trans h) (List.cons_ne_nil w r)
    · exact h hnone
  · rfl

/-! ### Phases and towers held dark (R498, R507) -/

theorem Device.startUpPhase_due {r : PhaseReport} (h : d.phaseDue r.phase = true) {e : Device}
    (he : (d.setField (svcReg 0xB000) 0 3 r.phase).phaseWork r = e) :
    d.startUpPhase r = { e with start := { e.start with phaseDone := r.phase } } := by
  subst he
  exact if_pos h

theorem Device.startUpPhase_early {r : PhaseReport} (h : d.phaseDue r.phase = false) : d.startUpPhase r = d :=
  if_neg (ne_true_of_eq_false h)

/-! ### Rollback fuses (R529, R530, R537) -/

theorem Device.rollbackAdvance_ignored {k : Nat} (h : k ≠ 0x5EC1 ∨ d.advBusy = true) : d.rollbackAdvance k = d := if_pos h

section
variable (hb : d.advBusy = false)
include hb

theorem Device.rollbackAdvance_eq : d.rollbackAdvance 0x5EC1 =
    if (d.inTake || !d.bitOf (svcReg 0xB000) 3) = true then d.setField (secReg 0) 12 2 2
    else if d.rollbackTarget ≤ d.fuses.counter then d.setField (secReg 0) 12 2 1
    else { d.setBit (secReg 0) 11 with
      sec := { d.sec with advTarget := d.rollbackTarget, advStep := d.fuses.counter + 1, attempts := 0 } } :=
  if_neg (by simp [hb])

theorem Device.rollbackAdvance_barred (h : d.inTake = true ∨ d.bitOf (svcReg 0xB000) 3 = false) :
    d.rollbackAdvance 0x5EC1 = d.setField (secReg 0) 12 2 2 :=
  (rollbackAdvance_eq hb).trans (if_pos (by simpa using h))

section
variable (ht : d.inTake = false) (hr : d.bitOf (svcReg 0xB000) 3 = true)
include ht hr

theorem Device.rollbackAdvance_free : d.rollbackAdvance 0x5EC1 =
    if d.rollbackTarget ≤ d.fuses.counter then d.setField (secReg 0) 12 2 1
    else { d.setBit (secReg 0) 11 with
      sec := { d.sec with advTarget := d.rollbackTarget, advStep := d.fuses.counter + 1, attempts := 0 } } :=
  (rollbackAdvance_eq hb).trans (if_neg (by simp [ht, hr]))

theorem Device.rollbackAdvance_nothing (hc : d.rollbackTarget ≤ d.fuses.counter) :
    d.rollbackAdvance 0x5EC1 = d.setField (secReg 0) 12 2 1 :=
  (rollbackAdvance_free hb ht hr).trans (if_pos hc)

theorem Device.rollbackAdvance_begins (hc : d.fuses.counter < d.rollbackTarget) :
    d.rollbackAdvance 0x5EC1 = { d.setBit (secReg 0) 11 with
      sec := { d.sec with advTarget := d.rollbackTarget, advStep := d.fuses.counter + 1, attempts := 0 } } :=
  (rollbackAdvance_free hb ht hr).trans (if_neg (Nat.not_le.2 hc))

end

theorem Device.stepBlown_idle (b : BitVec 3) : d.stepBlown b = d := if_pos (by simp [hb])

end

section
variable (hb : d.advBusy = true) {b : BitVec 3} {e : Device}
  (he : { d with fuses := { d.fuses with
    steps := mset 0 d.fuses.steps d.sec.advStep (mget 0 d.fuses.steps d.sec.advStep ||| b) } } = e)
include hb he

theorem Device.stepBlown_done (h : e.fuses.stepBlown d.sec.advStep = true) : d.stepBlown b =
    if d.sec.advTarget ≤ d.sec.advStep then (e.setField (secReg 0) 11 1 0).setField (secReg 0) 12 2 0
    else { e with sec := { e.sec with advStep := d.sec.advStep + 1, attempts := 0 } } := by
  subst he
  exact (if_neg (by simp [hb])).trans (if_pos h)

theorem Device.stepBlown_open (h : e.fuses.stepBlown d.sec.advStep = false) : d.stepBlown b =
    if 2 ≤ d.sec.attempts then (e.setField (secReg 0) 11 1 0).setField (secReg 0) 12 2 3
    else { e with sec := { e.sec with attempts := e.sec.attempts + 1 } } := by
  subst he
  exact (if_neg (by simp [hb])).trans (if_neg (ne_true_of_eq_false h))

end
end

section
variable {s : State} (ha : s.dev.awake = true)
include ha

/-- The meaning of a well-formed report is its phase's. -/
theorem does_startUpPhase {r : PhaseReport} (hr : r.wf = true) {e : Device} (he : s.dev.startUpPhase r = e) :
    Does (.startUpPhase r) s e :=
  does_run (f := Device.onlyIf r.wf (Device.startUpPhase r)) ha rfl ((Device.onlyIf_ok _ _ hr).trans he)

theorem slateWriteRetry_does {e : Device} (he : s.dev.tryHeld = e) :
    Does .slateWriteRetry s ({ e with start := { e.start with stopWait := e.start.stopWait - 1 } } : Device).finishStop := by
  subst he
  exact does_run (f := Device.retryHeld) ha rfl rfl

end

/-- Settles O29: each row by the branches of its meaning. -/
theorem slateStartUpAndRollback : Obligations.SlateStartUpAndRollback := by
  unfold Obligations.SlateStartUpAndRollback
  refine ⟨fun s ha => ⟨fun w hw => ⟨fun n hn => ?_, fun hn hany => ?_, fun hn hany => ?_⟩, fun hw => ?_, fun w r hh ho hw => ?_, fun h => ?_⟩,
    fun s ha => ⟨fun r hr => ⟨fun hd => ?_, fun hd => ?_⟩, fun t => ⟨fun hd => ?_, fun hd => ?_⟩⟩,
    fun s ha => ⟨fun k hk => ?_, fun hb h => ?_, fun hb ht hr => ⟨fun hc => ?_, fun hc => ?_⟩,
      fun b hb => ⟨fun h hc => ?_, fun h hc => ?_, fun h hc => ?_, fun h hc => ?_⟩, fun b hb => ?_⟩⟩
  · exact does_run ha rfl (Device.slateWriteEnd_follows hw rfl hn)
  · exact does_run ha rfl ((Device.slateWriteEnd_last hw rfl hn).trans (by rw [if_neg (ne_true_of_eq_false hany)]))
  · exact does_run ha rfl ((Device.slateWriteEnd_last hw rfl hn).trans (by rw [if_pos hany]))
  · exact idles_run rfl ha (Device.slateWriteEnd_idle hw)
  · exact slateWriteRetry_does ha (Device.tryHeld_begins hh ho hw)
  · exact slateWriteRetry_does ha (Device.tryHeld_waits h)
  · exact does_startUpPhase ha hr (Device.startUpPhase_due hd rfl)
  · exact does_startUpPhase ha hr (Device.startUpPhase_early hd)
  · exact does_run (f := Device.deferredLight t) ha rfl (if_pos (by simpa [and_assoc] using hd))
  · exact idles_run (f := Device.deferredLight t) rfl ha (if_neg (by simpa [and_assoc] using hd))
  · exact idles_run (f := Device.rollbackAdvance k.toNat) rfl ha
      (Device.rollbackAdvance_ignored (hk.imp_left fun h h' => h (BitVec.eq_of_toNat_eq h')))
  · exact does_run (f := Device.rollbackAdvance 0x5EC1) ha rfl (Device.rollbackAdvance_barred hb h)
  · exact does_run (f := Device.rollbackAdvance 0x5EC1) ha rfl (Device.rollbackAdvance_nothing hb ht hr hc)
  · exact does_run (f := Device.rollbackAdvance 0x5EC1) ha rfl (Device.rollbackAdvance_begins hb ht hr hc)
  · exact does_run (f := Device.stepBlown b) ha rfl ((Device.stepBlown_done hb rfl h).trans (if_pos hc))
  · exact does_run (f := Device.stepBlown b) ha rfl ((Device.stepBlown_done hb rfl h).trans (if_neg (Nat.not_le.2 hc)))
  · exact does_run (f := Device.stepBlown b) ha rfl ((Device.stepBlown_open hb rfl h).trans (if_neg (Nat.not_le.2 hc)))
  · exact does_run (f := Device.stepBlown b) ha rfl ((Device.stepBlown_open hb rfl h).trans (if_pos hc))
  · exact idles_run (f := Device.stepBlown b) rfl ha (Device.stepBlown_idle hb b)

end Sys2Proof.Machine
end

section
/-! SUPPORT. The flits, replays and lanes of the half bridge's modules; with their statement. -/
namespace Sys2Proof.Machine

open Sys2Proof

section
variable {d : Device} {m : Nat} {east : Bool}

/-! ### Flits (R374, R376) -/

/-- The empty flit that answers a received one whose receiving sent none: `n` is the number of the next flit back before it. -/
def Device.answerFlit (m : Nat) (east : Bool) (f : List Byte) (n : Nat) (e : Device) : Device :=
  if ((e.module m).link !east).nextSeq = n ∧ (((e.module m).link east).nak || flitBusy f) = true then
    e.sendBridge m (!east) false [] []
  else e

/-- What a received flit acknowledges and asks for. -/
def Device.bridgeAcked (d : Device) (m : Nat) (east : Bool) (f : List Byte) : Device :=
  let a := d.modModule m fun x => x.setLink (!east) ((x.link !east).acked 1024 (field (leAt f 0 4) 10 10))
  if bit (leAt f 0 4) 28 then a.replayBridge m !east else a

/-- A NAK owed on a direction of a module. -/
def Device.oweNak (m : Nat) (east : Bool) (seq : Nat) (d : Device) : Device :=
  d.modModule m fun x => x.setLink east ((x.link east).owes 1024 seq)

/-- A module that takes flits. -/
def Device.bridgeLive (d : Device) (m : Nat) : Prop := d.bridgeDead m = false ∧ (d.module m).retraining = false

theorem Device.bridgeFlit_deaf {f : List Byte} (h : ¬ d.bridgeLive m) : d.bridgeFlit m east f = d :=
  if_pos (by by_contra hn; exact h (by simpa [Device.bridgeLive] using hn))

theorem Device.bridgeFlit_live {f : List Byte} (h : d.bridgeLive m) {e : Device} (he : d.bridgeRecv m east f = e) :
    d.bridgeFlit m east f = e.answerFlit m east f ((d.module m).link !east).nextSeq := by
  obtain ⟨hdead, hretrain⟩ := h
  subst he
  exact if_neg (by simp [hdead, hretrain])

theorem Device.bridgeRecv_damaged {f : List Byte} (hf : bridgeIntact f = false) :
    d.bridgeRecv m east f = (d.count (brgReg 0x200) 1).oweNak m east ((d.module m).link east).expect := if_pos (by simp [hf])

theorem Device.bridgeRecv_intact {f : List Byte} (hf : bridgeIntact f = true) {b : Device} (hb : d.bridgeAcked m east f = b) :
    d.bridgeRecv m east f =
      if field (leAt f 0 4) 0 10 = ((b.module m).link east).expect then b.bridgeTake m east f
      else if seqLe 1024 (field (leAt f 0 4) 0 10) ((b.module m).link east).expect = true then b
      else b.oweNak m east (field (leAt f 0 4) 0 10) := by
  subst hb
  exact if_neg (by simp [hf])

/-! ### Replays (R376) -/

/-- A direction with flits kept on a live module. -/
def Device.replays (d : Device) (m : Nat) (east : Bool) : Prop :=
  ((d.module m).link east).kept ≠ [] ∧ d.bridgeDead m = false ∧ (d.module m).retraining = false

theorem Device.replayBridge_none (h : ¬ d.replays m east) : d.replayBridge m east = d :=
  if_pos (by by_contra hn; exact h (by simpa [and_assoc, Device.replays] using hn))

theorem Device.replayBridge_counted (h : d.replays m east) {e : Device}
    (he : ((d.count (brgReg 0x208) 1).modModule m fun x => x.setLink east { (d.module m).link east with
      replayAt := d.now :: ((d.module m).link east).recent d.now }) = e) (hn : e.now = d.now) :
    d.replayBridge m east =
      if 32 < ((e.module m).eastward.recent d.now).length + ((e.module m).westward.recent d.now).length then
        e.modModule m fun x => { x with retraining := true }
      else e.emitKept m east := by
  obtain ⟨hkept, hdead, hretrain⟩ := h
  rw [← hn]
  subst he
  exact if_neg (by simp [hkept, hdead, hretrain])

/-! ### Lanes (R373, R379) -/

section
variable {tx rx : List (Fin 64)} {lo hi : Bool}

/-- The lanes of a module repaired and counted. -/
def Device.lanesRepaired (d : Device) (m : Nat) (tx rx : List (Fin 64)) : Device :=
  let r := brgReg (0x100 + 8 * m)
  (((d.repairLanes m 0 (d.fieldOf r 4 3) tx).repairLanes m 1 (d.fieldOf r 7 3) rx).setField r 4 3
    (min 4 (d.fieldOf r 4 3 + tx.length))).setField r 7 3 (min 4 (d.fieldOf r 7 3 + rx.length))

theorem Device.bridgeRetrain_dead (h : d.modWidth m = 0) : d.bridgeRetrain m tx rx lo hi = d := if_pos h

section
variable (h : d.modWidth m ≠ 0) {e : Device} (he : d.lanesRepaired m tx rx = e)
include h he

theorem Device.bridgeRetrain_enough (ha : d.fieldOf (brgReg (0x100 + 8 * m)) 4 3 + tx.length ≤ 4)
    (hb : d.fieldOf (brgReg (0x100 + 8 * m)) 7 3 + rx.length ≤ 4) : d.bridgeRetrain m tx rx lo hi = e.resumeModule m := by
  subst he
  exact (if_neg h).trans (congrArg (Device.resumeModule m) (if_pos ⟨ha, hb⟩))

variable (hn : 4 < d.fieldOf (brgReg (0x100 + 8 * m)) 4 3 + tx.length ∨ 4 < d.fieldOf (brgReg (0x100 + 8 * m)) 7 3 + rx.length)
include hn

theorem Device.bridgeRetrain_down (hlo : lo = false) (hhi : hi = false) :
    d.bridgeRetrain m tx rx lo hi = (e.moduleDown m).resumeModule m := by
  subst he hlo hhi
  exact (if_neg h).trans (congrArg (Device.resumeModule m) ((if_neg (by omega)).trans (if_neg nofun)))

theorem Device.bridgeRetrain_narrows (hc : (lo || hi) = true) {n : Device}
    (hw : e.setField (brgReg (0x100 + 8 * m)) 2 2 (if lo = true then 1 else 2) = n) :
    d.bridgeRetrain m tx rx lo hi = Device.resumeModule m
      (if e.modWidth m = 3 then (n.setBit (brgReg (0x100 + 8 * m)) 10).degraded n.mainLog 12 (1 + m * 2 ^ 8) else n) := by
  subst he hw
  exact (if_neg h).trans (congrArg (Device.resumeModule m) ((if_neg (by omega)).trans (if_pos hc)))

end
end

/-! ### Modules (R369, R379) -/

theorem Device.moduleDown_dead (h : d.modWidth m = 0) : d.moduleDown m = d := if_pos h

section
variable (h : d.modWidth m ≠ 0) {e : Device} (he : (d.setField (brgReg (0x100 + 8 * m)) 2 2 0).countModules = e)
include h he

theorem Device.moduleDown_unused (hr : d.modRole m = 0) : d.moduleDown m = e := by
  subst he
  rw [Device.moduleDown, if_neg h, hr]
  rfl

theorem Device.moduleDown_fault (hr : d.modRole m = 1 ∨ d.modRole m = 2) : d.moduleDown m = e.fault 8 0 0 12 m 0 := by
  subst he
  rw [Device.moduleDown, if_neg h]
  rcases hr with hr | hr <;> rw [hr] <;> rfl

theorem Device.moduleDown_service (hr : d.modRole m = 3) :
    d.moduleDown m = if e.tickModules.isEmpty = true then e.loseHalf 1 1 else
      let p := if d.bitOf (brgReg (0x100 + 8 * m)) 11 = true then (e.choosePrimary.setBit (brgReg 0) 19).moveService else e
      p.degraded p.mainLog 12 2 := by
  subst he
  rw [Device.moduleDown, if_neg h, hr]
  rfl

theorem Device.moduleDown_last (hr : d.modRole m = 3) (ht : e.tickModules = []) : d.moduleDown m = e.loseHalf 1 1 :=
  (moduleDown_service h he hr).trans (if_pos (by simp [ht]))

theorem Device.moduleDown_other (hr : d.modRole m = 3) (ht : e.tickModules ≠ [])
    (hp : d.bitOf (brgReg (0x100 + 8 * m)) 11 = false) : d.moduleDown m = e.degraded e.mainLog 12 2 :=
  (moduleDown_service h he hr).trans ((if_neg (by simp [ht])).trans (by rw [hp]; rfl))

theorem Device.moduleDown_primary (hr : d.modRole m = 3) (ht : e.tickModules ≠ [])
    (hp : d.bitOf (brgReg (0x100 + 8 * m)) 11 = true) {p : Device}
    (hm : (e.choosePrimary.setBit (brgReg 0) 19).moveService = p) : d.moduleDown m = p.degraded p.mainLog 12 2 := by
  subst hm
  exact (moduleDown_service h he hr).trans ((if_neg (by simp [ht])).trans (by rw [hp]; rfl))

end
end

section
variable {s : State} {m : Fin 28} (ha : s.dev.clocked = true) {e : Device}
include ha

theorem does_bridgeFlit {east : Bool} {f : List Byte} (hl : s.dev.bridgeLive m) (he : s.dev.bridgeRecv m east f = e) :
    Does (.bridgeFlit m east f) s (e.answerFlit m east f ((s.dev.module m).link !east).nextSeq) :=
  does_onClock ha rfl (Device.bridgeFlit_live hl he)

theorem does_bridgeRetrain {tx rx : List (Fin 64)} {lo hi : Bool} (he : s.dev.bridgeRetrain m tx rx lo hi = e) :
    Does (.bridgeRetrain m tx rx lo hi) s e := does_onClock ha rfl he

theorem does_elasticLimit (he : s.dev.moduleDown m = e) : Does (.elasticLimit m) s e := does_onClock (f := Device.moduleDown m) ha rfl he

theorem does_bridgeReplayTimeout {east : Bool} (he : s.dev.replayBridge m east = e) : Does (.bridgeReplayTimeout m east) s e :=
  does_onClock (f := fun d => d.replayBridge m east) ha rfl he

end

/-- Settles O35: each row by the branches of its meaning. -/
theorem bridgeLinksCarryReplayAndRepair : Obligations.BridgeLinksCarryReplayAndRepair := by
  unfold Obligations.BridgeLinksCarryReplayAndRepair
  refine ⟨fun s m east f hc => ⟨fun h => ?_, fun h hf => ?_, fun h hf => ⟨fun hw => ?_, fun hw hle => ?_, fun hw hle => ?_⟩⟩,
    fun s m hc => ⟨fun east => ⟨fun h hn => ?_, fun h hn => ?_, fun h => ?_⟩,
      fun tx rx lo hi hw => ⟨fun h1 h2 => ?_, fun hn hlo hhi => ?_, fun hn h => ?_⟩,
      ⟨fun hw hr => ?_, fun hw hr => ?_, fun hw hr => ⟨fun ht => ?_, fun ht hp => ?_, fun ht hp => ?_⟩⟩,
      fun hw => ⟨?_, fun tx rx lo hi => ?_⟩⟩⟩
  · exact does_onClock hc rfl (Device.bridgeFlit_deaf h)
  · exact does_bridgeFlit hc h (Device.bridgeRecv_damaged hf)
  · exact does_bridgeFlit hc h ((Device.bridgeRecv_intact hf rfl).trans (if_pos hw))
  · exact does_bridgeFlit hc h ((Device.bridgeRecv_intact hf rfl).trans ((if_neg hw).trans (if_pos hle)))
  · exact does_bridgeFlit hc h ((Device.bridgeRecv_intact hf rfl).trans ((if_neg hw).trans (if_neg (ne_true_of_eq_false hle))))
  · exact does_bridgeReplayTimeout hc ((Device.replayBridge_counted h rfl rfl).trans (if_neg (Nat.not_lt.2 hn)))
  · exact does_bridgeReplayTimeout hc ((Device.replayBridge_counted h rfl rfl).trans (if_pos hn))
  · exact does_bridgeReplayTimeout hc (Device.replayBridge_none h)
  · exact does_bridgeRetrain hc (Device.bridgeRetrain_enough hw rfl h1 h2)
  · exact does_bridgeRetrain hc (Device.bridgeRetrain_down hw rfl hn hlo hhi)
  · exact does_bridgeRetrain hc (Device.bridgeRetrain_narrows hw rfl hn h rfl)
  · exact does_elasticLimit hc (Device.moduleDown_unused hw rfl hr)
  · exact does_elasticLimit hc (Device.moduleDown_fault hw rfl hr)
  · exact does_elasticLimit hc (Device.moduleDown_last hw rfl hr ht)
  · exact does_elasticLimit hc (Device.moduleDown_other hw rfl hr ht hp)
  · exact does_elasticLimit hc (Device.moduleDown_primary hw rfl hr ht hp rfl)
  · exact does_elasticLimit hc (Device.moduleDown_dead hw)
  · exact does_bridgeRetrain hc (Device.bridgeRetrain_dead hw)

end Sys2Proof.Machine
end

section
/-! SUPPORT. SEND and the combinations of the collective engines; with their statement. -/
namespace Sys2Proof.Machine

open Sys2Proof

section
variable {d : Device}

/-! ### SEND (R402) -/

section
variable {k : Nat} {ring : Packet → Device → Device}

/-- The cue at the head of a queue is the one that is due. -/
theorem Core.queue_of_headCue {c : Core} {u : Nat} {ops : List Nat} {q : QCue} (h : c.headCue u ops = some q) :
    ∃ r, c.queue u = q :: r := by
  unfold Core.headCue at h
  split at h
  next q' hq =>
    split at h
    · obtain ⟨r, hr⟩ := List.head?_eq_some_iff.1 hq
      exact ⟨r, Option.some.inj h ▸ hr⟩
    · exact absurd h nofun
  · exact absurd h nofun

/-- A change of the head of a queue is known by what it makes of the cue that stands there. -/
theorem Device.headMod_congr {u : Nat} {ops : List Nat} {q : QCue} (h : (d.core k).headCue u ops = some q) {f g : QCue → QCue}
    (hfg : f q = g q) : d.headMod k u f = d.headMod k u g := by
  obtain ⟨r, hr⟩ := Core.queue_of_headCue h
  simp only [Device.headMod, Device.modCore, hr, hfg]

/-- A SEND cue that has begun: the packets of its destination are to be sent. -/
def QCue.sending (q : QCue) : QCue :=
  { q with
    started := true
    work := some { fromPlace := .device, toPlace := .device, todo := sendPieces (opndOf (refAt q.refs 1)), held := [],
                   flight := 0, members := [] } }

theorem Device.sendStep_head {q : QCue} (hq : (d.core k).headCue 5 [2] = some q) {e : Device}
    (he : (if q.started then d else d.headMod k 5 QCue.sending) = e) :
    Device.sendStep ring k d =
      (Device.sendPump k q ring ((((e.core k).headWork 5).map (·.todo.length)).getD 0) e).dmaSettle k 5 := by
  have hbegin : (d.headMod k 5 fun x => { x with
      started := true
      work := some { fromPlace := .device, toPlace := .device, todo := sendPieces (opndOf (refAt q.refs 1)), held := [],
                     flight := 0, members := [] } }) = d.headMod k 5 QCue.sending := headMod_congr hq rfl
  subst he
  simp only [Device.sendStep, hq, hbegin]

theorem Device.sendStep_none (hq : (d.core k).headCue 5 [2] = none) : Device.sendStep ring k d = d := by
  simp only [Device.sendStep, hq]

end

/-! ### Combinations (R415 to R417) -/

section
variable {e : Nat} {c : CollJob}

theorem Device.combine_begins (hs : d.take.state ≠ 3) (hb : d.collBusy e = false) (hc : d.readyJob e = some c) :
    d.combine e = (d.setJobs e ((d.jobs e).map fun x => if x = c then { x with begun := true } else x)).combineJob e c := by
  have hn : ¬ (d.take.state = 3 ∨ d.collBusy e = true) := by simp [hs, hb]
  simp only [Device.combine, if_neg hn, hc]

/-- No combination begins with no job whole, in an abort, or while one is leaving. -/
theorem Device.combine_idle (h : d.readyJob e = none ∨ d.take.state = 3 ∨ d.collBusy e = true) : d.combine e = d := by
  have hnone : (if d.take.state = 3 ∨ d.collBusy e = true then none else d.readyJob e) = none := by
    split
    · rfl
    next hn => exact h.resolve_right hn
  simp only [Device.combine, hnone]

section
variable {r x : ReadRes} (hr : d.ringRead e c.job 0x140 = r)
  (hx : r.dev.ringRead e (c.job + 0x400) ((jobRec r.bytes).ranks * (jobRec r.bytes).len) = x)
include hr hx

theorem Device.combineJob_bad {a : Nat} {l : List Nat}
    (h : r.bad ++ (if (jobRec r.bytes).op = 3 then [] else x.bad) = a :: l) : d.combineJob e c = x.dev.consumeColl (e / 4) a := by
  subst hr hx
  simp only [Device.combineJob, h]

theorem Device.combineJob_leaves (h : r.bad ++ (if (jobRec r.bytes).op = 3 then [] else x.bad) = []) {o : Device × List Byte}
    (ho : x.dev.combined (jobRec r.bytes) ((List.range (jobRec r.bytes).ranks).map fun i =>
      sliceBytes x.bytes (i * (jobRec r.bytes).len) (jobRec r.bytes).len) = o) {ks : List Packet}
    (hk : ((jobRec r.bytes).outs.flatMap fun out => o.1.outPackets (jobRec r.bytes) c.stamp out o.2
      (if (jobRec r.bytes).op = 3 then x.bad.map fun a => (a - (c.job + 0x400)) / 16 else [])) = ks) :
    d.combineJob e c =
      (({ o.1 with fab := { o.1.fab with leaving := mset 0 o.1.fab.leaving e (ks.length + 1) } } : Device).sendOutput e ks).outputLeft e := by
  subst hr hx ho hk
  simp only [Device.combineJob, h]

end
end
end

section
variable {s : State} {e : Fin 8} (hc : s.dev.clocked = true)
include hc

theorem doesWhole_combine {t : Device} (ht : s.dev.fresh.combine e = t) : DoesWhole (.combine e) s t :=
  doesWhole_onClock hc (f := Device.combine e) rfl ht

/-- A whole step that changes nothing waits for nothing. -/
theorem does_combine_idle (h : s.dev.fresh.combine e = s.dev.fresh) : Does (.combine e) s s.dev.fresh :=
  (doesWhole_combine hc h).1 rfl

end

/-- Settles O36: each row by the branches of its meaning. -/
theorem sendAndCombineMoveTheirData : Obligations.SendAndCombineMoveTheirData := by
  unfold Obligations.SendAndCombineMoveTheirData
  refine ⟨fun s c ht => ⟨fun q hq => ?_, fun hq => ?_⟩,
    fun s e hc => ⟨fun c hs hb hj => ⟨fun a l h => ?_, fun h => ?_⟩, fun h => ?_⟩⟩
  · exact does_inTower ht rfl (Device.sendStep_head hq rfl)
  · exact does_inTower ht rfl (Device.sendStep_none hq)
  · exact doesWhole_combine hc ((Device.combine_begins hs hb hj).trans (Device.combineJob_bad rfl rfl h))
  · exact doesWhole_combine hc ((Device.combine_begins hs hb hj).trans (Device.combineJob_leaves rfl rfl h rfl rfl))
  · exact does_combine_idle hc (Device.combine_idle h)

end Sys2Proof.Machine
end

section
/-! SUPPORT. Packets of the fabric for the part and for others, their tags, and the flits of a port; with their statements. -/
namespace Sys2Proof.Machine

open Sys2Proof

section
variable {d : Device} {p : Nat} {k : Packet}

/-! ### Packets for the part (R403, R404, R405, R415) -/

/-- A packet of one of these kinds that is next in its buffer, on a port up for data, and for the part: by its address, or by broadcast
where that counts. -/
def Device.takesPacket (d : Device) (p : Nat) (k : Packet) (kinds : List Nat) (cast : Bool) : Bool :=
  d.dataPort p && kinds.contains k.kind.toNat && (if cast then d.isMine k else k.dest.toNat == d.fabAddr) && d.rxFirst p k

theorem contains_singleton (a b : Nat) : [b].contains a = (a == b) := by
  rw [List.contains_cons, List.contains_nil, Bool.or_false]

section
variable (h : d.takesPacket p k [1] true = true) {e : Device} (he : d.takeRx p k = e) {f : Device}
  (hf : (if k.dest.toNat = 0xFFFF then e.castOn p k else e) = f)
include h he hf

theorem Device.dataIn_taken : d.dataIn p k =
    if f.landable k = true then f.ringWrite (p / 8) (fabricClient p) (.payload (some p) k) k else (f.refuseAt (portLog p) k).ackTo k 1 := by
  subst he hf
  rw [Device.takesPacket, contains_singleton] at h
  exact if_pos h

theorem Device.dataIn_written (hl : f.landable k = true) :
    d.dataIn p k = f.ringWrite (p / 8) (fabricClient p) (.payload (some p) k) k := (dataIn_taken h he hf).trans (if_pos hl)

theorem Device.dataIn_refused (hl : f.landable k = false) : d.dataIn p k = (f.refuseAt (portLog p) k).ackTo k 1 :=
  (dataIn_taken h he hf).trans (if_neg (ne_true_of_eq_false hl))

end

theorem Device.dataIn_other (h : d.takesPacket p k [1] true = false) : d.dataIn p k = d := by
  rw [Device.takesPacket, contains_singleton] at h
  exact if_neg (ne_true_of_eq_false h)

theorem Device.collIn_taken (h : d.takesPacket p k [2] false = true) :
    d.collIn p k = (d.takeRx p k).collect { half := p / 8, client := fabricClient p, port := some p, log := portLog p } k := by
  rw [Device.takesPacket, contains_singleton] at h
  exact if_pos h

theorem Device.collIn_other (h : d.takesPacket p k [2] false = false) : d.collIn p k = d := by
  rw [Device.takesPacket, contains_singleton] at h
  exact if_neg (ne_true_of_eq_false h)

theorem Device.ackIn_taken (h : d.takesPacket p k [0x10] false = true) {e : Device}
    (he : ((d.takeRx p k).each (List.range (k.payload.length / 4)) fun i d => d.ackEntry p k.src.toNat (leAt k.payload (4 * i) 4)) = e) :
    d.ackIn p k = e.pumpRing e.fab.ring.length := by
  rw [Device.takesPacket, contains_singleton] at h
  subst he
  exact if_pos h

theorem Device.ackIn_other (h : d.takesPacket p k [0x10] false = false) : d.ackIn p k = d := by
  rw [Device.takesPacket, contains_singleton] at h
  exact if_neg (ne_true_of_eq_false h)

/-! ### Packets for other parts (R403, R406, R412, R413) -/

theorem Device.forward_cast (h : (k.kind.toNat == 1 && k.dest.toNat == 0xFFFF) = true) : d.forward p k = d.dataIn p k := if_pos h

section
variable (hc : (k.kind.toNat == 1 && k.dest.toNat == 0xFFFF) = false) {tagged : Bool}
  (ht : (k.kind.toNat == 1 || k.kind.toNat == 2) = tagged)
include hc ht

theorem Device.forward_other
    (h : (d.dataPort p && (tagged || k.kind.toNat == 0x10) && k.dest.toNat != d.fabAddr && d.rxFirst p k) = false) :
    d.forward p k = d := by
  subst ht
  exact (if_neg (ne_true_of_eq_false hc)).trans (if_neg (ne_true_of_eq_false h))

section
variable (h : (d.dataPort p && (tagged || k.kind.toNat == 0x10) && k.dest.toNat != d.fabAddr && d.rxFirst p k) = true) {e : Device}
  (he : ({ d.takeRx p k with fab := { (d.takeRx p k).fab with flight := (d.takeRx p k).fab.flight.erase (p, k) } } : Device) = e)
include h he

theorem Device.forward_taken : d.forward p k =
    if k.dest.toNat = 0xFFFF then e.castOn p k
    else if 16 ≤ k.hops.toNat then ((e.count (fabReg 0x60) 1).setBit (fabReg 0x20) 4).logPacket (portLog p) k 2
    else match d.forwardPort p k with
      | some q => e.txPacket q { k with hops := k.hops + 1 }
      | none => if tagged = true then (e.refused (portLog p) k).ackTo k 1 else e.refused (portLog p) k := by
  subst ht he
  exact (if_neg (ne_true_of_eq_false hc)).trans (if_pos h)

theorem Device.forward_everywhere (hd : k.dest.toNat = 0xFFFF) : d.forward p k = e.castOn p k :=
  (forward_taken hc ht h he).trans (if_pos hd)

section
variable (hd : k.dest.toNat ≠ 0xFFFF)
include hd

theorem Device.forward_tooFar (hh : 16 ≤ k.hops.toNat) :
    d.forward p k = ((e.count (fabReg 0x60) 1).setBit (fabReg 0x20) 4).logPacket (portLog p) k 2 :=
  (forward_taken hc ht h he).trans ((if_neg hd).trans (if_pos hh))

variable (hh : k.hops.toNat < 16)
include hh

theorem Device.forward_routed {q : Nat} (hr : d.forwardPort p k = some q) :
    d.forward p k = e.txPacket q { k with hops := k.hops + 1 } := by
  refine (forward_taken hc ht h he).trans ((if_neg hd).trans ((if_neg (Nat.not_le.2 hh)).trans ?_))
  rw [hr]

theorem Device.forward_noRoute (hr : d.forwardPort p k = none) :
    d.forward p k = if tagged = true then (e.refused (portLog p) k).ackTo k 1 else e.refused (portLog p) k := by
  refine (forward_taken hc ht h he).trans ((if_neg hd).trans ((if_neg (Nat.not_le.2 hh)).trans ?_))
  rw [hr]

end
end
end

/-! ### Packets that have aged (R406) -/

theorem Device.aged_own (h : k.src.toNat = d.fabAddr) : d.aged p k = d := if_pos h

section
variable (h : k.src.toNat ≠ d.fabAddr)
include h

theorem Device.aged_leaving (ht : (d.port p).tx.contains k = true) {e : Device}
    (he : (d.modPort p fun x => { x with tx := x.tx.erase k }) = e) :
    d.aged p k = ((e.count (fabReg 0x58) 1).setBit (fabReg 0x20) 3).logPacket (portLog p) k 1 := by
  subst he
  exact (if_neg h).trans (if_pos ht)

theorem Device.aged_arrived (ht : (d.port p).tx.contains k = false)
    (hr : (mget [] (d.port p).rx (pktBuf k)).contains k = true) {e : Device} (he : d.takeRx p k = e) :
    d.aged p k = ((e.count (fabReg 0x58) 1).setBit (fabReg 0x20) 3).logPacket (portLog p) k 1 := by
  subst he
  exact (if_neg h).trans ((if_neg (ne_true_of_eq_false ht)).trans (if_pos hr))

theorem Device.aged_gone (ht : (d.port p).tx.contains k = false)
    (hr : (mget [] (d.port p).rx (pktBuf k)).contains k = false) : d.aged p k = d :=
  (if_neg h).trans ((if_neg (ne_true_of_eq_false ht)).trans (if_neg (ne_true_of_eq_false hr)))

end

/-! ### Tags (R405) -/

section
variable {t : Nat} {x : FabTag} (hx : d.fabTag p t = x)
include hx

theorem Device.fabTimeout_requested (h : x.st = .requested) {e : Device}
    (he : (((d.setFabTag p t { x with st := .timedOut }).count (fabReg 0x48) 1).setBit (fabReg 0x20) 1).log (portLog p) 0x06 13
      (x.addr.toNat / 64 * 64) 0 (4096 * p + t + 2 ^ 16 + x.dest.toNat * 2 ^ 32) = e) :
    d.fabTimeout p t = e.fault 9 0 0 13 x.dest.toNat 0 := by
  subst hx he
  exact if_pos h

theorem Device.fabTimeout_other (h : x.st ≠ .requested) : d.fabTimeout p t = d := by
  subst hx
  exact if_neg h

theorem Device.fabRelease_timedOut (h : x.st = .timedOut) {e : Device}
    (he : d.setFabTag p t { FabTag.reset with gen := x.gen } = e) : d.fabRelease p t = e.pumpRing e.fab.ring.length := by
  subst hx he
  exact if_pos h

theorem Device.fabRelease_other (h : x.st ≠ .timedOut) : d.fabRelease p t = d := by
  subst hx
  exact if_neg h

end

/-! ### Flits of a port (R391 to R395) -/

/-- A NAK owed on a port. -/
def Device.oweFabNak (p : Nat) (d : Device) : Device := d.modPort p fun x => { x with link := { x.link with nak := true } }

/-- What a received flit of a port acknowledges and asks for. -/
def Device.fabAcked (d : Device) (p : Nat) (f : List Byte) : Device :=
  let a := d.modPort p fun x => { x with link := { x.link with
    kept := x.link.kept.filter fun q => decide (2048 ≤ (field (leAt f 0 12) 12 12 + 4096 - q.1) % 4096) } }
  if bit (leAt f 0 12) 24 then a.replayFab p else a

/-- The flit that is next in order taken with its credits, when number `want` is. -/
def Device.fabTaken (p : Nat) (f : List Byte) (want : Nat) (d : Device) : Device :=
  ((d.modPort p fun x => { x with link := { x.link with expect := (want + 1) % 4096, nak := false } }).fabTake p f).fabCredits p (leAt f 0 12)

/-- What waits at a port goes out, and an IDLE flit answers one that carried something where nothing else has: `n` is the number of the
port's next flit before it. -/
def Device.fabAnswered (p : Nat) (f : List Byte) (n : Nat) (d : Device) : Device :=
  let e := (d.pumpPort p (d.port p).tx.length).settlePort p
  if (e.port p).link.nextSeq = n ∧ field (leAt f 0 12) 25 2 ≠ 0 ∧ (e.port p).link.kept.length < 2048 then e.sendFlit p 0 31 [] none else e

section
variable {f : List Byte}

theorem Device.fabFlitIn_down (h : d.portUp p = false) : d.fabFlitIn p f = d := if_pos (by simp [h])

theorem Device.fabFlitIn_up (h : d.portUp p = true) {e : Device} (he : d.fabRecv p f = e) :
    d.fabFlitIn p f = e.fabAnswered p f (d.port p).link.nextSeq := by
  subst he
  exact if_neg (by simp [h])

theorem Device.fabRecv_damaged (hf : fabIntact f = false) : d.fabRecv p f = (d.count (fabReg 0x68) 1).oweFabNak p :=
  if_pos (by simp [hf])

theorem Device.fabRecv_intact (hf : fabIntact f = true) {b : Device} (hb : d.fabAcked p f = b) {want : Nat}
    (hw : (b.port p).link.expect = want) :
    d.fabRecv p f =
      if field (leAt f 0 12) 0 12 = want then b.fabTaken p f want
      else if (want + 4096 - field (leAt f 0 12) 0 12) % 4096 < 2048 then b
      else b.oweFabNak p := by
  subst hb hw
  exact if_neg (by simp [hf])

end

theorem Device.replayFab_kept (hk : (d.port p).link.kept ≠ []) (hu : d.portUp p = true) :
    d.replayFab p = (d.count (fabReg 0x70) 1).each (d.port p).link.kept fun f d => d.emit (.fabFlit p (d.resent p f.1 f.2)) :=
  if_neg (by simp [hk, hu])

theorem Device.replayFab_none (h : (d.port p).link.kept = [] ∨ d.portUp p = false) : d.replayFab p = d := if_pos (by simpa using h)

end

section
variable {s : State} {p : Fin 16} (hc : s.dev.clocked = true)
include hc

section
variable {k : Packet} (hk : k.wf = true) {e : Device}
include hk

/-- The meaning of a command that names a well-formed packet is that of the packet. -/
theorem does_onPacket {i : Instr} {f : Device → Device} (hx : exec i s = s.onClock (Device.onlyIf k.wf f)) (he : f s.dev = e) :
    Does i s e := does_onClock hc hx ((Device.onlyIf_ok f s.dev hk).trans he)

theorem does_data (he : s.dev.dataIn p k = e) : Does (.data p k) s e := does_onPacket hc hk rfl he

theorem does_ack (he : s.dev.ackIn p k = e) : Does (.ack p k) s e := does_onPacket hc hk rfl he

theorem does_packetForward (he : s.dev.forward p k = e) : Does (.packetForward p k) s e := does_onPacket hc hk rfl he

theorem does_packetAged (he : s.dev.aged p k = e) : Does (.packetAged p k) s e := does_onPacket hc hk rfl he

theorem doesWhole_coll (he : s.dev.fresh.collIn p k = e) : DoesWhole (.coll p k) s e := by
  refine doesWhole_onClock hc (f := Device.collIn p k) ?_ he
  have hx : exec (.coll p k) s = s.onClock (Device.onlyIf k.wf (Device.whole (Device.collIn p k))) := rfl
  rw [hx, hk]
  rfl

end

theorem does_fabFlit {f : List Byte} (hu : s.dev.portUp p = true) {e r : Device} (he : s.dev.fabRecv p f = e)
    (hr : e.fabAnswered p f (s.dev.port p).link.nextSeq = r) : Does (.fabFlit p f) s r :=
  does_onClock (f := Device.fabFlitIn p f) hc rfl ((Device.fabFlitIn_up hu he).trans hr)

end

/-- Settles O37: each row by the branches of its meaning. -/
theorem packetsForThePartAndTheirTags : Obligations.PacketsForThePartAndTheirTags := by
  unfold Obligations.PacketsForThePartAndTheirTags
  refine ⟨fun s p k hc hk => ⟨fun h => ⟨fun hl => ?_, fun hl => ?_⟩, fun h => ?_, fun h => ?_, fun h => ?_, fun h => ?_, fun h => ?_⟩,
    fun s p hc t => ⟨fun h => ?_, fun h => ?_, fun h => ?_, fun h => ?_⟩⟩
  · exact does_data hc hk (Device.dataIn_written h rfl rfl hl)
  · exact does_data hc hk (Device.dataIn_refused h rfl rfl hl)
  · exact does_data hc hk (Device.dataIn_other h)
  · exact doesWhole_coll hc hk (Device.collIn_taken h)
  · exact (doesWhole_coll hc hk (Device.collIn_other h)).1 rfl
  · exact does_ack hc hk (Device.ackIn_taken h rfl)
  · exact does_ack hc hk (Device.ackIn_other h)
  · exact does_onClock (f := Device.fabTimeout p t.toNat) hc rfl (Device.fabTimeout_requested rfl h rfl)
  · exact does_onClock (f := Device.fabTimeout p t.toNat) hc rfl (Device.fabTimeout_other rfl h)
  · exact does_onClock (f := Device.fabRelease p t.toNat) hc rfl (Device.fabRelease_timedOut rfl h rfl)
  · exact does_onClock (f := Device.fabRelease p t.toNat) hc rfl (Device.fabRelease_other rfl h)

/-- Settles O38: each row by the branches of its meaning. -/
theorem fabricFlitsAndPacketsForOthers : Obligations.FabricFlitsAndPacketsForOthers := by
  unfold Obligations.FabricFlitsAndPacketsForOthers
  refine ⟨fun s p k hc hk => ⟨fun h => ?_, fun hcast h => ⟨fun hd => ?_, fun hd hh => ?_, fun hd hh => ⟨fun q hr => ?_, fun hr ht => ?_, fun hr ht => ?_⟩⟩,
      fun hcast h => ?_, fun hs ht => ?_, fun hs ht => ⟨fun hr => ?_, fun hr => ?_⟩, fun hs => ?_⟩,
    fun s p hc => ?_⟩
  · exact (does_packetForward hc hk (Device.forward_cast h)).trans (does_data hc hk rfl).symm
  · exact does_packetForward hc hk (Device.forward_everywhere hcast rfl h rfl hd)
  · exact does_packetForward hc hk (Device.forward_tooFar hcast rfl h rfl hd hh)
  · exact does_packetForward hc hk (Device.forward_routed hcast rfl h rfl hd hh hr)
  · exact does_packetForward hc hk ((Device.forward_noRoute hcast rfl h rfl hd hh hr).trans (if_pos ht))
  · exact does_packetForward hc hk ((Device.forward_noRoute hcast rfl h rfl hd hh hr).trans (if_neg (ne_true_of_eq_false ht)))
  · exact does_packetForward hc hk (Device.forward_other hcast rfl h)
  · exact does_packetAged hc hk (Device.aged_leaving hs ht rfl)
  · exact does_packetAged hc hk (Device.aged_arrived hs ht hr rfl)
  · exact does_packetAged hc hk (Device.aged_gone hs ht hr)
  · exact does_packetAged hc hk (Device.aged_own hs)
  intro d owe
  have howe : ∀ e, Device.oweFabNak p e = owe e := fun _ => rfl
  refine ⟨fun f hu => ?_, fun f hu => ?_, fun hk hu => ?_, fun h => ?_⟩
  · intro hd a b want t sent
    have hsent : ∀ e, Device.fabAnswered p f (s.dev.port p).link.nextSeq e = sent e := fun _ => rfl
    have hrecv : fabIntact f = true → _ := fun hf => Device.fabRecv_intact (b := b) (want := want) hf rfl rfl
    have htaken : b.fabTaken p f want = t := rfl
    refine ⟨fun hf => ?_, fun hf hw => ?_, fun hf hw => ⟨fun hn => ?_, fun hn => ?_⟩⟩
    · exact does_fabFlit hc hu ((Device.fabRecv_damaged hf).trans (howe _)) (hsent _)
    · exact does_fabFlit hc hu ((hrecv hf).trans ((if_pos hw).trans htaken)) (hsent t)
    · exact does_fabFlit hc hu ((hrecv hf).trans ((if_neg hw).trans (if_pos hn))) (hsent b)
    · exact does_fabFlit hc hu ((hrecv hf).trans ((if_neg hw).trans ((if_neg (Nat.not_lt.2 hn)).trans (howe b)))) (hsent _)
  · exact does_onClock (f := Device.fabFlitIn p f) hc rfl (Device.fabFlitIn_down hu)
  · exact does_onClock (f := fun d => d.replayFab p) hc rfl (Device.replayFab_kept hk hu)
  · exact does_onClock (f := fun d => d.replayFab p) hc rfl (Device.replayFab_none h)

end Sys2Proof.Machine
end

section
/-! SUPPORT. Beacons, the election, topology and routes, and what becomes of a port of the fabric; with their statement. -/
namespace Sys2Proof.Machine

open Sys2Proof

section
variable {d : Device} {p : Nat}

/-! ### Beacons (R397, R408) -/

/-- A beacon that is next in the control buffer of a port that is up. -/
def Device.beaconNext (d : Device) (p : Nat) (b : List Byte) : Bool :=
  d.portUp p && d.rxNext p 4 fun k => k.kind.toNat == 0x11 && k.payload == b

section
variable {b : List Byte}

theorem Device.beaconIn_other (h : d.beaconNext p b = false) : d.beaconIn p b = d := if_neg (ne_true_of_eq_false h)

section
variable (h : d.beaconNext p b = true) {a : Device}
  (ha : (d.takeHead p 4).setReg (fabReg (0x108 + 16 * p)) (BitVec.ofNat 64 (leAt b 0 8)) = a)
include h ha

theorem Device.beaconIn_own (hi : leAt b 0 8 = a.fab.identity.toNat) :
    d.beaconIn p b = (a.setField (portReg p) 0 3 6).modPort p fun x => { x with beacon := none } := by
  subst ha
  exact (if_pos h).trans (if_pos hi)

theorem Device.beaconIn_partner (hi : leAt b 0 8 ≠ a.fab.identity.toNat) {e : Device}
    (he : (a.modPort p fun x => { x with beacon := some b }) = e) :
    d.beaconIn p b = if (e.isFrozen || e.portRole p == 3) = true then e else e.findCandidate := by
  subst ha he
  exact (if_pos h).trans (if_neg hi)

end
end

theorem Device.beaconOut_up (h : d.portUp p = true) : d.beaconOut p = d.txPacket p (d.ctrlPacket 0x11 0xFFFF (d.beaconBytes p)) :=
  if_pos h

theorem Device.beaconOut_down (h : d.portUp p = false) : d.beaconOut p = d := if_neg (ne_true_of_eq_false h)

/-! ### Packets of discovery (R407, R409) -/

section
variable {kind : Nat} {k : Packet} {ok : Bool} {f : Device → Device}

/-- A packet of a kind that is next in its buffer on a port that is up. -/
def Device.ctrlNext (d : Device) (p kind : Nat) (k : Packet) : Bool := d.portUp p && k.kind.toNat == kind && d.rxFirst p k

theorem Device.ctrlIn_other (h : d.ctrlNext p kind k = false) : d.ctrlIn p kind k ok f = d := if_neg (ne_true_of_eq_false h)

theorem Device.ctrlIn_unused (h : d.ctrlNext p kind k = true) (ho : ok = false) : d.ctrlIn p kind k ok f = d.takeRx p k := by
  subst ho
  exact if_pos h

theorem Device.ctrlIn_used (h : d.ctrlNext p kind k = true) (ho : ok = true) : d.ctrlIn p kind k ok f = f (d.takeRx p k) := by
  subst ho
  exact if_pos h

end

section
variable {k : Packet}

/-- The use of a TOPO packet taken from its buffer (R409, step 3). -/
def Device.useTopo (p : Nat) (k : Packet) (e : Device) : Device :=
  if k.dest.toNat = 0xFFFE then
    if e.bitOf (fabReg 0) 1 then
      { e with fab := { e.fab with topo := (e.fab.topo.filter fun t => leAt t 0 8 != leAt k.payload 0 8) ++ [k.payload] } }
    else
      match e.fab.parent with
      | some q => if 16 ≤ k.hops.toNat then e else e.txPacket q { k with hops := k.hops + 1 }
      | none => e
  else if e.fab.parent = some p ∧ e.bitOf (fabReg 0) 1 = false then
    let a := e.txPacket p (e.ctrlPacket 0x13 0xFFFE e.topoAnswer)
    if 16 ≤ k.hops.toNat then a else a.flood (some p) { k with hops := k.hops + 1 }
  else e

theorem Device.topoIn_eq : d.topoIn p k = d.ctrlIn p 0x13 k (d.joins p && !d.isFrozen) (Device.useTopo p k) := rfl

theorem Device.topoIn_used (h : (d.ctrlNext p 0x13 k && d.joins p && !d.isFrozen) = true) {e : Device} (he : d.takeRx p k = e) :
    d.topoIn p k = e.useTopo p k := by
  simp only [Bool.and_eq_true] at h
  obtain ⟨⟨hnext, hj⟩, hf⟩ := h
  subst he
  exact topoIn_eq.trans (ctrlIn_used hnext (Bool.and_eq_true_iff.2 ⟨hj, hf⟩))

theorem Device.topoIn_unused (hg : d.ctrlNext p 0x13 k = true) (h : (d.ctrlNext p 0x13 k && d.joins p && !d.isFrozen) = false) :
    d.topoIn p k = d.takeRx p k :=
  topoIn_eq.trans (ctrlIn_unused hg (by simpa [hg] using h))

section
variable {e : Device}

section
variable (hd : k.dest.toNat = 0xFFFE)
include hd

theorem Device.useTopo_kept (hc : e.bitOf (fabReg 0) 1 = true) : e.useTopo p k =
    { e with fab := { e.fab with topo := (e.fab.topo.filter fun t => leAt t 0 8 != leAt k.payload 0 8) ++ [k.payload] } } :=
  (if_pos hd).trans (if_pos hc)

variable (hc : e.bitOf (fabReg 0) 1 = false)
include hc

theorem Device.useTopo_toParent {q : Nat} (hq : e.fab.parent = some q) :
    e.useTopo p k = if 16 ≤ k.hops.toNat then e else e.txPacket q { k with hops := k.hops + 1 } := by
  refine (if_pos hd).trans ((if_neg (ne_true_of_eq_false hc)).trans ?_)
  rw [hq]

theorem Device.useTopo_noParent (hq : e.fab.parent = none) : e.useTopo p k = e := by
  refine (if_pos hd).trans ((if_neg (ne_true_of_eq_false hc)).trans ?_)
  rw [hq]

end

section
variable (hd : k.dest.toNat ≠ 0xFFFE)
include hd

theorem Device.useTopo_answered (hp : e.fab.parent = some p) (hc : e.bitOf (fabReg 0) 1 = false) {a : Device}
    (ha : e.txPacket p (e.ctrlPacket 0x13 0xFFFE e.topoAnswer) = a) :
    e.useTopo p k = if 16 ≤ k.hops.toNat then a else a.flood (some p) { k with hops := k.hops + 1 } := by
  subst ha
  exact (if_neg hd).trans (if_pos ⟨hp, hc⟩)

theorem Device.useTopo_ignored (h : e.fab.parent ≠ some p ∨ e.bitOf (fabReg 0) 1 = true) : e.useTopo p k = e :=
  (if_neg hd).trans (if_neg (by rintro ⟨hp, hc⟩; exact h.elim (· hp) (absurd · (ne_true_of_eq_false hc))))

end
end

section
variable {e : Device} (he : (d.takeRx p k).passOn p k = e)
include he

theorem Device.assignIn_used (hg : d.ctrlNext p 0x14 k = true) (hu : d.fromParent p = true) :
    d.assignIn p k = if leAt k.payload 0 8 = e.fab.identity.toNat then { e with fab := { e.fab with
      stagedAddr := some (BitVec.ofNat 16 (leAt k.payload 8 2)), staged := [], stagedEpoch := leAt k.payload 12 4 } } else e := by
  subst he
  exact ctrlIn_used hg hu

theorem Device.routeIn_used (hg : d.ctrlNext p 0x15 k = true) (hu : d.fromParent p = true) :
    d.routeIn p k = if leAt k.payload 0 8 = e.fab.identity.toNat then { e with fab := { e.fab with
      staged := (List.range (min 52 (leAt k.payload 10 2))).foldl (fun m i =>
        if leAt k.payload 8 2 + i ≤ 0xFFFF then mset 0 m (leAt k.payload 8 2 + i) (BitVec.ofNat 32 (leAt k.payload (16 + 4 * i) 4))
        else m) e.fab.staged } } else e := by
  subst he
  exact ctrlIn_used hg hu

theorem Device.commitIn_used (hg : d.ctrlNext p 0x16 k = true) (hu : d.fromParent p = true) {c : Device}
    (hc : ({ e with fab := { e.fab with electing := false } } : Device) = c) :
    d.commitIn p k = if e.fab.stagedEpoch = leAt k.payload 0 4 ∧ e.fab.stagedAddr.isSome = true then
      (if c.bitOf (gafReg 0x18) 1 then c.setField (gafReg 0x18) 1 2 0 else c).takeUp (leAt k.payload 0 4) (leAt k.payload 4 2)
    else e := by
  subst he hc
  exact ctrlIn_used hg hu

end
end

/-! ### Ports (R396 to R399) -/

section
variable (h : d.portUp p = false)
include h

theorem Device.portDown_down : d.portDown p = d := if_neg (ne_true_of_eq_false h)

theorem Device.delayEcho_down {x : Nat} : d.delayEcho p x = d := if_neg (ne_true_of_eq_false h)

theorem Device.laneFailure_down {l : Nat} : d.laneFailure p l = d := if_pos (by simp [h])

end

theorem Device.portDown_up (h : d.portUp p = true) {e : Device}
    (he : (((d.setField (portReg p) 0 3 5).setBit (fabReg 0x20) 6).modPort p fun x => { x with beacon := none }) = e) :
    d.portDown p = if e.isFrozen = true then (if e.fab.frozen.contains p = true then e.fault 9 0 0 13 (d.portAddr p) 0 else e)
      else e.rediscover := by
  subst he
  exact if_pos h

theorem Device.partnerAppear_trains {bad : List Nat} {delay : Nat}
    (h : (d.portState p = 1 ∨ d.portState p = 2) ∧ d.portRole p ≠ 0 ∧ d.survival = false) {e : Device}
    (he : (((d.trainPort 2 p bad delay).modPort p fun x =>
      { x with link := Link.reset, spent := [], held := [], owed := [], part := [], rx := [] }).rediscover.beaconOut p) = e) :
    d.partnerAppear p bad delay = e.pumpPort p (e.port p).tx.length := by
  subst he
  exact if_pos h

section
variable {l : Nat}

theorem Device.laneFailure_known (h : (d.port p).badLanes.contains l = true) : d.laneFailure p l = d :=
  if_pos (by rw [h, Bool.or_true])

section
variable (hu : d.portUp p = true) (hb : (d.port p).badLanes.contains l = false) {e : Device}
  (he : (d.modPort p fun x => { x with badLanes := insertAsc l x.badLanes }) = e)
include hu hb he

theorem Device.laneFailure_counted : d.laneFailure p l =
    if l ≠ 8 ∧ ¬ (e.lanesInUse p).contains l = true then e
    else if l = 8 ∧ ¬ d.bitOf (portReg p) 5 = true then e
    else if l ≠ 8 ∧ ¬ d.bitOf (portReg p) 5 = true ∧ ¬ (e.port p).badLanes.contains 8 = true then
      ((e.setField (portReg p) 5 1 1).setField (portReg p) 6 3 l).foundRepair 2 (portLog p) 13 7 (p + l * 2 ^ 4)
    else if e.portState p = 3 then
      if e.cleanLanes p [0, 1, 2, 3] = true then e.narrow p 0
      else if e.cleanLanes p [4, 5, 6, 7] = true then e.narrow p 1
      else e.portDown p
    else if e.cleanLanes p (e.lanesInUse p) = true then e
    else e.portDown p := by
  subst he
  exact if_neg (by rw [hu, hb]; nofun)

theorem Device.laneFailure_idle
    (h : ((l != 8 && !(e.lanesInUse p).contains l) || (l == 8 && !d.bitOf (portReg p) 5)) = true) : d.laneFailure p l = e := by
  refine (laneFailure_counted hu hb he).trans ?_
  simp only [Bool.or_eq_true, Bool.and_eq_true, bne_iff_ne, beq_iff_eq, Bool.not_eq_true'] at h
  rcases h with ⟨hl, hn⟩ | ⟨hl, hn⟩
  · exact if_pos ⟨hl, ne_true_of_eq_false hn⟩
  · exact (if_neg fun h => h.1 hl).trans (if_pos ⟨hl, ne_true_of_eq_false hn⟩)

section
variable (h : ((l != 8 && !(e.lanesInUse p).contains l) || (l == 8 && !d.bitOf (portReg p) 5)) = false)
include h

theorem Device.laneFailure_inUse : d.laneFailure p l =
    if (l != 8 && !d.bitOf (portReg p) 5 && !(e.port p).badLanes.contains 8) = true then
      ((e.setField (portReg p) 5 1 1).setField (portReg p) 6 3 l).foundRepair 2 (portLog p) 13 7 (p + l * 2 ^ 4)
    else if e.portState p = 3 then
      if e.cleanLanes p [0, 1, 2, 3] = true then e.narrow p 0
      else if e.cleanLanes p [4, 5, 6, 7] = true then e.narrow p 1
      else e.portDown p
    else if e.cleanLanes p (e.lanesInUse p) = true then e
    else e.portDown p := by
  obtain ⟨hlane, hls⟩ := Bool.or_eq_false_iff.1 h
  have hlane : ¬ (l ≠ 8 ∧ ¬ (e.lanesInUse p).contains l = true) := by simpa using hlane
  have hls : ¬ (l = 8 ∧ ¬ d.bitOf (portReg p) 5 = true) := by simpa using hls
  refine (laneFailure_counted hu hb he).trans ((if_neg hlane).trans ((if_neg hls).trans (if_congr ?_ rfl rfl)))
  simp only [Bool.and_eq_true, bne_iff_ne, Bool.not_eq_true', Bool.not_eq_true, and_assoc]

theorem Device.laneFailure_spliced (hf : (l != 8 && !d.bitOf (portReg p) 5 && !(e.port p).badLanes.contains 8) = true) :
    d.laneFailure p l = ((e.setField (portReg p) 5 1 1).setField (portReg p) 6 3 l).foundRepair 2 (portLog p) 13 7 (p + l * 2 ^ 4) :=
  (laneFailure_inUse hu hb he h).trans (if_pos hf)

theorem Device.laneFailure_noSplice (hf : (l != 8 && !d.bitOf (portReg p) 5 && !(e.port p).badLanes.contains 8) = false) :
    d.laneFailure p l = if e.portState p = 3 then
      if e.cleanLanes p [0, 1, 2, 3] = true then e.narrow p 0
      else if e.cleanLanes p [4, 5, 6, 7] = true then e.narrow p 1
      else e.portDown p
    else if e.cleanLanes p (e.lanesInUse p) = true then e
    else e.portDown p :=
  (laneFailure_inUse hu hb he h).trans (if_neg (ne_true_of_eq_false hf))

end
end
end
end

section
variable {s : State} {p : Fin 16} (hc : s.dev.clocked = true) {e : Device}
include hc

theorem does_beacon {b : List Byte} (he : s.dev.beaconIn p b = e) : Does (.beacon p b) s e :=
  does_onClock (f := Device.beaconIn p b) hc rfl he

theorem does_laneFailure {l : Sys2Proof.Lane} (he : s.dev.laneFailure p l.val = e) : Does (.laneFailure p l) s e :=
  does_onClock (f := Device.laneFailure p l.val) hc rfl he

theorem does_partnerAppear {bad : List Sys2Proof.Lane} {delay : BitVec 16}
    (he : s.dev.partnerAppear p (bad.map (·.val)) delay.toNat = e) : Does (.partnerAppear p bad delay) s e := by
  have hx : exec (.partnerAppear p bad delay) s = execPartnerAppear p bad delay s := rfl
  exact does_onClock hc (hx.trans (by unfold execPartnerAppear; rfl)) he

section
variable {k : Packet} (hk : k.wf = true)
include hk

theorem does_topo (he : s.dev.topoIn p k = e) : Does (.topo p k) s e :=
  does_onClock (f := Device.onlyIf k.wf (Device.topoIn p k)) hc rfl ((Device.onlyIf_ok _ s.dev hk).trans he)

theorem does_assign (he : s.dev.assignIn p k = e) : Does (.assign p k) s e :=
  does_onClock (f := Device.onlyIf k.wf (Device.assignIn p k)) hc rfl ((Device.onlyIf_ok _ s.dev hk).trans he)

theorem does_route (he : s.dev.routeIn p k = e) : Does (.route p k) s e :=
  does_onClock (f := Device.onlyIf k.wf (Device.routeIn p k)) hc rfl ((Device.onlyIf_ok _ s.dev hk).trans he)

theorem does_commit (he : s.dev.commitIn p k = e) : Does (.commit p k) s e :=
  does_onClock (f := Device.onlyIf k.wf (Device.commitIn p k)) hc rfl ((Device.onlyIf_ok _ s.dev hk).trans he)

end
end

/-- Settles O40: each row by the branches of its meaning. -/
theorem discoveryAndPorts : Obligations.DiscoveryAndPorts := by
  unfold Obligations.DiscoveryAndPorts
  refine ⟨fun s p hc => ⟨fun b => ⟨fun h hi => ?_, fun h hi => ⟨fun hf => ?_, fun hf => ?_⟩, fun h => ?_⟩, fun hu => ?_, fun hu => ?_,
      ⟨fun hw => ?_, fun hw => ?_⟩,
      fun k hk => ⟨fun hg hu => ?_, fun hg hu => ?_, fun hg hu => ?_, fun hg => ?_, fun hg hu => ?_, fun hg => ?_, fun hg hu => ?_,
        fun hg => ?_, fun hg hu => ?_⟩,
      fun k hk => ⟨fun hg => ?_, fun hg hdue => ?_, fun hdue hd hb => ?_, fun hdue hd hb => ⟨fun q hq => ?_, fun hq => ?_⟩,
        fun hdue hd => ⟨fun hp hb => ?_, fun h => ?_⟩⟩,
      ⟨fun h => ?_, fun h => ?_⟩⟩,
    fun s p hc => ⟨fun h => ?_, fun h => ?_, fun bad delay => ?_, fun hu => ?_, fun hu => ⟨?_, fun x => ?_, fun l => ?_⟩,
      fun x hu => ?_, fun l hu hb => ?_, fun l hu hb => ⟨fun h => ?_, fun h hf => ?_, fun h hf => ?_⟩⟩⟩
  · exact does_beacon hc (Device.beaconIn_own h rfl hi)
  · exact does_beacon hc ((Device.beaconIn_partner h rfl hi rfl).trans (if_pos hf))
  · exact does_beacon hc ((Device.beaconIn_partner h rfl hi rfl).trans (if_neg (ne_true_of_eq_false hf)))
  · exact does_beacon hc (Device.beaconIn_other h)
  · exact does_onClock (f := Device.beaconOut p) hc rfl (Device.beaconOut_up hu)
  · exact does_onClock (f := Device.beaconOut p) hc rfl (Device.beaconOut_down hu)
  · exact does_onClock (f := Device.election) hc rfl (if_pos hw)
  · exact does_onClock (f := Device.election) hc rfl (if_neg (ne_true_of_eq_false hw))
  · exact does_assign hc hk (Device.assignIn_used rfl hg hu)
  · exact does_route hc hk (Device.routeIn_used rfl hg hu)
  · exact does_commit hc hk (Device.commitIn_used rfl hg hu rfl)
  · exact does_assign hc hk (Device.ctrlIn_other hg)
  · exact does_assign hc hk (Device.ctrlIn_unused hg hu)
  · exact does_route hc hk (Device.ctrlIn_other hg)
  · exact does_route hc hk (Device.ctrlIn_unused hg hu)
  · exact does_commit hc hk (Device.ctrlIn_other hg)
  · exact does_commit hc hk (Device.ctrlIn_unused hg hu)
  · exact does_topo hc hk (Device.ctrlIn_other hg)
  · exact does_topo hc hk (Device.topoIn_unused hg hdue)
  · exact does_topo hc hk ((Device.topoIn_used hdue rfl).trans (Device.useTopo_kept hd hb))
  · exact does_topo hc hk ((Device.topoIn_used hdue rfl).trans (Device.useTopo_toParent hd hb hq))
  · exact does_topo hc hk ((Device.topoIn_used hdue rfl).trans (Device.useTopo_noParent hd hb hq))
  · exact does_topo hc hk ((Device.topoIn_used hdue rfl).trans (Device.useTopo_answered hd hp hb rfl))
  · exact does_topo hc hk ((Device.topoIn_used hdue rfl).trans (Device.useTopo_ignored hd h))
  · exact does_onClock (f := Device.routeDelivery) hc rfl (if_pos h)
  · exact does_onClock (f := Device.routeDelivery) hc rfl (if_neg (ne_true_of_eq_false h))
  · exact does_onClock (f := Device.partnerAbsent p) hc rfl (if_pos h)
  · exact does_onClock (f := Device.partnerAbsent p) hc rfl (if_neg h)
  · intro due t e
    exact ⟨fun h => does_partnerAppear hc (Device.partnerAppear_trains (e := e) h rfl), fun h => does_partnerAppear hc (if_neg h)⟩
  · exact does_onClock (f := Device.portDown p) hc rfl (Device.portDown_up hu rfl)
  · exact does_onClock (f := Device.portDown p) hc rfl (Device.portDown_down hu)
  · exact does_onClock (f := Device.delayEcho p x.toNat) hc rfl (Device.delayEcho_down hu)
  · exact does_laneFailure hc (Device.laneFailure_down hu)
  · exact does_onClock (f := Device.delayEcho p x.toNat) hc rfl (if_pos hu)
  · exact does_laneFailure hc (Device.laneFailure_known hb)
  · exact does_laneFailure hc (Device.laneFailure_idle hu hb rfl h)
  · exact does_laneFailure hc (Device.laneFailure_spliced hu hb rfl h hf)
  · exact does_laneFailure hc (Device.laneFailure_noSplice hu hb rfl h hf)

end Sys2Proof.Machine
end
